-- ==== Sys2Proof/Word.lean ====
section
/-! DEFINITION. Word.lean: the plain word types of the block (R9 to R12). -/

namespace Sys2Proof

/-- One byte (R12: multi-byte values are little-endian). -/
abbrev Byte := BitVec 8
/-- A 16-bit word. -/
abbrev W16 := BitVec 16
/-- A control-space register and a local-store word (R230, R509). -/
abbrev W32 := BitVec 32
/-- An OS40 pattern (R62). -/
abbrev W40 := BitVec 40
/-- A scalar register (Table 3 of Instruction reference). -/
abbrev W64 := BitVec 64
/-- The 256 data bits of a granule (R9). -/
abbrev Granule := BitVec 256

/-- A physical core: slab x 32 + core (R15, R24). -/
abbrev CoreNo := Fin 2176
/-- A physical slab S00 to S67 (R15). -/
abbrev SlabNo := Fin 68
/-- A slab (0 to 67) or a hub (68 to 71): the units of PWR_TMPCMD (Table 9 of Ageing and hard limits). -/
abbrev UnitNo := Fin 72
/-- A chip link L0 to L11 (R15). -/
abbrev LinkNo := Fin 12

end Sys2Proof
end

