-- ==== Sys2Proof/Machine/Sp.lean ====
section
/-! DEFINITION. Machine/Sp.lean: sparse stores in one canonical form (addresses strictly rising, no entry equal to what an
unlisted address reads as), the form of every memory and register array of State. -/

namespace Sys2Proof.Machine

/-- A sparse store: key and value pairs. -/
abbrev Sp (α : Type) := List (Nat × α)

/-- What key `k` holds: the listed value, else the default `d`. -/
def Sp.get {α : Type} (d : α) : Sp α → Nat → α
  | [], _ => d
  | (a, v) :: m, k => if a = k then v else Sp.get d m k

/-- Write `v` at `k`, listed whatever it is, keeping the keys rising. -/
def Sp.put {α : Type} : Sp α → Nat → α → Sp α
  | [], k, v => [(k, v)]
  | (a, w) :: m, k, v =>
    if k < a then (k, v) :: (a, w) :: m
    else if k = a then (a, v) :: m
    else (a, w) :: Sp.put m k v

/-- Write `v` at `k`, keeping the canonical form: the default is never listed. -/
def Sp.set {α : Type} [DecidableEq α] (d : α) (m : Sp α) (k : Nat) (v : α) : Sp α :=
  if v = d then m.filter (fun c => c.1 != k) else Sp.put m k v

/-- Every key of the store is above `b`, rising, and no value is the default. -/
def Sp.wfAbove {α : Type} [DecidableEq α] (d : α) : Option Nat → Sp α → Bool
  | _, [] => true
  | b, (a, v) :: m =>
    (match b with | none => true | some x => decide (x < a)) && decide (v ≠ d) && Sp.wfAbove d (some a) m

/-- The canonical form. -/
def Sp.wf {α : Type} [DecidableEq α] (d : α) (m : Sp α) : Bool := Sp.wfAbove d none m

/-- Write consecutive values from key `k` upward. -/
def Sp.setMany {α : Type} [DecidableEq α] (d : α) (m : Sp α) (k : Nat) : List α → Sp α
  | [] => m
  | v :: vs => Sp.setMany d (Sp.set d m k v) (k + 1) vs

/-- Read `n` consecutive values from key `k` upward. -/
def Sp.getMany {α : Type} (d : α) (m : Sp α) (k n : Nat) : List α :=
  (List.range n).map (fun i => Sp.get d m (k + i))

/-- The cells with keys in `[lo, lo + n)` set to the default. -/
def Sp.clear {α : Type} (m : Sp α) (lo n : Nat) : Sp α :=
  m.filter (fun c => c.1 < lo || lo + n ≤ c.1)

/-- The keys below `n` whose value is not the default, rising. -/
def Sp.keys {α : Type} (m : Sp α) : List Nat := m.map (·.1)

/-- A byte memory in which an unlisted address reads 0x00: local stores after R480 (R240), and the tiers and the SRAM by the
log's choice. The package's cells (address, byte). -/
abbrev Memory := List Host.Cell

/-- The byte at `a`. -/
def Memory.byte (m : Memory) (a : Nat) : Byte := Sp.get 0#8 m a

/-- Write one byte. -/
def Memory.setByte (m : Memory) (a : Nat) (b : Byte) : Memory := Sp.set 0#8 m a b

/-- The canonical form of a memory. -/
def Memory.wf (m : Memory) : Bool := Sp.wf 0#8 m

/-- `n` bytes from `a`, little-endian, as a number (R12). -/
def Memory.nat (m : Memory) (a : Nat) : Nat → Nat
  | 0 => 0
  | n + 1 => (Memory.byte m a).toNat + 256 * Memory.nat m (a + 1) n

/-- Write the `n` low bytes of `v` at `a`, little-endian (R12). -/
def Memory.setNat (m : Memory) (a : Nat) : Nat → Nat → Memory
  | 0, _ => m
  | n + 1, v => Memory.setNat (Memory.setByte m a (BitVec.ofNat 8 v)) (a + 1) n (v / 256)

/-- The 32-bit word at byte address `a`. -/
def Memory.w32 (m : Memory) (a : Nat) : W32 := BitVec.ofNat 32 (Memory.nat m a 4)

/-- Write a 32-bit word at byte address `a`. -/
def Memory.setW32 (m : Memory) (a : Nat) (v : W32) : Memory := Memory.setNat m a 4 v.toNat

/-- The granule whose first byte is `a`. -/
def Memory.granule (m : Memory) (a : Nat) : Granule := BitVec.ofNat 256 (Memory.nat m a 32)

/-- Write a granule at byte address `a`. -/
def Memory.setGranule (m : Memory) (a : Nat) (v : Granule) : Memory := Memory.setNat m a 32 v.toNat

/-- The bytes of a list, little-endian, as a number. -/
def bytesNat : List Byte → Nat
  | [] => 0
  | b :: bs => b.toNat + 256 * bytesNat bs

/-- The `n` low bytes of a number, little-endian. -/
def natBytes : Nat → Nat → List Byte
  | 0, _ => []
  | n + 1, v => BitVec.ofNat 8 v :: natBytes n (v / 256)

/-- Field [hi:lo] of a number (R11). -/
def fld (v hi lo : Nat) : Nat := (v >>> lo) % 2 ^ (hi + 1 - lo)

/-- Bit `i` of a number. -/
def bitOf (v i : Nat) : Bool := v.testBit i

/-- 1 for true, 0 for false. -/
def b2n (b : Bool) : Nat := if b then 1 else 0

/-- A signed reading of the low `w` bits. -/
def sext (w v : Nat) : Int :=
  let x := v % 2 ^ w
  if x < 2 ^ (w - 1) then (x : Int) else (x : Int) - (2 ^ w : Nat)

/-- The low `w` bits of an integer in two's complement. -/
def wrap (w : Nat) (i : Int) : Nat := (i % ((2 ^ w : Nat) : Int)).toNat

/-- ⌈a / b⌉. -/
def cdiv (a b : Nat) : Nat := (a + b - 1) / b

/-- Replace element `i` of a list by `f` of it. -/
def updAt {α : Type} (l : List α) (i : Nat) (f : α → α) : List α := l.modify i f

/-- Element `i`, or the default `d`. -/
def nthD {α : Type} (l : List α) (i : Nat) (d : α) : α := (l[i]?).getD d

/-- Remove element `i`. -/
def dropAt {α : Type} (l : List α) (i : Nat) : List α := l.eraseIdx i

end Sys2Proof.Machine
end

