-- ==== Sys2Proof/Syntax.lean ====
section
/-! DEFINITION. Syntax.lean: the commands of the block, one constructor per row of spec/opcode_table.json, with the fields
their encodings and register layouts name. Core commands name the physical core first. -/

namespace Sys2Proof

/-- Who makes a register access (R512): the host or driver, or firmware on the management core. -/
inductive Requester where
  | host | mgmt
  deriving DecidableEq, Repr

/-- VLD and VST fields (Table 8 of Instruction reference): `w1` is word 1. -/
structure VMem where
  v : BitVec 5
  mode : BitVec 2
  fmt : BitVec 3
  d : Bool
  ra : BitVec 5
  modx : BitVec 8
  w1 : W32
  deriving DecidableEq, Repr

/-- MMUL fields (Table 9); `m1` is M - 1. -/
structure MMul where
  fmt : BitVec 2
  ori : Bool
  add : Bool
  slide : Bool
  batch : Bool
  qe : Bool
  kr : BitVec 5
  base : BitVec 6
  m1 : BitVec 8
  sh : BitVec 10
  bh : BitVec 10
  ndh : BitVec 10
  deriving DecidableEq, Repr

/-- WOUT and WOUTG fields (Table 10); `m1`, `n1` are M - 1 and N - 1. -/
structure WOut where
  dq : Bool
  dfmt : BitVec 2
  rm : BitVec 2
  wide : Bool
  qe : Bool
  o2 : Bool
  gk : BitVec 3
  base : BitVec 6
  m1 : BitVec 8
  n1 : BitVec 6
  dh : BitVec 10
  sch : BitVec 10
  tbb : BitVec 6
  deriving DecidableEq, Repr

/-- SFEV fields (Table 12). -/
structure Sfev where
  vd : BitVec 5
  va : BitVec 5
  vb : BitVec 5
  dir : BitVec 4
  dfmt : BitVec 2
  rm : BitVec 2
  pk : Bool
  o2 : Bool
  deriving DecidableEq, Repr

/-- GACT fields (Table 12). -/
structure Gact where
  vd : BitVec 5
  va : BitVec 5
  vb : BitVec 5
  dir : BitVec 4
  dfmt : BitVec 2
  rm : BitVec 2
  pk : Bool
  deriving DecidableEq, Repr

/-- SMAXT fields (Table 12). -/
structure SmaxT where
  ctx : BitVec 2
  e : BitVec 4
  va : BitVec 5
  vd : BitVec 5
  dfmt : BitVec 2
  vm : BitVec 3
  smc : BitVec 3
  smf : BitVec 3
  smc2 : BitVec 3
  deriving DecidableEq, Repr

/-- CSTEP and CADJ fields (Table 13); `ns1` is NS - 1. -/
structure CStepF where
  ns1 : BitVec 2
  blk : BitVec 13
  rt : BitVec 5
  id : W16
  stride : BitVec 8
  deriving DecidableEq, Repr

/-- CSET fields (Table 13); `tail` is ID (TGT 0) or COUNT - 1 (TGT 1). -/
structure CSetF where
  mode : BitVec 2
  fmt : Bool
  tgt : Bool
  elem : BitVec 15
  addr : W16
  tail : W16
  deriving DecidableEq, Repr

/-- CGET fields (Table 13). -/
structure CGetF where
  fmt : Bool
  rm : BitVec 2
  tgt : Bool
  elem : BitVec 15
  addr : W16
  tail : W16
  deriving DecidableEq, Repr

/-- CCMP fields (Table 13). -/
structure CCmpF where
  fmt : BitVec 2
  r : BitVec 5
  sm : BitVec 3
  trap : Bool
  rn : BitVec 5
  x : W16
  y : W16
  deriving DecidableEq, Repr

/-- XFER fields (Table 16); `nent1`, `lcnt1` are NENT - 1 and LCNT - 1. -/
structure XferF where
  dir : Bool
  tgt : BitVec 2
  add : Bool
  hdr : Bool
  nent1 : BitVec 12
  list : BitVec 13
  lfirst : BitVec 13
  lcnt1 : BitVec 13
  deriving DecidableEq, Repr

/-- GATH fields (R319); `lcnt1` is LCNT - 1. -/
structure GathF where
  dir : Bool
  tgt : BitVec 2
  gr : BitVec 13
  lfirst : BitVec 13
  lcnt1 : BitVec 13
  deriving DecidableEq, Repr

/-- SEMPOST fields (Table 19); `cnt1`, `gcnt1` are CNT - 1 and the granule count - 1. -/
structure SemPostF where
  sem : BitVec 5
  tcore : BitVec 11
  self : Bool
  cnt1 : BitVec 4
  rng : Bool
  first : BitVec 13
  gcnt1 : BitVec 13
  deriving DecidableEq, Repr

/-- A port with a clock of its own (R490). -/
inductive PortId where
  | host
  | memA (n : BitVec 4)
  | memB (n : BitVec 4)
  | frame (l : LinkNo)
  deriving DecidableEq, Repr

/-- A host target request (TREQ, Table 3 of Ports and integration): tag, operation, target address, length in bytes, byte enables
and data. -/
structure TReq where
  tag : BitVec 8
  wr : Bool
  ta : BitVec 46
  len : BitVec 7
  be : W64
  data : BitVec 512
  deriving DecidableEq, Repr

/-- Something in flight on a slab fabric or the mesh, by its place among those in flight: a granule between cores, a semaphore post, a
queue-end item, the answer to a memory request. -/
inductive InFlight where
  | granule (k : Nat)
  | post (k : Nat)
  | item (k : Nat)
  | answer (tierB : Bool) (port : BitVec 4) (id : BitVec 8)
  deriving DecidableEq, Repr

/-- What a mesh position's router sends over: a link to a neighbour, or its local port (R19). -/
inductive RPort where
  | west | east | north | south | local_
  deriving DecidableEq, Repr

/-- An object of a hub structure that has a backing copy (R408). -/
inductive HubObj where
  | peer (i : BitVec 14)
  | region (r : W16)
  | page (part : BitVec 3) (page : BitVec 26)
  | directory (id : W16)
  deriving DecidableEq, Repr

/-- An object of another hub structure (R408); `k` counts the records, or the entries waiting. -/
inductive HubOwn where
  | streamEntry (i : BitVec 12)
  | reassembly (k : Nat)
  | roundSlot (i : BitVec 3)
  | completion (part : BitVec 3) (k : Nat)
  deriving DecidableEq, Repr

/-- Where a guard check fails (Table 5 of Faults and recovery, R401). -/
inductive GuardSite where
  /-- granule `g` of the core's local store, read by its own port `port` (R252) -/
  | store (c : CoreNo) (g : BitVec 13) (port : BitVec 3)
  /-- the core's engine storage; `unit` codes as in Table 2 -/
  | engine (c : CoreNo) (unit : BitVec 4)
  /-- in transit on a slab fabric, or on the mesh -/
  | transit (w : InFlight) (mesh : Bool)
  /-- read `k` of those in flight: the granule of the other core's local store that it reads -/
  | other (k : Nat)
  /-- read data of a memory-port request -/
  | mem (tierB : Bool) (port : BitVec 4) (id : BitVec 8)
  /-- data of a stream swap of an entry -/
  | swap (ent : BitVec 12)
  /-- the update engine's page (Table 5) -/
  | update
  /-- a hub structure with a backing copy (R408) -/
  | hubBacked (o : HubObj)
  /-- another hub structure (R408) -/
  | hubOwn (o : HubOwn)
  /-- entry `k` of a slab's deferred-release log: one copy or both (R407) -/
  | log (slab : SlabNo) (k : Nat) (both : Bool)
  /-- granule `g` of the management core's SRAM, read by the running core (R465) -/
  | sram (g : BitVec 15)
  /-- a half of the mesh link or router at a port of the position at `col`, `row`, twice on consecutive beats, on a transfer or message
  that crosses it (R413) -/
  | meshHalf (w : InFlight) (col : BitVec 3) (row : BitVec 4) (port : RPort) (half : Bool)
  /-- a half of a hub's control (R413) -/
  | hubHalf (h : BitVec 2) (half : Bool)
  /-- step 5 of a casting load (R331) -/
  | casting
  /-- step 3 of a plating switch (R336) -/
  | plating
  /-- a slab being tempered (R436) -/
  | tempering
  deriving DecidableEq, Repr

/-- One constructor per row of spec/opcode_table.json. -/
inductive Instr where
  /-- LONG_WORD_ISSUE (R284): The sequencer issues one long word, and all its slots enter their engines' queues together. -/
  | longWordIssue (c : CoreNo)
  /-- COMMIT_POINT (R290): Once every earlier instruction has completed, the commit point of a COMMIT or STOP long word performs all the actions of Table 5 as one step. -/
  | commitPoint (c : CoreNo)
  /-- DEFERRED_ENTRY_ACK (R291): When its target acknowledges a released deferred-release entry, the entry frees its log space. -/
  | deferredEntryAck (slab : SlabNo) (k : Nat)
  /-- STREAM_START (R280): A core starts fetching the next stream of its list once the commit point of the current stream's stop mark has taken effect. -/
  | streamStart (c : CoreNo)
  /-- STREAM_READ_ERROR (R282): A host-port read of a stream granule that completes with an error makes the waiting cores record 0x2C and halt issue. -/
  | streamReadError (c : CoreNo)
  /-- ADD (R305): Scalar add of RA and RB into RD, modulo 2^64. -/
  | add (c : CoreNo) (rd ra rb : BitVec 5)
  /-- SUB (R305): Scalar subtract of RB from RA into RD. -/
  | sub (c : CoreNo) (rd ra rb : BitVec 5)
  /-- AND (R305): Scalar bitwise and of RA and RB into RD. -/
  | and (c : CoreNo) (rd ra rb : BitVec 5)
  /-- OR (R305): Scalar bitwise or of RA and RB into RD. -/
  | or (c : CoreNo) (rd ra rb : BitVec 5)
  /-- XOR (R305): Scalar bitwise exclusive-or of RA and RB into RD. -/
  | xor (c : CoreNo) (rd ra rb : BitVec 5)
  /-- SHL (R305): Scalar shift left of RA by the low 6 bits of RB. -/
  | shl (c : CoreNo) (rd ra rb : BitVec 5)
  /-- SHR (R305): Scalar logical shift right of RA by the low 6 bits of RB. -/
  | shr (c : CoreNo) (rd ra rb : BitVec 5)
  /-- SAR (R305): Scalar arithmetic shift right of RA by the low 6 bits of RB. -/
  | sar (c : CoreNo) (rd ra rb : BitVec 5)
  /-- MUL (R305): Scalar multiply of RA and RB, keeping the low 64 bits. -/
  | mul (c : CoreNo) (rd ra rb : BitVec 5)
  /-- SLT (R305): RD becomes 1 if RA is less than RB, signed, and 0 otherwise. -/
  | slt (c : CoreNo) (rd ra rb : BitVec 5)
  /-- SLTU (R305): RD becomes 1 if RA is less than RB, unsigned, and 0 otherwise. -/
  | sltu (c : CoreNo) (rd ra rb : BitVec 5)
  /-- SEQ (R305): RD becomes 1 if RA equals RB, and 0 otherwise. -/
  | seq (c : CoreNo) (rd ra rb : BitVec 5)
  /-- ADDI (R305): Scalar add of RA and the signed immediate into RD. -/
  | addi (c : CoreNo) (rd ra : BitVec 5) (imm : W16)
  /-- SUBI (R305): Scalar subtract of the immediate from RA into RD. -/
  | subi (c : CoreNo) (rd ra : BitVec 5) (imm : W16)
  /-- ANDI (R305): Scalar and of RA with the immediate into RD. -/
  | andi (c : CoreNo) (rd ra : BitVec 5) (imm : W16)
  /-- ORI (R305): Scalar or of RA with the immediate into RD. -/
  | ori (c : CoreNo) (rd ra : BitVec 5) (imm : W16)
  /-- XORI (R305): Scalar exclusive-or of RA with the immediate into RD. -/
  | xori (c : CoreNo) (rd ra : BitVec 5) (imm : W16)
  /-- SHLI (R305): Scalar shift left of RA by the immediate. -/
  | shli (c : CoreNo) (rd ra : BitVec 5) (imm : W16)
  /-- SHRI (R305): Scalar logical shift right of RA by the immediate. -/
  | shri (c : CoreNo) (rd ra : BitVec 5) (imm : W16)
  /-- SARI (R305): Scalar arithmetic shift right of RA by the immediate. -/
  | sari (c : CoreNo) (rd ra : BitVec 5) (imm : W16)
  /-- MULI (R305): Scalar multiply of RA by the immediate, keeping the low 64 bits. -/
  | muli (c : CoreNo) (rd ra : BitVec 5) (imm : W16)
  /-- SLTI (R305): Signed compare of RA with the immediate, giving 1 or 0. -/
  | slti (c : CoreNo) (rd ra : BitVec 5) (imm : W16)
  /-- SLTUI (R305): Unsigned compare of RA with the immediate, giving 1 or 0. -/
  | sltui (c : CoreNo) (rd ra : BitVec 5) (imm : W16)
  /-- SEQI (R305): Equality test of RA with the immediate, giving 1 or 0. -/
  | seqi (c : CoreNo) (rd ra : BitVec 5) (imm : W16)
  /-- MOVSM (R305): Copies a summary register, zero-extended, into RD, waiting while the summary is pending. -/
  | movsm (c : CoreNo) (rd : BitVec 5) (sm : BitVec 3)
  /-- TBR (R305): Reads the slab's copy of the always-on timebase into RD. -/
  | tbr (c : CoreNo) (rd : BitVec 5)
  /-- DBASE (R286): Sets the core's descriptor-table base word address. -/
  | dbase (c : CoreNo) (ra : BitVec 5) (imm : W16)
  /-- DSET (R305): Writes one word of a descriptor in the local store, scoreboarded as a write. -/
  | dset (c : CoreNo) (h : BitVec 10) (w : BitVec 3) (ra : BitVec 5)
  /-- LI (R305): Loads the sign-extended 32-bit immediate into RD. -/
  | li (c : CoreNo) (rd : BitVec 5) (imm : W32)
  /-- LIH (R305): Loads the immediate into bits [63:32] of RD, keeping bits [31:0]. -/
  | lih (c : CoreNo) (rd : BitVec 5) (imm : W32)
  /-- BR (R306): Branches to a byte offset of the current stream when the condition holds for RA and RB. -/
  | br (c : CoreNo) (cond : BitVec 3) (ra rb : BitVec 5) (target : W32)
  /-- FADD (R135): Lane-wise FP32 add. -/
  | fadd (c : CoreNo) (vd va vb : BitVec 5) (vm : BitVec 3) (rm : BitVec 2)
  /-- FSUB (R135): Lane-wise FP32 subtract. -/
  | fsub (c : CoreNo) (vd va vb : BitVec 5) (vm : BitVec 3) (rm : BitVec 2)
  /-- FMUL (R135): Lane-wise FP32 multiply. -/
  | fmul (c : CoreNo) (vd va vb : BitVec 5) (vm : BitVec 3) (rm : BitVec 2)
  /-- FFMA (R135): Lane-wise fused multiply-add with one rounding. -/
  | ffma (c : CoreNo) (vd va vb vc : BitVec 5) (vm : BitVec 3) (rm : BitVec 2)
  /-- FABS (R135): Lane-wise FP32 absolute value. -/
  | fabs (c : CoreNo) (vd va : BitVec 5) (vm : BitVec 3)
  /-- FNEG (R135): Lane-wise FP32 negation. -/
  | fneg (c : CoreNo) (vd va : BitVec 5) (vm : BitVec 3)
  /-- FMIN (R71): Lane-wise FP32 minimum. -/
  | fmin (c : CoreNo) (vd va vb : BitVec 5) (vm : BitVec 3)
  /-- FMAX (R71): Lane-wise FP32 maximum. -/
  | fmax (c : CoreNo) (vd va vb : BitVec 5) (vm : BitVec 3)
  /-- FSEL (R307): Selects a or b in every lane by the mask bit. -/
  | fsel (c : CoreNo) (vd va vb : BitVec 5) (vm : BitVec 3)
  /-- FCEQ (R70): Lane-wise equal compare, written to a mask. -/
  | fceq (c : CoreNo) (md : BitVec 3) (va vb : BitVec 5) (vm : BitVec 3)
  /-- FCLT (R70): Lane-wise less-than compare, written to a mask. -/
  | fclt (c : CoreNo) (md : BitVec 3) (va vb : BitVec 5) (vm : BitVec 3)
  /-- FCLE (R70): Lane-wise less-or-equal compare, written to a mask. -/
  | fcle (c : CoreNo) (md : BitVec 3) (va vb : BitVec 5) (vm : BitVec 3)
  /-- FCNE (R70): Lane-wise not-equal compare, written to a mask. -/
  | fcne (c : CoreNo) (md : BitVec 3) (va vb : BitVec 5) (vm : BitVec 3)
  /-- IADD (R135): Lane-wise 32-bit integer add, wrapping. -/
  | iadd (c : CoreNo) (vd va vb : BitVec 5) (vm : BitVec 3)
  /-- ISUB (R135): Lane-wise 32-bit integer subtract, wrapping. -/
  | isub (c : CoreNo) (vd va vb : BitVec 5) (vm : BitVec 3)
  /-- IMUL (R135): Lane-wise 32-bit integer multiply, keeping the low half. -/
  | imul (c : CoreNo) (vd va vb : BitVec 5) (vm : BitVec 3)
  /-- IMIN (R307): Lane-wise integer minimum. -/
  | imin (c : CoreNo) (vd va vb : BitVec 5) (vm : BitVec 3)
  /-- IMAX (R307): Lane-wise integer maximum. -/
  | imax (c : CoreNo) (vd va vb : BitVec 5) (vm : BitVec 3)
  /-- IAND (R307): Lane-wise bitwise and. -/
  | iand (c : CoreNo) (vd va vb : BitVec 5) (vm : BitVec 3)
  /-- IOR (R307): Lane-wise bitwise or. -/
  | ior (c : CoreNo) (vd va vb : BitVec 5) (vm : BitVec 3)
  /-- IXOR (R307): Lane-wise bitwise exclusive-or. -/
  | ixor (c : CoreNo) (vd va vb : BitVec 5) (vm : BitVec 3)
  /-- ISHL (R307): Lane-wise shift left by b[4:0]. -/
  | ishl (c : CoreNo) (vd va vb : BitVec 5) (vm : BitVec 3)
  /-- ISHR (R307): Lane-wise logical shift right by b[4:0]. -/
  | ishr (c : CoreNo) (vd va vb : BitVec 5) (vm : BitVec 3)
  /-- ISAR (R307): Lane-wise arithmetic shift right by b[4:0]. -/
  | isar (c : CoreNo) (vd va vb : BitVec 5) (vm : BitVec 3)
  /-- CVTFI (R136): Converts FP32 lanes to 32-bit integers under the rounding mode, clamping. -/
  | cvtfi (c : CoreNo) (vd va : BitVec 5) (vm : BitVec 3) (rm : BitVec 2)
  /-- CVTIF (R136): Converts 32-bit integer lanes to FP32 under the rounding mode. -/
  | cvtif (c : CoreNo) (vd va : BitVec 5) (vm : BitVec 3) (rm : BitVec 2)
  /-- BCSM (R307): Broadcasts a summary register to every lane. -/
  | bcsm (c : CoreNo) (vd : BitVec 5) (sm : BitVec 3) (vm : BitVec 3)
  /-- BCSR (R307): Broadcasts the low 32 bits of a scalar register to every lane. -/
  | bcsr (c : CoreNo) (vd ra : BitVec 5) (vm : BitVec 3)
  /-- LSH (R307): Shifts or rotates lanes by a constant count. -/
  | lsh (c : CoreNo) (vd va : BitVec 5) (count : BitVec 6) (dir rot : Bool)
  /-- LGATH (R307): Lane i takes source lane idx[i] mod L. -/
  | lgath (c : CoreNo) (vd va vb : BitVec 5) (vm : BitVec 3)
  /-- VEXT (R150): Copies one lane of a vector register to a summary register. -/
  | vext (c : CoreNo) (sm : BitVec 3) (va : BitVec 5) (lane : BitVec 6)
  /-- MSUM (R150): Writes the ANY, ALL, COUNT or FIRST summary of a mask to a summary register. -/
  | msum (c : CoreNo) (sm mask : BitVec 3) (kind : BitVec 2)
  /-- WSET (R137): Sets a vector register's window base absolutely. -/
  | wset (c : CoreNo) (vd : BitVec 5) (base : BitVec 9) (rs : BitVec 5)
  /-- WSTEP (R137): Moves a vector register's window base by a signed granule count modulo 512. -/
  | wstep (c : CoreNo) (vd : BitVec 5) (count : BitVec 10)
  /-- TPOP (R144): Removes the oldest tile of an array's finished-tile queue into the operand cache, waiting while the queue is empty. -/
  | tpop (c : CoreNo) (arr : Bool) (g : BitVec 9) (sm : BitVec 3)
  /-- VLD (R308): Loads L elements from the local store or an inbound queue end into a vector register, converting to FP32. -/
  | vld (c : CoreNo) (f : VMem)
  /-- VST (R308): Stores a vector register to the local store or an outbound queue end, converting and encoding. -/
  | vst (c : CoreNo) (f : VMem)
  /-- RINIT (R147): Sets a reduction context's kind and its starting state, empty or carried. -/
  | rinit (c : CoreNo) (ctx : BitVec 2) (kind : BitVec 3) (carry : Bool) (va : BitVec 5)
  /-- RFEED (R148): Feeds the active lanes of a vector register into a reduction context. -/
  | rfeed (c : CoreNo) (ctx : BitVec 2) (va : BitVec 5) (mask : BitVec 3)
  /-- RFEEDM (R147): Feeds a local-store range of FP32 elements into a reduction context. -/
  | rfeedm (c : CoreNo) (ctx : BitVec 2) (addr : W16) (rn : BitVec 5)
  /-- RREAD (R149): Delivers a reduction context's state to a vector register or one component to a summary register. -/
  | rread (c : CoreNo) (ctx : BitVec 2) (tov : Bool) (vd : BitVec 5) (sm comp : BitVec 3)
  /-- MAC (R88): Matrix multiply-add of a stationary and a streaming operand into accumulator tiles, optionally batched or sliding. -/
  | mac (c : CoreNo) (arr : Bool) (f : MMul)
  /-- SQD (R102): Matrix sum of squared differences into accumulator tiles. -/
  | sqd (c : CoreNo) (arr : Bool) (f : MMul)
  /-- ABD (R102): Matrix sum of absolute differences into accumulator tiles. -/
  | abd (c : CoreNo) (arr : Bool) (f : MMul)
  /-- MINP (R104): Matrix min-plus combination into accumulator tiles. -/
  | minp (c : CoreNo) (arr : Bool) (f : MMul)
  /-- MAXP (R104): Matrix max-plus combination into accumulator tiles. -/
  | maxp (c : CoreNo) (arr : Bool) (f : MMul)
  /-- WOUT (R118): Writes accumulator tiles out to the local store or the finished-tile queue with one rounding. -/
  | wout (c : CoreNo) (arr : Bool) (f : WOut)
  /-- WOUTG (R203): Gated write-out delivering G(z) times v from tiles of both arrays. -/
  | woutg (c : CoreNo) (arr : Bool) (f : WOut)
  /-- MATRIX_EXECUTE (R92): An array starts and runs the passes of an issued matrix instruction by the folding rule once its operands are ready. -/
  | matrixExecute (c : CoreNo) (arr : Bool)
  /-- FILL_DEADLINE_EXPIRY (R107): The batch's fill deadline expires on the timebase and the open batch dispatches. -/
  | fillDeadlineExpiry (c : CoreNo) (arr : Bool)
  /-- TILE_ENQUEUE (R143): A pending write-out enters its tile into the finished-tile queue once the queue has room. -/
  | tileEnqueue (c : CoreNo) (arr : Bool)
  /-- NANTRAP_ARM (R127): A write of ARM to COR_NANTRAP arms the first-NaN trap. -/
  | nantrapArm (req : Requester) (c : CoreNo)
  /-- NANTRAP_CLEAR_FIRED (R127): Clearing FIRED in COR_NANTRAP resumes the core's issue. -/
  | nantrapClearFired (req : Requester) (c : CoreNo)
  /-- MAT_BYPASS_WRITE (R110): Firmware's write of MAT_BYPASS bypasses a unit at once while the core is halted or in reset, and otherwise holds it. -/
  | matBypassWrite (req : Requester) (c : CoreNo) (arr : Bool) (unit : BitVec 3) (valid : Bool)
  /-- BYPASS_HELD_APPLY (R110): A held bypass takes effect when the core next halts for recovery or enters reset. -/
  | bypassHeldApply (c : CoreNo) (arr : Bool)
  /-- SFEV (R312): Evaluates a directory entry of the bound bank, or of the compatibility image, on a register. -/
  | sfev (c : CoreNo) (f : Sfev)
  /-- GACT (R174): Delivers the activation of the gate element times the up element, rounded once. -/
  | gact (c : CoreNo) (f : Gact)
  /-- SMAXI (R171): Initialises a soft-maximum context to m = -Inf and s = +0. -/
  | smaxi (c : CoreNo) (ctx : BitVec 2)
  /-- SMAXT (R171): Processes one tile (two in V64) of a soft maximum and writes c to a summary register. -/
  | smaxt (c : CoreNo) (f : SmaxT)
  /-- SMAXR (R172): Delivers m, s and RECIP(s) of a soft-maximum context to summary registers. -/
  | smaxr (c : CoreNo) (ctx : BitVec 2) (smm sms smr : BitVec 3)
  /-- RMSF (R173): Writes the root-mean-square factor of an SSQ context to a summary register. -/
  | rmsf (c : CoreNo) (ctx : BitVec 2) (entry : BitVec 4) (rn : BitVec 5) (sm : BitVec 3) (eps : W32)
  /-- TLOAD (R167): Writes a 201-granule image from the local store into the inactive bank. -/
  | tload (c : CoreNo) (g : BitVec 13)
  /-- TLOAD_COMPLETE (R157): A table-load finishes writing its bank and validates the image, marking the bank valid or recording 0x1A. -/
  | tloadComplete (c : CoreNo)
  /-- TSWITCH (R166): Makes the other special-function bank active for later instructions. -/
  | tswitch (c : CoreNo)
  /-- CSTEP (R189): Steps T positions of one to four streams, optionally with readout, reset marks, cumulative decay, emit or FINISH. -/
  | cstep (c : CoreNo) (f : CStepF)
  /-- CADJ (R201): Runs the adjoint recurrence in reverse time over T positions. -/
  | cadj (c : CoreNo) (f : CStepF)
  /-- CKGEN (R199): Generates a convolution kernel of length L from a decay and a weight. -/
  | ckgen (c : CoreNo) (blk : BitVec 13) (rt : BitVec 5)
  /-- CSET (R206): Writes a slice or parameter range from the local store, a constant fill or a product. -/
  | cset (c : CoreNo) (f : CSetF)
  /-- CGET (R206): Writes a slice or parameter range to the local store. -/
  | cget (c : CoreNo) (f : CGetF)
  /-- CCMP (R207): Compares two local-store ranges against a relative bound and reports the first failure. -/
  | ccmp (c : CoreNo) (f : CCmpF)
  /-- CWAIT (R313): Holds issue until every earlier carry instruction has completed. -/
  | cwait (c : CoreNo)
  /-- CRESET (R219): Sets the issuing core's reset flag for a stream. -/
  | creset (c : CoreNo) (id : W16)
  /-- XFER (R317): Enters a block-list transfer into the fetch or execute queue. -/
  | xfer (c : CoreNo) (f : XferF)
  /-- GATH (R319): Enters a gather or scatter transfer into its queue. -/
  | gath (c : CoreNo) (f : GathF)
  /-- TRANSFER_START (R256): A queued transfer starts when it is at most the sixth uncompleted transfer of its queue and issues its requests. -/
  | transferStart (c : CoreNo) (exec : Bool)
  /-- TRANSFER_COMPLETE (R256): A transfer completes when its last granule is visible or acknowledged, posting a semaphore if named. -/
  | transferComplete (c : CoreNo) (exec : Bool) (k : Nat)
  /-- PAGE_WALK_COMPLETE (R261): A translation walk of the partition's page table returns an entry for a transfer. -/
  | pageWalkComplete (c : CoreNo) (exec : Bool) (k : Nat)
  /-- FENCE (R256): Holds issue until every earlier transfer of the named queues has completed. -/
  | fence (c : CoreNo) (fq eq : Bool)
  /-- AWAIT (R247): Holds issue until an arrival counter reaches its threshold or the timeout expires. -/
  | await (c : CoreNo) (ctr : BitVec 6) (rt rd : BitVec 5) (timeout : W32)
  /-- AWAIT_TIMEOUT (R247): The timeout of an arrival wait expires and the wait returns a timeout status. -/
  | awaitTimeout (c : CoreNo)
  /-- ARRSET (R246): Sets an arrival counter to a value. -/
  | arrset (c : CoreNo) (ctr : BitVec 6) (ra : BitVec 5)
  /-- ARRSET_SUBTRACT (R246): Subtracts an amount from an arrival counter. -/
  | arrsetSubtract (c : CoreNo) (ctr : BitVec 6) (ra : BitVec 5)
  /-- SEMWAIT (R271): Holds issue until a semaphore is at least 1, then decrements it. -/
  | semwait (c : CoreNo) (sem rd : BitVec 5) (timeout : W32)
  /-- SEMWAIT_TIMEOUT (R271): The timeout of a semaphore wait expires, leaving the count unchanged. -/
  | semwaitTimeout (c : CoreNo)
  /-- SEMPOST (R272): Increments a semaphore of this or another core of the partition, after its range is released. -/
  | sempost (c : CoreNo) (f : SemPostF)
  /-- SEMSET (R270): Writes a semaphore count. -/
  | semset (c : CoreNo) (sem ra : BitVec 5)
  /-- SEMRD (R270): Copies a semaphore count to a scalar register. -/
  | semrd (c : CoreNo) (sem rd : BitVec 5)
  /-- KEEP (R249): Writes a kept-range entry with a translated backing address. -/
  | keep (c : CoreNo) (k : BitVec 4) (first : BitVec 13) (rb : BitVec 5) (count1 : BitVec 13)
  /-- KEEP_CLEAR (R249): Clears a kept-range entry. -/
  | keepClear (c : CoreNo) (k : BitVec 4)
  /-- MESH_GRANULE_ARRIVAL (R244): A granule of a CORE message is written through FIN and counted once on its arrival counter. -/
  | meshGranuleArrival (k : Nat)
  /-- SEMAPHORE_POST_ARRIVAL (R272): A post message from another core increments a semaphore, or is discarded as a replay. -/
  | semaphorePostArrival (k : Nat)
  /-- QUEUE_ITEM_ARRIVE (R287): A pushed item arrives in a consumer's queue-end ring in push order. -/
  | queueItemArrive (k : Nat)
  /-- QUEUE_WAIT_TIMEOUT (R288): A push or pop waiting past the partition's queue-wait limit records 0x4C and halts issue. -/
  | queueWaitTimeout (c : CoreNo)
  /-- GUARD_FAILURE (R401): A granule fails its guard check, is not delivered, and the block records one fault record. -/
  | guardFailure (g : GuardSite)
  /-- RECOVERY_DRAIN_COMPLETE (R406): After the drain, the block restores state to the last commit point, refills kept ranges and resumes issue for the replay. -/
  | recoveryDrainComplete (c : CoreNo)
  /-- FAULT_RECORD_PLACE (R403): A fault record enters the fault queue with the next SEQ, or waits, or is dropped when droppable. -/
  | faultRecordPlace (k : Nat)
  /-- FQHEAD_WRITE (R403): Firmware advances MGT_FQHEAD to consume fault records. -/
  | fqheadWrite (req : Requester) (v : W32)
  /-- QCOUNT_INCREMENT (R215): A fetch engine's request to increment a stream's QCOUNT is granted by the entry's arbiter. -/
  | qcountIncrement (c : CoreNo) (id : W16)
  /-- QCOUNT_DECREMENT (R215): A core's completion of an instruction naming a stream decrements its QCOUNT. -/
  | qcountDecrement (c : CoreNo) (id : W16)
  /-- STRCMD_SWAP_OUT (R217): Firmware requests a swap-out of an entry, which is refused or begins. -/
  | strcmdSwapOut (req : Requester) (ent : BitVec 12)
  /-- STRCMD_SWAP_IN (R218): Firmware requests a swap-in of a stream id, which is refused or accepted. -/
  | strcmdSwapIn (req : Requester) (id : W16)
  /-- SWAP_IN_START (R216): The controller starts a swap-in for the oldest missing stream once a slot is free. -/
  | swapInStart 
  /-- SWAP_STATE_ACKNOWLEDGED (R217): Every slab acknowledges a change of RES, and the swap continues to its next step. -/
  | swapStateAcknowledged (ent : BitVec 12)
  /-- SWAP_MEMORY_DONE (R217): The swap's memory reads or writes are acknowledged, ending the swap in out or resident, or in a fault. -/
  | swapMemoryDone (ent : BitVec 12) (err : Bool)
  /-- RESWAIT_EXPIRY (R222): A long word held on residency longer than RESWAIT records 0x34 and halts issue. -/
  | reswaitExpiry (c : CoreNo)
  /-- SQTAIL_WRITE (R278): The driver's doorbell write of SQTAIL adds submission entries, or sets SQERR when out of range. -/
  | sqtailWrite (req : Requester) (p : BitVec 3) (v : W32)
  /-- SUBMISSION_ENTRY_READ (R279): The block reads a submission entry and binds it to cores or refuses it. -/
  | submissionEntryRead (p : BitVec 3) (words : List W32)
  /-- CQHEAD_WRITE (R278): The driver writes CQHEAD to consume completion entries, or sets CQERR. -/
  | cqheadWrite (req : Requester) (p : BitVec 3) (v : W32)
  /-- STREAM_COMPLETE (R283): When every bound core has passed its stop mark or halted, the block writes a completion entry and raises its vector. -/
  | streamComplete (k : Nat)
  /-- COMPLETION_ENTRY_WRITE (R283): A waiting completion entry is written once the completion ring has room. -/
  | completionEntryWrite (p : BitVec 3)
  /-- PTINV_WRITE (R262): A write of GLB_PTINV removes cached translations and clears DONE. -/
  | ptinvWrite (req : Requester) (v : W32)
  /-- PTINV_DONE (R262): DONE sets once every transfer using a removed translation has finished with the page. -/
  | ptinvDone 
  /-- DMRESUME_FETCH (R265): Resumes a halted fetch queue from its saved position. -/
  | dmresumeFetch (req : Requester) (c : CoreNo)
  /-- DMRESUME_EXEC (R265): Resumes a halted execute queue from its saved position. -/
  | dmresumeExec (req : Requester) (c : CoreNo)
  /-- MEM_RESPONSE (R493): A memory port returns read data or write done, possibly with an error, for a request id. -/
  | memResponse (tierB : Bool) (port : BitVec 4) (id : BitVec 8) (err : Bool)
  /-- MEM_REQUEST_EXPIRY (R495): A memory request unanswered within TMO is treated as an error response with code 0x27. -/
  | memRequestExpiry (tierB : Bool) (port : BitVec 4) (id : BitVec 8)
  /-- PORT_CLOCK_LOST (R59): A port clock without an edge for 1,024 reference cycles is marked lost and records 0x2F. -/
  | portClockLost (p : PortId)
  /-- PORT_CLOCK_RESUMED (R59): When edges resume, the bridge clears the mark and delivers stranded beats in order. -/
  | portClockResumed (p : PortId)
  /-- TARGET_REQUEST (R498): A host target request to control space or an aperture takes effect in acceptance order. -/
  | targetRequest (f : TReq)
  /-- HOST_MASTER_RESPONSE (R499): The host bridge completes a master read of the block, possibly with ERR. -/
  | hostMasterResponse (tag : BitVec 8) (err : Bool) (data : BitVec 512)
  /-- REGISTER_WRITE (R512): A write to a register without a row of its own, accepted or ignored by requester. -/
  | registerWrite (req : Requester) (off : BitVec 28) (v : W32)
  /-- CASTCMD_LOAD_CASTING (R330): GLB_CASTCMD OP 1 starts a casting load, or refuses it with 0x5E. -/
  | castcmdLoadCasting (req : Requester)
  /-- CASTING_LOAD_COMPLETE (R331): The staged casting is checked, validated and written over the spine, and LOADED is set. -/
  | castingLoadComplete (img : List Byte)
  /-- CASTCMD_LOAD_PLATING (R333): GLB_CASTCMD OP 2 loads a plating into a slot. -/
  | castcmdLoadPlating (req : Requester) (slot : BitVec 3)
  /-- PLATING_LOAD_COMPLETE (R333): The plating is checked and staged in its slot. -/
  | platingLoadComplete (img : List Byte)
  /-- CASTCMD_EVICT (R333): GLB_CASTCMD OP 3 evicts a plating slot. -/
  | castcmdEvict (req : Requester) (slot : BitVec 3)
  /-- PLSW_SWITCH (R334): A GLB_PLSW write with OFF 0 starts a plating switch or is refused. -/
  | plswSwitch (req : Requester) (slot : BitVec 3)
  /-- PLSW_OFF (R334): A GLB_PLSW write with OFF 1 deactivates the platings on PART. -/
  | plswOff (req : Requester) (parts : BitVec 8)
  /-- PLATING_SWITCH_APPLY (R335): When the last core of the scope is quiescent, the block applies the plating as one step. -/
  | platingSwitchApply 
  /-- SUBCMD_SUBSTITUTE (R416): GLB_SUBCMD OP 1 halts a logical slab and moves its work to a spare. -/
  | subcmdSubstitute (req : Requester) (path : Bool) (logical : BitVec 6) (spare : BitVec 7)
  /-- SUBCMD_MIGRATE (R416): GLB_SUBCMD OP 2 migrates a logical slab to a spare at its cores' next commit points. -/
  | subcmdMigrate (req : Requester) (path : Bool) (logical : BitVec 6) (spare : BitVec 7)
  /-- SUBCMD_SPINE_RESTART (R414): GLB_SUBCMD OP 3 resets every slab and hub. -/
  | subcmdSpineRestart (req : Requester)
  /-- SUBCMD_REPLAY (R409): GLB_SUBCMD OP 0 with REPLAY replays the halted cores of a logical slab. -/
  | subcmdReplay (req : Requester) (logical : BitVec 6)
  /-- SUBSTITUTION_RESUME (R416): State installed in the spare, the slab reads active, transfers continue and code 0x76 is recorded. -/
  | substitutionResume 
  /-- SPINE_FAILURE (R414): A spine guard failure or missing reset acknowledgement records 0x78 and stops every partition. -/
  | spineFailure 
  /-- PACE_WINDOW_END (R53): At the end of each 1 µs window the governor chooses the pace level for the next window. -/
  | paceWindowEnd (beats want : List W32)
  /-- PACE_CHECK (R53): Every 125 ns the governor raises the level at once if the scaled energy exceeds the ceiling. -/
  | paceCheck (beats want : List W32)
  /-- VREQ_WRITE (R422): Firmware writes PWR_VREQ, and FWD is recomputed with clamping. -/
  | vreqWrite (req : Requester) (v : W32)
  /-- CEILREQ_WRITE (R423): Firmware writes PWR_CEILREQ to lower the effective power ceiling. -/
  | ceilreqWrite (req : Requester) (v : W32)
  /-- TEMPER_WRITE (R431): A write of SLB_TEMPER or HUB_TEMPER raises at once or holds a lowering of offset or floor. -/
  | temperWrite (req : Requester) (u : UnitNo) (v : W32)
  /-- HELD_SHORTENING_APPLY (R49): A held tap shortening or floor lowering takes effect when its unit enters tempering or reset. -/
  | heldShorteningApply (u : UnitNo)
  /-- THERMAL_TRIP (R425): The trip comparator quenches the block within 2 µs and records 0x72. -/
  | thermalTrip 
  /-- SENSOR_READING (R503): A fresh sensor reading arrives on the sensor input and is reported. -/
  | sensorReading (src : BitVec 4) (v : W16)
  /-- SENSOR_STALE (R503): A source without a fresh reading for 1 ms counts as out of range and trips. -/
  | sensorStale (src : BitVec 4)
  /-- COOL_CONDITION (R426): COOL sets after 10 ms at or below TTRIP - 10 °C. -/
  | coolCondition 
  /-- QCMD_RESUME (R426): RESUME ends a quench when COOL is 1, and is otherwise ignored. -/
  | qcmdResume (req : Requester)
  /-- PATINA_MEASUREMENT (R428): Every millisecond each unit's ring is counted, DRIFT computed and canaries run. -/
  | patinaMeasurement (u : UnitNo) (rcount temp : W16) (canary : Bool)
  /-- TMPCMD_MEASURE (R433): Starts the margin search for a slab or hub. -/
  | tmpcmdMeasure (req : Requester) (u : BitVec 7)
  /-- MARGIN_SEARCH_COMPLETE (R434): The margin search reports NEWOFF and NEWFLOOR or fails and retires the slab. -/
  | marginSearchComplete (minoff : Option (BitVec 5))
  /-- TMPCMD_COMMIT (R433): Commits the found offset and floor and returns the slab to spare. -/
  | tmpcmdCommit (req : Requester) (u : BitVec 7)
  /-- TMPCMD_ABORT (R436): Aborts a temper measurement within 100 µs. -/
  | tmpcmdAbort (req : Requester) (u : BitVec 7)
  /-- DEADLINE_WRITE (R446): A write of a deadline comparator's compare value or ARM bit. -/
  | deadlineWrite (req : Requester) (k : BitVec 4) (word : BitVec 2) (v : W32)
  /-- DEADLINE_FIRE (R444): An armed comparator fires on the first tick at or past its compare value. -/
  | deadlineFire (k : BitVec 4)
  /-- SENSOR_COMPARATOR_FIRE (R447): A sensor comparator fires when a reading crosses its threshold. -/
  | sensorComparatorFire (k : BitVec 2)
  /-- VCORE_ENVELOPE_EXCURSION (R448): VCORE outside tolerance for 10 µs sets VENV and records 0x73. -/
  | vcoreEnvelopeExcursion 
  /-- REFERENCE_LOST (R443): No reference edge for 2 µs sets REFLOST, records 0x7C and suspends the timebase. -/
  | referenceLost 
  /-- REFERENCE_RESUMED (R443): Reference edges resume, REFLOST clears and the count continues. -/
  | referenceResumed 
  /-- TBLO_READ (R442): A read of AON_TBLO captures the upper timebase bits for the requester. -/
  | tbloRead (req : Requester)
  /-- PSCMD_ACTIVE (R450): A power-state request for active. -/
  | pscmdActive (req : Requester)
  /-- PSCMD_IDLE (R451): A power-state request for idle, forwarding FLOOR. -/
  | pscmdIdle (req : Requester)
  /-- PSCMD_RETENTION (R452): A power-state request for retention, saving the shadow and requesting VCORE off. -/
  | pscmdRetention (req : Requester)
  /-- PSCMD_DEEP_SLEEP (R454): A power-state request for deep sleep. -/
  | pscmdDeepSleep (req : Requester)
  /-- WAKE (R453): A wake source returns the block from idle, retention or deep sleep. -/
  | wake 
  /-- HOST_WAKE (R504): The HOSTWAKE input wakes the block from retention or deep sleep. -/
  | hostWake 
  /-- LINK_ACTIVITY (R451): The link-activity input wakes the block when LINKWAKE is 1. -/
  | linkActivity 
  /-- POWER_GOOD (R502): The integrator asserts power-good, letting power-up or wake proceed. -/
  | powerGood 
  /-- COLD_RESET_ASSERT (R478): VAON rising or the cold-reset input resets everything. -/
  | coldResetAssert (testmode : Bool)
  /-- COLD_RESET_RELEASE (R479): Release of cold reset loads the OTP shadow and requests VCORE. -/
  | coldResetRelease (tierA tierB : Bool)
  /-- BLOCK_RESET_ASSERT (R478): The block-reset input resets every slab, hub and the management core. -/
  | blockResetAssert 
  /-- BLOCK_RESET_RELEASE (R480): With power-good, the block initialises stores, maps slabs and loads reset taps. -/
  | blockResetRelease 
  /-- INIT_COMPLETE (R480): Initialisation finishes and INIT clears in GLB_RSTSTAT. -/
  | initComplete 
  /-- OTP_PGMCMD_GO (R462): Firmware starts programming a REPAIR generation, or is refused. -/
  | otpPgmcmdGo (req : Requester) (field : BitVec 3)
  /-- OTP_TEST_PROGRAM (R462): The tester programs an OTP field through IEEE 1687 access. -/
  | otpTestProgram (field : BitVec 3) (data : List Byte)
  /-- OTP_PROGRAM_COMPLETE (R463): A program operation completes with read-back. -/
  | otpProgramComplete (ok : Bool)
  /-- LDCMD_COLD_LOAD (R467): MGT_LDCMD OP 1 loads firmware from the host and starts the core. -/
  | ldcmdColdLoad (req : Requester)
  /-- LDCMD_HANDOFF_LOAD (R476): MGT_LDCMD OP 2 loads a new image keeping the handoff record. -/
  | ldcmdHandoffLoad (req : Requester)
  /-- FIRMWARE_LOAD_COMPLETE (R467): The image is checked and the management core starts at ENTRY, or RESULT reports a bad image. -/
  | firmwareLoadComplete (img : List Byte) (accepts : Bool)
  /-- IFVER_WRITE (R468): Firmware writes its interface version and READY to MGT_IFVER. -/
  | ifverWrite (req : Requester) (v : W32)
  /-- CMD_ACK (R471): The driver acknowledges an escalation by its SEQ. -/
  | cmdAck (req : Requester) (v : W32)
  /-- CMD_END (R472): The driver asks firmware to end a halted core's stream. -/
  | cmdEnd (req : Requester) (v : W32)
  /-- CMD_UPDATE (R476): The driver starts a live firmware update. -/
  | cmdUpdate (req : Requester) (v : W32)
  /-- CMD_POLICY (R469): The driver sets firmware policy bits. -/
  | cmdPolicy (req : Requester) (v : W32)
  /-- CMD_SAVE (R474): The driver asks firmware for a PERSIST log entry at once. -/
  | cmdSave (req : Requester) (v : W32)
  /-- ENDCMD (R472): Firmware's MGT_ENDCMD ends a halted core's stream and restores its committed state. -/
  | endcmd (req : Requester) (lslab : BitVec 6) (core : BitVec 5)
  /-- WDKICK (R475): A write of MGT_WDKICK restarts the watchdog count. -/
  | wdkick (req : Requester)
  /-- WATCHDOG_EXPIRY (R475): The watchdog expires, resets the management core, records 0x70 and restarts it. -/
  | watchdogExpiry (imageBad : Bool)
  /-- STCMD_START (R484): GLB_STCMD OP 1 starts self-test, or is refused. -/
  | stcmdStart (req : Requester)
  /-- STCMD_ABORT (R488): GLB_STCMD OP 2 aborts self-test within 1 ms. -/
  | stcmdAbort (req : Requester)
  /-- SELF_TEST_COMPLETE (R486): Both phases finish, failed slabs are retired and spares mapped. -/
  | selfTestComplete (slabs : List SlabNo) (cross : List CoreNo) (hubs : List (BitVec 2))
  /-- UPDCMD_START (R341): HUB_UPDCMD START begins an update step, reading the layer table. -/
  | updcmdStart (req : Requester) (apply : Bool)
  /-- UPDATE_LAYER_START (R343): The update engine starts a layer once every page of it is ready in the ledger. -/
  | updateLayerStart 
  /-- LAYER_UPDATE_COMPLETE (R346): When all images of a layer have arrived, the engine posts the update-complete semaphore. -/
  | layerUpdateComplete (layer : W16)
  /-- UPDATE_STEP_END (R347): At the end of a step the engine updates LS and CLEAN. -/
  | updateStepEnd 
  /-- FRAME_RECEIVE (R354): A received frame passes the encapsulation checks or is dropped. -/
  | frameReceive (l : LinkNo) (bytes : List Byte) (bad : Bool)
  /-- DATA_PACKET_RECEIVE (R365): A DATA packet is checked, decrypted, window-checked and passed to region handling. -/
  | dataPacketReceive (k : Nat)
  /-- ACK_RECEIVE (R366): An ACK marks PSNs acknowledged and advances TXBASE. -/
  | ackReceive (k : Nat)
  /-- ACK_DELAY_EXPIRY (R366): ACKDLY passes since the oldest unacknowledged visible packet and an ACK is sent. -/
  | ackDelayExpiry (peer : BitVec 14)
  /-- PACKET_VISIBLE (R366): A received packet's granules become visible at their target and count toward acknowledgement. -/
  | packetVisible (k : Nat)
  /-- PACKET_TRANSMIT (R362): The link hub transmits a packet of a message on the next usable link within the window. -/
  | packetTransmit (peer : BitVec 14)
  /-- RETRANSMIT_EXPIRY (R367): A peer's retransmission timer expires and unacknowledged packets are resent. -/
  | retransmitExpiry (peer : BitVec 14)
  /-- REMOTE_READ_TIMEOUT (R387): A remote read not complete within HUB_RDTMO stops with 0x6A. -/
  | remoteReadTimeout (k : Nat)
  /-- LINK_UP (R363): A MAC reports its link up or down, changing the usable links. -/
  | linkUp (l : LinkNo) (up : Bool)
  /-- PEERCMD_EVICT (R371): Writes a cached peer context back and frees its line, or is refused. -/
  | peercmdEvict (req : Requester) (peer : BitVec 14)
  /-- PEERCMD_FETCH (R371): Loads a peer context ahead of use. -/
  | peercmdFetch (req : Requester) (peer : BitVec 14)
  /-- PEERCMD_RESET (R371): Resets a cached peer's transport state. -/
  | peercmdReset (req : Requester) (peer : BitVec 14)
  /-- PEER_FETCH_COMPLETE (R360): A peer context read from host memory is checked and cached, and parked packets proceed. -/
  | peerFetchComplete (peer : BitVec 14) (err : Bool) (data : List Byte)
  /-- KEYCMD_LOAD (R372): Loads an AES-256 key into a key slot and zeroes its counter. -/
  | keycmdLoad (req : Requester) (slot : BitVec 8)
  /-- KEYCMD_ERASE (R372): Erases and invalidates a key slot. -/
  | keycmdErase (req : Requester) (slot : BitVec 8)
  /-- SEEDCMD_LOAD (R392): Loads a mask seed into a seed slot. -/
  | seedcmdLoad (req : Requester) (slot : BitVec 7)
  /-- SEEDCMD_ERASE (R392): Zeroes a seed slot. -/
  | seedcmdErase (req : Requester) (slot : BitVec 7)
  /-- SEALCMD_LOAD (R393): Loads a round record into a round slot, or refuses it. -/
  | sealcmdLoad (req : Requester) (slot : BitVec 3) (data : List Byte)
  /-- SEALCMD_CLEAR (R393): Empties a round slot. -/
  | sealcmdClear (req : Requester) (slot : BitVec 3)
  /-- SEAL_DEADLINE (R395): A round's deadline passes before DONE and the round FAILS with 0x68. -/
  | sealDeadline (slot : BitVec 3)
  /-- REGCMD_INVAL (R379): Invalidates one or all cached region entries and clears DONE. -/
  | regcmdInval (req : Requester) (region : W16) (all : Bool)
  /-- REGCMD_DONE (R379): DONE sets once later accesses use the region table. -/
  | regcmdDone 
  /-- POWER_GOOD_DEASSERT (R455): The integrator deasserts power-good after VREQ_ON falls, and only then may a waiting wake request VCORE on again. -/
  | powerGoodDeassert 
  /-- VAON_LOSS (R463): VAON leaves the envelope, which ends all block activity and leaves any interrupted OTP generation programmed and failing its check. -/
  | vaonLoss 
  deriving DecidableEq, Repr

end Sys2Proof
end

