-- ==== Sys2Proof/Decode.lean ====
section
/-! DEFINITION. Decode.lean: the long-word decoder of the sequencer (R298 to R302, Tables 1 to 19 of Instruction reference), and
the host's decodeTableWord: spec/opcode_table.json gives no row any bits, so no word spells a command by the table. -/

namespace Sys2Proof

open Machine (fld bitOf bytesNat)

/-- Field [hi:lo] of word `w` as a bit vector. -/
def bvf (n w hi lo : Nat) : BitVec n := BitVec.ofNat n (fld w hi lo)

/-- The instruction, or fault code 0x10 where a field that must be zero is not (R302). -/
def zeroElse (bad : Nat) (i : Instr) : Except Nat Instr := if bad = 0 then .ok i else .error 0x10

/-- Check L (R300: code 0x4E), then go on. -/
def withL (l want : Nat) (k : Except Nat Instr) : Except Nat Instr := if l = want then k else .error 0x4E

/-- Scalar slot (Tables 4 and 5). -/
def decodeScalar (c : CoreNo) (w x : Nat) : Except Nat Instr :=
  let l := w % 2
  let rd := bvf 5 w 10 6
  let ra := bvf 5 w 15 11
  let rb := bvf 5 w 20 16
  let im := bvf 16 w 31 16
  let reg (i : Instr) : Except Nat Instr := withL l 0 (zeroElse (fld w 31 21) i)
  let imm (i : Instr) : Except Nat Instr := withL l 0 (.ok i)
  let wide (bad : Nat) (i : Instr) : Except Nat Instr := withL l 1 (zeroElse (fld w 31 24 + bad) i)
  let xi := BitVec.ofNat 32 x
  match fld w 5 1 with
  | 0x01 => reg (.add c rd ra rb)
  | 0x02 => reg (.sub c rd ra rb)
  | 0x03 => reg (.and c rd ra rb)
  | 0x04 => reg (.or c rd ra rb)
  | 0x05 => reg (.xor c rd ra rb)
  | 0x06 => reg (.shl c rd ra rb)
  | 0x07 => reg (.shr c rd ra rb)
  | 0x08 => reg (.sar c rd ra rb)
  | 0x09 => reg (.mul c rd ra rb)
  | 0x0A => reg (.slt c rd ra rb)
  | 0x0B => reg (.sltu c rd ra rb)
  | 0x0C => reg (.seq c rd ra rb)
  | 0x0D => withL l 0 (zeroElse (fld w 31 14) (.movsm c rd (bvf 3 w 13 11)))
  | 0x0E => withL l 0 (zeroElse (fld w 31 11) (.tbr c rd))
  | 0x0F => withL l 0 (zeroElse (fld w 10 6) (.dbase c ra im))
  | 0x10 => withL l 0 (zeroElse (fld w 31 24) (.dset c (bvf 10 w 15 6) (bvf 3 w 18 16) (bvf 5 w 23 19)))
  | 0x11 => imm (.addi c rd ra im)
  | 0x12 => imm (.subi c rd ra im)
  | 0x13 => imm (.andi c rd ra im)
  | 0x14 => imm (.ori c rd ra im)
  | 0x15 => imm (.xori c rd ra im)
  | 0x16 => imm (.shli c rd ra im)
  | 0x17 => imm (.shri c rd ra im)
  | 0x18 => imm (.sari c rd ra im)
  | 0x19 => imm (.muli c rd ra im)
  | 0x1A => imm (.slti c rd ra im)
  | 0x1B => imm (.sltui c rd ra im)
  | 0x1C => imm (.seqi c rd ra im)
  | 0x1D => wide (fld w 23 11) (.li c rd xi)
  | 0x1E => wide (fld w 23 11) (.lih c rd xi)
  | 0x1F =>
    withL l 1
      (if fld w 31 24 ≠ 0 ∨ fld w 10 6 ≠ 0 ∨ fld w 23 21 = 7 then .error 0x10
       else if x % 4 ≠ 0 then .error 0x4E
       else .ok (.br c (bvf 3 w 23 21) ra rb xi))
  | _ => .error 0x10

/-- Vector slot (Tables 6 to 8). -/
def decodeVector (c : CoreNo) (w x : Nat) : Except Nat Instr :=
  let l := w % 2
  let vd := bvf 5 w 11 7
  let va := bvf 5 w 16 12
  let vb := bvf 5 w 21 17
  let vm := bvf 3 w 24 22
  let rm := bvf 2 w 26 25
  let vc := bvf 5 w 31 27
  let std (bad : Nat) (i : Instr) : Except Nat Instr := withL l 0 (zeroElse bad i)
  let b3 := fld w 31 27            -- VC must be zero
  let b2 := fld w 31 25            -- VC and RM must be zero
  let b1 := fld w 31 25 + vb.toNat -- VB, RM and VC must be zero
  let cmp (i : Instr) : Except Nat Instr := std (b2 + fld w 11 10) i
  let md := bvf 3 w 9 7
  let f : VMem := { v := vd, mode := bvf 2 w 13 12, fmt := bvf 3 w 16 14, d := bitOf w 17,
                    ra := bvf 5 w 22 18, modx := bvf 8 w 30 23, w1 := BitVec.ofNat 32 x }
  let mbad : Nat := fld w 31 31
    + (if f.d then f.fmt.toNat + fld x 31 15
       else match f.mode.toNat with
         | 0 => fld x 31 16
         | 1 => 0
         | 2 => fld x 31 29
         | _ => fld x 31 4 + f.fmt.toNat + f.ra.toNat) -- the queue end has its own format and takes no address (R308)
    + (if !f.d && f.fmt.toNat ≠ 6 && f.mode.toNat ≠ 3 then fld w 30 25 else 0)
  match fld w 6 1 with
  | 0x01 => std b3 (.fadd c vd va vb vm rm)
  | 0x02 => std b3 (.fsub c vd va vb vm rm)
  | 0x03 => std b3 (.fmul c vd va vb vm rm)
  | 0x04 => std 0 (.ffma c vd va vb vc vm rm)
  | 0x05 => std b1 (.fabs c vd va vm)
  | 0x06 => std b1 (.fneg c vd va vm)
  | 0x07 => std b2 (.fmin c vd va vb vm)
  | 0x08 => std b2 (.fmax c vd va vb vm)
  | 0x09 => std b2 (.fsel c vd va vb vm)
  | 0x0A => cmp (.fceq c md va vb vm)
  | 0x0B => cmp (.fclt c md va vb vm)
  | 0x0C => cmp (.fcle c md va vb vm)
  | 0x0D => cmp (.fcne c md va vb vm)
  | 0x10 => std b2 (.iadd c vd va vb vm)
  | 0x11 => std b2 (.isub c vd va vb vm)
  | 0x12 => std b2 (.imul c vd va vb vm)
  | 0x13 => std b2 (.imin c vd va vb vm)
  | 0x14 => std b2 (.imax c vd va vb vm)
  | 0x15 => std b2 (.iand c vd va vb vm)
  | 0x16 => std b2 (.ior c vd va vb vm)
  | 0x17 => std b2 (.ixor c vd va vb vm)
  | 0x18 => std b2 (.ishl c vd va vb vm)
  | 0x19 => std b2 (.ishr c vd va vb vm)
  | 0x1A => std b2 (.isar c vd va vb vm)
  | 0x20 => std (b3 + vb.toNat) (.cvtfi c vd va vm rm)
  | 0x21 => std (b3 + vb.toNat) (.cvtif c vd va vm rm)
  | 0x24 => std (b1 + fld w 16 15) (.bcsm c vd (bvf 3 w 14 12) vm)
  | 0x25 => std b1 (.bcsr c vd va vm)
  | 0x26 => std (fld w 31 25) (.lsh c vd va (bvf 6 w 22 17) (bitOf w 23) (bitOf w 24))
  | 0x27 => std b2 (.lgath c vd va vb vm)
  | 0x28 => std (fld w 31 23 + fld w 11 10) (.vext c (bvf 3 w 9 7) va (bvf 6 w 22 17))
  | 0x29 => std (fld w 31 19 + fld w 16 15 + fld w 11 10) (.msum c (bvf 3 w 9 7) (bvf 3 w 14 12) (bvf 2 w 18 17))
  | 0x2C => std (fld w 31 26) (.wset c vd (bvf 9 w 20 12) (bvf 5 w 25 21))
  | 0x2D => std (fld w 31 22) (.wstep c vd (bvf 10 w 21 12))
  | 0x2E => std (fld w 31 20) (.tpop c (bitOf w 7) (bvf 9 w 16 8) (bvf 3 w 19 17))
  | 0x30 => withL l 1 (zeroElse mbad (.vld c f))
  | 0x31 => withL l 1 (zeroElse mbad (.vst c f))
  | 0x34 => std (fld w 31 18 + (if bitOf w 12 then 0 else fld w 17 13)) (.rinit c (bvf 2 w 8 7) (bvf 3 w 11 9) (bitOf w 12) (bvf 5 w 17 13))
  | 0x35 => std (fld w 31 21 + fld w 12 9) (.rfeed c (bvf 2 w 8 7) (bvf 5 w 17 13) (bvf 3 w 20 18))
  | 0x36 => std (fld w 31 30) (.rfeedm c (bvf 2 w 8 7) (bvf 16 w 24 9) (bvf 5 w 29 25))
  | 0x37 => std (fld w 31 21 + (if bitOf w 9 then fld w 20 15 else fld w 14 10)) (.rread c (bvf 2 w 8 7) (bitOf w 9) (bvf 5 w 14 10) (bvf 3 w 17 15) (bvf 3 w 20 18))
  | _ => .error 0x10

/-- Matrix slots (Tables 9 and 10). -/
def decodeMatrix (c : CoreNo) (arr : Bool) (w x : Nat) : Except Nat Instr :=
  let l := w % 2
  let f : MMul := { fmt := bvf 2 w 5 4, ori := bitOf w 6, add := bitOf w 7, slide := bitOf w 8, batch := bitOf w 9,
                    qe := bitOf w 10, kr := bvf 5 w 15 11, base := bvf 6 w 21 16, m1 := bvf 8 w 29 22,
                    sh := bvf 10 x 9 0, bh := bvf 10 x 19 10, ndh := bvf 10 x 29 20 }
  let g : WOut := { dq := bitOf w 4, dfmt := bvf 2 w 6 5, rm := bvf 2 w 8 7, wide := bitOf w 9, qe := bitOf w 10,
                    o2 := bitOf w 11, gk := bvf 3 w 14 12, base := bvf 6 w 21 16, m1 := bvf 8 w 29 22,
                    n1 := bvf 6 x 5 0, dh := bvf 10 x 15 6, sch := bvf 10 x 25 16, tbb := bvf 6 x 31 26 }
  -- with QE an operand is a queue end in bits [3:0] of its field, and c comes from the casting (R309, R311)
  let fbad := fld w 31 30 + fld x 31 30 + (if f.batch then 0 else fld x 29 26)
    + (if f.qe then fld x 9 4 + fld x 19 14 + (if f.batch then fld x 29 24 else 0) else 0)
  let gbad := fld w 31 30 + fld w 15 15 + (if g.dq then g.dh.toNat + fld w 10 10 else g.dfmt.toNat)
    + (if g.wide ∧ !g.qe then 0 else g.sch.toNat) + (if g.qe then fld x 15 10 else 0)
  let mm (i : Instr) : Except Nat Instr := withL l 1 (zeroElse fbad i)
  match fld w 3 1 with
  | 0 => mm (.mac c arr f)
  | 1 => mm (.sqd c arr f)
  | 2 => mm (.abd c arr f)
  | 3 => mm (.minp c arr f)
  | 4 => mm (.maxp c arr f)
  | 5 => withL l 1 (zeroElse (gbad + g.tbb.toNat + g.gk.toNat + (if g.o2 then 1 else 0)) (.wout c arr g))
  | 6 => withL l 1 (zeroElse gbad (.woutg c arr g))
  | _ => .error 0x10

/-- Carry and special-function slot (Tables 12 and 13). -/
def decodeCsf (c : CoreNo) (w x : Nat) : Except Nat Instr :=
  let l := w % 2
  let s0 (bad : Nat) (i : Instr) : Except Nat Instr := withL l 0 (zeroElse bad i)
  let s1 (bad : Nat) (i : Instr) : Except Nat Instr := withL l 1 (zeroElse bad i)
  let st : CStepF := { ns1 := bvf 2 w 7 6, blk := bvf 13 w 20 8, rt := bvf 5 w 25 21, id := bvf 16 x 15 0,
                       stride := bvf 8 x 23 16 }
  let sbad := fld w 31 26 + fld x 31 24 + (if fld w 7 6 = 0 then fld x 23 16 else 0)
  let mode := fld w 7 6
  let tgt := bitOf w 11
  match fld w 5 1 with
  | 0x01 => s0 (fld w 31 31)
      (.sfev c { vd := bvf 5 w 10 6, va := bvf 5 w 15 11, vb := bvf 5 w 20 16, dir := bvf 4 w 24 21,
                 dfmt := bvf 2 w 26 25, rm := bvf 2 w 28 27, pk := bitOf w 29, o2 := bitOf w 30 })
  | 0x02 => s0 (fld w 31 30)
      (.gact c { vd := bvf 5 w 10 6, va := bvf 5 w 15 11, vb := bvf 5 w 20 16, dir := bvf 4 w 24 21,
                 dfmt := bvf 2 w 26 25, rm := bvf 2 w 28 27, pk := bitOf w 29 })
  | 0x03 => s0 (fld w 31 8) (.smaxi c (bvf 2 w 7 6))
  | 0x04 => s1 (fld w 31 30 + fld x 31 6)
      (.smaxt c { ctx := bvf 2 w 7 6, e := bvf 4 w 11 8, va := bvf 5 w 16 12, vd := bvf 5 w 21 17,
                  dfmt := bvf 2 w 23 22, vm := bvf 3 w 26 24, smc := bvf 3 w 29 27, smf := bvf 3 x 2 0,
                  smc2 := bvf 3 x 5 3 })
  | 0x05 => s0 (fld w 31 17) (.smaxr c (bvf 2 w 7 6) (bvf 3 w 10 8) (bvf 3 w 13 11) (bvf 3 w 16 14))
  | 0x06 => s1 (fld w 31 20) (.rmsf c (bvf 2 w 7 6) (bvf 4 w 11 8) (bvf 5 w 16 12) (bvf 3 w 19 17) (BitVec.ofNat 32 x))
  | 0x07 => s0 (fld w 31 19) (.tload c (bvf 13 w 18 6))
  | 0x08 => s0 (fld w 31 6) (.tswitch c)
  | 0x10 => s1 sbad (.cstep c st)
  | 0x11 => s1 sbad (.cadj c st)
  | 0x12 => s1 (fld w 31 26 + fld w 7 6 + x) (.ckgen c (bvf 13 w 20 8) (bvf 5 w 25 21))
  | 0x13 => s1 (fld w 31 27 + fld w 10 9 + (if tgt then 0 else fld w 26 12)
        + (if mode = 0 then 0 else fld w 8 8) + (if mode = 1 ∨ mode = 2 then fld x 15 0 else if mode = 3 then fld x 15 13 else 0))
      (.cset c { mode := bvf 2 w 7 6, fmt := bitOf w 8, tgt := tgt, elem := bvf 15 w 26 12, addr := bvf 16 x 15 0,
                 tail := bvf 16 x 31 16 })
  | 0x14 => s1 (fld w 31 27 + fld w 7 6 + (if tgt then 0 else fld w 26 12) + (if bitOf w 8 then fld w 10 9 else 0))
      (.cget c { fmt := bitOf w 8, rm := bvf 2 w 10 9, tgt := tgt, elem := bvf 15 w 26 12, addr := bvf 16 x 15 0,
                 tail := bvf 16 x 31 16 })
  | 0x15 => s1 (fld w 31 22)
      (.ccmp c { fmt := bvf 2 w 7 6, r := bvf 5 w 12 8, sm := bvf 3 w 15 13, trap := bitOf w 16, rn := bvf 5 w 21 17,
                 x := bvf 16 x 15 0, y := bvf 16 x 31 16 })
  | 0x16 => s0 (fld w 31 6) (.cwait c)
  | 0x17 => s0 (fld w 31 22) (.creset c (bvf 16 w 21 6))
  | _ => .error 0x10

/-- Data-movement slot (Tables 16 to 19, R321). -/
def decodeDmv (c : CoreNo) (w x : Nat) : Except Nat Instr :=
  let l := w % 2
  let s0 (bad : Nat) (i : Instr) : Except Nat Instr := withL l 0 (zeroElse bad i)
  let s1 (bad : Nat) (i : Instr) : Except Nat Instr := withL l 1 (zeroElse bad i)
  match fld w 5 1 with
  | 0x01 => s1 (fld w 31 30)
      (.xfer c { dir := bitOf w 6, tgt := bvf 2 w 8 7, add := bitOf w 9, hdr := bitOf w 10, nent1 := bvf 12 w 22 11,
                 list := bvf 13 x 12 0, lfirst := bvf 13 x 25 13,
                 lcnt1 := BitVec.ofNat 13 (fld w 29 23 * 64 + fld x 31 26) })
  | 0x02 => s1 (fld w 31 22 + fld x 31 26)
      (.gath c { dir := bitOf w 6, tgt := bvf 2 w 8 7, gr := bvf 13 w 21 9, lfirst := bvf 13 x 12 0,
                 lcnt1 := bvf 13 x 25 13 })
  | 0x03 => s0 (fld w 31 8) (.fence c (bitOf w 6) (bitOf w 7))
  | 0x04 => s1 (fld w 31 22) (.await c (bvf 6 w 11 6) (bvf 5 w 16 12) (bvf 5 w 21 17) (BitVec.ofNat 32 x))
  | 0x05 => s0 (fld w 31 18)
      (if bitOf w 6 then .arrsetSubtract c (bvf 6 w 12 7) (bvf 5 w 17 13) else .arrset c (bvf 6 w 12 7) (bvf 5 w 17 13))
  | 0x06 => s1 (fld w 31 16) (.semwait c (bvf 5 w 10 6) (bvf 5 w 15 11) (BitVec.ofNat 32 x))
  | 0x07 => s1 (fld w 31 28 + fld x 31 26 + (if bitOf w 22 then fld w 21 11 else 0) + (if bitOf w 27 then 0 else fld x 25 0))
      (.sempost c { sem := bvf 5 w 10 6, tcore := bvf 11 w 21 11, self := bitOf w 22, cnt1 := bvf 4 w 26 23,
                    rng := bitOf w 27, first := bvf 13 x 12 0, gcnt1 := bvf 13 x 25 13 })
  | 0x08 => s0 (fld w 31 16) (.semset c (bvf 5 w 10 6) (bvf 5 w 15 11))
  | 0x09 => s0 (fld w 31 16) (.semrd c (bvf 5 w 10 6) (bvf 5 w 15 11))
  | 0x0A =>
    if bitOf w 10 then s1 (fld w 31 11 + x) (.keepClear c (bvf 4 w 9 6))
    else s1 (fld w 31 29 + fld x 31 13) (.keep c (bvf 4 w 9 6) (bvf 13 w 23 11) (bvf 5 w 28 24) (bvf 13 x 12 0))
  | _ => .error 0x10

/-- One slot: its number in header order (Table 1), its first word and its second. -/
def decodeSlot (c : CoreNo) (slot w x : Nat) : Except Nat Instr :=
  match slot with
  | 0 => decodeScalar c w x
  | 1 => decodeVector c w x
  | 2 => decodeMatrix c false w x
  | 3 => decodeMatrix c true w x
  | 4 => decodeCsf c w x
  | _ => decodeDmv c w x

/-- The scalar registers an instruction writes (SR0 excepted: R303 discards it). -/
def srWrites : Instr → List Nat
  | .add _ rd _ _ => [rd.toNat]
  | .sub _ rd _ _ => [rd.toNat]
  | .and _ rd _ _ => [rd.toNat]
  | .or _ rd _ _ => [rd.toNat]
  | .xor _ rd _ _ => [rd.toNat]
  | .shl _ rd _ _ => [rd.toNat]
  | .shr _ rd _ _ => [rd.toNat]
  | .sar _ rd _ _ => [rd.toNat]
  | .mul _ rd _ _ => [rd.toNat]
  | .slt _ rd _ _ => [rd.toNat]
  | .sltu _ rd _ _ => [rd.toNat]
  | .seq _ rd _ _ => [rd.toNat]
  | .addi _ rd _ _ => [rd.toNat]
  | .subi _ rd _ _ => [rd.toNat]
  | .andi _ rd _ _ => [rd.toNat]
  | .ori _ rd _ _ => [rd.toNat]
  | .xori _ rd _ _ => [rd.toNat]
  | .shli _ rd _ _ => [rd.toNat]
  | .shri _ rd _ _ => [rd.toNat]
  | .sari _ rd _ _ => [rd.toNat]
  | .muli _ rd _ _ => [rd.toNat]
  | .slti _ rd _ _ => [rd.toNat]
  | .sltui _ rd _ _ => [rd.toNat]
  | .seqi _ rd _ _ => [rd.toNat]
  | .movsm _ rd _ => [rd.toNat]
  | .tbr _ rd => [rd.toNat]
  | .li _ rd _ => [rd.toNat]
  | .lih _ rd _ => [rd.toNat]
  | .await _ _ _ rd _ => [rd.toNat]
  | .semwait _ _ rd _ => [rd.toNat]
  | .semrd _ _ rd => [rd.toNat]
  | _ => []

/-- The summary registers an instruction writes (R150); `v64` decides SMC2 (Table 12). -/
def smWrites (v64 : Bool) : Instr → List Nat
  | .vext _ sm _ _ => [sm.toNat]
  | .msum _ sm _ _ => [sm.toNat]
  | .tpop _ _ _ sm => [sm.toNat]
  | .rread _ _ tov _ sm _ => if tov then [] else [sm.toNat]
  | .smaxt _ f => [f.smc.toNat, f.smf.toNat] ++ (if v64 then [f.smc2.toNat] else [])
  | .smaxr _ _ a b d => [a.toNat, b.toNat, d.toNat]
  | .rmsf _ _ _ _ sm _ => [sm.toNat]
  | .ccmp _ f => [f.sm.toNat]
  | _ => []

/-- A register written by two different slots (R300). -/
def dupWrite (f : Instr → List Nat) : List Instr → Bool
  | [] => false
  | i :: is => is.any (fun j => (f i).any (fun r => r ≠ 0 && (f j).contains r)) || dupWrite f is

/-- A decoded long word (R298, R299). -/
structure LongWord where
  tag : W16
  commit : Bool
  stop : Bool
  slots : List Instr
  size : Nat
  deriving DecidableEq, Repr

/-- The words of the slots present, in slot order: (slot, word 0, word 1). None where the bytes end. -/
def slotWords (h : Nat) : List Nat → List Byte → Option (List (Nat × Nat × Nat) × Nat)
  | [], _ => some ([], 4)
  | k :: ks, bs =>
    if h.testBit k then
      (if bs.length < 4 then none
       else
        let w := bytesNat (bs.take 4)
        let n := if w % 2 = 1 then 8 else 4
        if bs.length < n then none
        else match slotWords h ks (bs.drop n) with
          | none => none
          | some (r, z) => some ((k, w, bytesNat ((bs.drop 4).take (n - 4))) :: r, z + n))
    else slotWords h ks bs

/-- Decode every slot in order; the first fault stops. -/
def decodeSlots (c : CoreNo) : List (Nat × Nat × Nat) → Except Nat (List Instr)
  | [] => .ok []
  | (k, w, x) :: r =>
    match decodeSlot c k w x with
    | .error e => .error e
    | .ok i => match decodeSlots c r with
      | .error e => .error e
      | .ok is => .ok (i :: is)

/-- What the sequencer reads at the head of an issue queue. -/
inductive LwRead where
  | more
  | fault (code : Nat) (tag : W16)
  | word (lw : LongWord)
  deriving DecidableEq, Repr

/-- Decode the long word at the head of the bytes (R298 to R302). -/
def decodeLongWord (v64 : Bool) (c : CoreNo) (bs : List Byte) : LwRead :=
  if bs.length < 4 then .more
  else
    let h := bytesNat (bs.take 4)
    let tag : W16 := bvf 16 h 21 6
    if fld h 31 24 ≠ 0 then .fault 0x4E tag
    else match slotWords h [0, 1, 2, 3, 4, 5] (bs.drop 4) with
      | none => .more
      | some (ws, n) =>
        match decodeSlots c ws with
        | .error e => .fault e tag
        | .ok is =>
          if dupWrite srWrites is || dupWrite (fun i => (smWrites v64 i).map (· + 1)) is then .fault 0x4E tag
          else .word { tag := tag, commit := bitOf h 22, stop := bitOf h 23, slots := is, size := n }

/-- The command a word of the table spells: the table gives no row bits. -/
def decodeTableWord (_nbits _w : Nat) : Option Instr := none

end Sys2Proof
end

