-- ==== Sys2Proof/Config.lean ====
section
/-! DEFINITION. Config.lean: what an implementation fixes and the spec leaves open. Every opaque constant here is a free
value: it has no body, so no proof can see a value of it (DESIGN CHOICE, assumption log 3). -/

namespace Sys2Proof.Config

/-- A fresh unconstrained number for each value of the free-value counter of State (DESIGN CHOICE, log 3). -/
opaque freeNat : Nat → Nat

/-- The build the licensee bought: true is V64 (R133; GLB_FEAT0.V64 reads it). Not fixed by the spec. -/
opaque buildV64 : Bool

/-- Byte `i` of the Osrel 2 compatibility image (R175), whose 6,432 bytes are published outside the spec (DESIGN CHOICE, log 3). -/
opaque o2Image : Nat → BitVec 8

end Sys2Proof.Config
end

