-- ==== Sys2Proof/Machine/Fp.lean ====
section
/-! DEFINITION. Machine/Fp.lean: number formats (R62 to R84). Values are exact dyadic numbers; every rounding of the
spec is one call of a rounding function here. -/

namespace Sys2Proof.Machine

/-- An exact value: a NaN, an infinity, or (-1)^neg * m * 2^e (m = 0 is the signed zero). -/
inductive FV where
  | nan
  | inf (neg : Bool)
  | fin (neg : Bool) (m : Nat) (e : Int)
  deriving DecidableEq, Repr

/-- The sticky format flags of COR_FMTFLAGS, bit for bit as Table 4 of Number formats (R72). -/
abbrev Fl := BitVec 6

def flOvf : Fl := 0x01#6
def flFlush : Fl := 0x02#6
def flNangen : Fl := 0x04#6
def flNanin : Fl := 0x08#6
def flNonfin : Fl := 0x10#6
def flSat : Fl := 0x20#6

/-- The floating-point formats of Table 1 (R62). -/
inductive FFmt where
  | bf16 | fp16 | fp32 | os40
  deriving DecidableEq, Repr

/-- Exponent field width (R62). -/
def FFmt.eb : FFmt → Nat
  | .fp16 => 5 | .bf16 => 8 | .fp32 => 8 | .os40 => 8

/-- Fraction field width (R62). -/
def FFmt.fb : FFmt → Nat
  | .bf16 => 7 | .fp16 => 10 | .fp32 => 23 | .os40 => 31

/-- Bias (R62). -/
def FFmt.bias : FFmt → Nat
  | .fp16 => 15 | .bf16 => 127 | .fp32 => 127 | .os40 => 127

/-- Bytes per element (R63). -/
def FFmt.bytes : FFmt → Nat
  | .bf16 => 2 | .fp16 => 2 | .fp32 => 4 | .os40 => 5

/-- True where the format holds subnormals (R65). -/
def FFmt.subn : FFmt → Bool
  | .bf16 => true | .fp16 => true | .fp32 => false | .os40 => false

/-- Rounding modes (Table 3, R67). -/
inductive RM where
  | rne | rtz | rdn | rup
  deriving DecidableEq, Repr

/-- The 2-bit code of a rounding mode (R67). -/
def RM.ofCode (c : Nat) : RM :=
  match c % 4 with
  | 0 => .rne
  | 1 => .rtz
  | 2 => .rdn
  | _ => .rup

/-- The integer that `m * 2^sh` of the given sign rounds to in magnitude under `rm` (R67). -/
def rndInt (rm : RM) (neg : Bool) (m : Nat) (sh : Int) : Nat :=
  if 0 ≤ sh then m <<< sh.toNat
  else
    let d := (-sh).toNat
    let f := m >>> d
    let r := m % 2 ^ d
    let up : Bool :=
      match rm with
      | .rne => decide (2 ^ d < 2 * r) || (decide (2 * r = 2 ^ d) && decide (f % 2 = 1))
      | .rtz => false
      | .rdn => neg && decide (r ≠ 0)
      | .rup => !neg && decide (r ≠ 0)
    if up then f + 1 else f

/-- Round a nonzero magnitude to `p` significant bits with an unbounded exponent (R66). -/
def rndSig (p : Nat) (rm : RM) (neg : Bool) (m : Nat) (e : Int) : Nat × Int :=
  let q : Int := e + (Nat.log2 m : Int) - ((p : Int) - 1)
  (rndInt rm neg m (e - q), q)

/-- ⌊log2 (m * 2^e)⌋ of a nonzero magnitude. -/
def msbOf (m : Nat) (e : Int) : Int := (Nat.log2 m : Int) + e

/-- The pattern of a signed zero, an infinity, the canonical NaN and the largest finite value (Table 2). -/
def FFmt.signBit (f : FFmt) (neg : Bool) : Nat := if neg then 2 ^ (f.eb + f.fb) else 0
def FFmt.infBits (f : FFmt) (neg : Bool) : Nat := f.signBit neg + (2 ^ f.eb - 1) * 2 ^ f.fb
def FFmt.nanBits (f : FFmt) : Nat := (2 ^ f.eb - 1) * 2 ^ f.fb + 2 ^ (f.fb - 1)
def FFmt.maxBits (f : FFmt) (neg : Bool) : Nat := f.infBits neg - 1

/-- A finite result too large for the format (R68). -/
def FFmt.overflowBits (f : FFmt) (rm : RM) (neg : Bool) : Nat :=
  match rm with
  | .rne => f.infBits neg
  | .rtz => f.maxBits neg
  | .rdn => if neg then f.infBits neg else f.maxBits neg
  | .rup => if neg then f.maxBits neg else f.infBits neg

/-- Read an operand pattern: R62, R64 and R65 (FP32 and OS40 subnormals read as signed zeros and set FLUSH). -/
def FFmt.read (f : FFmt) (bits : Nat) : FV × Fl :=
  let neg := bits.testBit (f.eb + f.fb)
  let ex := fld bits (f.eb + f.fb - 1) f.fb
  let fr := bits % 2 ^ f.fb
  if ex = 2 ^ f.eb - 1 then (if fr = 0 then (.inf neg, 0#6) else (.nan, flNanin))
  else if ex = 0 then
    (if fr = 0 then (.fin neg 0 0, 0#6)
     else if f.subn then (.fin neg fr (1 - (f.bias : Int) - (f.fb : Int)), 0#6)
     else (.fin neg 0 0, flFlush))
  else (.fin neg (fr + 2 ^ f.fb) ((ex : Int) - (f.bias : Int) - (f.fb : Int)), 0#6)

/-- Round an exact value once to the format: R66, R68 and the IEEE subnormal grid of BF16 and FP16. A NaN gives the
canonical NaN (R64); NANGEN is the operation's to set. -/
def FFmt.write (f : FFmt) (rm : RM) : FV → Nat × Fl
  | .nan => (f.nanBits, 0#6)
  | .inf neg => (f.infBits neg, 0#6)
  | .fin neg m e =>
    if m = 0 then (f.signBit neg, 0#6)
    else
      let qmin : Int := 1 - (f.bias : Int) - (f.fb : Int)
      let q0 : Int := msbOf m e - (f.fb : Int)
      let q : Int := if f.subn && decide (q0 < qmin) then qmin else q0
      let k := rndInt rm neg m (e - q)
      if k = 0 then (f.signBit neg, 0#6)
      else
        let top := msbOf k q
        if (f.bias : Int) < top then (f.overflowBits rm neg, flOvf)
        else if top < 1 - (f.bias : Int) then
          (if f.subn then (f.signBit neg + k, 0#6) else (f.signBit neg, flFlush))
        else
          let sig := if 2 ^ (f.fb + 1) ≤ k then k / 2 else k
          (f.signBit neg + (top + (f.bias : Int)).toNat * 2 ^ f.fb + (sig - 2 ^ f.fb), 0#6)

/-- Negation (the sign of a NaN does not matter, R64). -/
def FV.neg : FV → FV
  | .nan => .nan
  | .inf n => .inf (!n)
  | .fin n m e => .fin (!n) m e

/-- Absolute value. -/
def FV.abs : FV → FV
  | .nan => .nan
  | .inf _ => .inf false
  | .fin _ m e => .fin false m e

def FV.isNan : FV → Bool
  | .nan => true
  | _ => false

def FV.isInf : FV → Bool
  | .inf _ => true
  | _ => false

def FV.isFin : FV → Bool
  | .fin _ _ _ => true
  | _ => false

/-- The sign bit (a NaN reads 0). -/
def FV.sgn : FV → Bool
  | .nan => false
  | .inf n => n
  | .fin n _ _ => n

def FV.zero : FV := .fin false 0 0
def FV.one : FV := .fin false 1 0
def FV.ofInt (i : Int) : FV := .fin (decide (i < 0)) i.natAbs 0

/-- Exact product (R69; 0 * Inf is a NaN). -/
def FV.mul : FV → FV → FV
  | .nan, _ => .nan
  | _, .nan => .nan
  | .inf a, .inf b => .inf (a != b)
  | .inf a, .fin b m _ => if m = 0 then .nan else .inf (a != b)
  | .fin a m _, .inf b => if m = 0 then .nan else .inf (a != b)
  | .fin a m e, .fin b k f => .fin (a != b) (m * k) (e + f)

/-- Signed integer `±m * 2^(e - lo)`. -/
def scaledInt (neg : Bool) (m : Nat) (e lo : Int) : Int :=
  let v : Int := ((m <<< (e - lo).toNat : Nat) : Int)
  if neg then -v else v

/-- Exact sum; the sign of an exact zero under `rm` follows R69. -/
def FV.add (rm : RM) : FV → FV → FV
  | .nan, _ => .nan
  | _, .nan => .nan
  | .inf a, .inf b => if a = b then .inf a else .nan
  | .inf a, .fin _ _ _ => .inf a
  | .fin _ _ _, .inf b => .inf b
  | .fin a m e, .fin b k f =>
    if m = 0 then (if k = 0 then .fin (if a = b then a else rm == .rdn) 0 0 else .fin b k f)
    else if k = 0 then .fin a m e
    else
      let lo := if e ≤ f then e else f
      let v := scaledInt a m e lo + scaledInt b k f lo
      if v = 0 then .fin (rm == .rdn) 0 0 else .fin (decide (v < 0)) v.natAbs lo

/-- Exact difference. -/
def FV.sub (rm : RM) (a b : FV) : FV := FV.add rm a (FV.neg b)

/-- Quotient of finite magnitudes to `p + 2` bits with a sticky last bit: it rounds to `p` bits as the exact quotient. -/
def quotMag (p : Nat) (m : Nat) (e : Int) (k : Nat) (f : Int) : Nat × Int :=
  let s := p + 3 + Nat.log2 k
  let n := m <<< s
  let q := n / k
  (2 * q + (if n % k = 0 then 0 else 1), e - f - (s : Int) - 1)

/-- Quotient, exact for every rounding to at most `p` bits (x / 0 is ±Inf, 0 / 0 and Inf / Inf are NaN). -/
def FV.div (p : Nat) : FV → FV → FV
  | .nan, _ => .nan
  | _, .nan => .nan
  | .inf _, .inf _ => .nan
  | .inf a, .fin b _ _ => .inf (a != b)
  | .fin a _ _, .inf b => .fin (a != b) 0 0
  | .fin a m e, .fin b k f =>
    if k = 0 then (if m = 0 then .nan else .inf (a != b))
    else if m = 0 then .fin (a != b) 0 0
    else
      let r := quotMag p m e k f
      .fin (a != b) r.1 r.2

/-- `x * 2^k`. -/
def FV.scale (k : Int) : FV → FV
  | .nan => .nan
  | .inf n => .inf n
  | .fin n m e => .fin n m (e + k)

/-- Comparison of two values that are not NaN: -1, 0 or 1 as an `Ordering` (R70: the zeros are equal). -/
def FV.cmp : FV → FV → Ordering
  | .nan, _ => .eq
  | _, .nan => .eq
  | .inf a, .inf b => if a = b then .eq else if a then .lt else .gt
  | .inf a, .fin _ _ _ => if a then .lt else .gt
  | .fin _ _ _, .inf b => if b then .gt else .lt
  | .fin a m e, .fin b k f =>
    let lo := if e ≤ f then e else f
    compare (scaledInt a m e lo) (scaledInt b k f lo)

/-- Equality test of R70 (false when unordered). -/
def FV.eqv (a b : FV) : Bool := !a.isNan && !b.isNan && FV.cmp a b == .eq
/-- "Less" of R70. -/
def FV.lt (a b : FV) : Bool := !a.isNan && !b.isNan && FV.cmp a b == .lt
/-- "Less or equal" of R70. -/
def FV.le (a b : FV) : Bool := !a.isNan && !b.isNan && !(FV.cmp a b == .gt)

/-- Minimum of R71. -/
def FV.min (a b : FV) : FV :=
  if a.isNan || b.isNan then .nan
  else match FV.cmp a b with
    | .lt => a
    | .gt => b
    | .eq => if a.sgn then a else b

/-- Maximum of R71. -/
def FV.max (a b : FV) : FV :=
  if a.isNan || b.isNan then .nan
  else match FV.cmp a b with
    | .lt => b
    | .gt => a
    | .eq => if a.sgn then b else a

/-- The NANGEN flag of a result `r` formed from operands of which `anyNan` says whether one was a NaN (R72). -/
def nanGen (r : FV) (anyNan : Bool) : Fl := if r.isNan && !anyNan then flNangen else 0#6

/-- The value `v` rounded to format `f` under `rm`, with NANGEN where no operand was a NaN. -/
def FFmt.result (f : FFmt) (rm : RM) (v : FV) (anyNan : Bool) : Nat × Fl :=
  let r := f.write rm v
  (r.1, r.2 ||| nanGen v anyNan)

/-- A value rounded once to format `f` and read back as a value, with the flags of the rounding. -/
def FFmt.round (f : FFmt) (rm : RM) (v : FV) : FV × Fl :=
  let r := f.write rm v
  ((f.read r.1).1, r.2)

/-- One rounded two-operand FP32 operation on patterns (R135). -/
def fp32Op2 (rm : RM) (op : FV → FV → FV) (a b : W32) : W32 × Fl :=
  let x := FFmt.fp32.read a.toNat
  let y := FFmt.fp32.read b.toNat
  let r := FFmt.fp32.result rm (op x.1 y.1) (x.1.isNan || y.1.isNan)
  (BitVec.ofNat 32 r.1, x.2 ||| y.2 ||| r.2)

/-- FP32 fused multiply-add on patterns: one rounding (R135). -/
def fp32Fma (rm : RM) (a b c : W32) : W32 × Fl :=
  let x := FFmt.fp32.read a.toNat
  let y := FFmt.fp32.read b.toNat
  let z := FFmt.fp32.read c.toNat
  let r := FFmt.fp32.result rm (FV.add rm (FV.mul x.1 y.1) z.1) (x.1.isNan || y.1.isNan || z.1.isNan)
  (BitVec.ofNat 32 r.1, x.2 ||| y.2 ||| z.2 ||| r.2)

/-- Convert a pattern of one floating-point format into another (Table 6, codes E, F and R). A format to itself copies
the value's reading. -/
def cvtFloat (src dst : FFmt) (rm : RM) (bits : Nat) : Nat × Fl :=
  let x := src.read bits
  let r := dst.write rm x.1
  (r.1, x.2 ||| r.2)

/-- FP32 to a 32-bit integer (R136). -/
def cvtFI (rm : RM) (a : W32) : W32 × Fl :=
  let x := FFmt.fp32.read a.toNat
  match x.1 with
  | .nan => (0#32, x.2 ||| flNanin)
  | .inf n => (if n then 0x80000000#32 else 0x7FFFFFFF#32, x.2 ||| flSat)
  | .fin n m e =>
    let k := rndInt rm n m e
    if n then
      (if 2 ^ 31 < k then (0x80000000#32, x.2 ||| flSat) else (BitVec.ofInt 32 (-(k : Int)), x.2))
    else (if 2 ^ 31 ≤ k then (0x7FFFFFFF#32, x.2 ||| flSat) else (BitVec.ofNat 32 k, x.2))

/-- A 32-bit integer to FP32 (R136). -/
def cvtIF (rm : RM) (a : W32) : W32 × Fl :=
  let r := FFmt.fp32.write rm (FV.ofInt a.toInt)
  (BitVec.ofNat 32 r.1, r.2)

/-- Encode FP32 into OW32 with scale exponent `f` (R83). -/
def ow32Encode (f : Int) (a : W32) : W32 × Fl :=
  let x := FFmt.fp32.read a.toNat
  match x.1 with
  | .nan => (0#32, x.2 ||| flNonfin)
  | .inf n => (if n then 0x80000000#32 else 0x7FFFFFFF#32, x.2 ||| flSat ||| flNonfin)
  | .fin n m e =>
    let k := rndInt .rne n m (e + f)
    if n then
      (if 2 ^ 31 < k then (0x80000000#32, x.2 ||| flSat) else (BitVec.ofInt 32 (-(k : Int)), x.2))
    else (if 2 ^ 31 ≤ k then (0x7FFFFFFF#32, x.2 ||| flSat) else (BitVec.ofNat 32 k, x.2))

/-- Decode OW32 to FP32 (R83). -/
def ow32Decode (rm : RM) (f : Int) (a : W32) : W32 × Fl :=
  let r := FFmt.fp32.write rm ((FV.ofInt a.toInt).scale (-f))
  (BitVec.ofNat 32 r.1, r.2)

/-- OB element kinds: OB8 or OB4, two's complement or unsigned, block of 16 or 32 (R73, R74). -/
structure ObKind where
  four : Bool
  uns : Bool
  blk32 : Bool
  deriving DecidableEq, Repr

/-- qmax of Table 5. -/
def ObKind.qmax (k : ObKind) : Nat :=
  if k.four then (if k.uns then 15 else 7) else (if k.uns then 255 else 127)

/-- b of Table 5. -/
def ObKind.b (k : ObKind) : Nat :=
  if k.four then (if k.uns then 3 else 2) else (if k.uns then 7 else 6)

/-- Block size (R74). -/
def ObKind.block (k : ObKind) : Nat := if k.blk32 then 32 else 16

/-- The integer a stored element stands for (R73). -/
def ObKind.q (k : ObKind) (bits : Nat) : Int :=
  let w := if k.four then 4 else 8
  if k.uns then ((bits % 2 ^ w : Nat) : Int) else sext w bits

/-- The stored bits of an integer element. -/
def ObKind.bits (k : ObKind) (q : Int) : Nat := wrap (if k.four then 4 else 8) q

/-- RNE(x / s) of a finite `x` for `s = 2^k`, as a signed integer. -/
def rneScaled (x : FV) (k : Int) : Int :=
  match x with
  | .fin n m e => let v := rndInt .rne n m (e - k); if n then -(v : Int) else (v : Int)
  | _ => 0

/-- Clamp an element to its range (R77): the integer and whether it changed. SAT follows R77's pseudocode, "if a value changed", so a negative
source that rounds to 0 sets none in an unsigned block, where R77's prose says that a negative source sets SAT. DEDUCED: log 153. -/
def ObKind.clamp (k : ObKind) (q : Int) : Int × Bool :=
  let lo : Int := if k.uns then 0 else -(k.qmax : Int)
  if q < lo then (lo, true) else if (k.qmax : Int) < q then ((k.qmax : Int), true) else (q, false)

/-- Flags of reading a list of sources. -/
def flAll (l : List Fl) : Fl := l.foldl (· ||| ·) 0#6

/-- Encode one block of read sources (R77): the exponent byte, the integers and the flags. -/
def ObKind.encodeBlock (k : ObKind) (xs : List FV) : Nat × List Int × Fl :=
  if xs.any (fun x => x.isNan || x.isInf) then (0xFF, xs.map (fun _ => 0), flNonfin)
  else
    let m := xs.foldl (fun a x => FV.max a (if k.uns then FV.max x FV.zero else x.abs)) FV.zero
    match m with
    | .fin _ mm me =>
      if mm = 0 then
        (0x00, xs.map (fun _ => 0), if k.uns && xs.any (fun x => FV.lt x FV.zero) then flSat else 0#6)
      else
        let k0 : Int := msbOf mm me - (k.b : Int)
        let k1 : Int := if (k.qmax : Int) < rneScaled m k0 then k0 + 1 else k0
        let k2 : Int := if k1 < -127 then -127 else k1
        let qs := xs.map (fun x => k.clamp (rneScaled x k2))
        ((k2 + 127).toNat, qs.map (·.1), if qs.any (·.2) then flSat else 0#6)
    | _ => (0xFF, xs.map (fun _ => 0), flNonfin)

/-- Encode one element of a wide channel or tensor against its scale (R80). -/
def ObKind.encodeWide (k : ObKind) (x s : FV) : Int × Fl :=
  match s with
  | .fin false sm se =>
    if sm = 0 then (0, flNonfin)
    else match x with
      | .fin n m e =>
        let r := quotMag 16 m e sm se
        let v := rndInt .rne n r.1 r.2
        let c := k.clamp (if n then -(v : Int) else (v : Int))
        (c.1, if c.2 then flSat else 0#6)
      | _ => (0, flNonfin)
  | _ => (0, flNonfin)

/-- The value an OB element of block exponent `ex` stands for (R73, R74: 0xFF reads +0). -/
def ObKind.value (k : ObKind) (ex bits : Nat) : FV :=
  if ex = 0xFF then FV.zero else (FV.ofInt (k.q bits)).scale ((ex : Int) - 127)

/-- Step-format rounding (R158): 32 significant bits, exponent -250 to 250. -/
def stepRound : FV → FV
  | .nan => .nan
  | .inf n => .inf n
  | .fin n m e =>
    if m = 0 then .fin n 0 0
    else
      let r := rndSig 32 .rne n m e
      let top := msbOf r.1 r.2
      if 250 < top then .inf n else if top < -250 then .fin n 0 0 else .fin n r.1 r.2

end Sys2Proof.Machine
end

