-- ==== Sys2Proof/Machine/CoreTypes.lean ====
section
/-! DEFINITION. Machine/CoreTypes.lean: the data of one sequence core (R24). -/

namespace Sys2Proof.Machine

/-- An operand an instruction named, resolved at issue from its descriptor (R286) or its queue end (R287). Byte addresses
are of the local store. -/
structure Opnd where
  /-- inbound or outbound queue-end index, none for a descriptor -/
  qend : Option Nat := none
  /-- format code of Table 4 of Programming model -/
  fmt : Nat := 0
  sgn : Bool := false
  blk : Bool := false
  wide : Nat := 0
  /-- the casting's wide-channel list, ascending -/
  chans : List Nat := []
  rows : Nat := 0
  cols : Nat := 0
  eb : Nat := 0
  pitch : Nat := 0
  xb : Nat := 0
  xpitch : Nat := 0
  sb : Nat := 0
  /-- queue ends: item size in granules, ring granule and capacity -/
  item : Nat := 0
  ring : Nat := 0
  nitems : Nat := 0
  deriving DecidableEq, Repr

/-- What the scoreboards of a core order (R139, R141, R149, R151, R119, R167, R241): half-open ranges for the operand
cache and the local store in granules. -/
inductive Res where
  | ls (lo hi : Nat)
  | cache (lo hi : Nat)
  | mask (i : Nat)
  | sm (i : Nat)
  | rctx (i : Nat)
  | bank (i : Nat)
  | tile (arr : Bool) (lo hi : Nat)
  deriving DecidableEq, Repr

/-- The engines that hold issued, unfinished instructions; `wq` holds write-outs that wait for room in a finished-tile
queue (R143). -/
inductive Eng where
  | vec | arr (b : Bool) | wq (b : Bool) | sfu | tload | carry
  deriving DecidableEq, Repr

/-- An item an instruction has still to push (R287, R288): outbound queue end, message ordinal, bytes. -/
structure PushItem where
  qend : Nat
  ord : Nat
  bytes : List Byte
  deriving DecidableEq, Repr

/-- An issued, unfinished instruction with everything it captured at issue (R286, R301, R313). -/
structure Entry where
  seq : Nat
  tag : W16
  eng : Eng
  instr : Instr
  /-- window bases at issue, as offsets from their reset values (R137) -/
  win : Sp Nat := []
  /-- scalar registers read at issue, in the order of the instruction's fields -/
  sr : List W64 := []
  ops : List Opnd := []
  /-- step-block words (R313) -/
  blk : List W32 := []
  /-- special-function bank (R166) or curve copy (R186) bound at issue -/
  bank : Nat := 0
  /-- state-store base of each named stream (R211) -/
  slots : List Nat := []
  rd : List Res := []
  wr : List Res := []
  /-- inbound queue ends it pops and how many items of each, in the order it reads them (R309) -/
  pops : List (Nat × Nat) := []
  /-- batch group the column joined (R105) -/
  group : Option Nat := none
  /-- next tile a queue write-out enters (R143) -/
  prog : Nat := 0
  /-- timebase at which its queue-end wait passes its limit, 0 while it does not wait (R288) -/
  deadline : Nat := 0
  /-- it has run, and these items wait for credits (R287) -/
  pushes : List PushItem := []
  /-- first message ordinal of the queue-end items or the post it sends (R377) -/
  ord : Nat := 0
  /-- faulted in execution: it stays uncompleted and stops its engine (DEDUCED, log 22) -/
  dead : Bool := false
  deriving DecidableEq, Repr

/-- A tile in a finished-tile queue (R143): its 256 converted elements, their format code and its flag word. -/
structure FinTile where
  fmt : Nat
  elems : List Nat
  flag : W32
  deriving DecidableEq, Repr

/-- A reduction context (R147): kind code of RINIT, count, and up to two FP32 values. -/
structure RCtx where
  kind : Nat := 0
  n : Nat := 0
  a : W32 := 0
  b : W32 := 0
  deriving DecidableEq, Repr

/-- A soft-maximum context (R171). -/
structure SmCtx where
  m : W32 := 0
  s : W32 := 0
  deriving DecidableEq, Repr

/-- A special-function bank (R156): its bytes and whether it is valid. -/
structure Bank where
  img : Memory := []
  valid : Bool := false
  id : W32 := 0
  deriving DecidableEq, Repr

/-- A core's view of a stream with a slot (R219, R220): reset flag, position, stepped since it became resident. -/
structure StrView where
  flag : Bool := false
  pos : Nat := 0
  stepped : Bool := false
  deriving DecidableEq, Repr

/-- A kept-range entry (R249). -/
structure Kept where
  first : Nat := 0
  count : Nat := 0
  tierB : Bool := false
  /-- physical address of the backing copy -/
  back : Nat := 0
  deriving DecidableEq, Repr

/-- The state of a core that a commit point records and recovery restores (Table 5 of Programming model, R303). -/
structure CoreArch where
  /-- SR1 to SR31 (R303); key 0 is never written -/
  sr : Sp W64 := []
  /-- SM0 to SM7 (R150) -/
  sm : Sp W32 := []
  /-- descriptor base, word address (R286) -/
  dbase : Nat := 0
  /-- accumulator elements, key array * 16384 + tile * 256 + position (R116) -/
  acc : Sp W32 := []
  /-- tile flag words, key array * 64 + tile (R124) -/
  tflag : Sp W32 := []
  /-- finished-tile queues A and B, oldest first (R143) -/
  finA : List FinTile := []
  finB : List FinTile := []
  /-- operand cache words (R137) -/
  cache : Sp W32 := []
  /-- window bases as offsets from their reset values (R137, R138) -/
  win : Sp Nat := []
  /-- VM1 to VM7 as L-bit numbers (R141) -/
  masks : Sp Nat := []
  rctx : List RCtx := [{}, {}, {}, {}]
  smctx : List SmCtx := [{}, {}, {}, {}]
  bank0 : Bank := {}
  bank1 : Bank := {}
  bankAct : Bool := false
  /-- curve copies 0 and 1 (R186) and the selection -/
  curve0 : Memory := []
  curve1 : Memory := []
  curveAct : Bool := false
  /-- working values of the state store (R181) -/
  store : Sp W40 := []
  /-- streams with a slot on this core, by id (R219, R220) -/
  strs : Sp StrView := []
  arr : Sp W32 := []
  sem : Sp Nat := []
  /-- kept-range table: the working table in `cur`, the committed one in `rp` (R249) -/
  kept : Sp Kept := []
  /-- items popped from each inbound queue end, items pushed to each outbound one (R287, R288) -/
  qpop : Sp Nat := []
  qpush : Sp Nat := []
  /-- COR_REGION (R289) -/
  region : Nat := 0
  deriving DecidableEq, Repr

/-- The post of a SEMPOST (R272): target core by partition-order index, none for the issuing core; semaphore and count. -/
structure PostReq where
  tcore : Option Nat
  sem : Nat
  cnt : Nat
  deriving DecidableEq, Repr

/-- A transfer of the data-movement engine (R254); a semaphore post is one of the execute queue. -/
structure Xfer where
  seq : Nat
  tag : W16
  gath : Bool
  tgt : Nat
  add : Bool := false
  hdr : Bool := false
  nent : Nat := 0
  /-- first granule of the block list, or granule of the gather record -/
  list : Nat := 0
  lfirst : Nat
  lcnt : Nat
  /-- the post, for a SEMPOST (R254, R272) -/
  post : Option PostReq := none
  /-- message ordinal (R377), and that of its completion post to another core (DESIGN CHOICE, log 26) -/
  ordinal : Nat := 0
  pord : Option Nat := none
  /-- transfers issued before it in its region -/
  xidx : Nat := 0
  started : Bool := false
  /-- stopped on a page fault (R264) -/
  halted : Bool := false
  /-- stopped for good on a fault (R266) -/
  dead : Bool := false
  /-- position: block or row, granule offset (R259) -/
  blk : Nat := 0
  off : Nat := 0
  /-- every request made -/
  allReq : Bool := false
  /-- requests unanswered -/
  open_ : Nat := 0
  /-- page index the next request waits for a walk of (R261) -/
  walk : Option Nat := none
  /-- header words (R318) or gather record words (R319) read at start -/
  head : List W32 := []
  /-- granules of its message sent so far -/
  moved : Nat := 0
  /-- granules of this transfer entered in the deferred-release log -/
  logged : Nat := 0
  rd : List Res := []
  wr : List Res := []
  /-- a code found at its position, recorded once the granules requested before it are delivered (R259, R264, R267) -/
  stop : Option Nat := none
  /-- timebase at which a push's credit wait passes its limit, 0 while it does not wait (R288) -/
  deadline : Nat := 0
  deriving DecidableEq, Repr

/-- A timed wait that holds issue (R247, R271). -/
inductive Wait where
  | arrive (ctr : Nat) (thr : Nat) (rd : Nat) (deadline : Option Nat)
  | sema (sem : Nat) (rd : Nat) (deadline : Option Nat)
  deriving DecidableEq, Repr

/-- A stream bound to a core (R280). -/
structure BoundStream where
  /-- submission number within the block -/
  sub : Nat
  addr : Nat
  len : Nat
  deriving DecidableEq, Repr

/-- A commit mark whose commit point has not taken effect (R290). -/
structure Mark where
  seq : Nat
  stop : Bool
  /-- byte offset of the long word that follows the marked one, or of the target of its taken branch (R285, R406 step 5) -/
  next : Nat
  deriving DecidableEq, Repr

/-- What an instruction that acts in its issue beat does to core state (R246, R249, R270, R286, R303, R305): it waits while an earlier
commit point has not taken effect (R290). -/
inductive Late where
  /-- SR[`i`] becomes `v` -/
  | sr (i : Nat) (v : W64)
  | dbase (v : Nat)
  /-- the local-store word at byte `a` becomes `v` -/
  | word (a : Nat) (v : W32)
  /-- the other special-function bank becomes active -/
  | bank
  | arr (ctr : Nat) (v : W32)
  | arrSub (ctr : Nat) (v : W32)
  | sem (i v : Nat)
  /-- kept-range entry `k` becomes `e`, once the earlier writes of its range are complete -/
  | keep (k : Nat) (e : Kept)
  deriving DecidableEq, Repr

/-- What a message counted at its target so far (R415), by source core and message id. -/
structure MsgCount where
  src : Nat
  region : Nat
  ordinal : Nat
  counted : Nat
  /-- the contents that a put's granules first brought, in offset order (R391) -/
  grans : List Granule := []
  deriving DecidableEq, Repr

/-- The state of a core that commit points do not record: issue, engines' queues, the local store, registers. -/
structure CoreRun where
  /-- streams waiting, then the one running (R280) -/
  list : List BoundStream := []
  run : Option BoundStream := none
  /-- issue queue: bytes of the stream from offset `iqOff`, and bytes fetched that the fetch engine has not placed in it (R215, R281) -/
  iq : List Byte := []
  iqOff : Nat := 0
  pre : List Byte := []
  /-- a read of the granule at this offset is outstanding -/
  fetch : Option Nat := none
  /-- stream ids whose QCOUNT increment has been granted, for long words not yet placed (R215) -/
  qadm : List Nat := []
  /-- QCOUNT decrements owed (R215) -/
  qdec : List Nat := []
  /-- offset of the long word after the last commit point's (R406) -/
  rpOff : Nat := 0
  /-- tag and sequence of the last long word issued -/
  lastTag : W16 := 0
  seq : Nat := 0
  /-- message ordinals used in the region of the next long word (R289, R377), and transfers issued in it -/
  ordinal : Nat := 0
  xord : Nat := 0
  entries : List Entry := []
  fq : List Xfer := []
  eq : List Xfer := []
  fHalt : Bool := false
  eHalt : Bool := false
  /-- commit marks whose commit points have not taken effect, oldest first (R290) -/
  marks : List Mark := []
  /-- effects of issued instructions that wait for a commit point or for earlier writes, in issue order, by sequence number (R249, R290) -/
  late : List (Nat × Late) := []
  /-- target of the last taken branch of the running stream, and whether the core is fed by a fetch of its own (R281) -/
  branch : Option Nat := none
  own : Bool := false
  wait : Option Wait := none
  /-- FENCE: queues waited for and the fence's sequence number (R256) -/
  fence : Option (Bool × Bool × Nat) := none
  /-- CWAIT: its sequence number (R313) -/
  cwait : Option Nat := none
  /-- fault code issue is halted for under ACT 2 -/
  halt : Option Nat := none
  /-- issue stopped by a substitution, migration or partition stop -/
  held : Bool := false
  /-- streams whose slices this core has written since its last commit point (R220) -/
  wrote : List Nat := []
  /-- timebase at which the residency wait began (R222) -/
  resSince : Option Nat := none
  /-- 0 running, 1 draining, 2 restoring, 3 replaying (COR_RECOV) -/
  recov : Nat := 0
  recovCnt : Nat := 0
  /-- granules that failed their guard check in this recovery (R251, R410) -/
  failed : List Nat := []
  /-- open batch group of each array: key column, opening timebase, deadline (R105, R107) -/
  batchA : Option (Nat × Nat) := none
  batchB : Option (Nat × Nat) := none
  nextGroup : Nat := 0
  /-- issued its first long word since the casting load after reset (R110) -/
  ranSince : Bool := false
  deriving DecidableEq, Repr

/-- Registers and storage of a core outside its restore point. -/
structure CoreStore where
  /-- local store, byte addressed (R230) -/
  ls : Memory := []
  /-- committed values of the state store are in the restore point (R181); arrivals and accepted posts since it (R248,
  R273) -/
  arrSince : Sp Nat := []
  semSince : Sp Nat := []
  /-- messages counted (R415); granules of the local store written last by other cores or chips (R410; DEDUCED, log 92) -/
  msgs : List MsgCount := []
  landing : List Nat := []
  /-- posts accepted, by source and message id (R272) -/
  posts : List MsgCount := []
  /-- items arrived at each inbound queue end; items sent and credits returned at each outbound one (R287, R288) -/
  qarr : Sp Nat := []
  qsent : Sp Nat := []
  qret : Sp Nat := []
  /-- event counters by register offset: MAT_BUSY and the rest -/
  perf : Sp W32 := []
  /-- COR_FMTFLAGS -/
  fmt : Fl := 0
  /-- COR_NANTRAP and COR_NANPOS -/
  nantrap : W32 := 0
  nanpos : W32 := 0
  /-- MAT_BYPASS A and B; a held write (R110) -/
  bypA : W32 := 0
  bypB : W32 := 0
  holdA : Option Nat := none
  holdB : Option Nat := none
  lstGerr : W32 := 0
  dmpf : List W32 := [0, 0, 0, 0]
  xchk0 : W32 := 0
  xchk1 : W32 := 0
  /-- O2EN of the plating in force (SFU_MODE, CAR_MODE) -/
  o2en : Bool := false
  deriving DecidableEq, Repr

/-- One sequence core. -/
structure Core where
  cur : CoreArch := {}
  rp : CoreArch := {}
  run : CoreRun := {}
  st : CoreStore := {}
  deriving DecidableEq, Repr

end Sys2Proof.Machine
end

