-- ==== Sys2Proof/Machine/Ops.lean ====
section
/-! DEFINITION. Machine/Ops.lean: the named operations over one core: its registers, operand cache, local store and
scoreboards. Core meanings are pure functions of a read-only environment and the core. -/

namespace Sys2Proof.Machine

/-- A queue-end wire of the casting (Table 9 of Castings and platings). -/
structure QWire where
  part : Nat
  pcore : Nat
  pend : Nat
  ccore : Nat
  cend : Nat
  fmt : Nat
  sgn : Bool
  blk : Bool
  wide : Nat
  wlist : Nat
  item : Nat
  ring : Nat
  nitems : Nat
  sbase : Nat
  deriving DecidableEq, Repr

/-- Stream geometry of a partition (Table 1 of Streams and stretches). -/
structure Geo where
  part : Nat
  entBase : Nat
  entCount : Nat
  regBase : Nat
  slots : Nat
  nslot : Nat
  idFirst : Nat
  idLast : Nat
  reswait : Nat
  deriving DecidableEq, Repr

/-- What a core sees of the rest of the block. -/
structure CEnv where
  v64 : Bool
  /-- partition index and its size in slabs, none outside every partition -/
  part : Option Nat
  psize : Nat
  /-- partition-order index of the core (R214) -/
  pidx : Nat
  /-- always-on timebase and reference frequency in Hz -/
  time : Nat
  fref : Nat
  qwires : List QWire
  wide : List (Nat × List Nat)
  geo : Option Geo
  /-- resident streams: id and state pointer (R221) -/
  slots : List (Nat × Nat)
  /-- bytes of the slab's deferred-release log in use or reserved (R268) -/
  logUsed : Nat
  /-- Osrel 2 compatibility present, and the fill deadline in ns of the mode in force -/
  o2 : Bool
  fillDl : Nat
  /-- queue-wait limit in µs (R288) -/
  qwait : Nat
  tierA : Memory
  ptBase : Nat
  ptLen : Nat
  deriving DecidableEq, Repr

/-- Lanes (R133). -/
def CEnv.L (e : CEnv) : Nat := if e.v64 then 64 else 32

/-- True in partitions whose operands are queue ends (R34). -/
def CEnv.qends (e : CEnv) : Bool := decide (32 ≤ e.psize)

/-- Cores of the partition. -/
def CEnv.ncores (e : CEnv) : Nat := 32 * e.psize

/-- Nanoseconds to timebase ticks, rounded up (R107, R247). -/
def CEnv.ticks (e : CEnv) (ns : Nat) : Nat := cdiv (ns * e.fref) 1000000000

/-- A fault a core records (R402): the block adds the source, the time and the sequence number. -/
structure CFault where
  code : Nat
  act : Nat := 0
  esc : Bool := false
  unit : Nat := 0
  tag : W16 := 0
  /-- none: the spec states nothing of the field (DESIGN CHOICE, log 37) -/
  info0 : Option Nat := none
  info1 : Option Nat := none
  deriving DecidableEq, Repr

/-- What a core does to the rest of the block. -/
inductive Out where
  /-- a fault record is offered to the fault queue (R403) -/
  | fault (f : CFault)
  /-- a semaphore post to partition core `tcore` by the queue's transfer `seq` of the long word tagged `tag` (R272) -/
  | post (tcore sem cnt ordinal seq : Nat) (tag : W16)
  /-- an item pushed on outbound queue end `q` (R288): item number, message ordinal, bytes -/
  | push (q idx ordinal : Nat) (item : List Byte)
  /-- items popped from inbound queue end `q` that return credits (R288) -/
  | credits (q n : Nat)
  deriving DecidableEq, Repr

/-- A core with the free-value counter and the effects on the rest of the block so far. -/
structure CRes where
  k : Core
  fc : Nat
  outs : List Out
  deriving DecidableEq, Repr

def CRes.of (k : Core) (fc : Nat) : CRes := { k := k, fc := fc, outs := [] }

/-- A fresh free value of `w` bits (DESIGN CHOICE, log 3). -/
def CRes.free (r : CRes) (w : Nat) : Nat × CRes := (Config.freeNat r.fc % 2 ^ w, { r with fc := r.fc + 1 })

def CRes.out (r : CRes) (o : Out) : CRes := { r with outs := r.outs ++ [o] }

def CRes.cur (r : CRes) (f : CoreArch → CoreArch) : CRes := { r with k := { r.k with cur := f r.k.cur } }
def CRes.run (r : CRes) (f : CoreRun → CoreRun) : CRes := { r with k := { r.k with run := f r.k.run } }
def CRes.st (r : CRes) (f : CoreStore → CoreStore) : CRes := { r with k := { r.k with st := f r.k.st } }

/-- Record a fault whose action is only reported (ACT 0). -/
def CRes.report (r : CRes) (f : CFault) : CRes := r.out (.fault f)

/-- Record a fault and halt issue (ACT 2, R302, R404). -/
def CRes.halt (r : CRes) (f : CFault) : CRes :=
  (r.out (.fault { f with act := 2 })).run (fun x => { x with halt := some f.code })

/-- Set sticky format flags (R72). -/
def CRes.flags (r : CRes) (f : Fl) : CRes := r.st (fun x => { x with fmt := x.fmt ||| f })

/-- Add to an event counter, modulo 2^32. -/
def CRes.bump (r : CRes) (off n : Nat) : CRes :=
  r.st (fun x => { x with perf := Sp.set 0#32 x.perf off (Sp.get 0#32 x.perf off + BitVec.ofNat 32 n) })

/-- Add an unconstrained number of beats to an event counter (beats are not modelled; DESIGN CHOICE, log 20). -/
def CRes.bumpFree (r : CRes) (off : Nat) : CRes := let f := r.free 32; f.2.bump off f.1

/-- SR `i` (R303: SR0 reads as zero). -/
def CoreArch.sreg (a : CoreArch) (i : Nat) : W64 := if i = 0 then 0#64 else Sp.get 0#64 a.sr i

/-- Write SR `i` (R303: a write to SR0 is discarded). -/
def CoreArch.setSreg (a : CoreArch) (i : Nat) (v : W64) : CoreArch :=
  if i = 0 then a else { a with sr := Sp.set 0#64 a.sr i v }

/-- SM `i` (R150). -/
def CoreArch.smreg (a : CoreArch) (i : Nat) : W32 := Sp.get 0#32 a.sm i
def CoreArch.setSm (a : CoreArch) (i : Nat) (v : W32) : CoreArch := { a with sm := Sp.set 0#32 a.sm i v }

/-- Window base of V`r` in granules under window offsets `win` (R137, R138). -/
def winBase (L : Nat) (win : Sp Nat) (r : Nat) : Nat := (L / 8 * r + Sp.get 0 win r) % 512

/-- The operand-cache word of lane `i` of V`r` (R137: addresses wrap modulo 512 granules). -/
def laneWord (L : Nat) (win : Sp Nat) (r i : Nat) : Nat := (winBase L win r * 8 + i) % 4096

/-- Lane `i` of V`r`. -/
def CoreArch.lane (a : CoreArch) (L : Nat) (win : Sp Nat) (r i : Nat) : W32 := Sp.get 0#32 a.cache (laneWord L win r i)

/-- Write lanes of V`r`: a list of (lane, value). -/
def CoreArch.setLanes (a : CoreArch) (L : Nat) (win : Sp Nat) (r : Nat) (l : List (Nat × W32)) : CoreArch :=
  { a with cache := l.foldl (fun m x => Sp.set 0#32 m (laneWord L win r x.1) x.2) a.cache }

/-- Write consecutive operand-cache words from granule `g`, wrapping (R144). -/
def CoreArch.setCache (a : CoreArch) (g : Nat) (ws : List W32) : CoreArch :=
  { a with cache := (ws.zipIdx).foldl (fun m x => Sp.set 0#32 m ((g * 8 + x.2) % 4096) x.1) a.cache }

/-- Bit `i` of VM`m` (R141: VM0 reads as all ones). -/
def CoreArch.mbit (a : CoreArch) (m i : Nat) : Bool := if m = 0 then true else (Sp.get 0 a.masks m).testBit i

/-- The lanes below `L` active under VM`m`. -/
def CoreArch.active (a : CoreArch) (L m : Nat) : List Nat := (List.range L).filter (fun i => a.mbit m i)

/-- Write VM`m` (R141: VM0 ignores writes). -/
def CoreArch.setMask (a : CoreArch) (m v : Nat) : CoreArch :=
  if m = 0 then a else { a with masks := Sp.set 0 a.masks m v }

/-- The operand-cache granules of V`r` as scoreboard ranges, split where they wrap. -/
def cacheRes (g n : Nat) : List Res :=
  if g + n ≤ 512 then [.cache g (g + n)] else [.cache g 512, .cache 0 (g + n - 512)]

/-- Whether two scoreboard resources share anything. -/
def Res.meets : Res → Res → Bool
  | .ls a b, .ls c d => decide (a < d) && decide (c < b)
  | .cache a b, .cache c d => decide (a < d) && decide (c < b)
  | .mask i, .mask j => i == j
  | .sm i, .sm j => i == j
  | .rctx i, .rctx j => i == j
  | .bank i, .bank j => i == j
  | .tile x a b, .tile y c d => x == y && decide (a < d) && decide (c < b)
  | _, _ => false

def Res.anyMeet (x y : List Res) : Bool := x.any (fun a => y.any (Res.meets a))

/-- What an earlier unfinished instruction holds. -/
structure Hold where
  seq : Nat
  rd : List Res
  wr : List Res
  deriving DecidableEq, Repr

/-- What the core's engines and transfers hold (R139, R141, R241). -/
def CoreRun.engHolds (r : CoreRun) : List Hold :=
  r.entries.map (fun e => { seq := e.seq, rd := e.rd, wr := e.wr })
  ++ (r.fq ++ r.eq).map (fun x => { seq := x.seq, rd := x.rd, wr := x.wr })

/-- What an effect that waits holds: the granule a DSET writes, the range a KEEP reads (R249, R286). -/
def lateHold (x : Nat × Late) : Option Hold :=
  match x.2 with
  | .word a _ => some { seq := x.1, rd := [], wr := [.ls (a / 32) (a / 32 + 1)] }
  | .keep _ e => some { seq := x.1, rd := [.ls e.first (e.first + e.count)], wr := [] }
  | _ => none

/-- Everything the core's unfinished instructions hold. -/
def CoreRun.holds (r : CoreRun) : List Hold := r.engHolds ++ r.late.filterMap lateHold

/-- An access set of sequence `q` must wait: an earlier hold writes what it touches, or reads what it writes. -/
def mustWait (hs : List Hold) (q : Nat) (rd wr : List Res) : Bool :=
  hs.any (fun h => decide (h.seq < q) &&
    (Res.anyMeet h.wr rd || Res.anyMeet h.wr wr || Res.anyMeet h.rd wr))

/-- Local-store ranges in use (R242). -/
def isLs : Res → Bool
  | .ls _ _ => true
  | _ => false

def CoreRun.lsUsed (r : CoreRun) : Nat :=
  (r.holds.map (fun h => (h.rd.filter isLs).length + (h.wr.filter isLs).length)).sum

/-- A summary register some unfinished instruction will write (R151). -/
def CoreRun.smPending (r : CoreRun) (i : Nat) : Bool := r.entries.any (fun e => e.wr.contains (.sm i))

/-! ### Effects that wait (R249, R290) -/

/-- A late effect as it takes place. -/
def Late.apply (l : Late) (k : Core) : Core :=
  match l with
  | .sr i v => { k with cur := k.cur.setSreg i v }
  | .dbase v => { k with cur := { k.cur with dbase := v } }
  | .word a v => { k with st := { k.st with ls := Memory.setW32 k.st.ls a v, landing := k.st.landing.erase (a / 32) } }
  | .bank => { k with cur := { k.cur with bankAct := !k.cur.bankAct } }
  | .arr i v => { k with cur := { k.cur with arr := Sp.set 0#32 k.cur.arr i v } }
  | .arrSub i v => { k with cur := { k.cur with arr := Sp.set 0#32 k.cur.arr i (Sp.get 0#32 k.cur.arr i - v) } }
  | .sem i v => { k with cur := { k.cur with sem := Sp.set 0 k.cur.sem i v } }
  | .keep i e => { k with cur := { k.cur with kept := Sp.set {} k.cur.kept i e } }

/-- The core as issue sees it: with the effects of every issued instruction that acts in its issue beat (R301, R305). -/
def Core.seen (k : Core) : Core := k.run.late.foldl (fun k x => x.2.apply k) k

/-- An issued instruction of sequence number `q` comes after a commit mark that has not taken effect (R290). -/
def CoreRun.behind (r : CoreRun) (q : Nat) : Bool := r.marks.any (fun m => decide (m.seq < q))

/-- The effect must wait: for a commit point, or, of a KEEP, for an earlier write of its range or an earlier KEEP of its entry. -/
def CoreRun.waits (r : CoreRun) (q : Nat) (l : Late) : Bool :=
  r.behind q || (match l with
    | .keep i e =>
      mustWait r.holds q [.ls e.first (e.first + e.count)] []
        || r.late.any (fun x => decide (x.1 < q) && (match x.2 with | .keep j _ => i == j | _ => false))
    | _ => false)

/-- An effect waits at the end of the list. -/
def Core.delay (k : Core) (q : Nat) (l : Late) : Core := { k with run := { k.run with late := k.run.late ++ [(q, l)] } }

/-- An instruction of sequence number `q` does `l` in its issue beat, or leaves it to be done later. -/
def CRes.late (r : CRes) (q : Nat) (l : Late) : CRes :=
  { r with k := if r.k.run.waits q l then r.k.delay q l else l.apply r.k }

/-- Take the late effects whose time has come, in issue order. -/
def Core.settle (k : Core) : Core :=
  if k.run.late.isEmpty then k
  else k.run.late.foldl (fun k x => if k.run.waits x.1 x.2 then k.delay x.1 x.2 else x.2.apply k)
    { k with run := { k.run with late := [] } }

/-- Local-store bytes (R230: 49,152 words). -/
def lsBytes : Nat := 196608

/-- The bank that holds granule `g` of a local store, and its row there (R230). -/
def bankOf (g : Nat) : Nat := (g + g / 16 + g / 256) % 16
def rowOf (g : Nat) : Nat := g / 16

/-- Bank slots of an access to `n` words from word `a`: one for each granule they overlap (R232). -/
def slotCost (a n : Nat) : Nat := (a + n + 7) / 8 - a / 8

/-- Registers that count beats and bank slots of the local store: LST_CONFLp, LST_SLOTS and FULL of LST_SBOARD (R253). -/
def oConfl (p : Nat) : Nat := 0x5010 + 4 * p
def oSlots : Nat := 0x5030
def oFull : Nat := 0x5034

/-- Element `i` bytes of width `w` at byte `a`. -/
def lsNat (m : Memory) (a w : Nat) : Nat := Memory.nat m a w

/-- Bytes [a, a + n) as a list. -/
def lsBytesAt (m : Memory) (a n : Nat) : List Byte := (List.range n).map (fun i => Memory.byte m (a + i))

/-- Write bytes from `a` upward. -/
def lsPut (m : Memory) (a : Nat) : List Byte → Memory
  | [] => m
  | b :: bs => lsPut (Memory.setByte m a b) (a + 1) bs

/-- Granule `g` of a local store lies in a range of the kept table (R250). -/
def inKept (t : Sp Kept) (g : Nat) : Bool := t.any (fun c => decide (c.2.first ≤ g) && decide (g < c.2.first + c.2.count))

/-- The first entry of engine `g` in issue order. -/
def headEntry (g : Eng) (es : List Entry) : Option Entry := es.find? (fun e => e.eng = g && e.group.isNone)

/-- Remove the entry of sequence number `q`. -/
def CoreRun.drop (r : CoreRun) (q : Nat) : CoreRun := { r with entries := r.entries.filter (fun e => e.seq ≠ q) }

/-- Replace the entry of sequence number `q`. -/
def CoreRun.setEntry (r : CoreRun) (q : Nat) (f : Entry → Entry) : CoreRun :=
  { r with entries := r.entries.map (fun e => if e.seq = q then f e else e) }

/-- Instruction `q` faults in execution (ACT 2): it stays uncompleted and stops its engine (DEDUCED, log 22). -/
def CRes.die (r : CRes) (q : Nat) (f : CFault) : CRes :=
  (r.halt f).run (fun x => x.setEntry q (fun y => { y with dead := true }))

/-- Granules of the local store that writes have covered are not landing data any more (R410; DEDUCED, log 92). -/
def unland (wr : List Res) (l : List Nat) : List Nat :=
  l.filter (fun g => !wr.any (fun x => match x with
    | .ls lo hi => decide (lo ≤ g) && decide (g < hi)
    | _ => false))

/-- Result with the entry finished. -/
def CRes.done (r : CRes) (q : Nat) : CRes :=
  let wr := (r.k.run.entries.filter (fun e => e.seq = q)).flatMap (·.wr)
  (r.run (fun x => x.drop q)).st (fun s => { s with landing := unland wr s.landing })

end Sys2Proof.Machine
end

