-- ==== Sys2Proof/Machine/Flags.lean ====
section
/-! DEFINITION. Machine/Flags.lean: every flag computation: tile flag words (R124, R125), mask summaries (Table 4 of Vector
engine) and the COR_FMTFLAGS clear (R72). -/

namespace Sys2Proof.Machine

/-- Bits of MAT_TFLAG (Table 1 of Accumulation and reductions). -/
def tfNan : W32 := 0x01#32
def tfInf : W32 := 0x02#32
def tfSc : W32 := 0x04#32
def tfOvf : W32 := 0x08#32
def tfFlush : W32 := 0x10#32
def tfXblk : W32 := 0x20#32
def tfPosv : W32 := 0x40#32

def setIf (b : Bool) (f : W32) : W32 := if b then f else 0#32

/-- An FP32 pattern is a NaN (R64). -/
def w32Nan (v : W32) : Bool := fld v.toNat 30 23 == 255 && fld v.toNat 22 0 != 0
/-- An FP32 pattern is an infinity. -/
def w32Inf (v : W32) : Bool := fld v.toNat 30 23 == 255 && fld v.toNat 22 0 == 0

/-- Key of an accumulator element. -/
def accKey (arr : Bool) (tile pos : Nat) : Nat := (if arr then 16384 else 0) + tile * 256 + pos
/-- Key of a tile flag word. -/
def tfKey (arr : Bool) (tile : Nat) : Nat := (if arr then 64 else 0) + tile

def CoreArch.accAt (a : CoreArch) (arr : Bool) (tile pos : Nat) : W32 := Sp.get 0#32 a.acc (accKey arr tile pos)
def CoreArch.tfAt (a : CoreArch) (arr : Bool) (tile : Nat) : W32 := Sp.get 0#32 a.tflag (tfKey arr tile)
def CoreArch.setTf (a : CoreArch) (arr : Bool) (tile : Nat) (v : W32) : CoreArch :=
  { a with tflag := Sp.set 0#32 a.tflag (tfKey arr tile) v }

/-- NAN, INF, POSV and POS over a list of 256 FP32 patterns, keeping the other bits of `old` (R125). -/
def evalFlags (old : W32) (els : List W32) : W32 :=
  let nan := els.any w32Nan
  let inf := els.any w32Inf
  let pos := els.findIdx (fun v => w32Nan v || w32Inf v)
  (old &&& (tfSc ||| tfOvf ||| tfFlush ||| tfXblk)) ||| setIf nan tfNan ||| setIf inf tfInf
    ||| (if nan || inf then tfPosv ||| BitVec.ofNat 32 (pos * 256) else 0#32)

/-- The 256 elements of a tile. -/
def CoreArch.tileElems (a : CoreArch) (arr : Bool) (tile : Nat) : List W32 :=
  (List.range 256).map (fun p => a.accAt arr tile p)

/-- Evaluate the flag word of a tile (R125). -/
def CoreArch.evalTile (a : CoreArch) (arr : Bool) (tile : Nat) : CoreArch :=
  a.setTf arr tile (evalFlags (a.tfAt arr tile) (a.tileElems arr tile))

/-- Mask summary of kind 0 ANY, 1 ALL, 2 COUNT, 3 FIRST (Table 4 of Vector engine). -/
def maskSummary (kind : Nat) (bits : List Bool) : W32 :=
  match kind with
  | 0 => if bits.any id then 1#32 else 0#32
  | 1 => if bits.all id then 1#32 else 0#32
  | 2 => BitVec.ofNat 32 (bits.countP id)
  | _ => if bits.any id then BitVec.ofNat 32 (bits.findIdx id) else 0xFFFFFFFF#32

/-- COR_FMTFLAGS after a W1C write of `v` (R72, R13). -/
def fmtClear (f : Fl) (v : W32) : Fl := f &&& ~~~(v.setWidth 6)

end Sys2Proof.Machine
end

