-- ==== Sys2Proof/Machine/Operands.lean ====
section
/-! DEFINITION. Machine/Operands.lean: every operand form: descriptors (R286), queue ends (R287), the elements they name and
the local-store ranges they touch (R241, R242, R231, R250). -/

namespace Sys2Proof.Machine

/-- The floating-point format of a format code of Table 4 of Programming model. -/
def fmtFloat : Nat → Option FFmt
  | 0 => some .fp32
  | 1 => some .bf16
  | 2 => some .fp16
  | 3 => some .os40
  | _ => none

/-- Bits of an element of a format code. -/
def fmtBits : Nat → Nat
  | 0 => 32
  | 1 => 16
  | 2 => 16
  | 3 => 40
  | 4 => 8
  | 5 => 4
  | _ => 32

/-- A format code names OB8 or OB4. -/
def fmtOb (f : Nat) : Bool := f == 4 || f == 5

def Opnd.ob (o : Opnd) : ObKind := { four := o.fmt == 5, uns := o.sgn, blk32 := o.blk }

/-- The operand carries a used exponent plane: an OB operand that is no wide tensor (R79). -/
def Opnd.hasExp (o : Opnd) : Bool := fmtOb o.fmt && o.wide != 2

/-- Row `i` is a wide channel, or the operand a wide tensor (R79). -/
def Opnd.isWide (o : Opnd) (i : Nat) : Bool := o.wide == 2 || (o.wide == 1 && o.chans.contains i)

/-- A descriptor's eight words, resolved: reserved codes and reserved fields fault with 0x15 (R286). -/
def descOf (wide : List (Nat × List Nat)) (w : List Nat) : Except Nat Opnd :=
  let g (i : Nat) : Nat := nthD w i 0
  let fmt := fld (g 0) 3 0
  let wd := fld (g 0) 7 6
  let wl := wide.find? (fun x => x.1 = fld (g 0) 15 8)
  if 7 ≤ fmt ∨ wd = 3 ∨ fld (g 0) 31 16 ≠ 0 ∨ fld (g 3) 31 16 ≠ 0 ∨ fld (g 6) 31 16 ≠ 0 ∨ g 7 ≠ 0 ∨ g 1 = 0 ∨ g 2 = 0
    ∨ (wd = 1 ∧ wl = none) then .error 0x15
  else .ok
    { fmt := fmt, sgn := bitOf (g 0) 4, blk := bitOf (g 0) 5, wide := wd,
      chans := if wd = 1 then (match wl with | some x => x.2 | none => []) else [],
      rows := g 1, cols := g 2, eb := 4 * fld (g 3) 15 0, pitch := 4 * g 4, xb := 4 * fld (g 5) 15 0,
      xpitch := fld (g 5) 31 16, sb := 4 * fld (g 6) 15 0 }

/-- Byte address of descriptor `h` (R286). -/
def descAddr (k : Core) (h : Nat) : Nat := 4 * (k.cur.dbase + 8 * h)

/-- Resolve handle `h` at issue (R286, R34). A word written by a DSET of the same long word is seen (R301): `ls` is the local
store as that DSET leaves it. -/
def resolveH (e : CEnv) (k : Core) (ls : Memory) (h : Nat) : Except Nat Opnd :=
  if e.qends then .error 0x15
  else if lsBytes < descAddr k h + 32 then .error 0x15
  else descOf e.wide ((List.range 8).map (fun i => Memory.nat ls (descAddr k h + 4 * i) 4))

/-- The operand of a queue-end wire (R287). -/
def wireOpnd (e : CEnv) (q : Nat) (w : QWire) : Opnd :=
  { qend := some q, fmt := w.fmt, sgn := w.sgn, blk := w.blk, wide := w.wide,
    chans := if w.wide = 1 then (match e.wide.find? (fun x => x.1 = w.wlist) with | some x => x.2 | none => []) else [],
    sb := 4 * w.sbase, item := w.item, ring := w.ring, nitems := w.nitems }

/-- Inbound queue end `q` of the core. -/
def wireIn (e : CEnv) (q : Nat) : Option QWire :=
  e.qwires.find? (fun w => some w.part = e.part && w.ccore = e.pidx && w.cend = q)

/-- Outbound queue end `q` of the core. -/
def wireOut (e : CEnv) (q : Nat) : Option QWire :=
  e.qwires.find? (fun w => some w.part = e.part && w.pcore = e.pidx && w.pend = q)

def resolveIn (e : CEnv) (q : Nat) : Except Nat Opnd :=
  if !e.qends then .error 0x15 else match wireIn e q with
    | none => .error 0x15
    | some w => .ok (wireOpnd e q w)

def resolveOut (e : CEnv) (q : Nat) : Except Nat Opnd :=
  if !e.qends then .error 0x15 else match wireOut e q with
    | none => .error 0x15
    | some w => .ok (wireOpnd e q w)

/-- Elements one item of the queue end holds: its elements, then, for block exponents, one byte per block (DEDUCED, log 21). -/
def Opnd.perItem (o : Opnd) : Nat :=
  if o.hasExp then
    let b := o.ob.block
    b * (32 * o.item / (b * fmtBits o.fmt / 8 + 1))
  else 32 * o.item * 8 / fmtBits o.fmt

/-- First byte of the ring slot of item `n` (R287). -/
def Opnd.slotByte (o : Opnd) (n : Nat) : Nat := 32 * (o.ring + (if o.nitems = 0 then 0 else n % o.nitems) * o.item)

/-- A reader of elements: descriptor operands by (row, column), queue-end operands by row-major index from item `pop`. -/
structure ElemAt where
  byte : Nat
  hi : Bool
  xbyte : Nat
  /-- a padding position of the last block of an OB row (R76) -/
  pad : Bool := false
  deriving DecidableEq, Repr

/-- Where element (i, j) of an operand of `cols` stored columns lies; `pop` is the first item popped. -/
def Opnd.at_ (o : Opnd) (pop cols i j : Nat) : ElemAt :=
  match o.qend with
  | none =>
    let pad := fmtOb o.fmt && decide (o.cols ≤ j) && decide (j < cdiv o.cols o.ob.block * o.ob.block)
    if o.fmt = 5 then
      { byte := o.eb + o.pitch * i + j / 2, hi := j % 2 == 1, xbyte := o.xb + o.xpitch * i + j / o.ob.block, pad := pad }
    else
      { byte := o.eb + o.pitch * i + fmtBits o.fmt / 8 * j, hi := false, xbyte := o.xb + o.xpitch * i + j / o.ob.block, pad := pad }
  | some _ =>
    let n := i * cols + j
    let per := if o.perItem = 0 then 1 else o.perItem
    let s := o.slotByte (pop + n / per)
    let m := n % per
    if o.fmt = 5 then { byte := s + m / 2, hi := m % 2 == 1, xbyte := s + per / 2 + m / o.ob.block }
    else { byte := s + fmtBits o.fmt / 8 * m, hi := false, xbyte := s + per * fmtBits o.fmt / 8 + m / o.ob.block }

/-- The stored bits of an element. -/
def Opnd.bits (o : Opnd) (ls : Memory) (p : ElemAt) : Nat :=
  if o.fmt = 5 then fld (Memory.byte ls p.byte).toNat (if p.hi then 7 else 3) (if p.hi then 4 else 0)
  else Memory.nat ls p.byte (fmtBits o.fmt / 8)

/-- The scale of row `i` of a wide operand, an FP32 pattern (R79, R286). -/
def Opnd.scale (o : Opnd) (ls : Memory) (i : Nat) : Nat :=
  if o.wide = 2 then Memory.nat ls o.sb 4 else Memory.nat ls (o.sb + 4 * o.chans.findIdx (· == i)) 4

/-- The value of a floating-point element with its reading flags. -/
def Opnd.fval (o : Opnd) (ls : Memory) (p : ElemAt) : FV × Fl :=
  match fmtFloat o.fmt with
  | some f => f.read (o.bits ls p)
  | none => (FV.zero, 0#6)

/-- A local-store access of an instruction: bytes [lo, hi), and for writes the exact runs (start, length). -/
structure Acc where
  wr : Bool
  lo : Int
  hi : Int
  segs : List (Nat × Nat) := []
  deriving DecidableEq, Repr

/-- A contiguous access of `n` bytes. -/
def accRun (wr : Bool) (a : Int) (n : Nat) : List Acc :=
  if n = 0 then [] else [{ wr := wr, lo := a, hi := a + n, segs := if wr then [(a.toNat, n)] else [] }]

/-- Bytes of `nc` elements from column `c0` of one row: first byte offset and length. -/
def rowSpan (fmt c0 nc : Nat) : Nat × Nat :=
  let s := fmtBits fmt * c0 / 8
  (s, (fmtBits fmt * (c0 + nc) + 7) / 8 - s)

/-- The scale words of a wide operand (R286). -/
def Opnd.scaleAccs (o : Opnd) : List Acc :=
  if o.wide = 1 then accRun false o.sb (4 * o.chans.length) else if o.wide = 2 then accRun false o.sb 4 else []

/-- Accesses of the rectangle of `nr` rows from `r0` and `nc` columns from `c0` of a descriptor operand: the element plane,
the exponent plane and the scale vector (R242, R286). -/
def Opnd.accs (o : Opnd) (wr : Bool) (r0 nr c0 nc : Nat) : List Acc :=
  if nr = 0 ∨ nc = 0 then []
  else match o.qend with
    | some _ => []
    | none =>
      let sp := rowSpan o.fmt c0 nc
      let b := o.ob.block
      let x0 := c0 / b
      let xn := (c0 + nc + b - 1) / b - x0
      let segs := if wr then (List.range nr).map (fun i => (o.eb + o.pitch * (r0 + i) + sp.1, sp.2)) else []
      let xsegs := if wr then (List.range nr).map (fun i => (o.xb + o.xpitch * (r0 + i) + x0, xn)) else []
      [{ wr := wr, lo := o.eb + o.pitch * r0 + sp.1, hi := o.eb + o.pitch * (r0 + nr - 1) + sp.1 + sp.2, segs := segs }]
      ++ (if fmtOb o.fmt && (wr || o.hasExp) then
            [{ wr := wr, lo := o.xb + o.xpitch * r0 + x0, hi := o.xb + o.xpitch * (r0 + nr - 1) + x0 + xn, segs := xsegs }]
          else [])
      ++ o.scaleAccs

/-- Accesses of `n` items of an inbound queue end from item `p`: the bounding interval of its ring slots, and its scale vector (R242,
R287). -/
def Opnd.ringAccs (o : Opnd) (p n : Nat) : List Acc :=
  (if n = 0 ∨ o.nitems = 0 then []
   else if n + p % o.nitems ≤ o.nitems then accRun false (o.slotByte p) (32 * o.item * n)
   else accRun false (32 * o.ring : Nat) (32 * o.item * o.nitems)) ++ o.scaleAccs

/-- The access lies in the local store (R231). -/
def Acc.ok (a : Acc) : Bool := decide (0 ≤ a.lo) && decide (a.hi ≤ lsBytes)

/-- A written byte lies in a granule of a kept range (R250). -/
def Acc.hitsKept (t : Sp Kept) (a : Acc) : Bool :=
  a.wr && a.segs.any (fun s => t.any (fun c =>
    decide (s.1 / 32 < c.2.first + c.2.count) && decide (c.2.first ≤ (s.1 + s.2 - 1) / 32) && decide (0 < s.2)))

def Acc.res (a : Acc) : Res := .ls (a.lo.toNat / 32) ((a.hi.toNat + 31) / 32)

/-- The bounding range of several. -/
def boundRes (l : List Acc) : List Res :=
  match l with
  | [] => []
  | a :: as => [as.foldl (fun (r : Res) (b : Acc) => match r, b.res with
      | .ls x y, .ls u v => .ls (Nat.min x u) (Nat.max y v)
      | r, _ => r) a.res]

/-- The scoreboard ranges of one kind: at most two operands keep their own, more share one (R242). -/
def lsRanges (l : List Acc) : List Res := if l.length ≤ 2 then l.map Acc.res else boundRes l

def readRanges (l : List Acc) : List Res := lsRanges (l.filter (fun a => !a.wr))
def writeRanges (l : List Acc) : List Res := lsRanges (l.filter (fun a => a.wr))

/-- The fault at issue of a set of accesses: 0x25 outside the store (R231), 0x24 on a kept range (R250). -/
def accFault (t : Sp Kept) (l : List Acc) : Option Nat :=
  if l.any (fun a => !a.ok) then some 0x25
  else if l.any (Acc.hitsKept t) then some 0x24 else none

/-- Convert a value of source format code to FP32 on load (R136, Table 6): the pattern and flags. `rm` and `f` are the mode
and the OW32 scale exponent. -/
def loadFp32 (fmt : Nat) (rm : RM) (f : Int) (bits : Nat) : W32 × Fl :=
  match fmt with
  | 0 => (BitVec.ofNat 32 bits, 0#6)
  | 6 => ow32Decode .rne f (BitVec.ofNat 32 bits)
  | _ => match fmtFloat fmt with
    | some s => let r := cvtFloat s .fp32 rm bits; (BitVec.ofNat 32 r.1, r.2)
    | none => (0#32, 0#6)

/-- Decode an OB element to FP32 (code D of Table 7): the block exponent, or the scale of a wide row. An integer 0 is +0 whatever the
sign of a finite scale (R69), and a padding position reads as 0 (R76). -/
def obFp32 (o : Opnd) (ls : Memory) (i : Nat) (p : ElemAt) : W32 × Fl :=
  let q := o.ob.q (o.bits ls p)
  if p.pad then (0#32, 0#6)
  else if o.isWide i then
    let s := FFmt.fp32.read (o.scale ls i)
    let r := FFmt.fp32.result .rne (FV.mul (FV.ofInt q) s.1) s.1.isNan
    (if q = 0 ∧ s.1.isFin then 0#32 else BitVec.ofNat 32 r.1, s.2 ||| r.2)
  else
    let ex := (Memory.byte ls p.xbyte).toNat
    if ex = 0xFF then (0#32, flNonfin)
    else
      let r := FFmt.fp32.write .rne (o.ob.value ex (o.bits ls p))
      (BitVec.ofNat 32 r.1, r.2)

/-- Store FP32 as a format code other than OB (R136, Table 6): the stored bits and flags. -/
def storeFp32 (fmt : Nat) (rm : RM) (f : Int) (v : W32) : Nat × Fl :=
  match fmt with
  | 0 => (v.toNat, 0#6)
  | 6 => let r := ow32Encode f v; (r.1.toNat, r.2)
  | _ => match fmtFloat fmt with
    | some d => cvtFloat .fp32 d rm v.toNat
    | none => (0, 0#6)

/-- Write an element's bits. -/
def putElem (ls : Memory) (fmt : Nat) (p : ElemAt) (v : Nat) : Memory :=
  if fmt = 5 then
    let old := (Memory.byte ls p.byte).toNat
    Memory.setByte ls p.byte (BitVec.ofNat 8 (if p.hi then old % 16 + 16 * (v % 16) else old / 16 * 16 + v % 16))
  else Memory.setNat ls p.byte (fmtBits fmt / 8) v

end Sys2Proof.Machine
end

