-- ==== Sys2Proof/Machine/Plan.lean ====
section
/-! DEFINITION. Machine/Plan.lean: what an instruction names at issue: its engine, its captured operands and the ranges it
holds (R241, R284, R301), and the step of an engine's queue head. -/

namespace Sys2Proof.Machine

/-- An instruction as it would enter its engine's queue. -/
structure Plan where
  eng : Eng
  accs : List Acc := []
  rd : List Res := []
  wr : List Res := []
  sr : List W64 := []
  ops : List Opnd := []
  blk : List W32 := []
  bank : Nat := 0
  slots : List Nat := []
  /-- inbound queue ends it pops and how many items of each (R309) -/
  pops : List (Nat × Nat) := []
  /-- messages it sends: queue-end items (R377) -/
  msgs : Nat := 0
  deriving DecidableEq, Repr

/-- The outcome of planning one slot: a fault at issue (R302), a hold of issue (Table 3 of Programming model), or the plan. -/
inductive PlanR where
  | fault (code : Nat)
  | hold
  | go (p : Plan)
  deriving DecidableEq, Repr

/-- Plan with the address checks of R231 and R250 applied to its accesses. -/
def planChecked (k : Core) (p : Plan) : PlanR :=
  match accFault k.cur.kept p.accs with
  | some c => .fault c
  | none => .go p

/-- Continue with a resolved operand, or fault. -/
def withOpnd (x : Except Nat Opnd) (f : Opnd → PlanR) : PlanR :=
  match x with
  | .error c => .fault c
  | .ok o => f o

/-- The local store range of a plan's descriptor or step-block read is still to be written by an earlier instruction: issue
holds (R286, R313). -/
def lateRead (k : Core) (a n : Nat) : Bool :=
  k.run.holds.any (fun h => Res.anyMeet h.wr [.ls (a / 32) ((a + n + 31) / 32)])

/-- Resolve a descriptor for planning: a long word that reads it holds while an earlier write to its granule is unfinished, whatever
the granule then holds (R286). -/
def planH (e : CEnv) (k : Core) (ls : Memory) (h : Nat) (f : Opnd → PlanR) : PlanR :=
  if !e.qends && lateRead k (descAddr k h) 32 then .hold else withOpnd (resolveH e k ls h) f

/-- The issued entry of a plan. -/
def Plan.entry (p : Plan) (q : Nat) (tag : W16) (i : Instr) (win : Sp Nat) : Entry :=
  { seq := q, tag := tag, eng := p.eng, instr := i, win := win, sr := p.sr, ops := p.ops, blk := p.blk, bank := p.bank,
    slots := p.slots, pops := p.pops, rd := p.rd ++ readRanges p.accs, wr := p.wr ++ writeRanges p.accs }

/-- Items of inbound queue end `q` among pops. -/
def popsOn (q : Nat) (ps : List (Nat × Nat)) : Nat := (ps.filter (fun p => p.1 == q)).foldl (fun n p => n + p.2) 0

/-- The item that the next instruction to issue pops first from inbound queue end `q`, after those of the unfinished ones (R242, R287). -/
def nextItem (k : Core) (q : Nat) : Nat := k.run.entries.foldl (fun n h => n + popsOn q h.pops) (Sp.get 0 k.cur.qpop q)

/-- Items of the inbound queue end waiting (R287). -/
def qinWaiting (k : Core) (q : Nat) : Nat := Sp.get 0 k.st.qarr q - Sp.get 0 k.cur.qpop q

/-- Enough items have arrived for the pops (R287, R288). -/
def popsReady (k : Core) (ps : List (Nat × Nat)) : Bool := ps.all (fun p => decide (popsOn p.1 ps ≤ qinWaiting k p.1))

/-- Pop items. -/
def doPops (ps : List (Nat × Nat)) (r : CRes) : CRes :=
  r.cur (fun a => { a with qpop := ps.foldl (fun m p => Sp.set 0 m p.1 (Sp.get 0 m p.1 + p.2)) a.qpop })

/-- The entry changes a window base (R137). -/
def Entry.moves (h : Entry) : Bool :=
  match h.instr with
  | .wset _ _ _ _ => true
  | .wstep _ _ _ => true
  | _ => false

/-- Window bases as the next instruction to issue sees them: those of the last unfinished window change, else the completed
ones (R137). -/
def issueWin (k : Core) : Sp Nat :=
  match (k.run.entries.filter Entry.moves).getLast? with
  | some e => e.win
  | none => k.cur.win

/-- Whether an entry may run now: no earlier hold stands in its way (R139, R141, R241), and every commit point before it has taken
effect (R290). -/
def Entry.free (h : Entry) (k : Core) : Bool := !mustWait k.run.holds h.seq h.rd h.wr && !k.run.behind h.seq

/-- A queue-end wait begins, or has begun: its limit is set once, from when the engine finds that it must wait (R288). -/
def waitDeadline (e : CEnv) (old : Nat) : Nat :=
  if old ≠ 0 ∨ e.qwait = 0 then old else e.time + e.ticks (e.qwait * 1000)

/-- Note that entry `q` waits for a queue end. -/
def CRes.waitsQ (r : CRes) (e : CEnv) (q : Nat) : CRes :=
  r.run (fun x => x.setEntry q (fun h => { h with deadline := waitDeadline e h.deadline }))

/-- A run of an engine's instruction, and the condition it waits for besides the scoreboards. -/
abbrev ExecF := CEnv → Entry → CRes → CRes
abbrev ReadyF := CEnv → Entry → Core → Bool

def always : ReadyF := fun _ _ _ => true

/-- The items an entry pops have arrived. -/
def popReady : ReadyF := fun _ h k => popsReady k h.pops

/-- A push on outbound queue end `q` needs no credit (a replayed copy), or the producer holds one of the ring's `n` (R287, R288). -/
def creditFor (k : Core) (n q : Nat) : Bool :=
  decide (Sp.get 0 k.cur.qpush q < Sp.get 0 k.st.qsent q)
    || decide (Sp.get 0 k.st.qsent q - Sp.get 0 k.st.qret q < n)

/-- The producer may push on outbound queue end `q`. -/
def hasCredit (e : CEnv) (q : Nat) (k : Core) : Bool :=
  match wireOut e q with
  | some w => creditFor k w.nitems q
  | none => false

/-- Push an item (R276, R288, R377). -/
def pushItem (p : PushItem) (r : CRes) : CRes :=
  let idx := Sp.get 0 r.k.cur.qpush p.qend
  ((r.out (.push p.qend idx p.ord p.bytes)).cur (fun a => { a with qpush := Sp.set 0 a.qpush p.qend (idx + 1) })).st
    (fun s => { s with qsent := Sp.set 0 s.qsent p.qend (Nat.max (Sp.get 0 s.qsent p.qend) (idx + 1)) })

/-- Push items in order while there are credits; the rest. -/
def pushSome (e : CEnv) : List PushItem → CRes → CRes × List PushItem
  | [], r => (r, [])
  | p :: ps, r => if hasCredit e p.qend r.k then pushSome e ps (pushItem p r) else (r, p :: ps)

/-- Entry `h` has run and pushes items `l`: each waits at the engine until the producer holds a credit, and the entry is finished once
the last has been pushed (R287). -/
def pushAll (e : CEnv) (h : Entry) (l : List PushItem) (r : CRes) : CRes :=
  let x := pushSome e l r
  if x.2.isEmpty then x.1.done h.seq
  else x.1.run (fun y => y.setEntry h.seq (fun z =>
    { z with pushes := x.2, pops := [], rd := [], wr := [], group := none,
             deadline := waitDeadline e (if x.2.length = h.pushes.length then h.deadline else 0) }))

/-- The push items of bytes cut into items, with consecutive ordinals from `o`. -/
def pushList (q o : Nat) (items : List (List Byte)) : List PushItem :=
  (items.zipIdx).map (fun x => { qend := q, ord := o + x.2, bytes := x.1 })

/-- Run the entry if it may. -/
def tryRun (e : CEnv) (h : Entry) (ready : ReadyF) (run : ExecF) (r : CRes) : CRes :=
  if h.dead || !h.free r.k then r
  else if !h.pushes.isEmpty then pushAll e h h.pushes r
  else if ready e h r.k then run e h r
  else if h.pops.isEmpty then r else r.waitsQ e h.seq

end Sys2Proof.Machine
end

