-- ==== Sys2Proof/Machine/Vector.lean ====
section
/-! DEFINITION. Machine/Vector.lean: the vector engine (R133 to R152, R307, R308). -/

namespace Sys2Proof.Machine

/-- The granules of V`r` under the issue windows. -/
def vres (e : CEnv) (k : Core) (r : Nat) : List Res := cacheRes (winBase e.L (issueWin k) r) (e.L / 8)

def maskRes (m : Nat) : List Res := if m = 0 then [] else [.mask m]

/-- Plan of a lane operation: registers read, destination, mask. A masked write reads nothing more: inactive lanes keep
their elements (R141). DEDUCED: log 97. -/
def planLane (e : CEnv) (k : Core) (srcs : List Nat) (vd vm : Nat) (extra : List Res := []) (sr : List W64 := []) : PlanR :=
  .go { eng := .vec, rd := srcs.flatMap (vres e k) ++ maskRes vm ++ extra, wr := vres e k vd, sr := sr }

/-- Plan of a compare (R141). -/
def planCmp (e : CEnv) (k : Core) (va vb md vm : Nat) : PlanR :=
  .go { eng := .vec, rd := vres e k va ++ vres e k vb ++ maskRes vm, wr := maskRes md }

/-- Kind of reduction context `i` as of issue: the last pending RINIT, else the context's own (R147, R149). -/
def issueKind (k : Core) (i : Nat) : Nat :=
  k.run.entries.foldl (fun a h => match h.instr with
    | .rinit _ ctx kind _ _ => if ctx.toNat = i then kind.toNat else a
    | _ => a) (nthD k.cur.rctx i {}).kind

/-- Components of a reduction kind (R149). -/
def kindComps : Nat → Nat
  | 2 => 5
  | 5 => 3
  | 6 => 3
  | _ => 1

/-- Signed reading of MODX (OW32's F) (R308). -/
def modxF (m : Nat) : Int := sext 8 m

/-- OW32's F is in range (R82, R308). -/
def modxOk (m : Nat) : Bool := decide (-126 ≤ modxF m) && decide (modxF m ≤ 126)

/-- Byte address of lane `i` of an address-form load or store, and the bytes the whole touches (R308, R234). -/
def memLane (L : Nat) (f : VMem) (sra : Nat) (i : Nat) : Int :=
  let w := fmtBits f.fmt.toNat / 8
  let a : Nat := 4 * (fld f.w1.toNat 15 0 + sra % 65536)
  match f.mode.toNat with
  | 0 => ((a + i * w : Nat) : Int)
  | 1 => (a : Int) + (i : Int) * sext 16 (fld f.w1.toNat 31 16) * (w : Int)
  | _ =>
    let E := if w = 0 then 1 else 32 / w
    let j := fld f.w1.toNat 28 24 + i / E
    let _ := L
    ((a + (i % E) * fld f.w1.toNat 23 16 * 32 + j * w : Nat) : Int)

/-- Accesses of an address-form load or store. -/
def memAccs (L : Nat) (wr : Bool) (f : VMem) (sra : Nat) : List Acc :=
  let w := fmtBits f.fmt.toNat / 8
  let lanes := (List.range L).map (memLane L f sra)
  match f.mode.toNat with
  | 2 =>
    let a : Nat := 4 * (fld f.w1.toNat 15 0 + sra % 65536)
    let E := if w = 0 then 1 else 32 / w
    [{ wr := wr, lo := a, hi := a + (E - 1) * fld f.w1.toNat 23 16 * 32 + 32 }]
  | _ =>
    [{ wr := wr, lo := lanes.foldl min (lanes.headD 0), hi := lanes.foldl max (lanes.headD 0) + w,
       segs := if wr then lanes.map (fun x => (x.toNat, w)) else [] }]

/-- Plan of VLD (`st` false) or VST (R308). DEDUCED: log 101. An OW32 F outside -126 to 126 in MODX faults at issue with 0x14: R82 bounds F and names
no code. DESIGN CHOICE: log 155. -/
def planMem (e : CEnv) (k : Core) (ls : Memory) (st : Bool) (f : VMem) : PlanR :=
  let L := e.L
  let v := f.v.toNat
  let sra := k.cur.sreg f.ra.toNat
  let base : Plan := if st then { eng := .vec, rd := vres e k v } else { eng := .vec, wr := vres e k v }
  let fmt := f.fmt.toNat
  if f.d then
    let srb := k.cur.sreg (fld f.w1.toNat 14 10)
    let row := sra.toNat
    let col := srb.toNat
    if 2 ≤ f.mode.toNat then .fault 0x14
    else planH e k ls (fld f.w1.toNat 9 0) (fun o =>
      let down := f.mode.toNat = 1
      let rows := if down then (List.range L).map (row + ·) else [row]
      let wideAll := rows.all o.isWide
      let wideAny := rows.any o.isWide
      if o.fmt ≠ 6 ∧ fld f.modx.toNat 7 2 ≠ 0 then .fault 0x10
      else if o.fmt = 6 ∧ !modxOk f.modx.toNat then .fault 0x14
      else if st ∧ fmtOb o.fmt ∧
        !((!wideAny && !down && col % o.ob.block == 0)
          || (wideAll && ((!down && (o.fmt == 4 || col % 2 == 0)) || (down && o.fmt == 4)))) then .fault 0x14
      else
        planChecked k { base with
          accs := if down then o.accs st row L col 1 else o.accs st row 1 col L, sr := [sra, srb], ops := [o] })
  else if f.mode.toNat = 3 then
    withOpnd (if st then resolveOut e (fld f.w1.toNat 3 0) else resolveIn e (fld f.w1.toNat 3 0)) (fun o =>
      if o.fmt ≠ 6 ∧ fld f.modx.toNat 7 2 ≠ 0 then .fault 0x10
      else if o.fmt = 6 ∧ !modxOk f.modx.toNat then .fault 0x14
      else
        let q := o.qend.getD 0
        planChecked k { base with
          sr := [sra], ops := [o], msgs := if st then 1 else 0, pops := if st then [] else [(q, 1)],
          accs := if st then o.scaleAccs else o.ringAccs (nextItem k q) 1 })
  else if fmtOb fmt ∨ 7 ≤ fmt ∨ (fmt = 6 ∧ !modxOk f.modx.toNat) then .fault 0x14
  else if f.mode.toNat = 2 ∧
    (st ∨ fmt = 3 ∨ (fld f.w1.toNat 15 0 + sra.toNat % 65536) % 8 ≠ 0 ∨ fld f.w1.toNat 23 16 = 0
      ∨ 32 / (fmtBits fmt / 8) < fld f.w1.toNat 28 24 + L / (32 / (fmtBits fmt / 8))) then .fault 0x14
  else planChecked k { base with accs := memAccs L st f sra.toNat, sr := [sra] }

/-- Plan of a vector instruction (R307, R308). DEDUCED: log 98. -/
def planVec (e : CEnv) (k : Core) (ls : Memory) : Instr → PlanR
  | .fadd _ vd va vb vm _ => planLane e k [va.toNat, vb.toNat] vd.toNat vm.toNat
  | .fsub _ vd va vb vm _ => planLane e k [va.toNat, vb.toNat] vd.toNat vm.toNat
  | .fmul _ vd va vb vm _ => planLane e k [va.toNat, vb.toNat] vd.toNat vm.toNat
  | .ffma _ vd va vb vc vm _ => planLane e k [va.toNat, vb.toNat, vc.toNat] vd.toNat vm.toNat
  | .fabs _ vd va vm => planLane e k [va.toNat] vd.toNat vm.toNat
  | .fneg _ vd va vm => planLane e k [va.toNat] vd.toNat vm.toNat
  | .fmin _ vd va vb vm => planLane e k [va.toNat, vb.toNat] vd.toNat vm.toNat
  | .fmax _ vd va vb vm => planLane e k [va.toNat, vb.toNat] vd.toNat vm.toNat
  | .fsel _ vd va vb vm => planLane e k [va.toNat, vb.toNat] vd.toNat vm.toNat
  | .fceq _ md va vb vm => planCmp e k va.toNat vb.toNat md.toNat vm.toNat
  | .fclt _ md va vb vm => planCmp e k va.toNat vb.toNat md.toNat vm.toNat
  | .fcle _ md va vb vm => planCmp e k va.toNat vb.toNat md.toNat vm.toNat
  | .fcne _ md va vb vm => planCmp e k va.toNat vb.toNat md.toNat vm.toNat
  | .iadd _ vd va vb vm => planLane e k [va.toNat, vb.toNat] vd.toNat vm.toNat
  | .isub _ vd va vb vm => planLane e k [va.toNat, vb.toNat] vd.toNat vm.toNat
  | .imul _ vd va vb vm => planLane e k [va.toNat, vb.toNat] vd.toNat vm.toNat
  | .imin _ vd va vb vm => planLane e k [va.toNat, vb.toNat] vd.toNat vm.toNat
  | .imax _ vd va vb vm => planLane e k [va.toNat, vb.toNat] vd.toNat vm.toNat
  | .iand _ vd va vb vm => planLane e k [va.toNat, vb.toNat] vd.toNat vm.toNat
  | .ior _ vd va vb vm => planLane e k [va.toNat, vb.toNat] vd.toNat vm.toNat
  | .ixor _ vd va vb vm => planLane e k [va.toNat, vb.toNat] vd.toNat vm.toNat
  | .ishl _ vd va vb vm => planLane e k [va.toNat, vb.toNat] vd.toNat vm.toNat
  | .ishr _ vd va vb vm => planLane e k [va.toNat, vb.toNat] vd.toNat vm.toNat
  | .isar _ vd va vb vm => planLane e k [va.toNat, vb.toNat] vd.toNat vm.toNat
  | .lgath _ vd va vb vm => planLane e k [va.toNat, vb.toNat] vd.toNat vm.toNat
  | .cvtfi _ vd va vm _ => planLane e k [va.toNat] vd.toNat vm.toNat
  | .cvtif _ vd va vm _ => planLane e k [va.toNat] vd.toNat vm.toNat
  | .bcsm _ vd sm vm => planLane e k [] vd.toNat vm.toNat [.sm sm.toNat]
  | .bcsr _ vd ra vm => planLane e k [] vd.toNat vm.toNat [] [k.cur.sreg ra.toNat]
  | .lsh _ vd va count _ _ =>
    if count.toNat = 0 ∨ e.L ≤ count.toNat then .fault 0x14 else planLane e k [va.toNat] vd.toNat 0
  | .vext _ sm va lane =>
    if e.L ≤ lane.toNat then .fault 0x14 else .go { eng := .vec, rd := vres e k va.toNat, wr := [.sm sm.toNat] }
  | .msum _ sm mask _ => .go { eng := .vec, rd := maskRes mask.toNat, wr := [.sm sm.toNat] }
  | .wset _ _ _ rs => .go { eng := .vec, sr := [k.cur.sreg rs.toNat] }
  | .wstep _ _ _ => .go { eng := .vec }
  | .tpop _ _ g sm => .go { eng := .vec, wr := cacheRes g.toNat 32 ++ [.sm sm.toNat] }
  | .vld _ f => planMem e k ls false f
  | .vst _ f => planMem e k ls true f
  | .rinit _ ctx kind carry va =>
    if kind.toNat = 7 then .fault 0x14
    else .go { eng := .vec, rd := if carry then vres e k va.toNat else [], wr := [.rctx ctx.toNat] }
  | .rfeed _ ctx va mask => .go { eng := .vec, rd := vres e k va.toNat ++ maskRes mask.toNat, wr := [.rctx ctx.toNat] }
  | .rfeedm _ ctx addr rn =>
    let n := (k.cur.sreg rn.toNat).toNat
    if 2 ^ 32 ≤ n then .fault 0x14
    else planChecked k { eng := .vec, accs := accRun false (4 * addr.toNat) (4 * n), wr := [.rctx ctx.toNat],
                         sr := [k.cur.sreg rn.toNat] }
  | .rread _ ctx tov vd sm comp =>
    if !tov ∧ kindComps (issueKind k ctx.toNat) ≤ comp.toNat then .fault 0x14
    else .go { eng := .vec, rd := [.rctx ctx.toNat], wr := if tov then vres e k vd.toNat else [.sm sm.toNat] }
  | _ => .fault 0x10

/-- The window bases after an instruction issues (R137: a change holds for every instruction after it). -/
def winAfter (L : Nat) (i : Instr) (sr : List W64) (w : Sp Nat) : Sp Nat :=
  match i with
  | .wset _ vd base _ =>
    let b := (base.toNat + (sr.headD 0#64).toNat) % 512
    Sp.set 0 w vd.toNat ((b + 512 - L / 8 * vd.toNat % 512) % 512)
  | .wstep _ vd count =>
    Sp.set 0 w vd.toNat (wrap 9 (((Sp.get 0 w vd.toNat : Nat) : Int) + sext 10 count.toNat))
  | _ => w

/-- Finish a vector instruction: `beats` lane-operation beats counted in VEC_BUSY, waits in VEC_WAIT (R146, Table 8). -/
def vecDone (beats : Nat) (h : Entry) (r : CRes) : CRes := ((r.done h.seq).bump 0x2010 beats).bumpFree 0x2014

/-- Finish a vector instruction that pushes items. -/
def vecPush (e : CEnv) (h : Entry) (l : List PushItem) (r : CRes) : CRes := ((pushAll e h l r).bump 0x2010 0).bumpFree 0x2014

/-- A lane operation: every active lane's result from that lane's operands (R134, R141), all operands read before the
destination is written. -/
def laneOp (beats : Nat) (vd vm : Nat) (srcs : List Nat) (f : List W32 → W32 × Fl) (e : CEnv) (h : Entry) (r : CRes) : CRes :=
  let a := r.k.cur
  let res := (a.active e.L vm).map (fun i => (i, f (srcs.map (fun v => a.lane e.L h.win v i))))
  vecDone beats h (((r.cur (fun a => a.setLanes e.L h.win vd (res.map (fun x => (x.1, x.2.1))))).flags
    (flAll (res.map (fun x => x.2.2)))))

def arg1 (f : W32 → W32 × Fl) : List W32 → W32 × Fl
  | a :: _ => f a
  | [] => (0#32, 0#6)
def arg2 (f : W32 → W32 → W32 × Fl) : List W32 → W32 × Fl
  | a :: b :: _ => f a b
  | _ => (0#32, 0#6)
def arg3 (f : W32 → W32 → W32 → W32 × Fl) : List W32 → W32 × Fl
  | a :: b :: c :: _ => f a b c
  | _ => (0#32, 0#6)

/-- An exact one-operand FP32 operation: read under R65, result delivered as it is. -/
def fp32Un (f : FV → FV) (a : W32) : W32 × Fl :=
  let x := FFmt.fp32.read a.toNat
  let r := FFmt.fp32.write .rne (f x.1)
  (BitVec.ofNat 32 r.1, x.2 ||| r.2)

/-- Integer operations of Table 7 on 32 bits (R135). -/
def intOp (f : W32 → W32 → W32) (a b : W32) : W32 × Fl := (f a b, 0#6)
def minS (a b : W32) : W32 := if a.slt b then a else b
def maxS (a b : W32) : W32 := if a.slt b then b else a

def faddRun (vd va vb vm rm : Nat) : ExecF := laneOp 1 vd vm [va, vb] (arg2 (fp32Op2 (.ofCode rm) (FV.add (.ofCode rm))))
def fsubRun (vd va vb vm rm : Nat) : ExecF := laneOp 1 vd vm [va, vb] (arg2 (fp32Op2 (.ofCode rm) (FV.sub (.ofCode rm))))
def fmulRun (vd va vb vm rm : Nat) : ExecF := laneOp 1 vd vm [va, vb] (arg2 (fp32Op2 (.ofCode rm) FV.mul))
def ffmaRun (vd va vb vc vm rm : Nat) : ExecF := laneOp 1 vd vm [va, vb, vc] (arg3 (fp32Fma (.ofCode rm)))
def fabsRun (vd va vm : Nat) : ExecF := laneOp 1 vd vm [va] (arg1 (fp32Un FV.abs))
def fnegRun (vd va vm : Nat) : ExecF := laneOp 1 vd vm [va] (arg1 (fp32Un FV.neg))
def fminRun (vd va vb vm : Nat) : ExecF := laneOp 1 vd vm [va, vb] (arg2 (fp32Op2 .rne FV.min))
def fmaxRun (vd va vb vm : Nat) : ExecF := laneOp 1 vd vm [va, vb] (arg2 (fp32Op2 .rne FV.max))
def iaddRun (vd va vb vm : Nat) : ExecF := laneOp 1 vd vm [va, vb] (arg2 (intOp (· + ·)))
def isubRun (vd va vb vm : Nat) : ExecF := laneOp 1 vd vm [va, vb] (arg2 (intOp (· - ·)))
def imulRun (vd va vb vm : Nat) : ExecF := laneOp 1 vd vm [va, vb] (arg2 (intOp (· * ·)))
def iminRun (vd va vb vm : Nat) : ExecF := laneOp 1 vd vm [va, vb] (arg2 (intOp minS))
def imaxRun (vd va vb vm : Nat) : ExecF := laneOp 1 vd vm [va, vb] (arg2 (intOp maxS))
def iandRun (vd va vb vm : Nat) : ExecF := laneOp 1 vd vm [va, vb] (arg2 (intOp (· &&& ·)))
def iorRun (vd va vb vm : Nat) : ExecF := laneOp 1 vd vm [va, vb] (arg2 (intOp (· ||| ·)))
def ixorRun (vd va vb vm : Nat) : ExecF := laneOp 1 vd vm [va, vb] (arg2 (intOp (· ^^^ ·)))
def ishlRun (vd va vb vm : Nat) : ExecF := laneOp 1 vd vm [va, vb] (arg2 (intOp (fun a b => a <<< (b.toNat % 32))))
def ishrRun (vd va vb vm : Nat) : ExecF := laneOp 1 vd vm [va, vb] (arg2 (intOp (fun a b => a >>> (b.toNat % 32))))
def isarRun (vd va vb vm : Nat) : ExecF := laneOp 1 vd vm [va, vb] (arg2 (intOp (fun a b => a.sshiftRight (b.toNat % 32))))
def cvtfiRun (vd va vm rm : Nat) : ExecF := laneOp 1 vd vm [va] (arg1 (cvtFI (.ofCode rm)))
def cvtifRun (vd va vm rm : Nat) : ExecF := laneOp 1 vd vm [va] (arg1 (cvtIF (.ofCode rm)))

/-- FSEL: every lane written, 32 bits copied (Table 7). -/
def fselRun (vd va vb vm : Nat) : ExecF := fun e h r =>
  let a := r.k.cur
  let res := (List.range e.L).map (fun i => (i, if a.mbit vm i then a.lane e.L h.win va i else a.lane e.L h.win vb i))
  vecDone 1 h (r.cur (fun a => a.setLanes e.L h.win vd res))

/-- A compare: active lanes write their bit of VM`md` (R70, R141). -/
def cmpOp (md va vb vm : Nat) (f : FV → FV → Bool) : ExecF := fun e h r =>
  let a := r.k.cur
  let act := a.active e.L vm
  let rd (v i : Nat) : FV × Fl := FFmt.fp32.read (a.lane e.L h.win v i).toNat
  let bit (i : Nat) : Bool := if act.contains i then f (rd va i).1 (rd vb i).1 else a.mbit md i
  let v := (List.range e.L).foldl (fun m i => if bit i then m + 2 ^ i else m) 0
  vecDone 1 h ((r.cur (fun a => a.setMask md v)).flags (flAll (act.map (fun i => (rd va i).2 ||| (rd vb i).2))))

def fceqRun (md va vb vm : Nat) : ExecF := cmpOp md va vb vm FV.eqv
def fcltRun (md va vb vm : Nat) : ExecF := cmpOp md va vb vm FV.lt
def fcleRun (md va vb vm : Nat) : ExecF := cmpOp md va vb vm FV.le
def fcneRun (md va vb vm : Nat) : ExecF := cmpOp md va vb vm (fun a b => !FV.eqv a b)

/-- Broadcast one value to the active lanes. -/
def bcast (vd vm : Nat) (v : W32) : ExecF := laneOp 1 vd vm [] (fun _ => (v, 0#6))

def bcsmRun (vd sm vm : Nat) : ExecF := fun e h r => bcast vd vm (r.k.cur.smreg sm) e h r
def bcsrRun (vd vm : Nat) : ExecF := fun e h r => bcast vd vm ((h.sr.headD 0#64).setWidth 32) e h r

/-- LSH (Table 7): shift lanes by COUNT, filling with +0 or rotating. -/
def lshRun (vd va count : Nat) (dir rot : Bool) : ExecF := fun e h r =>
  let a := r.k.cur
  let L := e.L
  let src (i : Nat) : W32 :=
    if dir then (if i + count < L then a.lane L h.win va (i + count) else if rot then a.lane L h.win va (i + count - L) else 0#32)
    else (if count ≤ i then a.lane L h.win va (i - count) else if rot then a.lane L h.win va (i + L - count) else 0#32)
  vecDone 1 h (r.cur (fun a => a.setLanes L h.win vd ((List.range L).map (fun i => (i, src i)))))

/-- LGATH: lane i takes the lane b_i mod L of VA (Table 2: two beats). -/
def lgathRun (vd va vb vm : Nat) : ExecF := fun e h r =>
  let a := r.k.cur
  let res := (a.active e.L vm).map (fun i => (i, a.lane e.L h.win va ((a.lane e.L h.win vb i).toNat % e.L)))
  vecDone 2 h (r.cur (fun a => a.setLanes e.L h.win vd res))

def vextRun (sm va lane : Nat) : ExecF := fun e h r =>
  vecDone 0 h (r.cur (fun a => a.setSm sm (a.lane e.L h.win va lane)))

def msumRun (sm mask kind : Nat) : ExecF := fun e h r =>
  vecDone 0 h (r.cur (fun a => a.setSm sm (maskSummary kind ((List.range e.L).map (a.mbit mask)))))

/-- WSET and WSTEP take effect at issue for later instructions; running them records the completed base (VEC_WIN). The
entry's own windows are those after it. -/
def winRun : ExecF := fun _ h r => vecDone 0 h (r.cur (fun a => { a with win := h.win }))

/-- The finished-tile queue of an array. -/
def CoreArch.fin (a : CoreArch) (arr : Bool) : List FinTile := if arr then a.finB else a.finA
def CoreArch.setFin (a : CoreArch) (arr : Bool) (l : List FinTile) : CoreArch :=
  if arr then { a with finB := l } else { a with finA := l }

/-- Pack 16-bit elements two to a word (R144, R154). -/
def pack16 : List Nat → List W32
  | a :: b :: r => BitVec.ofNat 32 (a + 65536 * b) :: pack16 r
  | [a] => [BitVec.ofNat 32 a]
  | [] => []

def tpopReady (arr : Bool) : ReadyF := fun _ _ k => !(k.cur.fin arr).isEmpty

/-- TPOP (R144): the oldest tile, row-major from granule g, its flag word to the summary register. -/
def tpopRun (arr : Bool) (g sm : Nat) : ExecF := fun _ h r =>
  match r.k.cur.fin arr with
  | [] => r
  | t :: ts =>
    let ws := if t.fmt = 0 then t.elems.map (BitVec.ofNat 32) else pack16 t.elems
    vecDone 0 h (r.cur (fun a => ((a.setFin arr ts).setCache g ws).setSm sm t.flag))

/-- The element places of an L-lane load or store through a descriptor. -/
def descPlaces (e : CEnv) (f : VMem) (o : Opnd) (h : Entry) : List (Nat × ElemAt) :=
  let row := (h.sr.headD 0#64).toNat
  let col := (nthD h.sr 1 0#64).toNat
  (List.range e.L).map (fun i =>
    if f.mode.toNat = 1 then (row + i, o.at_ 0 o.cols (row + i) col) else (row, o.at_ 0 o.cols row (col + i)))

/-- One element loaded as FP32 (R136). -/
def loadElem (o : Opnd) (ls : Memory) (f : VMem) (i : Nat) (p : ElemAt) : W32 × Fl :=
  if fmtOb o.fmt then obFp32 o ls i p
  else loadFp32 o.fmt (.ofCode (f.modx.toNat % 4)) (modxF f.modx.toNat) (o.bits ls p)

/-- The queue end an entry's first operand names, if any. -/
def Entry.q0 (h : Entry) : Option Nat := (h.ops.headD {}).qend

/-- VLD (R308, R234): L elements into V, converting to FP32; a queue-end form pops one item, whose elements belong to channel 0 where its
casting gives the queue end WIDE 1. DESIGN CHOICE: log 154. -/
def vldRun (f : VMem) : ExecF := fun e h r =>
  let ls := r.k.st.ls
  let els : List (W32 × Fl) :=
    match h.ops with
    | o :: _ =>
      match o.qend with
      | some q =>
        let p := Sp.get 0 r.k.cur.qpop q
        (List.range e.L).map (fun i =>
          if i < o.perItem then loadElem o ls f 0 (o.at_ p e.L 0 i)
          else (BitVec.ofNat 32 (Config.freeNat (r.fc + i)), 0#6))
      | none => (descPlaces e f o h).map (fun x => loadElem o ls f x.1 x.2)
    | [] =>
      (List.range e.L).map (fun i =>
        loadFp32 f.fmt.toNat (.ofCode (f.modx.toNat % 4)) (modxF f.modx.toNat)
          (Memory.nat ls (memLane e.L f (h.sr.headD 0#64).toNat i).toNat (fmtBits f.fmt.toNat / 8)))
  let r1 : CRes := match h.q0 with
    | some _ => { doPops h.pops r with fc := r.fc + e.L }
    | none => r
  vecDone 0 h ((r1.cur (fun a => a.setLanes e.L h.win f.v.toNat ((els.zipIdx).map (fun x => (x.2, x.1.1))))).flags
    (flAll (els.map (·.2))))

/-- Split a list into blocks of `n`. -/
def chunks {α : Type} (n : Nat) : Nat → List α → List (List α)
  | 0, _ => []
  | m + 1, l => if l.isEmpty then [] else l.take n :: chunks n m (l.drop n)

/-- Write the elements `vs` (FP32 patterns) at the places, with their blocks' exponents where the operand carries them (R77,
R80, R308), a padding position's element being 0 (R76); the memory and the flags. -/
def storeElems (o : Opnd) (f : VMem) (scaleLs ls : Memory) (ps : List (Nat × ElemAt)) (ws : List W32) : Memory × Fl :=
  let rm := RM.ofCode (f.modx.toNat % 4)
  let vs := (ps.zip ws).map (fun x => if x.1.2.pad then 0#32 else x.2)
  if fmtOb o.fmt then
    if ps.all (fun p => o.isWide p.1) then
      (ps.zip vs).foldl (fun (m, fl) (p, v) =>
        let x := FFmt.fp32.read v.toNat
        let s := FFmt.fp32.read (o.scale scaleLs p.1)
        let q := o.ob.encodeWide x.1 s.1
        let m1 := putElem m o.fmt p.2 (o.ob.bits q.1)
        let m2 := if o.wide = 2 && o.qend.isSome then m1 else Memory.setByte m1 p.2.xbyte 0x7F#8
        (m2, fl ||| x.2 ||| s.2 ||| q.2)) (ls, 0#6)
    else
      (chunks o.ob.block vs.length (ps.zip vs)).foldl (fun (m, fl) blk =>
        let xs := blk.map (fun b => FFmt.fp32.read b.2.toNat)
        let enc := o.ob.encodeBlock (xs.map (·.1))
        let m1 := (blk.zip enc.2.1).foldl (fun m b => putElem m o.fmt b.1.1.2 (o.ob.bits b.2)) m
        let m2 := match blk with
          | b :: _ => Memory.setByte m1 b.1.2.xbyte (BitVec.ofNat 8 enc.1)
          | [] => m1
        (m2, fl ||| flAll (xs.map (·.2)) ||| enc.2.2)) (ls, 0#6)
  else
    (ps.zip vs).foldl (fun (m, fl) (p, v) =>
      let x := storeFp32 o.fmt rm (modxF f.modx.toNat) v
      (putElem m o.fmt p.2 x.1, fl ||| x.2)) (ls, 0#6)

/-- VST (R308): V's L elements converted and encoded; a queue-end form pushes one item, whose elements belong to channel
0 where its casting gives the queue end WIDE 1. DESIGN CHOICE: log 154. -/
def vstRun (f : VMem) : ExecF := fun e h r =>
  let ls := r.k.st.ls
  let vs := (List.range e.L).map (fun i => r.k.cur.lane e.L h.win f.v.toNat i)
  match h.ops with
  | o :: _ =>
    match o.qend with
    | some q =>
      let n := 32 * o.item
      let blank : Memory := lsPut [] 0 ((List.range n).map (fun i => BitVec.ofNat 8 (Config.freeNat (r.fc + i))))
      let o0 : Opnd := { o with ring := 0, nitems := 1 }
      let ps := (List.range (Nat.min e.L o.perItem)).map (fun i => (0, o0.at_ 0 e.L 0 i))
      let m := storeElems o0 f ls blank ps vs
      vecPush e h [{ qend := q, ord := h.ord, bytes := lsBytesAt m.1 0 n }] ({ r with fc := r.fc + n }.flags m.2)
    | none =>
      let m := storeElems o f ls ls (descPlaces e f o h) vs
      vecDone 0 h ((r.st (fun s => { s with ls := m.1 })).flags m.2)
  | [] =>
    let o : Opnd := { fmt := f.fmt.toNat }
    let ps := (List.range e.L).map (fun i =>
      (0, ({ byte := (memLane e.L f (h.sr.headD 0#64).toNat i).toNat, hi := false, xbyte := 0 } : ElemAt)))
    let m := storeElems o f ls ls ps vs
    vecDone 0 h ((r.st (fun s => { s with ls := m.1 })).flags m.2)

/-- Replace reduction context `i`. -/
def CoreArch.setRctx (a : CoreArch) (i : Nat) (c : RCtx) : CoreArch := { a with rctx := updAt a.rctx i (fun _ => c) }

/-- RINIT (R147): kind and starting state, empty or carried in the layout of R149. DEDUCED: log 102. -/
def rinitRun (ctx kind : Nat) (carry : Bool) (va : Nat) : ExecF := fun e h r =>
  let l (i : Nat) : W32 := r.k.cur.lane e.L h.win va i
  let c : RCtx :=
    if !carry then { kind := kind }
    else if kind ≤ 1 then { kind := kind, a := l 0 }
    else if kind = 2 then { kind := kind, n := (l 0).toNat, a := l 1, b := l 2 }
    else if kind ≤ 4 then { kind := kind, n := 1, a := l 0 }
    else if l 2 = 0#32 then { kind := kind }
    else { kind := kind, n := (l 2).toNat, a := l 0, b := l 1 }
  vecDone 0 h (r.cur (fun a => a.setRctx ctx c))

/-- Canonical reading of an FP32 element: R64 and R65. -/
def fp32Canon (x : W32) : W32 × Fl := fp32Un id x

/-- One element enters a reduction context (R129 to R131, R147, R148). None: the count would pass 2^32 - 1 (0x13). DEDUCED: log 103. -/
def feedOne (c : RCtx) (x : W32) : Option (RCtx × Fl) :=
  match c.kind with
  | 0 => let s := fp32Op2 .rne (FV.add .rne) c.a x; some ({ c with a := s.1 }, s.2)
  | 1 => let s := fp32Fma .rne x x c.a; some ({ c with a := s.1 }, s.2)
  | 2 =>
    if 2 ^ 32 - 1 ≤ c.n then none
    else
      let k := c.n + 1
      let d := fp32Op2 .rne (FV.sub .rne) x c.a
      let dv := FFmt.fp32.read d.1.toNat
      let qv := FFmt.fp32.result .rne (FV.div 24 dv.1 (FV.ofInt k)) dv.1.isNan
      let mu := fp32Op2 .rne (FV.add .rne) c.a (BitVec.ofNat 32 qv.1)
      let y := fp32Op2 .rne (FV.sub .rne) x mu.1
      let m2 := fp32Fma .rne d.1 y.1 c.b
      some ({ c with n := k, a := mu.1, b := m2.1 }, flAll [d.2, qv.2, mu.2, y.2, m2.2])
  | 3 =>
    if c.n = 0 then let v := fp32Canon x; some ({ c with n := 1, a := v.1 }, v.2)
    else let v := fp32Op2 .rne FV.max c.a x; some ({ c with a := v.1 }, v.2)
  | 4 =>
    if c.n = 0 then let v := fp32Canon x; some ({ c with n := 1, a := v.1 }, v.2)
    else let v := fp32Op2 .rne FV.min c.a x; some ({ c with a := v.1 }, v.2)
  | _ =>
    if 2 ^ 32 - 1 ≤ c.n then none
    else
      let v := fp32Canon x
      let held := FFmt.fp32.read c.a.toNat
      let xv := FFmt.fp32.read x.toNat
      if c.n = 0 then some ({ c with n := 1, a := v.1, b := 0#32 }, v.2)
      else if held.1.isNan then some ({ c with n := c.n + 1 }, v.2)
      else if xv.1.isNan || (if c.kind = 5 then FV.lt held.1 xv.1 else FV.lt xv.1 held.1) then
        some ({ c with n := c.n + 1, a := v.1, b := BitVec.ofNat 32 c.n }, v.2)
      else
        let m := fp32Op2 .rne (if c.kind = 5 then FV.max else FV.min) c.a x
        some ({ c with n := c.n + 1, a := m.1 }, m.2)

/-- Elements enter in order; the flag says a count would pass its limit. -/
def feedAll (c : RCtx) : List W32 → RCtx × Fl × Bool
  | [] => (c, 0#6, false)
  | x :: xs =>
    match feedOne c x with
    | none => (c, 0#6, true)
    | some (c1, f) => let r := feedAll c1 xs; (r.1, f ||| r.2.1, r.2.2)

/-- Feed elements to a context, halting with 0x13 where a count overflows; the elements fed before that one stay in the context, with their
flags. DEDUCED: log 22. -/
def feedRun (ctx : Nat) (xs : List W32) (h : Entry) (r : CRes) : CRes :=
  let c := nthD r.k.cur.rctx ctx {}
  let f := feedAll c xs
  let r1 := (r.cur (fun a => a.setRctx ctx f.1)).flags f.2.1
  if f.2.2 then r1.die h.seq { code := 0x13, unit := 3, tag := h.tag } else vecDone 0 h r1

def rfeedRun (ctx va mask : Nat) : ExecF := fun e h r =>
  feedRun ctx ((r.k.cur.active e.L mask).map (fun i => r.k.cur.lane e.L h.win va i)) h r

def rfeedmRun (ctx addr : Nat) : ExecF := fun _ h r =>
  feedRun ctx ((List.range (h.sr.headD 0#64).toNat).map (fun i => Memory.w32 r.k.st.ls (4 * addr + 4 * i))) h r

/-- x / n rounded to FP32 (R131); n = 0 gives the canonical NaN with NANGEN. -/
def divCount (x : W32) (n : Nat) : W32 × Fl :=
  if n = 0 then (0x7FC00000#32, flNangen)
  else
    let v := FFmt.fp32.read x.toNat
    let q := FFmt.fp32.result .rne (FV.div 24 v.1 (FV.ofInt n)) v.1.isNan
    (BitVec.ofNat 32 q.1, v.2 ||| q.2)

/-- The components of a context in the order of R149. -/
def rctxComps (c : RCtx) : List (W32 × Fl) :=
  match c.kind with
  | 2 => [(BitVec.ofNat 32 c.n, 0#6), (c.a, 0#6), (c.b, 0#6), divCount c.b c.n,
          if c.n ≤ 1 then (0x7FC00000#32, flNangen) else divCount c.b (c.n - 1)]
  | 3 => [(if c.n = 0 then 0xFF800000#32 else c.a, 0#6)]
  | 4 => [(if c.n = 0 then 0x7F800000#32 else c.a, 0#6)]
  | 5 => if c.n = 0 then [(0xFF800000#32, 0#6), (0xFFFFFFFF#32, 0#6), (0#32, 0#6)]
         else [(c.a, 0#6), (c.b, 0#6), (BitVec.ofNat 32 c.n, 0#6)]
  | 6 => if c.n = 0 then [(0x7F800000#32, 0#6), (0xFFFFFFFF#32, 0#6), (0#32, 0#6)]
         else [(c.a, 0#6), (c.b, 0#6), (BitVec.ofNat 32 c.n, 0#6)]
  | _ => [(c.a, 0#6)]

/-- RREAD (R149): the components to the lanes from lane 0, the rest +0; or one component to a summary register. -/
def rreadRun (ctx : Nat) (tov : Bool) (vd sm comp : Nat) : ExecF := fun e h r =>
  let cs := rctxComps (nthD r.k.cur.rctx ctx {})
  if tov then
    vecDone 0 h ((r.cur (fun a => a.setLanes e.L h.win vd
      ((List.range e.L).map (fun i => (i, (nthD cs i (0#32, 0#6)).1))))).flags (flAll (cs.map (·.2))))
  else
    let v := nthD cs comp (0#32, 0#6)
    vecDone 0 h ((r.cur (fun a => a.setSm sm v.1)).flags v.2)

end Sys2Proof.Machine
end

