-- ==== Sys2Proof/Machine/Matrix.lean ====
section
/-! DEFINITION. Machine/Matrix.lean: the matrix arrays and their accumulators (R85 to R128, R203 to R205, R309 to R311). -/

namespace Sys2Proof

/-- Result rows and columns an MMUL or a write-out names (R309, R311). -/
def MMul.M (f : MMul) : Nat := f.m1.toNat + 1
/-- Columns of an MMUL: a BATCH one has one (R105, R309). -/
def MMul.N (f : MMul) : Nat := if f.batch then 1 else Machine.fld f.ndh.toNat 5 0 + 1
/-- Rows of a write-out. -/
def WOut.M (f : WOut) : Nat := f.m1.toNat + 1
/-- Columns of a write-out. -/
def WOut.N (f : WOut) : Nat := f.n1.toNat + 1

end Sys2Proof

namespace Sys2Proof.Machine

/-- Matrix operations (Table 4 of Matrix arrays). -/
inductive MOp where
  | mac | sqd | abd | minp | maxp
  deriving DecidableEq, Repr

def MOp.isCmp : MOp → Bool
  | .minp => true
  | .maxp => true
  | _ => false

/-- Elements per unit per beat (Table 1 of Matrix arrays). -/
def mmR (fmt : Nat) : Nat := if fmt = 2 then 32 else if fmt = 3 then 64 else 16

/-- Format code of Table 4 of Programming model of an MMUL FMT field (Table 9). -/
def mmFmt (f : Nat) : Nat :=
  match f with
  | 0 => 1
  | 1 => 2
  | 2 => 4
  | _ => 5


/-- Tiles an M by N result covers (R89). -/
def tileCount (M N : Nat) : Nat := cdiv M 8 * cdiv N 32

/-- Tile of element (m, n) (R89). -/
def tileOf (base N m n : Nat) : Nat := base + m / 8 * cdiv N 32 + n / 32
def posOf (m n : Nat) : Nat := m % 8 * 32 + n % 32

/-- Stored columns of the stationary operand (R98, R100, R76). -/
def sCols (f : MMul) (o : Opnd) (K : Nat) : Nat :=
  if f.slide then mmR f.fmt.toNat
  else if f.ori then f.M
  else if fmtOb o.fmt then cdiv K o.ob.block * o.ob.block else K

def sRows (f : MMul) (K : Nat) : Nat := if f.slide then cdiv K (mmR f.fmt.toNat) + f.M - 1 else if f.ori then K else f.M

def bCols (o : Opnd) (K : Nat) : Nat := if fmtOb o.fmt then cdiv K o.ob.block * o.ob.block else K

/-- Items an operand of `n` elements pops (R309); none where it fills no whole number of items (R310). -/
def itemsOf (o : Opnd) (n : Nat) : Option Nat :=
  if o.perItem = 0 ∨ n % o.perItem ≠ 0 then none else some (n / o.perItem)

def badItems (o : Opnd) (n : Nat) : Bool := o.qend.isSome && (itemsOf o n).isNone

/-- Messages a result of `n` elements sends: its items on a queue end (R377). -/
def outMsgs (o : Opnd) (n : Nat) : Nat := if o.qend.isSome then (itemsOf o n).getD 0 else 0

/-- The items that a queue-end operand of `n` elements pops. -/
def popList (o : Opnd) (n : Nat) : List (Nat × Nat) :=
  match o.qend with
  | some q => [(q, (itemsOf o n).getD 0)]
  | none => []

/-- The ring slots of the pops `ps` of operand `o`, after the unfinished instructions' and those in `before` (R242, R287). -/
def popAccs (k : Core) (o : Opnd) (ps before : List (Nat × Nat)) : List Acc :=
  ps.flatMap (fun p => o.ringAccs (nextItem k p.1 + popsOn p.1 before) p.2)

/-- Format codes a write-out may name: FP32, BF16, FP16 (R118, R310). -/
def outFmt (f : Nat) : Bool := f == 0 || f == 1 || f == 2

/-- Operand by handle or inbound queue end, as QE says (R34, R309). -/
def planOpnd (e : CEnv) (k : Core) (ls : Memory) (qe out : Bool) (h : Nat) (f : Opnd → PlanR) : PlanR :=
  if qe then withOpnd (if out then resolveOut e (h % 16) else resolveIn e (h % 16)) f
  else planH e k ls h f

/-- Plan of MMUL (R309, R310). With SLIDE and a K of at most r, a descriptor of K columns suffices for the rows of r elements, the elements past K
being no part of the sum (R99, R100). DEDUCED: log 156. -/
def planMMul (e : CEnv) (k : Core) (ls : Memory) (arr : Bool) (op : MOp) (f : MMul) : PlanR :=
  let sk := k.cur.sreg f.kr.toNat
  let K := sk.toNat % 2 ^ 32
  let M := f.M
  let N := f.N
  let fmt := mmFmt f.fmt.toNat
  let ob := fmtOb fmt
  if f.qe ≠ e.qends then .fault 0x15
  else planOpnd e k ls f.qe false f.sh.toNat (fun s => planOpnd e k ls f.qe false f.bh.toNat (fun b =>
    let go (d : Option Opnd) : PlanR :=
      let dbad : Bool := match d with
        | none => false
        | some o => !outFmt o.fmt || (o.qend.isNone && decide (o.cols < M)) || badItems o M
      let segN := if cdiv K (mmR f.fmt.toNat) ≤ 1 then Nat.min K (mmR f.fmt.toNat) else mmR f.fmt.toNat
      let small : Bool := s.qend.isNone &&
        (if f.slide then decide (s.rows < sRows f K) || decide (s.cols < segN)
         else if f.ori then decide (s.rows < K) || decide (s.cols < M) else decide (s.rows < M) || decide (s.cols < K))
      let smallB : Bool := b.qend.isNone && (decide (b.rows < N) || decide (b.cols < K))
      if s.fmt ≠ fmt ∨ b.fmt ≠ fmt ∨ (ob ∧ s.blk ≠ b.blk) ∨ (ob ∧ op ≠ .mac) ∨ (f.ori ∧ ob ∧ s.wide ≠ 2)
        ∨ (f.slide ∧ (8 < M ∨ f.ori ∨ f.batch)) ∨ (f.batch ∧ f.add) ∨ 64 < f.base.toNat + tileCount M N ∨ K = 0
        ∨ small ∨ smallB ∨ badItems s (sRows f K * sCols f s K) ∨ badItems b (N * bCols b K) ∨ dbad then .fault 0x12
      else
        let tN := if f.batch then 64 else N
        let ps := popList s (sRows f K * sCols f s K)
        let pb := popList b (N * bCols b K)
        planChecked k
          { eng := .arr arr, sr := [sk], ops := [s, b] ++ d.toList, pops := ps ++ pb,
            msgs := match d with | some o => outMsgs o M | none => 0,
            accs := s.accs false 0 (sRows f K) 0 (if f.slide then segN else if f.ori then M else K) ++ popAccs k s ps []
              ++ b.accs false 0 N 0 K ++ popAccs k b pb ps ++ (match d with | some o => o.accs true 0 1 0 M | none => []),
            wr := [.tile arr f.base.toNat (Nat.min 64 (f.base.toNat + tileCount M tN))] }
    if f.batch then planOpnd e k ls f.qe true f.ndh.toNat (fun d => go (some d)) else go none))

/-- Plan of WOUT and WOUTG (R310, R311). -/
def planWOut (e : CEnv) (k : Core) (ls : Memory) (arr g : Bool) (f : WOut) : PlanR :=
  let M := f.M
  let N := f.N
  let tiles := tileCount M N
  let wr := [Res.tile arr f.base.toNat (f.base.toNat + tiles)]
  let rd2 := if g then [Res.tile true f.tbb.toNat (f.tbb.toNat + tiles)] else []
  let fin (d c : Option Opnd) : PlanR :=
    let dbad : Bool := match d with
      | none => false
      | some o => !outFmt o.fmt || (o.qend.isNone && (decide (o.rows < M) || decide (o.cols < N))) || badItems o (M * N)
    let cbad : Bool := match c with
      | none => false
      | some o => o.qend.isNone && (o.fmt != 0 || (decide (1 < o.rows) && decide (o.rows < M)))
    if (g ∧ arr) ∨ 64 < f.base.toNat + tiles ∨ (g ∧ 64 < f.tbb.toNat + tiles) ∨ (f.dq ∧ f.dfmt = 3#2) ∨ dbad ∨ cbad then
      .fault 0x12
    else planChecked k
      { eng := .arr arr, ops := d.toList ++ c.toList,
        msgs := match d with | some o => outMsgs o (M * N) | none => 0, bank := if k.cur.curveAct then 1 else 0,
        accs := (match d with | some o => o.accs true 0 M 0 N | none => [])
          ++ (match c with
            | some o => if o.qend.isSome then o.scaleAccs
                        else o.accs false 0 (if o.rows = 1 then 1 else M) 0 1
            | none => []),
        rd := wr ++ rd2 }
  let scale (d : Option Opnd) : PlanR :=
    if !f.wide then fin d none
    else if e.qends then (match d with
      | some o => fin d (some o)
      | none => .fault 0x15)
    else planH e k ls f.sch.toNat (fun c => fin d (some c))
  if f.dq then scale none
  else if f.qe ≠ e.qends then .fault 0x15
  else planOpnd e k ls f.qe true f.dh.toNat (fun d => scale (some d))

/-- The outcome of one output element: its FP32 pattern, the beat of its row in which it first overflowed at finite operands (R120), a
flush, an 0xFF block, the COR_FMTFLAGS it sets (R115, R74), and the beat of its row in which it became a NaN. -/
structure ElemOut where
  t : W32
  ovf : Option Nat := none
  flush : Bool := false
  xblk : Bool := false
  fl : Fl := 0
  nan : Option Nat := none
  deriving DecidableEq, Repr

/-- Greatest ⌊log2⌋ over the finite nonzero terms (R112). -/
def emaxOf (ts : List FV) : Option Int :=
  ts.foldl (fun a t => match t with
    | .fin _ m e => if m = 0 then a else match a with
      | none => some (msbOf m e)
      | some x => some (max x (msbOf m e))
    | _ => a) none

/-- ⌊t / 2^lo⌋ of a finite term (R112: toward minus infinity). -/
def floorTo (t : FV) (lo : Int) : Int :=
  match t with
  | .fin n m e =>
    let v : Int := if n then -(m : Int) else (m : Int)
    if lo ≤ e then v * ((2 ^ (e - lo).toNat : Nat) : Int) else v / ((2 ^ (lo - e).toNat : Nat) : Int)
  | _ => 0

/-- The value of a floating-point run before promotion (R112, R115) and whether a NaN was generated. -/
def floatRun (ts : List FV) : FV :=
  if ts.any FV.isNan then .nan
  else if ts.any FV.isInf then
    (if ts.all (fun t => !(t.isInf && t.sgn)) then .inf false
     else if ts.all (fun t => !(t.isInf && !t.sgn)) then .inf true else .nan)
  else match emaxOf ts with
    | none => FV.zero
    | some em =>
      let u : Int := em - 16
      let w : Int := (ts.map (fun t => floorTo t u)).sum
      if w = 0 then FV.zero else .fin (decide (w < 0)) w.natAbs u

/-- One term of the operation (R102, R103). -/
def termOf (op : MOp) (a b : FV) : FV :=
  match op with
  | .mac => FV.mul a b
  | .sqd => let d := FV.sub .rne a b; FV.mul d d
  | .abd => FV.abs (FV.sub .rne a b)
  | _ => FV.add .rne a b

/-- Add one promoted run to the total (R111): `v` exact before promotion, scaled by the tile's σ. -/
def addRun (sc : Bool) (beat : Nat) (v : FV) (a : ElemOut) : ElemOut :=
  let x := v.scale (if sc then -64 else 0)
  let p := FFmt.fp32.round .rne x
  let t := FFmt.fp32.read a.t.toNat
  let s := FV.add .rne t.1 p.1
  let r := FFmt.fp32.write .rne s
  let ovf := (p.2 &&& flOvf != 0#6 && t.1.isFin) || (r.2 &&& flOvf != 0#6)
  let gen := if s.isNan && !t.1.isNan && !v.isNan then flNangen else 0#6
  { a with
    t := BitVec.ofNat 32 r.1, ovf := if a.ovf.isNone && ovf then some beat else a.ovf, flush := a.flush || p.2 &&& flFlush != 0#6 || r.2 &&& flFlush != 0#6,
    fl := a.fl ||| gen, nan := if a.nan.isNone && s.isNan then some beat else a.nan }

/-- How a matrix instruction reads its operands: stationary and streaming element places, and wide rows. -/
structure MRead where
  s : Opnd
  sAt : Nat → Nat → ElemAt
  sRow : Nat → Nat → Nat
  /-- the streaming operand of column n, the row of it that the column is, and its places: a batch column has an operand of its own -/
  b : Nat → Opnd
  bRow : Nat → Nat
  bAt : Nat → Nat → ElemAt

/-- The readers of an MMUL whose operands pop from items `ps`, `pb`. -/
def mread (f : MMul) (K : Nat) (s b : Opnd) (ps pb : Nat) : MRead :=
  let r := mmR f.fmt.toNat
  let sc := sCols f s K
  let row (m k : Nat) : Nat := if f.slide then k / r + f.M - 1 - m else if f.ori then k else m
  { s := s, b := fun _ => b, bRow := fun n => n, sRow := row,
    sAt := fun m k => if f.slide then s.at_ ps sc (row m k) (k % r) else if f.ori then s.at_ ps sc k m else s.at_ ps sc m k,
    bAt := fun n k => b.at_ pb (bCols b K) n k }

/-- One run of an OB pair (R114): the exact value, XBLK, and the NONFIN flag. -/
def intRun (x : MRead) (ls : Memory) (m n k0 k1 : Nat) : FV × Bool :=
  let sw := x.s.isWide (x.sRow m k0)
  let b := x.b n
  let bw := b.isWide (x.bRow n)
  let ea := if sw then 127 else (Memory.byte ls (x.sAt m k0).xbyte).toNat
  let eb := if bw then 127 else (Memory.byte ls (x.bAt n k0).xbyte).toNat
  if ea = 0xFF ∨ eb = 0xFF then (FV.zero, true)
  else
    let w : Int := ((List.range (k1 - k0)).map (fun i =>
      x.s.ob.q (x.s.bits ls (x.sAt m (k0 + i))) * b.ob.q (b.bits ls (x.bAt n (k0 + i))))).sum
    (if w = 0 then FV.zero else .fin (decide (w < 0)) w.natAbs ((ea : Int) + (eb : Int) - 254), false)

/-- Element (m, n) of MAC, SQD or ABD from the starting total (R111 to R115). DEDUCED: log 94. -/
def sumElem (x : MRead) (op : MOp) (ls : Memory) (K r m n : Nat) (sc : Bool) (start : W32) : ElemOut :=
  let ob := fmtOb x.s.fmt
  let z := if ob then x.s.ob.block else 16
  (List.range (cdiv K z)).foldl (fun a j =>
    let k0 := j * z
    let k1 := Nat.min K (k0 + z)
    if ob then
      let v := intRun x ls m n k0 k1
      addRun sc (k0 / r) v.1 { a with xblk := a.xblk || v.2, fl := a.fl ||| (if v.2 then flNonfin else 0#6) }
    else
      let prs := (List.range (k1 - k0)).map (fun i => (x.s.fval ls (x.sAt m (k0 + i)), (x.b n).fval ls (x.bAt n (k0 + i))))
      let ts := prs.map (fun p => termOf op p.1.1 p.2.1)
      let v := floatRun ts
      let nin := flAll (prs.map (fun p => p.1.2 ||| p.2.2))
      let gen := if v.isNan && (ts.all (fun t => !t.isNan)
          || prs.any (fun p => !p.1.1.isNan && !p.2.1.isNan && (termOf op p.1.1 p.2.1).isNan)) then flNangen else 0#6
      addRun sc (k0 / r) v { a with fl := a.fl ||| nin ||| gen }) { t := start }

/-- Element (m, n) of MINP or MAXP (R104): terms rounded to FP32, scaled in an SC tile, combined in ascending k. -/
def cmpElem (x : MRead) (op : MOp) (ls : Memory) (K m n : Nat) (sc : Bool) (held : Option W32) : ElemOut :=
  let comb := if op = .minp then FV.min else FV.max
  let init : Option FV × ElemOut := (held.map (fun h => (FFmt.fp32.read h.toNat).1), { t := 0 })
  let r := (List.range K).foldl (fun (a : Option FV × ElemOut) k =>
    let p := x.s.fval ls (x.sAt m k)
    let q := (x.b n).fval ls (x.bAt n k)
    let t := FV.add .rne p.1 q.1
    let u := FFmt.fp32.round .rne t
    let w := FFmt.fp32.round .rne (u.1.scale (if sc then -64 else 0))
    let c := match a.1 with
      | none => w.1
      | some h => comb h w.1
    let gen := if t.isNan && !p.1.isNan && !q.1.isNan then flNangen else 0#6
    (some c, { a.2 with
      flush := a.2.flush || u.2 &&& flFlush != 0#6 || w.2 &&& flFlush != 0#6, fl := a.2.fl ||| p.2 ||| q.2 ||| gen,
      nan := if a.2.nan.isNone && c.isNan then some (k / 16) else a.2.nan })) init
  let v := match r.1 with
    | some c => c
    | none => FV.zero
  { r.2 with t := BitVec.ofNat 32 (FFmt.fp32.write .rne v).1 }

/-- The covered elements of a tile of an M by N result, as (m, n, position). -/
def covered (base M N tile : Nat) : List (Nat × Nat × Nat) :=
  let c := cdiv N 32
  let tm := (tile - base) / c
  let tn := (tile - base) % c
  (List.range (Nat.min 8 (M - 8 * tm))).flatMap (fun i =>
    (List.range (Nat.min 32 (N - 32 * tn))).map (fun j => (8 * tm + i, 32 * tn + j, i * 32 + j)))

/-- The new contents of one tile at scale `sc` (R111, R117, R120 step 3): elements by position, the beat of the instruction in which the
tile first overflows, flags. -/
structure TileOut where
  els : List (Nat × ElemOut)
  kept : List (Nat × W32)
  ovf : Option Nat
  flush : Bool
  xblk : Bool
  fl : Fl
  deriving DecidableEq, Repr

/-- A held value scaled by 2^-64 under R66 (R120 step 3). -/
def scaleHeld (v : W32) : W32 × Bool :=
  let r := FFmt.fp32.write .rne ((FFmt.fp32.read v.toNat).1.scale (-64))
  (BitVec.ofNat 32 r.1, r.2 &&& flFlush != 0#6)

/-- The least of the numbers present. -/
def leastOf (l : List (Option Nat)) : Option Nat :=
  l.foldl (fun a x => match a, x with
    | none, y => y
    | some u, some v => some (Nat.min u v)
    | some u, none => some u) none

/-- Beat of an instruction's execution that carries beat `b` of row m against column n (R92, R100, R101); `seg` is the beats of a full K
segment, `kb` those of K. -/
def beatNo (slide : Bool) (U M N kb m n b : Nat) : Nat :=
  if slide then (if U < M then 2 * b * N + (if m < U then 0 else N) + n else b * N + n)
  else
    let s := b / 16
    m / U * N * kb + N * (16 * s) + n * Nat.min 16 (kb - 16 * s) + b % 16

/-- Run an instruction on one tile: `sc` the scale it ends at, `fresh` whether that scale is set by this instruction; `bn` numbers the
beats of element (m, n). -/
def tileRun (x : MRead) (op : MOp) (ls : Memory) (a : CoreArch) (arr add : Bool) (K r base M N tile : Nat) (bn : Nat → Nat → Nat → Nat)
    (sc fresh : Bool) : TileOut :=
  let cov := covered base M N tile
  let held (p : Nat) : W32 × Bool := let v := a.accAt arr tile p; if fresh then scaleHeld v else (v, false)
  let els := cov.map (fun c =>
    (c.2.2, if op.isCmp then cmpElem x op ls K c.1 c.2.1 sc (if add then some (held c.2.2).1 else none)
      else sumElem x op ls K r c.1 c.2.1 sc (if add then (held c.2.2).1 else 0#32)))
  let rest := if fresh then (List.range 256).filter (fun p => !cov.any (fun c => c.2.2 == p)) else []
  let kept := rest.map (fun p => (p, (held p).1))
  { els := els, kept := kept, ovf := leastOf ((cov.zip els).map (fun e => e.2.2.ovf.map (bn e.1.1 e.1.2.1))),
    flush := els.any (fun e => e.2.flush) || rest.any (fun p => (held p).2) || (add && cov.any (fun c => (held c.2.2).2)),
    xblk := els.any (fun e => e.2.xblk), fl := flAll (els.map (fun e => e.2.fl)) }

/-- The final contents of a tile: at its own scale, or repeated at 2^-64 where it overflows at scale 1 (R120, R121), with the beat in
which it then overflows. -/
def tileFinal (x : MRead) (op : MOp) (ls : Memory) (a : CoreArch) (arr add : Bool) (K r base M N tile : Nat) (bn : Nat → Nat → Nat → Nat) :
    TileOut × Option Nat × W32 :=
  let whole := decide ((covered base M N tile).length = 256)
  let old := a.tfAt arr tile
  let f0 := if !add && whole then 0#32 else old
  let sc0 := f0 &&& tfSc != 0#32
  let t0 := tileRun x op ls a arr add K r base M N tile bn sc0 false
  if t0.ovf.isSome && !sc0 && !op.isCmp then
    let t1 := tileRun x op ls a arr add K r base M N tile bn true true
    (t1, t0.ovf, f0 ||| tfSc ||| setIf t1.ovf.isSome tfOvf ||| setIf t1.flush tfFlush ||| setIf t1.xblk tfXblk)
  else (t0, none, f0 ||| setIf (t0.ovf.isSome && sc0) tfOvf ||| setIf t0.flush tfFlush ||| setIf t0.xblk tfXblk)

/-- The stopped executions of an instruction of `total` beats whose tiles overflow at scale 1 in beats `l` (R120): each stops a free 0 to
24 beats after its first overflowing beat, and the tiles that overflowed by then do so no more; the executions stopped and the beats that
entered in them (DESIGN CHOICE, log 94). -/
def stops (total : Nat) : Nat → List Nat → CRes → (Nat × Nat) × CRes
  | 0, _, r => ((0, 0), r)
  | n + 1, l, r =>
    match leastOf (l.map some) with
    | none => ((0, 0), r)
    | some b =>
      let f := r.free 32
      let d := b + f.1 % 25
      let x := stops total n (l.filter (fun y => decide (d < y))) f.2
      ((x.1.1 + 1, x.1.2 + Nat.min total (d + 1)), x.2)

/-- Units in use (R109). -/
def CoreStore.units (s : CoreStore) (arr : Bool) : Nat :=
  if (if arr then s.bypB else s.bypA).getLsbD 3 then 7 else 8

/-- Offset of an array's register block. -/
def arrOff (arr : Bool) : Nat := if arr then 0x1100 else 0x1000

/-- Order of the beat in which an element became a NaN (R92, R100), then tile and position (R128); R126's record is the
least. -/
def nanKey (slide : Bool) (U M N kb m n b tile pos : Nat) : Nat := (beatNo slide U M N kb m n b * 64 + tile) * 256 + pos

/-- Streaming beats of one execution of an instruction (R94, R101), counted in MAT_BUSY. -/
def busyBeats (slide : Bool) (U M N kb : Nat) : Nat := if slide then (if U < M then 2 else 1) * kb * N else cdiv M U * N * kb

/-- Fire the first-NaN trap (R126, R127). -/
def fireTrap (arr : Bool) (tile pos : Nat) (tag : W16) (r : CRes) : CRes :=
  if r.k.st.nantrap.getLsbD 0 then
    (r.st (fun s => { s with
      nantrap := 2#32 ||| (if arr then 4#32 else 0#32) ||| BitVec.ofNat 32 (tile * 16) ||| BitVec.ofNat 32 (tag.toNat * 65536),
      nanpos := BitVec.ofNat 32 pos })).report { code := 0x11, unit := if arr then 2 else 1, tag := tag }
  else r

/-- Execute a multiply (R92): every covered tile's final contents and flag word (R125), the repeats (R120), the beats (R94, R101), the
trap. `tagOf` gives the long-word tag of column n (R126). MAT_BUSY gains the beats of every execution, a stopped one having run the beats to its
stop and 0 to 24 more (R120). DESIGN CHOICE: log 94. -/
def mmRun (x : MRead) (op : MOp) (f : MMul) (arr : Bool) (K M N : Nat) (tagOf : Nat → W16) (r : CRes) : CRes :=
  let a := r.k.cur
  let ls := r.k.st.ls
  let rr := mmR f.fmt.toNat
  let kb := cdiv K rr
  let base := f.base.toNat
  let U := r.k.st.units arr
  let total := busyBeats f.slide U M N kb
  let tiles := (List.range (tileCount M N)).map (base + ·)
  let res := tiles.map (fun t => (t, tileFinal x op ls a arr f.add K rr base M N t (beatNo f.slide U M N kb)))
  let sp := stops total tiles.length (res.filterMap (fun x => x.2.2.1)) r
  let a1 := res.foldl (fun (a : CoreArch) x =>
    let acc1 := x.2.1.kept.foldl (fun m p => Sp.set 0#32 m (accKey arr x.1 p.1) p.2) a.acc
    let acc2 := x.2.1.els.foldl (fun m p => Sp.set 0#32 m (accKey arr x.1 p.1) p.2.t) acc1
    (({ a with acc := acc2 }).setTf arr x.1 x.2.2.2).evalTile arr x.1) a
  let nans := res.flatMap (fun x => (covered base M N x.1).filterMap (fun c =>
    match (x.2.1.els.find? (fun e => e.1 = c.2.2)) with
    | some (_, eo) => match eo.nan with
      | some b => if w32Nan (a.accAt arr x.1 c.2.2) then none
                  else some (nanKey f.slide U M N kb c.1 c.2.1 b x.1 c.2.2, x.1, c.2.2, c.2.1)
      | none => none
    | none => none))
  let first := nans.foldl (fun (m : Option (Nat × Nat × Nat × Nat)) y => match m with
    | none => some y
    | some z => if y.1 < z.1 then some y else some z) none
  let r1 := ((((sp.2.cur (fun _ => a1)).flags (flAll (res.map (fun x => x.2.1.fl)))).bump (arrOff arr + 0x10)
    (total + sp.1.2)).bump (arrOff arr + 0x24) sp.1.1).bumpFree (arrOff arr + 0x14)
  let r2 := r1.bumpFree (arrOff arr + 0x18)
  match first with
  | none => r2
  | some z => fireTrap arr z.2.1 z.2.2.1 (tagOf z.2.2.2) r2

/-- First item that an operand pops, after the pops `before`. -/
def popStart (k : Core) (o : Opnd) (before : List (Nat × Nat)) : Nat :=
  match o.qend with
  | some q => Sp.get 0 k.cur.qpop q + popsOn q before
  | none => 0

/-- The depth K of a multiply's entry. -/
def Entry.depth (h : Entry) : Nat := (h.sr.headD 0#64).toNat % 2 ^ 32

/-- Reader of one entry, after the pops `before` of earlier batch columns; the stationary operand pops before the streaming one. -/
def entryRead (k : Core) (f : MMul) (h : Entry) (before : List (Nat × Nat)) : MRead :=
  let s := nthD h.ops 0 {}
  let b := nthD h.ops 1 {}
  mread f h.depth s b (popStart k s before) (popStart k b (before ++ popList s (sRows f h.depth * sCols f s h.depth)))

/-- Run a multiply without BATCH. -/
def mmulRun (arr : Bool) (op : MOp) (f : MMul) : ExecF := fun _ h r =>
  (doPops h.pops (mmRun (entryRead r.k f h []) op f arr h.depth f.M f.N (fun _ => h.tag) r)).done h.seq

/-- The operation and fields of a multiply. -/
def asMMul : Instr → Option (Bool × MOp × MMul)
  | .mac _ a f => some (a, .mac, f)
  | .sqd _ a f => some (a, .sqd, f)
  | .abd _ a f => some (a, .abd, f)
  | .minp _ a f => some (a, .minp, f)
  | .maxp _ a f => some (a, .maxp, f)
  | _ => none

/-- The open batch group of an array: group number and the timebase of its fill deadline. -/
def CoreRun.batch (r : CoreRun) (arr : Bool) : Option (Nat × Nat) := if arr then r.batchB else r.batchA
def CoreRun.setBatch (r : CoreRun) (arr : Bool) (b : Option (Nat × Nat)) : CoreRun :=
  if arr then { r with batchB := b } else { r with batchA := b }

/-- The columns of a batch group, in joining order. -/
def groupOf (r : CoreRun) (arr : Bool) (g : Nat) : List Entry :=
  r.entries.filter (fun e => decide (e.eng = .arr arr) && decide (e.group = some g))

/-- Close the open batch: it becomes a dispatched instruction (R106). -/
def closeBatch (arr : Bool) (r : CRes) : CRes := r.run (fun x => x.setBatch arr none)

/-- The exact value a write-out rounds (R118): T * 2^(64 SC) * c. -/
def tileValue (a : CoreArch) (arr : Bool) (tile pos : Nat) (c : FV) : FV :=
  FV.mul ((FFmt.fp32.read (a.accAt arr tile pos).toNat).1.scale (if a.tfAt arr tile &&& tfSc != 0#32 then 64 else 0)) c

/-- Set OVF in a tile's flag word where a delivered result overflowed (R118). -/
def noteOvf (arr : Bool) (tile : Nat) (f : Fl) (a : CoreArch) : CoreArch :=
  if f &&& flOvf != 0#6 then a.setTf arr tile (a.tfAt arr tile ||| tfOvf) else a

/-- The combined scale of R81 for row m of S and column 0 of B of a batch column. DEDUCED: log 96. -/
def batchScale (ls : Memory) (s b : Opnd) (m : Nat) : FV :=
  let v (o : Opnd) (i : Nat) : FV := (FFmt.fp32.read (o.scale ls i)).1
  match s.isWide m && fmtOb s.fmt, b.isWide 0 && fmtOb b.fmt with
  | true, true => (FFmt.fp32.round .rne (FV.mul (v s m) (v b 0))).1
  | true, false => v s m
  | false, true => v b 0
  | _, _ => FV.one

/-- Deliver a batch column's result vector to its destination (R105, R309): a column on a queue end is finished once its last item has
been pushed. -/
def batchDeliver (e : CEnv) (arr : Bool) (f : MMul) (cols : Nat) (col : Nat) (h : Entry) (r : CRes) : CRes :=
  let s := nthD h.ops 0 {}
  let b := nthD h.ops 1 {}
  let d := nthD h.ops 2 {}
  let fm := (fmtFloat d.fmt).getD .fp32
  let vals := (List.range f.M).map (fun m =>
    let t := tileOf f.base.toNat cols m col
    (t, fm.write .rne (tileValue r.k.cur arr t (posOf m col) (batchScale r.k.st.ls s b m))))
  let r1 := r.cur (fun a => vals.foldl (fun a v => noteOvf arr v.1 v.2.2 a) a)
  match d.qend with
  | none =>
    (r1.st (fun st => { st with
      ls := (vals.zipIdx).foldl (fun m v => putElem m d.fmt (d.at_ 0 d.cols 0 v.2) v.1.2.1) st.ls })).done h.seq
  | some q =>
    let bytes := vals.flatMap (fun v => natBytes fm.bytes v.2.1)
    pushAll e h (pushList q h.ord (chunks (32 * d.item) bytes.length bytes)) r1

/-- Everything a dispatched group pops. -/
def groupPops (hs : List Entry) : List (Nat × Nat) := hs.flatMap (fun h => h.pops)

/-- No hold of an instruction outside the group, and no commit point, stands in a dispatched group's way. -/
def groupFree (k : Core) (hs : List Entry) : Bool :=
  let others := k.run.holds.filter (fun h => !hs.any (fun e => e.seq == h.seq))
  hs.all (fun h => !mustWait others h.seq h.rd h.wr && !k.run.behind h.seq)

/-- How a group reads its operands: the stationary operand its columns share, and each column's own streaming operand, row 0 of its
descriptor or the items that follow those of the columns before it (R105, R106). -/
def groupRead (k : Core) (f : MMul) (h0 : Entry) (hs : List Entry) : MRead :=
  let xs := (hs.zipIdx).map (fun h => entryRead k f h.1 (groupPops (hs.take h.2)))
  let x0 := entryRead k f h0 []
  { x0 with b := fun n => (nthD xs n x0).b 0, bRow := fun _ => 0, bAt := fun n kk => (nthD xs n x0).bAt 0 kk }

/-- Execute a dispatched group as one instruction of N columns (R106), then deliver each column. -/
def groupRun (e : CEnv) (arr : Bool) (hs : List Entry) (r : CRes) : CRes :=
  match hs with
  | [] => r
  | h0 :: _ =>
    match asMMul h0.instr with
    | none => r
    | some (_, op, f) =>
      let N := hs.length
      let r1 := doPops (groupPops hs)
        (mmRun (groupRead r.k f h0 hs) op f arr h0.depth f.M N (fun n => (nthD hs n h0).tag) r)
      (hs.zipIdx).foldl (fun r h => batchDeliver e arr f N h.2 h.1 r) r1

/-- The oldest dispatched, unexecuted group of an array. -/
def firstGroup (r : CoreRun) (arr : Bool) : Option Nat :=
  match r.entries.find? (fun e => decide (e.eng = .arr arr) && e.group.isSome
      && decide (e.group ≠ (r.batch arr).map (·.1))) with
  | some e => e.group
  | none => none

/-- An entry of the array has run and still pushes items (R287). -/
def pushingEntry (r : CoreRun) (arr : Bool) : Option Entry := r.entries.find? (fun h => decide (h.eng = .arr arr) && !h.pushes.isEmpty)

/-- Run the oldest dispatched group if it may; a column whose items have not arrived waits for them (R287, R288). -/
def runGroup (e : CEnv) (arr : Bool) (r : CRes) : CRes :=
  match firstGroup r.k.run arr with
  | none => r
  | some g =>
    let hs := groupOf r.k.run arr g
    if (pushingEntry r.k.run arr).isSome || !groupFree r.k hs then r
    else if popsReady r.k (groupPops hs) then groupRun e arr hs r
    else hs.foldl (fun r h => if h.pops.isEmpty then r else r.waitsQ e h.seq) r

/-- Dispatch the open batch (R106): it executes at once if it may, else MATRIX_EXECUTE runs it. -/
def dispatchBatch (e : CEnv) (arr : Bool) (r : CRes) : CRes :=
  match r.k.run.batch arr with
  | none => r
  | some _ => runGroup e arr (closeBatch arr r)

/-- Two batch columns may share a batch (R105). A stationary operand on a queue end is popped by each column, so no two columns have the
same one (DEDUCED, log 95). -/
def sameBatch (a b : Entry) : Bool :=
  match asMMul a.instr, asMMul b.instr with
  | some (_, op, f), some (_, op', f') =>
    decide (op = op') && decide (f.fmt = f'.fmt) && decide (f.m1 = f'.m1) && decide (f.base = f'.base)
      && decide (f.sh = f'.sh) && decide (f.ori = f'.ori) && decide (nthD a.ops 0 {} = nthD b.ops 0 {})
      && (nthD a.ops 0 {}).qend.isNone && decide (a.depth = b.depth)
  | _, _ => false

/-- Accumulator tiles are ordered by the array itself (R96). -/
def notTile : Res → Bool
  | .tile _ _ _ => false
  | _ => true

/-- A column may join the columns `mates`: it reads or overwrites nothing that one of them writes or reads (R108, R241). -/
def joinFree (mates : List Entry) (h : Entry) : Bool :=
  !mustWait (mates.map (fun m => { seq := m.seq, rd := m.rd.filter notTile, wr := m.wr.filter notTile })) h.seq
    (h.rd.filter notTile) (h.wr.filter notTile)

/-- A BATCH instruction reaches the array (R105, R108): it joins the open batch or opens one; 64 columns, a deadline of 0 or
a full accumulator dispatch it. A column that waits on one of the open batch's own columns waits until that batch is dispatched. DEDUCED: log 95. -/
def batchJoin (arr : Bool) (f : MMul) : ExecF := fun e h r =>
  let mates := match r.k.run.batch arr with
    | some (g, _) => groupOf r.k.run arr g
    | none => []
  let fits := mates.any (sameBatch h) && decide (f.base.toNat + tileCount f.M (mates.length + 1) ≤ 64)
  if h.dead || r.k.run.behind h.seq || (fits && !joinFree mates h) then r
  else
    let r1 := if fits then r else dispatchBatch e arr r
    let r2 := match r1.k.run.batch arr with
      | some (g, _) => r1.run (fun x => x.setEntry h.seq (fun y => { y with group := some g }))
      | none => r1.run (fun x => ({ x with nextGroup := x.nextGroup + 1 }.setBatch arr
          (some (x.nextGroup, e.time + e.ticks e.fillDl))).setEntry h.seq (fun y => { y with group := some x.nextGroup }))
    if mates.length + 1 = 64 && fits || e.fillDl = 0 then dispatchBatch e arr r2 else r2

/-- FILL_DEADLINE_EXPIRY (R106, R107, R108). -/
def fillExpiry (e : CEnv) (arr : Bool) (r : CRes) : CRes :=
  match r.k.run.batch arr with
  | none => r
  | some (_, dl) => if dl ≤ e.time then dispatchBatch e arr (r.bump (arrOff arr + 0x20) 1) else r

/-- Gate k of a curve copy on a value (R187): the exact result is rounded to OS40 once; with the flags of what it read and rounded
(R72). -/
def gateEval (curves : Memory) (k : Nat) (z : FV) : FV × Fl :=
  let rec_ := 160 * k
  let lo := FFmt.fp32.read (Memory.nat curves rec_ 4)
  let ew : Int := sext 8 (Memory.nat curves (rec_ + 4) 1)
  let y (j : Nat) : FV × Fl := FFmt.fp32.read (Memory.nat curves (rec_ + 8 + 4 * j) 4)
  if z.isNan then (.nan, 0#6)
  else
    let q := (FV.sub .rne z lo.1).scale (-ew)
    if FV.lt q FV.zero then ((y 0).1, lo.2 ||| (y 0).2)
    else if FV.le (FV.ofInt 32) q then ((y 32).1, lo.2 ||| (y 32).2)
    else
      let j := (floorTo q 0).toNat
      let t := FV.sub .rne q (FV.ofInt j)
      let v := FFmt.os40.round .rne (FV.add .rne (y j).1 (FV.mul t (FV.sub .rne (y (j + 1)).1 (y j).1)))
      (v.1, flAll [lo.2, (y j).2, (y (j + 1)).2, v.2])

/-- The Osrel 2 gate pipeline (R205): FP32 at every step. -/
def gateO2 (curves : Memory) (k : Nat) (z v : FV) : FV :=
  let rd (x : FV) : FV := (FFmt.fp32.round .rne x).1
  let rec_ := 160 * k
  let lo := (FFmt.fp32.read (Memory.nat curves rec_ 4)).1
  let ew : Int := sext 8 (Memory.nat curves (rec_ + 4) 1)
  let y (j : Nat) : FV := (FFmt.fp32.read (Memory.nat curves (rec_ + 8 + 4 * j) 4)).1
  let z' := rd z
  let v' := rd v
  let g :=
    if z'.isNan then FV.nan
    else
      let q := rd ((FV.sub .rne z' lo).scale (-ew))
      if FV.lt q FV.zero then y 0
      else if FV.le (FV.ofInt 32) q then y 32
      else
        let j := (floorTo q 0).toNat
        let t := FV.sub .rne q (FV.ofInt j)
        let d := rd (FV.sub .rne (y (j + 1)) (y j))
        rd (FV.add .rne (y j) (rd (FV.mul t d)))
  rd (FV.mul g v')

/-- Scale c of a write-out's row m (R311): element m of the scale descriptor or its single element; on a queue end the scale that the
casting's vector holds for wide channel m, in the order of its list (R79), or 1 where m is no wide channel. -/
def woutScale (ls : Memory) (c : Option Opnd) (m : Nat) : FV :=
  match c with
  | none => FV.one
  | some o =>
    if o.qend.isSome then (if o.isWide m then (FFmt.fp32.read (o.scale ls m)).1 else FV.one)
    else (FFmt.fp32.read (Memory.nat ls (o.at_ 0 o.cols (if o.rows = 1 then 0 else m) 0).byte 4)).1

/-- One delivered element of a write-out (R118, R203): its bits and flags. DEDUCED: log 93. -/
def woutElem (k : Core) (h : Entry) (g : Bool) (arr : Bool) (f : WOut) (fm : FFmt) (tile pos : Nat) (c : FV) : Nat × Fl :=
  let z := tileValue k.cur arr tile pos c
  let rm := RM.ofCode f.rm.toNat
  if g then
    let v := tileValue k.cur true (f.tbb.toNat + (tile - f.base.toNat)) pos c
    let curves := if h.bank = 0 then k.cur.curve0 else k.cur.curve1
    if f.o2 then fm.write rm (gateO2 curves f.gk.toNat z v)
    else fm.write rm (FV.mul (gateEval curves f.gk.toNat z).1 v)
  else fm.write rm z

/-- The scale operand of a write-out entry. -/
def woutC (f : WOut) (h : Entry) : Option Opnd :=
  if f.wide then (if f.dq then h.ops[0]? else h.ops[1]?) else none

/-- Deliver tile `tile` of a queue write-out (R143, R311): all 256 elements, c = 1 outside the covered rows and columns. The
flag word that goes with the tile holds the OVF that this conversion sets (R118, R125). DEDUCED: log 157. -/
def enqueueTile (g arr : Bool) (f : WOut) (h : Entry) (tile : Nat) (r : CRes) : CRes :=
  let fm := (fmtFloat f.dfmt.toNat).getD .fp32
  let c := woutC f h
  let w := cdiv f.N 32
  let tm := (tile - f.base.toNat) / w
  let tn := (tile - f.base.toNat) % w
  let els := (List.range 256).map (fun p =>
    let m := 8 * tm + p / 32
    let n := 32 * tn + p % 32
    woutElem r.k h g arr f fm tile p (if m < f.M ∧ n < f.N then woutScale r.k.st.ls c m else FV.one))
  let a1 := els.foldl (fun a x => noteOvf arr tile x.2 a) r.k.cur
  let cls := els.map (fun x => BitVec.ofNat 32 (cvtFloat fm .fp32 .rne x.1).1)
  let flag := if g then evalFlags (setIf (els.any (fun x => x.2 &&& flOvf != 0#6)) tfOvf
      ||| setIf (els.any (fun x => x.2 &&& flFlush != 0#6)) tfFlush) cls
    else a1.tfAt arr tile
  r.cur (fun _ => a1.setFin arr (a1.fin arr ++ [{ fmt := f.dfmt.toNat, elems := els.map (·.1), flag := flag }]))

/-- The tiles a write-out still reads from its `i`-th on (R119, R143). -/
def woutTiles (g arr : Bool) (f : WOut) (i : Nat) : List Res :=
  let n := tileCount f.M f.N
  .tile arr (f.base.toNat + i) (f.base.toNat + n) :: (if g then [.tile true (f.tbb.toNat + i) (f.tbb.toNat + n)] else [])

/-- Enter tiles of a queue write-out while the queue has room (R143); finished when all have entered. While it waits it holds the tiles it
has not read. -/
def enqueueRoom (g arr : Bool) (f : WOut) (h : Entry) : Nat → Nat → CRes → CRes
  | 0, _, r => r.done h.seq
  | n + 1, i, r =>
    if (r.k.cur.fin arr).length < 4 then enqueueRoom g arr f h n (i + 1) (enqueueTile g arr f h (f.base.toNat + i) r)
    else r.run (fun x => x.setEntry h.seq (fun y =>
      { y with eng := .wq arr, prog := i, rd := woutTiles g arr f i ++ y.rd.filter notTile }))

/-- Compatibility checks of a gated write-out (R204). -/
def gateBad (e : CEnv) (k : Core) (g : Bool) (f : WOut) : Bool := g && f.o2 && !(k.st.o2en && e.o2)

/-- Run a write-out (R118, R119, R203, R311). -/
def woutRun (g arr : Bool) (f : WOut) : ExecF := fun e h r =>
  let unit := if arr then 2 else 1
  if gateBad e r.k g f then r.die h.seq { code := 0x1B, unit := unit, tag := h.tag }
  else if f.dq then
    (if (headEntry (.wq arr) r.k.run.entries).isSome then
       r.run (fun x => x.setEntry h.seq (fun y => { y with eng := .wq arr }))
     else enqueueRoom g arr f h (tileCount f.M f.N) 0 r)
  else
    let d := nthD h.ops 0 {}
    let fm := (fmtFloat d.fmt).getD .fp32
    let c := woutC f h
    let els := (List.range f.M).flatMap (fun m => (List.range f.N).map (fun n =>
      let t := tileOf f.base.toNat f.N m n
      ((m, n, t), woutElem r.k h g arr f fm t (posOf m n) (woutScale r.k.st.ls c m))))
    let r1 := r.cur (fun a => els.foldl (fun a x => noteOvf arr x.1.2.2 x.2.2 a) a)
    match d.qend with
    | none =>
      (r1.st (fun st => { st with
        ls := els.foldl (fun m x => putElem m d.fmt (d.at_ 0 d.cols x.1.1 x.1.2.1) x.2.1) st.ls })).done h.seq
    | some q =>
      let bytes := els.flatMap (fun x => natBytes fm.bytes x.2.1)
      pushAll e h (pushList q h.ord (chunks (32 * d.item) bytes.length bytes)) r1

/-- What an array's instruction other than a batch column does. -/
def arrRun (arr : Bool) (i : Instr) : ExecF :=
  match i with
  | .wout _ _ f => woutRun false arr f
  | .woutg _ _ f => woutRun true arr f
  | _ => match asMMul i with
    | some (_, op, f) => mmulRun arr op f
    | none => fun _ _ r => r

/-- MATRIX_EXECUTE (R92, R96): the array goes on with an instruction that still pushes items, else runs the oldest dispatched batch, else its
oldest instruction: a BATCH column joins, any other dispatches the open batch and runs. -/
def matrixExecute (e : CEnv) (arr : Bool) (r : CRes) : CRes :=
  match pushingEntry r.k.run arr with
  | some h => tryRun e h always (arrRun arr h.instr) r
  | none =>
    match firstGroup r.k.run arr with
    | some _ => runGroup e arr r
    | none =>
      match headEntry (.arr arr) r.k.run.entries with
      | none => r
      | some h =>
        match (asMMul h.instr).filter (fun x => x.2.2.batch) with
        | some (_, _, f) => batchJoin arr f e h r
        | none =>
          let r1 := dispatchBatch e arr r
          if (firstGroup r1.k.run arr).isSome || (pushingEntry r1.k.run arr).isSome then r1
          else tryRun e h popReady (arrRun arr h.instr) r1

/-- TILE_ENQUEUE (R143): the oldest waiting write-out of the array enters its next tiles. -/
def tileEnqueue (arr : Bool) (r : CRes) : CRes :=
  match headEntry (.wq arr) r.k.run.entries with
  | none => r
  | some h =>
    match h.instr with
    | .wout _ a f => if a = arr then enqueueRoom false arr f h (tileCount f.M f.N - h.prog) h.prog r else r
    | .woutg _ a f => if a = arr then enqueueRoom true arr f h (tileCount f.M f.N - h.prog) h.prog r else r
    | _ => r

end Sys2Proof.Machine
end

