-- ==== Sys2Proof/Machine/Carry.lean ====
section
/-! DEFINITION. Machine/Carry.lean: the carry unit (R179 to R208, R219, R223, R313 to R316). -/

namespace Sys2Proof.Machine

/-- A factor of a carry operand (Table 15 of Instruction reference). -/
structure Factor where
  cls : Nat
  fmt : Nat
  addr : Nat
  arg : Nat
  /-- every field the class does not use is zero -/
  clean : Bool
  deriving DecidableEq, Repr

def factorOf (w0 w1 : Nat) : Factor :=
  let cls := fld w0 2 0
  let mem := cls == 1 || cls == 2 || cls == 3
  let par := cls == 4 || cls == 5
  { cls := cls, fmt := fld w0 4 3, addr := fld w0 31 16, arg := w1,
    clean := fld w0 15 5 == 0 && (if mem then true else if par then fld w0 31 31 == 0 && w1 == 0
      else if cls == 6 then fld w0 31 16 == 0 else fld w0 31 16 == 0 && w1 == 0) }

/-- An operand of a step block (R315). -/
structure COp where
  f1 : Factor
  f2 : Factor
  prod : Bool
  gen : Bool
  gpos : Bool
  gk : Nat
  clean : Bool
  deriving DecidableEq, Repr

/-- A step block (Table 14 of Instruction reference). -/
structure StepBlk where
  ch : Nat
  logn : Nat
  finish : Bool
  dinit : Bool
  rden : Bool
  acc : Bool
  mken : Bool
  den : Bool
  emen : Bool
  emfp32 : Bool
  rdAddr : Nat
  rdFmt : Nat
  rdRm : Nat
  mark : Nat
  drng : Nat
  emit : Nat
  a : COp
  b : COp
  c : COp
  xa : Factor
  xh : Factor
  xs : Factor
  clean : Bool
  deriving DecidableEq, Repr

def stepBlk (ws : List W32) : StepBlk :=
  let w (i : Nat) : Nat := (nthD ws i 0#32).toNat
  let op (i : Nat) : COp :=
    { f1 := factorOf (w i) (w (i + 1)), f2 := factorOf (w (i + 2)) (w (i + 3)), prod := bitOf (w (i + 4)) 0,
      gen := bitOf (w (i + 4)) 1, gpos := bitOf (w (i + 4)) 2, gk := fld (w (i + 4)) 5 3,
      clean := fld (w (i + 4)) 31 6 == 0 && w (i + 5) == 0 }
  let a := op 6
  let b := op 12
  let c := op 18
  let fa (i : Nat) : Factor := factorOf (w i) (w (i + 1))
  { ch := fld (w 0) 15 0, logn := fld (w 0) 19 16, finish := bitOf (w 0) 20, dinit := bitOf (w 0) 21, rden := bitOf (w 0) 22,
    acc := bitOf (w 0) 23, mken := bitOf (w 0) 24, den := bitOf (w 0) 25, emen := bitOf (w 0) 26, emfp32 := bitOf (w 0) 27,
    rdAddr := fld (w 1) 15 0, rdFmt := fld (w 1) 17 16, rdRm := fld (w 1) 19 18, mark := fld (w 2) 15 0, drng := fld (w 3) 14 0,
    emit := fld (w 4) 15 0, a := a, b := b, c := c, xa := fa 24, xh := fa 26, xs := fa 28,
    clean := fld (w 0) 31 28 == 0 && fld (w 1) 31 20 == 0 && fld (w 2) 31 16 == 0 && fld (w 3) 31 15 == 0
      && fld (w 4) 31 16 == 0 && w 5 == 0 && w 30 == 0 && w 31 == 0 && a.clean && b.clean && c.clean
      && [a.f1, a.f2, b.f1, b.f2, c.f1, c.f2, fa 24, fa 26, fa 28].all (·.clean) }

def StepBlk.n (b : StepBlk) : Nat := 2 ^ b.logn
/-- Slice size (R180). -/
def StepBlk.size (b : StepBlk) : Nat := b.ch * b.n

/-- Format code of Table 4 of Programming model of a factor's or a readout's format: the same four codes. -/
def crFmt (f : Nat) : FFmt := (fmtFloat f).getD .fp32

/-- Round to OS40 with NANGEN where no operand was a NaN (R72, R189). -/
def os40Res (v : FV) (anyNan : Bool) : FV × Fl :=
  let r := FFmt.os40.round .rne v
  (r.1, r.2 ||| nanGen v anyNan)

/-- The index of element i of N states per channel that a class reads (Table 1 of Carry unit). -/
def clsIndex (cls N i : Nat) : Nat :=
  match cls with
  | 2 => i / N
  | 3 => i % N
  | 5 => i % N
  | _ => i

/-- Elements a class reads at one position. -/
def clsCount (cls ch N : Nat) : Nat :=
  match cls with
  | 2 => ch
  | 3 => N
  | 5 => N
  | _ => ch * N

/-- Byte address of a local-store factor's element at position `t`. -/
def Factor.byte (f : Factor) (t idx : Nat) : Int :=
  4 * (f.addr : Int) + ((crFmt f.fmt).bytes : Int) * ((t : Int) * sext 32 f.arg + (idx : Int))

/-- State-store element `i` read as OS40. -/
def storeAt (m : Sp W40) (i : Nat) : FV × Fl := FFmt.os40.read (Sp.get 0#40 m i).toNat
def storePut (m : Sp W40) (i : Nat) (v : FV) : Sp W40 := Sp.set 0#40 m i (BitVec.ofNat 40 (FFmt.os40.write .rne v).1)

/-- A factor at element `i`, position `t`, converted to OS40 (R184, R185). -/
def Factor.val (f : Factor) (st : Sp W40) (ls : Memory) (N i t : Nat) : FV × Fl :=
  let conv (fm : FFmt) (bits : Nat) : FV × Fl :=
    let x := fm.read bits
    if fm = .os40 then x
    else let r := FFmt.os40.round .rne x.1; (r.1, x.2 ||| r.2)
  match f.cls with
  | 4 => storeAt st (f.addr % 32768 + i)
  | 5 => storeAt st (f.addr % 32768 + i % N)
  | 6 => conv .fp32 f.arg
  | 7 => (FV.zero, 0#6)
  | 0 => (FV.zero, 0#6)
  | _ => conv (crFmt f.fmt) (Memory.nat ls (f.byte t (clsIndex f.cls N i)).toNat (crFmt f.fmt).bytes)

/-- A finished operand (R185). -/
def COp.val (o : COp) (curves : Memory) (st : Sp W40) (ls : Memory) (N i t : Nat) : FV × Fl :=
  let x := o.f1.val st ls N i t
  let g (v : FV × Fl) : FV × Fl := let y := gateEval curves o.gk v.1; (y.1, v.2 ||| y.2)
  let x1 := if o.gen && o.gpos then g x else x
  let p : FV × Fl :=
    if o.prod then
      let y := o.f2.val st ls N i t
      let r := os40Res (FV.mul x1.1 y.1) (x1.1.isNan || y.1.isNan)
      (r.1, x1.2 ||| y.2 ||| r.2)
    else x1
  if o.gen && !o.gpos then g p else p

/-- a * h + b, one rounding (R189). -/
def stepFma (a h b : FV) : FV × Fl := os40Res (FV.add .rne (FV.mul a h) b) (a.isNan || h.isNan || b.isNan)

/-- One level of the reduction tree: adjacent values added and rounded. -/
def treeLevel : List FV → List FV × Fl
  | x :: y :: r =>
    let s := os40Res (FV.add .rne x y) (x.isNan || y.isNan)
    let t := treeLevel r
    (s.1 :: t.1, s.2 ||| t.2)
  | l => (l, 0#6)

/-- Tree (R192): log2 N levels. -/
def tree : Nat → List FV → FV × Fl
  | 0, l => (l.headD FV.zero, 0#6)
  | k + 1, l => let a := treeLevel l; let b := tree k a.1; (b.1, a.2 ||| b.2)

/-- Tree of the products of two lists (R192, R199). -/
def dotTree (k : Nat) (xs ys : List FV) : FV × Fl :=
  let ps := (xs.zip ys).map (fun p => os40Res (FV.mul p.1 p.2) (p.1.isNan || p.2.isNan))
  let t := tree k (ps.map (·.1))
  (t.1, flAll (ps.map (·.2)) ||| t.2)

/-- Write a readout element (R193): rounded once to the destination, added to the element there with ACC. -/
def readoutPut (b : StepBlk) (acc : Bool) (ls : Memory) (idx : Nat) (y : FV) : Memory × Fl :=
  let fm := crFmt b.rdFmt
  let at_ := 4 * b.rdAddr + fm.bytes * idx
  let old := fm.read (Memory.nat ls at_ fm.bytes)
  let v := if acc then FV.add (.ofCode b.rdRm) old.1 y else y
  let w := fm.write (.ofCode b.rdRm) v
  (Memory.setNat ls at_ fm.bytes w.1,
   (if acc then old.2 ||| nanGen v (old.1.isNan || y.isNan) else 0#6) ||| w.2)

/-- Write an emitted state (R193). -/
def emitPut (b : StepBlk) (ls : Memory) (pos : Nat) (v : FV) : Memory × Fl :=
  let fm : FFmt := if b.emfp32 then .fp32 else .os40
  let w := fm.write .rne v
  (Memory.setNat ls (4 * b.emit + fm.bytes * pos) fm.bytes w.1, w.2)

/-- Bit `t` of the mark vector (Table 14). -/
def markBit (b : StepBlk) (ls : Memory) (t : Nat) : Bool :=
  b.mken && (Memory.nat ls (4 * (b.mark + t / 32)) 4).testBit (t % 32)

/-- One stream inside a carry instruction: its slice base, whether its reset flag marks position 0, the D of each element,
whether a mark has been met, and in the chunk-finish form the pair (g, f) of each element. -/
structure CStream where
  base : Nat
  flag : Bool
  d : List FV
  seen : Bool := false
  gf : List (FV × FV) := []
  deriving DecidableEq, Repr

/-- The working data of a carry instruction. -/
structure CWork where
  store : Sp W40
  ls : Memory
  fl : Fl
  deriving DecidableEq, Repr

/-- Readouts of one position: every channel of the values `hs` (R192, R193). -/
def readouts (b : StepBlk) (curves : Memory) (k T t : Nat) (hs : List FV) (w : CWork) : CWork :=
  if !b.rden then w
  else
    let N := b.n
    let src := w
    (List.range b.ch).foldl (fun w c =>
      let cs := (List.range N).map (fun s => b.c.val curves src.store src.ls N (c * N + s) t)
      let y := dotTree b.logn (cs.map (·.1)) ((hs.drop (c * N)).take N)
      let p := readoutPut b b.acc w.ls (k * T * b.ch + t * b.ch + c) y.1
      { w with ls := p.1, fl := w.fl ||| flAll (cs.map (·.2)) ||| y.2 ||| p.2 }) w

/-- Emitted states of one position. -/
def emits (b : StepBlk) (k T t : Nat) (hs : List FV) (w : CWork) : CWork :=
  if !b.emen then w
  else (hs.zipIdx).foldl (fun w x =>
    let p := emitPut b w.ls (k * T * b.size + t * b.size + x.2) x.1
    { w with ls := p.1, fl := w.fl ||| p.2 }) w

/-- D of one position (R191): +0 from a reset on. -/
def stepD (b : StepBlk) (s : CStream) (mk : Bool) (as_ : List (FV × Fl)) : CStream × Fl :=
  if !b.den then ({ s with seen := s.seen || mk }, 0#6)
  else if mk || s.seen then ({ s with d := s.d.map (fun _ => FV.zero), seen := true }, 0#6)
  else
    let ds := (as_.zip s.d).map (fun x => os40Res (FV.mul x.1.1 x.2) (x.1.1.isNan || x.2.isNan))
    ({ s with d := ds.map (·.1) }, flAll (ds.map (·.2)))

/-- One position of one stream (R189 to R193). -/
def cstepPos (b : StepBlk) (curves : Memory) (T t k : Nat) (x : CStream × CWork) : CStream × CWork :=
  let (s, w) := x
  let N := b.n
  let mk := markBit b w.ls t || (t == 0 && s.flag)
  let els := List.range b.size
  let bs := els.map (fun i => b.b.val curves w.store w.ls N i t)
  let as_ := if mk then [] else els.map (fun i => b.a.val curves w.store w.ls N i t)
  let hs := els.map (fun i => storeAt w.store (s.base + i))
  let rs : List (FV × Fl) := if mk then bs
    else ((as_.zip hs).zip bs).map (fun p => let r := stepFma p.1.1.1 p.1.2.1 p.2.1; (r.1, p.1.1.2 ||| p.1.2.2 ||| p.2.2 ||| r.2))
  let sd := stepD b s mk as_
  let st := (rs.zipIdx).foldl (fun m y => storePut m (s.base + y.2) y.1.1) w.store
  let w1 := readouts b curves k T t (rs.map (·.1)) { w with fl := w.fl ||| flAll (rs.map (·.2)) ||| sd.2 }
  (sd.1, { emits b k T t (rs.map (·.1)) w1 with store := st })

/-- One position of one stream in the chunk-finish form (R223). -/
def finishPos (b : StepBlk) (curves : Memory) (T t k : Nat) (x : CStream × CWork) : CStream × CWork :=
  let (s, w) := x
  let N := b.n
  let mk := markBit b w.ls t || (t == 0 && s.flag)
  let els := List.range b.size
  let as_ := els.map (fun i => b.a.val curves w.store w.ls N i t)
  let bs := els.map (fun i => b.b.val curves w.store w.ls N i t)
  let rs : List ((FV × FV) × Fl) := ((as_.zip bs).zip s.gf).map (fun p =>
    let a := p.1.1.1
    let bb := p.1.2.1
    let g := p.2.1
    let f := p.2.2
    let g1 : FV × Fl :=
      if mk then
        (if s.seen then os40Res (FV.sub .rne (FV.mul a g) (FV.mul a f)) (a.isNan || g.isNan || f.isNan)
         else os40Res (FV.neg (FV.mul a f)) (a.isNan || f.isNan))
      else os40Res (FV.mul a g) (a.isNan || g.isNan)
    let f1 : FV × Fl := if mk then (bb, 0#6) else stepFma a f bb
    ((g1.1, f1.1), p.1.1.2 ||| p.1.2.2 ||| g1.2 ||| f1.2))
  let sd := stepD b s mk as_
  let s1 := { sd.1 with gf := rs.map (·.1), seen := s.seen || mk }
  let out : List (FV × Fl) := rs.map (fun r =>
    if s1.seen then (r.1.2, 0#6) else os40Res (FV.add .rne r.1.1 r.1.2) (r.1.1.isNan || r.1.2.isNan))
  let w1 := readouts b curves k T t (rs.map (·.1.1)) { w with fl := w.fl ||| flAll (rs.map (·.2)) ||| sd.2 }
  let w2 := if b.emen then { w1 with fl := w1.fl ||| flAll (out.map (·.2)) } else w1
  (s1, emits b k T t (out.map (·.1)) w2)

/-- Step every stream, in listed order, at one position (R194). -/
def allStreams (f : Nat → CStream × CWork → CStream × CWork) : Nat → List CStream → CWork → List CStream × CWork
  | _, [], w => ([], w)
  | k, s :: r, w => let x := f k (s, w); let y := allStreams f (k + 1) r x.2; (x.1 :: y.1, y.2)

/-- Positions `t`, `t + 1` and so on, `n` in all. -/
def runPositions (f : Nat → Nat → CStream × CWork → CStream × CWork) : Nat → Nat → List CStream → CWork → List CStream × CWork
  | 0, _, ss, w => (ss, w)
  | n + 1, t, ss, w => let x := allStreams (f t) 0 ss w; runPositions f n (t + 1) x.1 x.2

/-- The curve copy bound at issue (R186). -/
def curveCopy (k : Core) (h : Entry) : Memory := if h.bank = 0 then k.cur.curve0 else k.cur.curve1

/-- Element of the D range of stream `k` (R191). -/
def dElem (b : StepBlk) (k i : Nat) : Nat := b.drng + k * (32 * cdiv b.size 32) + i

/-- The streams an instruction names: ID, ID + STRIDE and so on (R313). -/
def stepIds (f : CStepF) : List Nat := (List.range (f.ns1.toNat + 1)).map (fun k => f.id.toNat + k * f.stride.toNat)

/-- A core's view of a stream. -/
def CoreArch.view (a : CoreArch) (id : Nat) : StrView := Sp.get {} a.strs id
def CoreArch.setView (a : CoreArch) (id : Nat) (v : StrView) : CoreArch := { a with strs := Sp.set {} a.strs id v }

/-- A carry instruction finishes: QCOUNT decrements are owed for the streams it named (R215), and those it wrote differ from
their committed values (R220). -/
def carryDone (h : Entry) (ids wrote : List Nat) (beats : Nat) (r : CRes) : CRes :=
  (((r.done h.seq).run (fun x => { x with
    qdec := x.qdec ++ ids, wrote := x.wrote ++ wrote.filter (fun i => !x.wrote.contains i) })).bump 0x4010 beats).bumpFree 0x4014

/-- CSTEP (R189 to R194, R223). -/
def cstepRun (f : CStepF) : ExecF := fun _ h r =>
  let b := stepBlk h.blk
  let T := (h.sr.headD 0#64).toNat % 2 ^ 32
  let curves := curveCopy r.k h
  let a := r.k.cur
  let ids := (stepIds f)
  let els := List.range b.size
  let ss : List CStream := ((ids.zip h.slots).zipIdx).map (fun p =>
    { base := p.1.2, flag := (a.view p.1.1).flag,
      d := if b.den then els.map (fun i => if b.dinit then FV.one else (storeAt a.store (dElem b p.2 i)).1) else [],
      gf := if b.finish then els.map (fun i => ((storeAt a.store (p.1.2 + i)).1, FV.zero)) else [] })
  let dfl := if b.den && !b.dinit then
      flAll ((ids.zipIdx).flatMap (fun p => els.map (fun i => (storeAt a.store (dElem b p.2 i)).2))) else 0#6
  let hfl := dfl ||| (if b.finish then flAll ((h.slots).flatMap (fun s => els.map (fun i => (storeAt a.store (s + i)).2))) else 0#6)
  let out := runPositions (if b.finish then finishPos b curves T else cstepPos b curves T) T 0 ss
    { store := a.store, ls := r.k.st.ls, fl := hfl }
  let fin : CWork :=
    if b.finish then
      (out.1).foldl (fun w s => (s.gf.zipIdx).foldl (fun w x =>
        let v : FV × Fl := if s.seen then (x.1.2, 0#6)
          else os40Res (FV.add .rne x.1.1 x.1.2) (x.1.1.isNan || x.1.2.isNan)
        { w with store := storePut w.store (s.base + x.2) v.1, fl := w.fl ||| v.2 }) w) out.2
    else out.2
  let st := if b.den then
      ((out.1).zipIdx).foldl (fun m s => (s.1.d.zipIdx).foldl (fun m x => storePut m (dElem b s.2 x.2) x.1) m) fin.store
    else fin.store
  let a1 := ids.foldl (fun (a : CoreArch) i =>
    let v := a.view i
    a.setView i { v with flag := false, pos := (v.pos + T) % 2 ^ 48, stepped := true }) { a with store := st }
  let g := cdiv b.size 256
  carryDone h ids ids (T * ids.length * g * (if b.finish then 2 else 1))
    ((r.cur (fun _ => a1)).st (fun s => { s with ls := fin.ls, fmt := s.fmt ||| fin.fl }))

/-- One position of one stream of CADJ (R201, R202). DEDUCED: log 25. -/
def cadjPos (b : StepBlk) (curves : Memory) (T t k : Nat) (x : CStream × CWork) : CStream × CWork :=
  let (s, w) := x
  let N := b.n
  let mk := markBit b w.ls (t + 1)
  let els := List.range b.size
  let es := els.map (fun i => b.b.val curves w.store w.ls N i t)
  let rs : List (FV × Fl) :=
    if mk then es
    else (es.zipIdx).map (fun p =>
      let a := if t + 1 = T then b.xa.val w.store w.ls N p.2 0 else b.a.val curves w.store w.ls N p.2 (t + 1)
      let m := storeAt w.store (s.base + p.2)
      let q := stepFma a.1 m.1 p.1.1
      (q.1, a.2 ||| m.2 ||| p.1.2 ||| q.2))
  let hs : List (FV × Fl) := if !b.emen then []
    else els.map (fun i => if t = 0 then b.xs.val w.store w.ls N i 0 else b.xh.val w.store w.ls N i (t - 1))
  let st := (rs.zipIdx).foldl (fun m y => storePut m (s.base + y.2) y.1.1) w.store
  let w1 := readouts b curves k T t (rs.map (·.1)) { w with fl := w.fl ||| flAll (rs.map (·.2)) }
  let ps := (rs.zip hs).map (fun p => (FV.mul p.1.1 p.2.1, p.2.2 ||| nanGen (FV.mul p.1.1 p.2.1) (p.1.1.isNan || p.2.1.isNan)))
  let w2 := emits b k T t (ps.map (·.1)) { w1 with fl := w1.fl ||| flAll (ps.map (·.2)) }
  (s, { w2 with store := st })

/-- CADJ (R201, R202): positions T - 1 down to 0. -/
def cadjRun (f : CStepF) : ExecF := fun _ h r =>
  let b := stepBlk h.blk
  let T := (h.sr.headD 0#64).toNat % 2 ^ 32
  let curves := curveCopy r.k h
  let ss : List CStream := h.slots.map (fun s => { base := s, flag := false, d := [] })
  let out := runPositions (fun t => cadjPos b curves T (T - 1 - t)) T 0 ss { store := r.k.cur.store, ls := r.k.st.ls, fl := 0#6 }
  carryDone h (stepIds f) (stepIds f) (T * (stepIds f).length * cdiv b.size 256)
    ((r.cur (fun a => { a with store := out.2.store })).st (fun s => { s with ls := out.2.ls, fmt := s.fmt ||| out.2.fl }))

/-- Positions of CKGEN (R199): k from `j`, `p` the running powers. DEDUCED: log 110. -/
def ckgenLoop (b : StepBlk) (lam v : List (FV × Fl)) : Nat → Nat → List FV → Memory × Fl → Memory × Fl
  | 0, _, _, m => m
  | n + 1, j, p, m =>
    let m1 := (List.range b.ch).foldl (fun (m : Memory × Fl) c =>
      let y := dotTree b.logn ((v.drop (c * b.n)).take b.n |>.map (·.1)) ((p.drop (c * b.n)).take b.n)
      let q := readoutPut b false m.1 (j * b.ch + c) y.1
      (q.1, m.2 ||| y.2 ||| q.2)) m
    let ps := (p.zip lam).map (fun x => os40Res (FV.mul x.1 x.2.1) (x.1.isNan || x.2.1.isNan))
    ckgenLoop b lam v n (j + 1) (ps.map (·.1)) (m1.1, m1.2 ||| flAll (ps.map (·.2)))

/-- CKGEN (R199). -/
def ckgenRun : ExecF := fun _ h r =>
  let b := stepBlk h.blk
  let n := (h.sr.headD 0#64).toNat % 2 ^ 32
  let els := List.range b.size
  let rd (f : Factor) : List (FV × Fl) := els.map (fun i => f.val r.k.cur.store r.k.st.ls b.n i 0)
  let lam := rd b.a.f1
  let v := rd b.c.f1
  let m := ckgenLoop b lam v n 0 (els.map (fun _ => FV.one)) (r.k.st.ls, flAll (lam.map (·.2)) ||| flAll (v.map (·.2)))
  carryDone h [] [] (n * cdiv b.size 256) (r.st (fun s => { s with ls := m.1, fmt := s.fmt ||| m.2 }))

/-- CSET and CGET move FP32 (FMT 0) or OS40 elements. -/
def csFmt (os : Bool) : FFmt := if os then .os40 else .fp32

/-- First element and count of a CSET or CGET target; `slot` is a stream's state pointer. -/
def csRange (e : CEnv) (tgt : Bool) (elem tail slot : Nat) : Nat × Nat :=
  if tgt then (elem, tail + 1) else (slot, match e.geo with | some g => g.nslot | none => 0)

/-- CSET (R206). -/
def csetRun (f : CSetF) : ExecF := fun e h r =>
  let rg := csRange e f.tgt f.elem.toNat f.tail.toNat (h.slots.headD 0)
  let b := stepBlk h.blk
  let a := r.k.cur
  let ls := r.k.st.ls
  let val (i : Nat) : FV × Fl :=
    match f.mode.toNat with
    | 0 =>
      let fm := csFmt f.fmt
      let x := fm.read (Memory.nat ls (4 * f.addr.toNat + fm.bytes * i) fm.bytes)
      let y := FFmt.os40.round .rne x.1
      (y.1, x.2 ||| y.2)
    | 1 => (FV.zero, 0#6)
    | 2 => (FV.one, 0#6)
    | _ =>
      let x := b.a.f1.val a.store ls b.n i 0
      let y := b.a.f2.val a.store ls b.n i 0
      let p := os40Res (FV.mul x.1 y.1) (x.1.isNan || y.1.isNan)
      (p.1, x.2 ||| y.2 ||| p.2)
  let vs := (List.range rg.2).map val
  let ids := if f.tgt then [] else [f.tail.toNat]
  carryDone h ids ids 0 ((r.cur (fun a => { a with
    store := (vs.zipIdx).foldl (fun m x => storePut m (rg.1 + x.2) x.1.1) a.store })).flags (flAll (vs.map (·.2))))

/-- CGET (R206). -/
def cgetRun (f : CGetF) : ExecF := fun e h r =>
  let rg := csRange e f.tgt f.elem.toNat f.tail.toNat (h.slots.headD 0)
  let fm := csFmt f.fmt
  let vs := (List.range rg.2).map (fun i =>
    let x := storeAt r.k.cur.store (rg.1 + i)
    let w := fm.write (.ofCode f.rm.toNat) x.1
    (w.1, x.2 ||| w.2))
  carryDone h (if f.tgt then [] else [f.tail.toNat]) [] 0 ((r.st (fun s => { s with
    ls := (vs.zipIdx).foldl (fun m x => Memory.setNat m (4 * f.addr.toNat + fm.bytes * x.2) fm.bytes x.1.1) s.ls })).flags
      (flAll (vs.map (·.2))))

/-- CCMP (R207). -/
def ccmpRun (f : CCmpF) : ExecF := fun _ h r =>
  let n := (h.sr.headD 0#64).toNat % 2 ^ 32
  let fm := crFmt f.fmt.toNat
  let rd (base i : Nat) : FV × Fl := fm.read (Memory.nat r.k.st.ls (4 * base + fm.bytes * i) fm.bytes)
  let ps := (List.range n).map (fun i => (rd f.x.toNat i, rd f.y.toNat i))
  let m := ps.foldl (fun (m : FV) p => if p.1.1.isNan then m else FV.max m p.1.1.abs) FV.zero
  let thr := FFmt.fp32.round .rne (m.scale (-(f.r.toNat : Int)))
  let ds := ps.map (fun p =>
    let d := FV.sub .rne p.1.1 p.2.1
    let q := FFmt.fp32.round .rne d.abs
    (q.1, p.1.2 ||| p.2.2 ||| q.2 ||| nanGen d (p.1.1.isNan || p.2.1.isNan)))
  let bad := (ps.zip ds).findIdx (fun x => (x.1.1.1.isNan != x.1.2.1.isNan) || FV.lt thr.1 x.2.1)
  let failed := decide (bad < n)
  let dev := ds.foldl (fun (m : FV) d => if d.1.isNan then m else FV.max m d.1) FV.zero
  let r1 := carryDone h [] [] 0 (((r.st (fun s => { s with
    xchk0 := if failed then BitVec.ofNat 32 bad else 0xFFFFFFFF#32,
    xchk1 := BitVec.ofNat 32 (FFmt.fp32.write .rne dev).1 })).cur (fun a =>
      a.setSm f.sm.toNat (if failed then 1#32 else 0#32))).flags (thr.2 ||| flAll (ds.map (·.2))))
  if failed && f.trap then r1.report { code := 0x1C, unit := 5, tag := h.tag } else r1

/-- CRESET (R219): sets the issuing core's reset flag of the stream. -/
def cresetRun (id : Nat) : ExecF := fun _ h r =>
  carryDone h [id] [] 0 (r.cur (fun a => a.setView id { a.view id with flag := true }))

/-- Fault 0x16 of a factor that an instruction uses (R316): CLASS 0, or a P or Q range that is misaligned or too long. -/
def factorBad (f : Factor) (used : Bool) (n N : Nat) : Bool :=
  used && (f.cls == 0 || (f.cls == 4 && (f.addr % 32 != 0 || decide (32768 < f.addr + n)))
            || (f.cls == 5 && (f.addr % 32 != 0 || decide (32768 < f.addr + N))))

def copBad (o : COp) (used : Bool) (n N : Nat) : Bool := factorBad o.f1 used n N || factorBad o.f2 (used && o.prod) n N

/-- Accesses of a factor over positions t0 to t1 - 1. -/
def factorAccs (f : Factor) (ch N t0 t1 : Nat) : List Acc :=
  if t1 ≤ t0 ∨ f.cls = 0 ∨ 3 < f.cls then []
  else
    let w : Int := (crFmt f.fmt).bytes
    let p0 := f.byte t0 0
    let p1 := f.byte (t1 - 1) 0
    [{ wr := false, lo := min p0 p1, hi := max p0 p1 + w * (clsCount f.cls ch N : Int) }]

def copAccs (o : COp) (ch N t0 t1 : Nat) : List Acc :=
  factorAccs o.f1 ch N t0 t1 ++ (if o.prod then factorAccs o.f2 ch N t0 t1 else [])

/-- Accesses of the mark vector, bits 0 to `n` - 1. -/
def markAccs (b : StepBlk) (n : Nat) : List Acc := if b.mken && n != 0 then accRun false (4 * b.mark) (4 * (cdiv n 32)) else []

/-- Accesses of readouts (`n` elements) and emitted states (`m` elements); a readout that ACC also reads counts as a write operand (R242). -/
def outAccs (b : StepBlk) (rd em : Bool) (n m : Nat) : List Acc :=
  (if rd then accRun true (4 * b.rdAddr) ((crFmt b.rdFmt).bytes * n) else [])
  ++ (if em then accRun true (4 * b.emit) ((if b.emfp32 then 4 else 5) * m) else [])

/-- The checks of R316 that every instruction with a step block makes: the geometry, FINISH outside CSTEP, CLASS 7 outside operand b and
XA, CLASS 6 in an F2, and the D ranges of its `S` streams. -/
def blkBad (b : StepBlk) (cstep : Bool) (S : Nat) : Bool :=
  !b.clean || b.ch == 0 || decide (10 < b.logn) || decide (32768 < b.ch * 2 ^ b.logn) || (b.finish && !cstep)
    || [b.a.f1, b.a.f2, b.c.f1, b.c.f2, b.xh, b.xs].any (fun f => f.cls == 7) || [b.a.f2, b.b.f2, b.c.f2].any (fun f => f.cls == 6)
    || (b.den && (b.drng % 32 != 0 || decide (32768 < b.drng + (S - 1) * (32 * cdiv b.size 32) + b.size)))

/-- Stream ids outside the partition's range (R211). -/
def idBad (e : CEnv) (id : Nat) : Bool :=
  match e.geo with
  | none => true
  | some g => decide (id < g.idFirst) || decide (g.idLast < id)

/-- State pointer of a stream on the residency scoreboard (R221). -/
def stateBase (e : CEnv) (id : Nat) : Option Nat := (e.slots.find? (fun x => x.1 = id)).map (·.2)

/-- The step block at granule `g` as the local store holds it at issue. -/
def readBlk (ls : Memory) (g : Nat) : List W32 := (List.range 32).map (fun i => Memory.w32 ls (32 * g + 4 * i))

/-- Read the step block at issue (R313): outside the store it faults with 0x25, and it holds while a write to it is
unfinished. DEDUCED: log 111. -/
def withBlk (k : Core) (ls : Memory) (g : Nat) (f : List W32 → PlanR) : PlanR :=
  if lsBytes < 32 * g + 128 then .fault 0x25
  else if lateRead k (32 * g) 128 then .hold
  else f (readBlk ls g)

/-- Checks of the streams named, then the plan. -/
def withIds (e : CEnv) (ids : List Nat) (size : Nat) (p : PlanR) : PlanR :=
  if ids.any (idBad e) then .fault 0x30
  else match e.geo with
    | some g => if g.nslot < size then .fault 0x33 else p
    | none => p

/-- Plan of CSTEP and CADJ (R313, R316). -/
def planStep (e : CEnv) (k : Core) (ls : Memory) (adj : Bool) (f : CStepF) : PlanR :=
  withBlk k ls f.blk.toNat (fun ws =>
    let b := stepBlk ws
    let T := (k.cur.sreg f.rt.toNat).toNat % 2 ^ 32
    let n := b.size
    let N := b.n
    let S := f.ns1.toNat + 1
    if blkBad b (!adj) S || T == 0 || (b.rden && b.rdFmt == 3)
      || copBad b.a true n N || copBad b.b true n N || copBad b.c b.rden n N
      || factorBad b.xa adj n N || factorBad b.xh (adj && b.emen) n N || factorBad b.xs (adj && b.emen) n N
      || (f.ns1 != 0#2 && f.stride == 0#8) then .fault 0x16
    else withIds e (stepIds f) n (planChecked k
      { eng := .carry, sr := [k.cur.sreg f.rt.toNat], blk := ws, bank := if k.cur.curveAct then 1 else 0,
        slots := (stepIds f).map (fun i => (stateBase e i).getD 0),
        accs := (if adj then copAccs b.a b.ch N 1 T ++ factorAccs b.xa b.ch N 0 1
              ++ (if b.emen then factorAccs b.xh b.ch N 0 (T - 1) ++ factorAccs b.xs b.ch N 0 1 else [])
            else copAccs b.a b.ch N 0 T)
          ++ copAccs b.b b.ch N 0 T ++ (if b.rden then copAccs b.c b.ch N 0 T else [])
          ++ markAccs b (if adj then T + 1 else T) ++ outAccs b b.rden b.emen (S * T * b.ch) (S * T * n) }))

/-- Plan of a carry instruction. -/
def planCarry (e : CEnv) (k : Core) (ls : Memory) : Instr → PlanR
  | .cstep _ f => planStep e k ls false f
  | .cadj _ f => planStep e k ls true f
  | .ckgen _ blk rt =>
    withBlk k ls blk.toNat (fun ws =>
      let b := stepBlk ws
      let n := (k.cur.sreg rt.toNat).toNat % 2 ^ 32
      if blkBad b false 1 || n == 0 || decide (1024 < n) || b.rdFmt == 3
        || factorBad b.a.f1 true b.size b.n || factorBad b.c.f1 true b.size b.n then .fault 0x16
      else planChecked k
        { eng := .carry, sr := [k.cur.sreg rt.toNat], blk := ws,
          accs := factorAccs b.a.f1 b.ch b.n 0 1 ++ factorAccs b.c.f1 b.ch b.n 0 1 ++ outAccs b true false (n * b.ch) 0 })
  | .cset _ f =>
    let rg := csRange e f.tgt f.elem.toNat f.tail.toNat 0
    let ids := if f.tgt then [] else [f.tail.toNat]
    let sl := ids.map (fun i => (stateBase e i).getD 0)
    let rngBad := f.tgt && (rg.1 % 32 != 0 || decide (32768 < rg.1 + rg.2))
    if rngBad then .fault 0x16
    else if f.mode = 3#2 then
      withBlk k ls (f.addr.toNat % 8192) (fun ws =>
        let b := stepBlk ws
        if blkBad b false 1 || factorBad b.a.f1 true rg.2 b.n || factorBad b.a.f2 true rg.2 b.n then .fault 0x16
        else
          let fs := factorAccs b.a.f1 (cdiv rg.2 b.n) b.n 0 1 ++ factorAccs b.a.f2 (cdiv rg.2 b.n) b.n 0 1
          withIds e ids 0 (planChecked k { eng := .carry, blk := ws, slots := sl, accs := fs }))
    else withIds e ids 0 (planChecked k
      { eng := .carry, slots := sl,
        accs := if f.mode = 0#2 then accRun false (4 * f.addr.toNat) ((csFmt f.fmt).bytes * rg.2) else [] })
  | .cget _ f =>
    let rg := csRange e f.tgt f.elem.toNat f.tail.toNat 0
    let ids := if f.tgt then [] else [f.tail.toNat]
    if f.tgt && (rg.1 % 32 != 0 || decide (32768 < rg.1 + rg.2)) then .fault 0x16
    else withIds e ids 0 (planChecked k
      { eng := .carry, slots := ids.map (fun i => (stateBase e i).getD 0),
        accs := accRun true (4 * f.addr.toNat) ((csFmt f.fmt).bytes * rg.2) })
  | .ccmp _ f =>
    let n := (k.cur.sreg f.rn.toNat).toNat % 2 ^ 32
    if f.fmt = 3#2 then .fault 0x16
    else planChecked k
      { eng := .carry, sr := [k.cur.sreg f.rn.toNat], wr := [.sm f.sm.toNat],
        accs := accRun false (4 * f.x.toNat) ((crFmt f.fmt.toNat).bytes * n)
        ++ accRun false (4 * f.y.toNat) ((crFmt f.fmt.toNat).bytes * n) }
  | .creset _ id => withIds e [id.toNat] 0 (.go { eng := .carry })
  | _ => .fault 0x10

/-- The streams a carry instruction names (R215, R221). -/
def streamIds : Instr → List Nat
  | .cstep _ f => (stepIds f)
  | .cadj _ f => (stepIds f)
  | .cset _ f => if f.tgt then [] else [f.tail.toNat]
  | .cget _ f => if f.tgt then [] else [f.tail.toNat]
  | .creset _ id => [id.toNat]
  | _ => []

end Sys2Proof.Machine
end

