-- ==== Sys2Proof/Machine/Dmv.lean ====
section
/-! DEFINITION. Machine/Dmv.lean: the data-movement slot at issue (R246, R247, R249, R254 to R257, R270 to R272, R317 to R321). -/

namespace Sys2Proof.Machine

/-- Outcome of a slot at issue that acts on the core at once. -/
inductive SlotR where
  | fault (code : Nat)
  | hold
  | ok (r : CRes)
  deriving DecidableEq, Repr

/-- Messages a core may issue in one commit region (R377). -/
def maxMsgs : Nat := 8192

/-- Local granule of a transfer's range is inside the store (R317, R319). -/
def rangeBad (first cnt : Nat) : Bool := decide (6144 < first + cnt)

/-- A block-list entry. -/
structure BlkEnt where
  addr : Nat
  len : Nat
  lgran : Nat
  zero : Bool
  deriving DecidableEq, Repr

/-- Entry `i` of a transfer's block list (R258). -/
def blkEnt (ls : Memory) (x : Xfer) (i : Nat) : BlkEnt :=
  let v := Memory.nat ls (32 * x.list + (if x.hdr then 32 else 0) + 16 * i) 16
  { addr := fld v 63 0, len := fld v 79 64 + 1, lgran := fld v 108 96, zero := fld v 63 47 == 0 && fld v 95 80 == 0 && fld v 127 109 == 0 }

/-- The eight words of a transfer's header or gather record as the local store holds them. -/
def headWords (ls : Memory) (x : Xfer) : List W32 :=
  if x.hdr ∨ x.gath then (List.range 8).map (fun i => Memory.w32 ls (32 * x.list + 4 * i)) else []

/-- Header fields (Table 17). -/
def Xfer.h (x : Xfer) (i : Nat) : Nat := (nthD x.head i 0#32).toNat
def Xfer.tcore (x : Xfer) : Nat := fld (x.h 0) 10 0
def Xfer.ctr (x : Xfer) : Option Nat := if bitOf (x.h 0) 11 then some (fld (x.h 0) 17 12) else none
def Xfer.qpush (x : Xfer) : Bool := bitOf (x.h 0) 18
def Xfer.qend (x : Xfer) : Nat := fld (x.h 0) 22 19
def Xfer.posten (x : Xfer) : Bool := bitOf (x.h 1) 0
def Xfer.pcore (x : Xfer) : Nat := fld (x.h 1) 11 1

/-- Fields of the gather record (Table 18), read from its words as a number. -/
def Xfer.rec8 (x : Xfer) : Nat := (x.head.zipIdx).foldl (fun n w => n + w.1.toNat * 2 ^ (32 * w.2)) 0

/-- The completion post of a transfer with its header read goes to another core than `me` (R272, R377). -/
def Xfer.postsFar (x : Xfer) (me : Nat) : Bool := x.hdr && !x.qpush && x.posten && x.pcore != me

/-- The granules of its own store that an execute-queue transfer naming its own core `me` writes through FIN (R243): the bounding
interval of its blocks' targets, or of its rows from BASE upward. -/
def Xfer.selfWrites (x : Xfer) (ls : Memory) (me : Nat) : List Res :=
  if x.tgt ≠ 1 then []
  else if x.gath then (if fld x.rec8 234 224 = me then [.ls (fld x.rec8 12 0) 6144] else [])
  else if x.qpush ∨ x.tcore ≠ me then []
  else boundRes ((List.range x.nent).map (fun i =>
    let e := blkEnt ls x i
    { wr := true, lo := 32 * e.addr, hi := 32 * (e.addr + e.len) }))

/-- Enter a transfer in its queue (R254, R255, R257, R243), with its reservation of log space checked (R268) and the ordinals of its
message and of its completion post (R377; DESIGN CHOICE, log 26: the header as the local store holds it at issue). -/
def enterXfer (e : CEnv) (q : Nat) (tag : W16) (dir : Bool) (x : Xfer) (accs : List Acc) (msg : Bool) (res : Nat) (r : CRes) :
    SlotR :=
  let run := r.k.run
  let ls := r.k.seen.st.ls
  let x0 : Xfer := { x with head := headWords ls x }
  let far := x0.postsFar e.pidx
  let o := if msg then run.ordinal + 1 else run.ordinal
  match accFault [] accs with
  | some c => .fault c
  | none =>
    if rangeBad x.lfirst x.lcnt then .fault 0x4F
    else if maxMsgs < (if far then o + 1 else o) then .fault 0x49
    else if 65536 < e.logUsed + res then .fault 0x47
    else if 16 ≤ (if dir then run.eq else run.fq).length then .hold
    else
      let y : Xfer := { x with
        seq := q, tag := tag, ordinal := run.ordinal, pord := if far then some o else none, xidx := run.xord,
        rd := readRanges (if dir then accs ++ accRun false (32 * x.lfirst) (32 * x.lcnt) else accs),
        wr := if dir then x0.selfWrites ls e.pidx else [.ls x.lfirst (x.lfirst + x.lcnt)] }
      .ok (r.run (fun z =>
        let z := { z with ordinal := if far then o + 1 else o, xord := z.xord + 1 }
        if dir then { z with eq := z.eq ++ [y] } else { z with fq := z.fq ++ [y] }))

/-- XFER at issue (R317). -/
def issueXfer (e : CEnv) (q : Nat) (tag : W16) (f : XferF) (r : CRes) : SlotR :=
  let t := f.tgt.toNat
  let n := f.nent1.toNat + 1
  let cnt := f.lcnt1.toNat + 1
  let hb := if f.hdr then 1 else 0
  if t = 3 ∨ (f.add ∧ (!f.dir ∨ t = 1)) ∨ (!f.hdr ∧ t ≠ 0) then .fault 0x4F
  else enterXfer e q tag f.dir
    { seq := q, tag := tag, gath := false, tgt := t, add := f.add, hdr := f.hdr, nent := n, list := f.list.toNat,
      lfirst := f.lfirst.toNat, lcnt := cnt }
    (accRun false (32 * f.list.toNat) (32 * hb + 16 * n)) (t != 0) (if f.add then 32 * cnt else 0) r

/-- GATH at issue (R231, R319). The index tensor's read range is taken from the record as it stands at issue. DEDUCED: log 113. -/
def issueGath (e : CEnv) (q : Nat) (tag : W16) (f : GathF) (r : CRes) : SlotR :=
  let t := f.tgt.toNat
  let rec_ := 32 * f.gr.toNat
  let ls := r.k.seen.st.ls
  let ix := 4 * fld (Memory.nat ls (rec_ + 0x10) 4) 15 0
  let c := Memory.nat ls (rec_ + 0x14) 4
  if 2 ≤ t then .fault 0x4F
  else enterXfer e q tag f.dir
    { seq := q, tag := tag, gath := true, tgt := t, list := f.gr.toNat, lfirst := f.lfirst.toNat, lcnt := f.lcnt1.toNat + 1 }
    (accRun false rec_ 32 ++ accRun false ix (4 * c)) (t == 1) 0 r

/-- FENCE (R256, R320). -/
def issueFence (q : Nat) (fq eq : Bool) (r : CRes) : SlotR :=
  if !fq && !eq then .fault 0x4F else .ok (r.run (fun x => { x with fence := some (fq, eq, q) }))

/-- A deadline `ns` nanoseconds ahead; 0 means none (R247). -/
def waitUntil (e : CEnv) (ns : Nat) : Option Nat := if ns = 0 then none else some (e.time + e.ticks ns)

/-- An arrival wait is satisfied: the sampled value goes to SR[RD] with status 0 (R247, R320). -/
def awaitDone (ctr rd : Nat) (r : CRes) : CRes :=
  (r.cur (fun a => a.setSreg rd ((Sp.get 0#32 a.arr ctr).setWidth 64))).run (fun x => { x with wait := none })

/-- AWAIT at issue. A wait ends, and writes its register, once every earlier commit point has taken effect (R290). -/
def issueAwait (e : CEnv) (ctr : Nat) (thr : Nat) (rd ns : Nat) (r : CRes) : SlotR :=
  if r.k.run.marks.isEmpty && decide (thr ≤ (Sp.get 0#32 r.k.cur.arr ctr).toNat) then .ok (awaitDone ctr rd r)
  else .ok (r.run (fun x => { x with wait := some (.arrive ctr thr rd (waitUntil e ns)) }))

/-- A semaphore wait is satisfied (R271): the count falls by 1 and the status is 0. -/
def semDone (sem rd : Nat) (r : CRes) : CRes :=
  (r.cur (fun a => ({ a with sem := Sp.set 0 a.sem sem (Sp.get 0 a.sem sem - 1) }).setSreg rd 0#64)).run
    (fun x => { x with wait := none })

/-- SEMWAIT at issue. -/
def issueSemwait (e : CEnv) (sem rd ns : Nat) (r : CRes) : SlotR :=
  if r.k.run.marks.isEmpty && decide (1 ≤ Sp.get 0 r.k.cur.sem sem) then .ok (semDone sem rd r)
  else .ok (r.run (fun x => { x with wait := some (.sema sem rd (waitUntil e ns)) }))

/-- End a wait that the core's counters or semaphores now satisfy (R247, R271). -/
def wakeWait (r : CRes) : CRes :=
  if !r.k.run.marks.isEmpty then r
  else match r.k.run.wait with
  | some (.arrive c t rd _) => if t ≤ (Sp.get 0#32 r.k.cur.arr c).toNat then awaitDone c rd r else r
  | some (.sema s rd _) => if 1 ≤ Sp.get 0 r.k.cur.sem s then semDone s rd r else r
  | none => r

/-- AWAIT_TIMEOUT (R247): status 1 with the value sampled at the expiry. -/
def awaitTimeout (e : CEnv) (r : CRes) : CRes :=
  match r.k.run.wait with
  | some (.arrive c _ rd (some d)) =>
    if d ≤ e.time && r.k.run.marks.isEmpty then
      (r.cur (fun a => a.setSreg rd (BitVec.ofNat 64 ((Sp.get 0#32 a.arr c).toNat + 2 ^ 32)))).run (fun x => { x with wait := none })
    else r
  | _ => r

/-- SEMWAIT_TIMEOUT (R271): status 1, the count unchanged. -/
def semTimeout (e : CEnv) (r : CRes) : CRes :=
  match r.k.run.wait with
  | some (.sema _ rd (some d)) =>
    if d ≤ e.time && r.k.run.marks.isEmpty then (r.cur (fun a => a.setSreg rd (BitVec.ofNat 64 (2 ^ 32)))).run (fun x => { x with wait := none }) else r
  | _ => r

/-- A post raises a semaphore; past 65,535 it stays there (R272): true where it overflowed. -/
def semAdd (sem cnt : Nat) (a : CoreArch) : CoreArch × Bool :=
  let n := Sp.get 0 a.sem sem + cnt
  ({ a with sem := Sp.set 0 a.sem sem (Nat.min n 65535) }, decide (65535 < n))

/-- A post to the core's own semaphore. -/
def postSelf (tag : W16) (sem cnt : Nat) (r : CRes) : CRes :=
  let x := semAdd sem cnt r.k.cur
  let r1 := r.cur (fun _ => x.1)
  wakeWait (if x.2 then r1.halt { code := 0x46, unit := 7, tag := tag } else r1)

/-- The first transfer of a queue that has not started, at most the sixth uncompleted one (R255, R256). -/
def nextXfer (l : List Xfer) : Option Xfer :=
  match l.findIdx? (fun x => !x.started) with
  | some i => if i < 6 then l[i]? else none
  | none => none

/-- A transfer may start: no earlier hold stands in its way (R241, R272), and every commit point before it has taken effect (R290). -/
def Xfer.free (x : Xfer) (k : Core) : Bool := !mustWait k.run.holds x.seq x.rd x.wr && !k.run.behind x.seq

/-- The post of a SEMPOST takes place (R272): to its own core it completes the transfer, to another it is a message. -/
def postNow (x : Xfer) (p : PostReq) (r : CRes) : CRes :=
  match p.tcore with
  | none => postSelf x.tag p.sem p.cnt (r.run (fun z => { z with eq := z.eq.filter (fun y => y.seq != x.seq) }))
  | some t =>
    (r.run (fun z => { z with eq := z.eq.map (fun y =>
        if y.seq = x.seq then { y with started := true, allReq := true, open_ := 1, wr := [] } else y) })).out
      (.post t p.sem p.cnt x.ordinal x.seq x.tag)

/-- The execute queue's next transfer, where it is a post that may take place, takes place. -/
def postNext (r : CRes) : CRes :=
  match nextXfer r.k.run.eq with
  | some x => match x.post with
    | some p => if x.free r.k && !r.k.run.eHalt then postNow x p r else r
    | none => r
  | none => r

/-- SEMPOST at issue (R254, R255, R272): a transfer of the execute queue that, with RNG, holds its range as a write range; it takes place
at once where nothing stands in its way. DEDUCED: log 114. -/
def issueSempost (e : CEnv) (q : Nat) (tag : W16) (f : SemPostF) (r : CRes) : SlotR :=
  let far := !f.self && decide (f.tcore.toNat ≠ e.pidx)
  let o := r.k.run.ordinal
  let a := f.first.toNat
  let n := f.gcnt1.toNat + 1
  if !f.self ∧ (e.part = none ∨ e.ncores ≤ f.tcore.toNat) then .fault 0x4A
  else if far && decide (maxMsgs ≤ o) then .fault 0x49
  else if f.rng && rangeBad a n then .fault 0x25
  else if 16 ≤ r.k.run.eq.length then .hold
  else
    let x : Xfer :=
      { seq := q, tag := tag, gath := false, tgt := 1, lfirst := a, lcnt := n, ordinal := o, xidx := r.k.run.xord,
        post := some { tcore := if far then some f.tcore.toNat else none, sem := f.sem.toNat, cnt := f.cnt1.toNat + 1 },
        wr := if f.rng then [.ls a (a + n)] else [] }
    .ok (postNext (r.run (fun z =>
      { z with eq := z.eq ++ [x], ordinal := if far then o + 1 else o, xord := z.xord + 1 })))

/-- Page-table entry `page` of the core's partition (R261). -/
def ptEntry (e : CEnv) (page : Nat) : Nat := Memory.nat e.tierA (e.ptBase + 8 * page) 8

/-- The frame of a tier-A entry lies beyond 1 TiB. DEDUCED: log 112. -/
def frameBad (pte : Nat) : Bool := !bitOf pte 2 && decide (0x7FFFF < fld pte 44 21)

/-- KEEP (R249, R250, R321): the entry is written once the earlier writes of its range are complete. -/
def issueKeep (e : CEnv) (q : Nat) (k : Nat) (first : Nat) (rb : Nat) (cnt : Nat) (r : CRes) : SlotR :=
  let v := r.k.seen.cur
  let a := (v.sreg rb).toNat
  let page := a / 2 ^ 21
  let pte := ptEntry e page
  if rangeBad first cnt ∨ (v.kept.any (fun c => c.1 != k && decide (first < c.2.first + c.2.count)
      && decide (c.2.first < first + cnt))) then .fault 0x26
  else if e.ptLen ≤ page then .fault 0x42
  else if !bitOf pte 0 then .fault 0x48
  else if frameBad pte then .fault 0x42
  else .ok (r.late q (.keep k
    { first := first, count := cnt, tierB := bitOf pte 2, back := fld pte 44 21 * 2 ^ 21 + a % 2 ^ 21 / 32 * 32 }))

/-- KEEP with CLR. -/
def issueKeepClear (q k : Nat) (r : CRes) : SlotR := .ok (r.late q (.keep k {}))

/-- A data-movement instruction at issue; none for other slots. -/
def issueDmv (e : CEnv) (q : Nat) (tag : W16) (i : Instr) (r : CRes) : Option SlotR :=
  let a := r.k.seen.cur
  match i with
  | .xfer _ f => some (issueXfer e q tag f r)
  | .gath _ f => some (issueGath e q tag f r)
  | .fence _ fq eq => some (issueFence q fq eq r)
  | .await _ ctr rt rd ns => some (issueAwait e ctr.toNat ((a.sreg rt.toNat).toNat % 2 ^ 32) rd.toNat ns.toNat r)
  | .arrset _ ctr ra => some (.ok (r.late q (.arr ctr.toNat ((a.sreg ra.toNat).setWidth 32))))
  | .arrsetSubtract _ ctr ra => some (.ok (r.late q (.arrSub ctr.toNat ((a.sreg ra.toNat).setWidth 32))))
  | .semwait _ sem rd ns => some (issueSemwait e sem.toNat rd.toNat ns.toNat r)
  | .sempost _ f => some (issueSempost e q tag f r)
  | .semset _ sem ra => some (.ok (r.late q (.sem sem.toNat ((a.sreg ra.toNat).toNat % 65536))))
  | .semrd _ sem rd => some (.ok (r.late q (.sr rd.toNat (BitVec.ofNat 64 (Sp.get 0 a.sem sem.toNat)))))
  | .keep _ k first rb cnt1 => some (issueKeep e q k.toNat first.toNat rb.toNat (cnt1.toNat + 1) r)
  | .keepClear _ k => some (issueKeepClear q k.toNat r)
  | _ => none

end Sys2Proof.Machine
end

