-- ==== Sys2Proof/Machine/Scalar.lean ====
section
/-! DEFINITION. Machine/Scalar.lean: the scalar slot (R303 to R306). -/

namespace Sys2Proof.Machine

/-- What a scalar instruction does in its issue beat: a register write, a new descriptor base, a local-store word, a branch. -/
structure ScalEff where
  sr : Option (Nat × W64) := none
  base : Option Nat := none
  word : Option (Nat × W32) := none
  br : Option Nat := none
  deriving DecidableEq, Repr

/-- Outcome of the scalar slot at issue. -/
inductive ScalR where
  | fault (code : Nat)
  | hold
  | go (f : ScalEff)
  deriving DecidableEq, Repr

def boolW (b : Bool) : W64 := if b then 1#64 else 0#64

/-- The operations of Table 5, opcodes 0x01 to 0x0C and their immediate forms (R305). -/
def opAdd (a b : W64) : W64 := a + b
def opSub (a b : W64) : W64 := a - b
def opAnd (a b : W64) : W64 := a &&& b
def opOr (a b : W64) : W64 := a ||| b
def opXor (a b : W64) : W64 := a ^^^ b
def opShl (a b : W64) : W64 := a <<< (b.toNat % 64)
def opShr (a b : W64) : W64 := a >>> (b.toNat % 64)
def opSar (a b : W64) : W64 := a.sshiftRight (b.toNat % 64)
def opMul (a b : W64) : W64 := a * b
def opSlt (a b : W64) : W64 := boolW (a.slt b)
def opSltu (a b : W64) : W64 := boolW (a.ult b)
def opSeq (a b : W64) : W64 := boolW (a == b)

/-- RD = RA op RB; `k` is the core as issue sees it. -/
def scalReg (k : Core) (op : W64 → W64 → W64) (rd ra rb : BitVec 5) : ScalR :=
  .go { sr := some (rd.toNat, op (k.cur.sreg ra.toNat) (k.cur.sreg rb.toNat)) }

/-- RD = RA op IMM, sign-extended. -/
def scalImm (k : Core) (op : W64 → W64 → W64) (rd ra : BitVec 5) (imm : W16) : ScalR :=
  .go { sr := some (rd.toNat, op (k.cur.sreg ra.toNat) (imm.signExtend 64)) }

/-- BR conditions (R306). -/
def brHolds (cond : Nat) (a b : W64) : Bool :=
  match cond with
  | 0 => true
  | 1 => a == b
  | 2 => a != b
  | 3 => a.slt b
  | 4 => !(a.slt b)
  | 5 => a.ult b
  | 6 => !(a.ult b)
  | _ => false

/-- Length of the stream running, 0 where none runs. -/
def streamLen (k : Core) : Nat := match k.run.run with | some s => s.len | none => 0

/-- BR at issue (R285, R306): condition code 7 and a target that is no multiple of 4 fault whether or not taken; a taken branch
at or beyond LEN faults. DEDUCED: log 99. -/
def scalBr (k : Core) (cond : BitVec 3) (ra rb : BitVec 5) (target : W32) : ScalR :=
  if cond = 7#3 then .fault 0x10
  else if target.toNat % 4 ≠ 0 then .fault 0x4E
  else if brHolds cond.toNat (k.cur.sreg ra.toNat) (k.cur.sreg rb.toNat) then
    (if streamLen k ≤ target.toNat then .fault 0x4D else .go { br := some target.toNat })
  else .go {}

/-- MOVSM at issue (R151): holds while the summary is pending. -/
def scalMovsm (k : Core) (rd : BitVec 5) (sm : BitVec 3) : ScalR :=
  if k.run.smPending sm.toNat then .hold else .go { sr := some (rd.toNat, (k.cur.smreg sm.toNat).setWidth 64) }

/-- DBASE (R286): descriptor partitions only (R34). DEDUCED: log 105. -/
def scalDbase (e : CEnv) (k : Core) (ra : BitVec 5) (imm : W16) : ScalR :=
  if e.qends then .fault 0x15 else .go { base := some (k.cur.sreg ra.toNat + imm.signExtend 64).toNat }

/-- DSET (R305): a local-store write, ordered under R241 against what is unfinished. -/
def scalDset (e : CEnv) (k : Core) (h : BitVec 10) (w : BitVec 3) (ra : BitVec 5) : ScalR :=
  let a := descAddr k h.toNat + 4 * w.toNat
  if e.qends then .fault 0x15
  else if lsBytes < descAddr k h.toNat + 32 then .fault 0x15
  else if inKept k.cur.kept (a / 32) then .fault 0x24
  else if mustWait k.run.engHolds (k.run.seq + 1) [] [.ls (a / 32) (a / 32 + 1)] then .hold
  else .go { word := some (a, (k.cur.sreg ra.toNat).setWidth 32) }

/-- The scalar slot's outcome; an instruction of another slot has none. -/
def scalPlan (e : CEnv) (k : Core) : Instr → Option ScalR
  | .add _ rd ra rb => some (scalReg k opAdd rd ra rb)
  | .sub _ rd ra rb => some (scalReg k opSub rd ra rb)
  | .and _ rd ra rb => some (scalReg k opAnd rd ra rb)
  | .or _ rd ra rb => some (scalReg k opOr rd ra rb)
  | .xor _ rd ra rb => some (scalReg k opXor rd ra rb)
  | .shl _ rd ra rb => some (scalReg k opShl rd ra rb)
  | .shr _ rd ra rb => some (scalReg k opShr rd ra rb)
  | .sar _ rd ra rb => some (scalReg k opSar rd ra rb)
  | .mul _ rd ra rb => some (scalReg k opMul rd ra rb)
  | .slt _ rd ra rb => some (scalReg k opSlt rd ra rb)
  | .sltu _ rd ra rb => some (scalReg k opSltu rd ra rb)
  | .seq _ rd ra rb => some (scalReg k opSeq rd ra rb)
  | .addi _ rd ra imm => some (scalImm k opAdd rd ra imm)
  | .subi _ rd ra imm => some (scalImm k opSub rd ra imm)
  | .andi _ rd ra imm => some (scalImm k opAnd rd ra imm)
  | .ori _ rd ra imm => some (scalImm k opOr rd ra imm)
  | .xori _ rd ra imm => some (scalImm k opXor rd ra imm)
  | .shli _ rd ra imm => some (scalImm k opShl rd ra imm)
  | .shri _ rd ra imm => some (scalImm k opShr rd ra imm)
  | .sari _ rd ra imm => some (scalImm k opSar rd ra imm)
  | .muli _ rd ra imm => some (scalImm k opMul rd ra imm)
  | .slti _ rd ra imm => some (scalImm k opSlt rd ra imm)
  | .sltui _ rd ra imm => some (scalImm k opSltu rd ra imm)
  | .seqi _ rd ra imm => some (scalImm k opSeq rd ra imm)
  | .movsm _ rd sm => some (scalMovsm k rd sm)
  | .tbr _ rd => some (.go { sr := some (rd.toNat, BitVec.ofNat 64 e.time) })
  | .dbase _ ra imm => some (scalDbase e k ra imm)
  | .dset _ h w ra => some (scalDset e k h w ra)
  | .li _ rd imm => some (.go { sr := some (rd.toNat, imm.signExtend 64) })
  | .lih _ rd imm =>
    some (.go { sr := some (rd.toNat, (imm ++ (k.cur.sreg rd.toNat).setWidth 32 : BitVec 64)) })
  | .br _ cond ra rb target => some (scalBr k cond ra rb target)
  | _ => none

/-- Do an effect that there may be. -/
def CRes.lateOpt (r : CRes) (q : Nat) (l : Option Late) : CRes :=
  match l with
  | some x => r.late q x
  | none => r

/-- Apply the effect of the scalar instruction of sequence number `q` (R290, R305). -/
def ScalEff.apply (f : ScalEff) (q : Nat) (r : CRes) : CRes :=
  ((r.lateOpt q (f.sr.map (fun x => .sr x.1 x.2))).lateOpt q (f.base.map .dbase)).lateOpt q
    (f.word.map (fun x => .word x.1 x.2))

end Sys2Proof.Machine
end

