-- ==== Sys2Proof/Machine/Sfu.lean ====
section
/-! DEFINITION. Machine/Sfu.lean: the special-function unit (R153 to R177, R312). -/

namespace Sys2Proof.Machine

/-- A reader of a bank image: the little-endian number of `n` bytes at an offset. -/
abbrev Img := Nat → Nat → Nat

def Bank.reader (b : Bank) : Img := fun a n => Memory.nat b.img a n

/-- Header bytes of the Osrel 2 compatibility image: MAGIC, IMAGE_ID 0x0002_0007, LEVEL, twelve functions (Table 2, R175). -/
def o2Header : List (BitVec 8) := [0x53, 0x00, 0x5E, 0x0A, 0x07, 0x00, 0x02, 0x00, 0x01, 0x0C]

/-- Byte `a` of the Osrel 2 compatibility image (R175, R176): its header, uniform segments and c3 = 0 as the spec states them; the rest is
published outside the spec, an uninterpreted constant (DESIGN CHOICE, log 3). -/
def o2Byte (a : Nat) : BitVec 8 :=
  if a < 0x20 then nthD o2Header a 0
  else if a < 0x120 then (if a % 16 = 10 then Config.o2Image a &&& 0xFD#8 else Config.o2Image a)
  else if a < 0x1120 ∧ 12 ≤ a % 16 then 0
  else Config.o2Image a

/-- A reader of the compatibility image. -/
def o2Reader : Img := fun a n => bytesNat ((List.range n).map (fun i => o2Byte (a + i)))

/-- A directory entry (Table 3 of Special functions); `mainLen` is the length itself. -/
structure DirEnt where
  func : Nat
  narg : Nat
  exact_ : Bool
  mainPc : Nat
  mainLen : Nat
  fbPc : Nat
  fbLen : Nat
  err : Nat
  segBase : Nat
  segCount : Nat
  binade : Bool
  mbits : Nat
  expf : Nat
  lo : Nat
  deriving DecidableEq, Repr

def dirEnt (g : Img) (n : Nat) : DirEnt :=
  let w (i : Nat) : Nat := g (0x20 + 16 * n + 4 * i) 4
  { func := fld (w 0) 7 0, narg := fld (w 0) 9 8, exact_ := bitOf (w 0) 12, mainPc := fld (w 0) 23 16,
    mainLen := fld (w 0) 29 24 + 1, fbPc := fld (w 1) 7 0, fbLen := fld (w 1) 14 8, err := fld (w 1) 20 16,
    segBase := fld (w 2) 7 0, segCount := fld (w 2) 16 8, binade := bitOf (w 2) 17, mbits := fld (w 2) 20 18,
    expf := fld (w 2) 31 24, lo := w 3 }

/-- Step `n`: its two words (Table 4). -/
def stepWord (g : Img) (n : Nat) : Nat × Nat := (g (0x1120 + 8 * n) 4, g (0x1124 + 8 * n) 4)

/-- Reserved bits of directory words 0, 1 and 2, and of step word 0. -/
def dirReserved (g : Img) (n : Nat) : Bool :=
  let w (i : Nat) : Nat := g (0x20 + 16 * n + 4 * i) 4
  fld (w 0) 15 13 == 0 && fld (w 0) 31 30 == 0 && fld (w 1) 15 15 == 0 && fld (w 1) 31 21 == 0 && fld (w 2) 23 21 == 0
    && (!bitOf (w 2) 17 || w 3 == 0)

def stepReserved (g : Img) (n : Nat) : Bool :=
  let w := (stepWord g n).1
  fld w 19 18 == 0 && fld w 23 23 == 0 && fld w 31 28 == 0

/-- One program of an image is well formed (R157). -/
def progOk (g : Img) (pc len : Nat) : Bool :=
  decide (pc + len ≤ 256) && (List.range len).all (fun i =>
    let w := (stepWord g (pc + i)).1
    let op := fld w 5 0
    let d := dirEnt g (fld w 27 24)
    (op == 0x3F || (decide (1 ≤ op) && decide (op ≤ 7))) && ((op == 0x3F) == (i + 1 == len)) && fld w 8 6 != 7
      && (op != 4 || (decide (1 ≤ d.segCount) && decide (d.segBase + d.segCount ≤ 256))))

/-- The checks of R157 on an image. DEDUCED: log 109. -/
def imageValid (g : Img) : Bool :=
  g 0 4 == 0x0A5E0053 && g 8 1 == 1 && g 10 22 == 0
    && (List.range 16).all (dirReserved g) && (List.range 256).all (stepReserved g)
    && (List.range 16).all (fun n =>
      let d := dirEnt g n
      (!d.exact_ || d.fbLen != 0) && (d.func == 0 || ((d.narg == 1 || d.narg == 2) && progOk g d.mainPc d.mainLen
        && (d.fbLen == 0 || progOk g d.fbPc d.fbLen))))

/-- An FP32 pattern read exactly, subnormals included (Table 4 of Special functions: IMM). -/
def fp32Exact (b : Nat) : FV :=
  if fld b 30 23 = 0 then .fin (bitOf b 31) (b % 2 ^ 23) (-149) else (FFmt.fp32.read b).1

/-- A free value of the step format (DESIGN CHOICE, log 3): registers a program reads before it writes them, and codes the spec leaves
open. -/
def freeFV (i : Nat) : FV := fp32Exact (Config.freeNat i % 2 ^ 32)

/-- Working registers X0 to X6 and K (R158). -/
structure SfRegs where
  x : List FV
  k : Int
  deriving DecidableEq, Repr

/-- ln 2, π/2 and 1 to 96 significant bits (Table 5: RRED; DEDUCED, log 24). -/
def rredConst : Nat → Option (Nat × Int)
  | 0 => some (54916777467707473351141471128, -96)
  | 1 => some (62225653328057771307630486157, -95)
  | 2 => some (1, 0)
  | _ => none

/-- RNE(m * 2^e / (c * 2^f)) as a natural number. -/
def rneQuot (m : Nat) (e : Int) (c : Nat) (f : Int) : Nat :=
  let d := e - f
  let num := if 0 ≤ d then m <<< d.toNat else m
  let den := if 0 ≤ d then c else c <<< (-d).toNat
  let q := num / den
  let r := num % den
  if den < 2 * r ∨ (2 * r = den ∧ q % 2 = 1) then q + 1 else q

/-- RRED (Table 5): k saturated to ±(2^31 - 1), and a - k * C rounded. -/
def rred (rnd : FV → FV) (a : FV) (c : Nat × Int) : FV × Int :=
  let lim : Int := 2 ^ 31 - 1
  match a with
  | .nan => (.nan, 0)
  | .inf n => (.inf n, if n then -lim else lim)
  | .fin n m e =>
    let q : Int := ((rneQuot m e c.1 c.2 : Nat) : Int)
    let q := if lim < q then lim else q
    let k := if n then -q else q
    (rnd (FV.sub .rne a (FV.mul (FV.ofInt k) (.fin false c.1 c.2))), k)

/-- Segment and offset of LUT (R160), uniform mode; LO is an FP32 input, read under R65. -/
def lutUniform (rnd : FV → FV) (d : DirEnt) (a : FV) : Nat × FV :=
  let q := (FV.sub .rne a (FFmt.fp32.read d.lo).1).scale (127 - (d.expf : Int))
  let last := (d.segCount - 1, FV.one)
  match q with
  | .nan => (0, .nan)
  | .inf n => if n then (0, FV.zero) else last
  | .fin n m e =>
    if n && decide (m ≠ 0) then (0, FV.zero)
    else if FV.le (FV.ofInt d.segCount) q then last
    else
      let i := rndInt .rtz false m e
      (i, rnd (FV.sub .rne q (FV.ofInt i)))

/-- Segment and offset of LUT (R160), binade mode: the exponent and the 23 leading fraction bits of │a│. DEDUCED: log 106. -/
def lutBinade (d : DirEnt) (a : FV) : Nat × FV :=
  let last := (d.segCount - 1, FV.one)
  let pick (ex fr : Nat) : Nat × FV :=
    let i : Int := ((ex : Int) - (d.expf : Int)) * ((2 ^ d.mbits : Nat) : Int) + ((fr >>> (23 - d.mbits) : Nat) : Int)
    if i < 0 then (0, FV.zero)
    else if (d.segCount : Int) ≤ i then last
    else (i.toNat, .fin false (fr % 2 ^ (23 - d.mbits)) (-((23 - d.mbits : Nat) : Int)))
  match a with
  | .nan => (0, .nan)
  | .inf _ => pick 255 0
  | .fin _ m e =>
    if m = 0 then pick 0 0
    else
      let top := msbOf m e
      if top < -126 then (0, FV.zero)
      else if 127 < top then last
      else pick (top + 127).toNat (rndInt .rtz false m (e - (top - 23)) % 2 ^ 23)

/-- LUT (R160): the cubic of the segment by three rounded multiply-adds; the coefficients are FP32 inputs, read under R65. -/
def lut (rnd : FV → FV) (g : Img) (d : DirEnt) (a : FV) : FV :=
  if a.isNan then .nan
  else
    let s := if d.binade then lutBinade d a else lutUniform rnd d a
    let c (j : Nat) : FV := (FFmt.fp32.read (g (0x120 + 16 * (d.segBase + s.1) + 4 * j) 4)).1
    let fma (x y : FV) : FV := rnd (FV.add .rne (FV.mul x s.2) y)
    fma (fma (fma (c 3) (c 2)) (c 1)) (c 0)

/-- A SEL condition (Table 6). -/
def selHolds (cond : Nat) (a imm : FV) (immBits x0bits : Nat) (k : Int) : Bool :=
  match cond with
  | 0 => a.isInf
  | 1 => a.sgn
  | 2 => FV.lt a.abs imm
  | 3 => FV.le imm a.abs
  | 4 => FV.eqv a imm
  | 5 => k % 2 == 1
  | 6 => (k / 2) % 2 == 1
  | _ => x0bits == immBits

/-- One step of a program other than END (Table 5). -/
def sfStep (rnd : FV → FV) (g : Img) (fr x0bits : Nat) (s : SfRegs) (w imm : Nat) : SfRegs :=
  let iv := fp32Exact imm
  let src (c : Nat) : FV := if c = 7 then iv else nthD s.x c FV.zero
  let a := src (fld w 11 9)
  let b := src (fld w 14 12)
  let c := src (fld w 17 15)
  let put (v : FV) : SfRegs := { s with x := updAt s.x (fld w 8 6) (fun _ => v) }
  match fld w 5 0 with
  | 1 => put (rnd (FV.add .rne a b))
  | 2 => put (rnd (FV.mul a b))
  | 3 => put (rnd (FV.add .rne (FV.mul a b) c))
  | 4 => put (lut rnd g (dirEnt g (fld w 27 24)) a)
  | 5 =>
    match rredConst imm with
    | some cc => let r := rred rnd a cc; { put r.1 with k := r.2 }
    | none => { put (freeFV fr) with k := sext 32 (Config.freeNat fr) }
  | 6 => put (rnd (a.scale (s.k + sext 32 imm)))
  | 7 => put (if selHolds (fld w 22 20) a iv imm x0bits s.k then b else c)
  | _ => s

/-- Run a program of `n` steps from `pc`: source a of its END. -/
def sfProg (rnd : FV → FV) (g : Img) (fr x0bits : Nat) : Nat → Nat → SfRegs → FV
  | 0, _, _ => freeFV fr
  | n + 1, pc, s =>
    let w := stepWord g pc
    if fld w.1 5 0 = 0x3F then
      (if fld w.1 11 9 = 7 then fp32Exact w.2 else nthD s.x (fld w.1 11 9) FV.zero)
    else sfProg rnd g fr x0bits n (pc + 1) (sfStep rnd g fr x0bits s w.1 w.2)

/-- The magnitudes of a 16-bit format next to a positive magnitude `m * 2^e`: quantum exponent and index of the greatest one
not above it, in the grid extended one binade beyond the largest finite value. -/
def gridFloor (f : FFmt) (m : Nat) (e : Int) : Nat × Int :=
  let qmin : Int := 1 - (f.bias : Int) - (f.fb : Int)
  let qmax : Int := (f.bias : Int) - (f.fb : Int)
  let q0 : Int := msbOf m e - (f.fb : Int)
  let q := if q0 < qmin then qmin else q0
  if qmax < q then (2 ^ (f.fb + 1), qmax) else (rndInt .rtz false m (e - q), q)

/-- Whether a step-format result lies within 2^ERR units in its last place of a rounding boundary of the destination (R162). DEDUCED: log 107. -/
def nearBoundary (f : FFmt) (rm : RM) (err : Nat) (y : FV) : Bool :=
  match y with
  | .fin _ m e =>
    if m = 0 then rm != .rne
    else
      let win := FV.fin false 1 (msbOf m e - 31 + (err : Int))
      let g := gridFloor f m e
      let top := FV.fin false (2 ^ (f.fb + 1)) ((f.bias : Int) - (f.fb : Int))
      let v := FV.fin false m e
      -- representable values and midpoints around v, in halves of quantum q, and those of the binade below
      let half (i : Int) (q : Int) : FV := if i < 0 then FV.zero else .fin false i.toNat (q - 1)
      let i2 : Int := 2 * (g.1 : Int)
      let low : Bool := g.1 == 2 ^ f.fb && decide (1 - (f.bias : Int) - (f.fb : Int) < g.2)
      let cands : List FV :=
        if rm = .rne then
          (if g.1 = 2 ^ (f.fb + 1) then [half (i2 - 1) g.2]
           else [half (i2 + 1) g.2, if low then half (2 * i2 - 1) (g.2 - 1) else half (i2 - 1) g.2])
        else [half i2 g.2, half (i2 + 2) g.2].filter (fun b => FV.lt b top)
              ++ (if g.1 = 2 ^ (f.fb + 1) then [half (i2 - 2) g.2] else [])
      cands.any (fun b => (rm != .rne || !(FV.eqv b FV.zero)) && FV.le (FV.sub .rne v b).abs win)
  | _ => false

/-- An operand of an evaluation: its value, its bits widened to FP32, and the flags of reading it. -/
structure SfArg where
  v : FV
  bits : Nat
  fl : Fl
  deriving DecidableEq, Repr

/-- An FP32 operand (R158: read under R65). -/
def argFp32 (b : Nat) : SfArg := { v := (FFmt.fp32.read b).1, bits := b, fl := (FFmt.fp32.read b).2 }

/-- A packed operand, widened exactly (R154). -/
def argPacked (f : FFmt) (b : Nat) : SfArg :=
  { v := (f.read b).1, bits := if f = .bf16 then b * 65536 else (FFmt.fp32.write .rne (f.read b).1).1, fl := (f.read b).2 }

/-- What an evaluation delivers: the pattern, the flags, and whether the fallback path ran. -/
structure SfOut where
  bits : Nat
  fl : Fl
  fb : Bool := false
  deriving DecidableEq, Repr

/-- Round a program's result to the destination (R159, R161). -/
def sfDeliver (dst : FFmt) (rm : RM) (y : FV) (fl : Fl) (fb : Bool) : SfOut :=
  let r := dst.write rm y
  { bits := r.1, fl := fl ||| r.2 ||| (if y.isNan then flNangen else 0#6), fb := fb }

/-- Function code of TANH (Table 7 of Special functions). -/
def fnTanh : Nat := 0x0A

/-- The FP32 result of the exception step of the compatibility image's TANH (R177): the operand ±2.0. -/
def o2Tanh (x : Nat) : Option Nat :=
  if x = 0x40000000 then some 0x3F76A800 else if x = 0xC0000000 then some 0xBF76A800 else none

/-- The FP16 results that R177 states for the operands next to ±2.0, under RNE. -/
def o2TanhNear (x : Nat) : Option Nat :=
  if x = 0x3FFFE000 then some 0x3BB6 else if x = 0x40002000 then some 0x3BB7
  else if x = 0xBFFFE000 then some 0xBBB6 else if x = 0xC0002000 then some 0xBBB7 else none

/-- The step-format result of a compatibility program: of TANH at ±2.0 the one that R177 states. -/
def o2Value (d : DirEnt) (x : Nat) (y : FV) : FV :=
  match (if d.func = fnTanh then o2Tanh x else none) with
  | some v => (FFmt.fp32.read v).1
  | none => y

/-- The delivered pattern of a compatibility evaluation: of TANH in FP16 next to ±2.0 the one that R177 states. -/
def o2Bits (d : DirEnt) (dst : FFmt) (rm : RM) (x : Nat) (o : SfOut) : SfOut :=
  match (if d.func = fnTanh ∧ dst = .fp16 ∧ rm = .rne then o2TanhNear x else none) with
  | some v => { o with bits := v }
  | none => o

/-- Evaluate a directory entry on one element (R158 to R162; Table 8 for the compatibility image). -/
def sfEval (g : Img) (o2 : Bool) (d : DirEnt) (dst : FFmt) (rm : RM) (fallback : Bool) (fr : Nat) (a : SfArg) (b : Option SfArg) :
    SfOut :=
  let two := d.narg == 2
  let nan := a.v.isNan || (two && (match b with | some x => x.v.isNan | none => false))
  let fl := a.fl ||| (if two then (match b with | some x => x.fl | none => 0#6) else 0#6)
  if nan then { bits := dst.nanBits, fl := fl ||| flNanin }
  else
    let rnd : FV → FV := if o2 then (fun v => (FFmt.fp32.round .rne v).1) else stepRound
    let x1 := if two then (match b with | some x => x.v | none => freeFV (fr + 1)) else freeFV (fr + 1)
    let regs : SfRegs := { x := [a.v, x1] ++ (List.range 5).map (fun i => freeFV (fr + 2 + i)), k := sext 32 (Config.freeNat fr) }
    let y := sfProg rnd g fr a.bits d.mainLen d.mainPc regs
    if o2 then o2Bits d dst rm a.bits (sfDeliver dst rm (o2Value d a.bits y) fl false)
    else if fallback && d.exact_ && dst != .fp32 && nearBoundary dst rm d.err y then
      sfDeliver dst rm (sfProg rnd g fr a.bits d.fbLen d.fbPc regs) fl true
    else sfDeliver dst rm y fl false

/-- Free values one evaluation may use. -/
def sfFree : Nat := 8

/-- The 16-bit format of a DFMT code. -/
def sfFmt (d : Nat) : FFmt :=
  match d with
  | 1 => .bf16
  | 2 => .fp16
  | _ => .fp32

/-- The packed 16-bit elements of `n` lanes of V`r`: the low half first (R154). -/
def packedLanes (a : CoreArch) (L : Nat) (win : Sp Nat) (r : Nat) : List Nat :=
  (List.range L).flatMap (fun i => let w := (a.lane L win r i).toNat; [w % 65536, w / 65536])

/-- The operands of an evaluation from register V`r` (R154): L FP32 elements, or 2L packed elements of the destination's
16-bit format (DEDUCED, log 23). -/
def sfArgs (e : CEnv) (h : Entry) (a : CoreArch) (pk : Bool) (dfmt r : Nat) : List SfArg :=
  if pk then (packedLanes a e.L h.win r).map (argPacked (sfFmt dfmt))
  else (List.range e.L).map (fun i => argFp32 (a.lane e.L h.win r i).toNat)

/-- The words a result list writes from lane 0: FP32 as they are, 16-bit results packed (R154). -/
def sfWords (dfmt : Nat) (l : List Nat) : List W32 := if dfmt = 0 then l.map (BitVec.ofNat 32) else pack16 l

/-- Write results to V`r`, with their flags and the fallback count. -/
def sfWrite (e : CEnv) (h : Entry) (r dfmt : Nat) (l : List SfOut) (c : CRes) : CRes :=
  (((c.cur (fun a => a.setLanes e.L h.win r (((sfWords dfmt (l.map (·.bits))).zipIdx).map (fun x => (x.2, x.1))))).flags
    (flAll (l.map (·.fl)))).bump 0x3010 (l.countP (·.fb)))

/-- A special-function instruction finishes; its waits for cache ports count in VEC_WAIT (R153). -/
def sfDone (h : Entry) (r : CRes) : CRes := (r.done h.seq).bumpFree 0x2014

/-- The image an instruction evaluates: the bank bound at issue (R166) or the compatibility image (R175). -/
def sfImg (k : Core) (h : Entry) (o2 : Bool) : Img := if o2 then o2Reader else (if h.bank = 0 then k.cur.bank0 else k.cur.bank1).reader

/-- The faults of R168 and R175 at execution. -/
def sfFault (e : CEnv) (k : Core) (h : Entry) (o2 : Bool) (dir : Nat) : Option Nat :=
  if o2 then
    (if !(k.st.o2en && e.o2) then some 0x1B else if (dirEnt o2Reader dir).func = 0 then some 0x18 else none)
  else
    let b := if h.bank = 0 then k.cur.bank0 else k.cur.bank1
    if !b.valid then some 0x18 else if (dirEnt b.reader dir).func = 0 then some 0x18 else none

/-- Run `f` where the entry may be evaluated, else fault (R168, R175). -/
def sfGuard (e : CEnv) (h : Entry) (o2 : Bool) (dir : Nat) (r : CRes) (f : CRes) : CRes :=
  match sfFault e r.k h o2 dir with
  | some c => r.die h.seq { code := c, unit := 4, tag := h.tag }
  | none => f

/-- SFEV (R312). -/
def sfevRun (f : Sfev) : ExecF := fun e h r =>
  let dir := f.dir.toNat
  let df := f.dfmt.toNat
  let g := sfImg r.k h f.o2
  let d := dirEnt g dir
  let n := if f.pk then 2 * e.L else e.L
  let out : List SfOut :=
    if f.pk && df == 0 then
      (List.range e.L).map (fun i => { bits := Config.freeNat (r.fc + i) % 2 ^ 32, fl := 0#6 })
    else
      let xs := sfArgs e h r.k.cur f.pk df f.va.toNat
      let ys := sfArgs e h r.k.cur f.pk df f.vb.toNat
      ((xs.zip ys).zipIdx).map (fun p =>
        sfEval g f.o2 d (sfFmt df) (.ofCode f.rm.toNat) true (r.fc + sfFree * p.2) p.1.1 (some p.1.2))
  sfGuard e h f.o2 dir r (sfDone h (sfWrite e h f.vd.toNat df out { r with fc := r.fc + sfFree * n }))

/-- One lane of GACT (R174). -/
def gactLane (g : Img) (d : DirEnt) (dst : FFmt) (rm : RM) (fr : Nat) (a u : SfArg) : SfOut :=
  let act := sfEval g false { d with narg := 1 } .fp32 rm false fr a none
  let av := (FFmt.fp32.read act.bits).1
  let p := FV.mul av u.v
  if a.v.isNan || u.v.isNan then { bits := dst.nanBits, fl := act.fl ||| u.fl ||| flNanin }
  else
    let w := dst.write rm p
    { bits := w.1, fl := act.fl ||| u.fl ||| w.2 ||| (if p.isNan then flNangen else 0#6) }

/-- GACT (R174, R312). A directory entry of two operands has no second one here: its X1 is a free value. -/
def gactRun (f : Gact) : ExecF := fun e h r =>
  let dir := f.dir.toNat
  let df := f.dfmt.toNat
  let g := sfImg r.k h false
  let d := dirEnt g dir
  let n := if f.pk then 2 * e.L else e.L
  let out : List SfOut :=
    if f.pk && df == 0 then
      (List.range e.L).map (fun i => { bits := Config.freeNat (r.fc + i) % 2 ^ 32, fl := 0#6 })
    else
      let xs := sfArgs e h r.k.cur f.pk df f.va.toNat
      let us := sfArgs e h r.k.cur f.pk df f.vb.toNat
      ((xs.zip us).zipIdx).map (fun p => gactLane g d (sfFmt df) (.ofCode f.rm.toNat) (r.fc + sfFree * p.2) p.1.1 p.1.2)
  sfGuard e h false dir r (sfDone h (sfWrite e h f.vd.toNat df out { r with fc := r.fc + sfFree * n }))

/-- Replace soft-maximum context `i`. -/
def CoreArch.setSmctx (a : CoreArch) (i : Nat) (c : SmCtx) : CoreArch := { a with smctx := updAt a.smctx i (fun _ => c) }

/-- SMAXI (R171): m = -Inf, s = +0. -/
def smaxiRun (ctx : Nat) : ExecF := fun _ h r =>
  sfDone h (r.cur (fun a => a.setSmctx ctx { m := 0xFF800000#32, s := 0#32 }))

/-- Round an exact FP32 difference or product (RNE, R66) of patterns, with its flags. -/
def rnd32 (op : FV → FV → FV) (a b : W32) : W32 × Fl := fp32Op2 .rne op a b

/-- One tile of the soft maximum (R171): the new context, c, the 32 values p_i, flags. DEDUCED: log 108. -/
def smaxTile (g : Img) (d : DirEnt) (fr : Nat) (c : SmCtx) (xs : List (Option W32)) : SmCtx × W32 × List W32 × Fl :=
  let mt := xs.foldl (fun (m : W32) x => match x with
    | some v => (fp32Op2 .rne FV.max m v).1
    | none => m) 0xFF800000#32
  let fl0 := flAll (xs.map (fun x => match x with | some v => (FFmt.fp32.read v.toNat).2 | none => 0#6))
  let mn := (fp32Op2 .rne FV.max c.m mt).1
  let expo (i : Nat) (v : W32) : W32 × Fl :=
    let o := sfEval g false d .fp32 .rne true (fr + sfFree * i) (argFp32 v.toNat) none
    (BitVec.ofNat 32 o.bits, o.fl)
  let r : W32 × List W32 × Fl :=
    if FV.eqv (FFmt.fp32.read mn.toNat).1 (.inf true) then (0x3F800000#32, xs.map (fun _ => 0#32), 0#6)
    else
      let dc := rnd32 (FV.sub .rne) c.m mn
      let cc := expo 0 dc.1
      let ps := (xs.zipIdx).map (fun x => match x.1 with
        | some v => let dx := rnd32 (FV.sub .rne) v mn; let p := expo (x.2 + 1) dx.1; (p.1, dx.2 ||| p.2)
        | none => (0#32, 0#6))
      (cc.1, ps.map (·.1), dc.2 ||| cc.2 ||| flAll (ps.map (·.2)))
  let s0 := rnd32 FV.mul c.s r.1
  let s := r.2.1.foldl (fun (a : W32 × Fl) p => let t := rnd32 (FV.add .rne) a.1 p; (t.1, a.2 ||| t.2)) s0
  ({ m := mn, s := s.1 }, r.1, r.2.1, fl0 ||| r.2.2 ||| s.2)

/-- c differs from 1.0. -/
def notOne (c : W32) : Bool := !(FV.eqv (FFmt.fp32.read c.toNat).1 FV.one)

/-- SMAXT (R171): one tile in V32, two in V64. -/
def smaxtRun (f : SmaxT) : ExecF := fun e h r =>
  let g := sfImg r.k h false
  let d := dirEnt g f.e.toNat
  let a := r.k.cur
  let xs := (List.range e.L).map (fun i =>
    if a.mbit f.vm.toNat i then some (a.lane e.L h.win f.va.toNat i) else none)
  let c0 := nthD a.smctx f.ctx.toNat {}
  let t0 := smaxTile g d r.fc c0 (xs.take 32)
  let t1 := smaxTile g d (r.fc + sfFree * 33) t0.1 (xs.drop 32)
  let ps := t0.2.2.1 ++ (if e.v64 then t1.2.2.1 else [])
  let out : List SfOut := ps.map (fun p =>
    let w := cvtFloat .fp32 (sfFmt f.dfmt.toNat) .rne p.toNat
    { bits := w.1, fl := w.2 })
  let any := notOne t0.2.1 || (e.v64 && notOne t1.2.1)
  let r1 := sfWrite e h f.vd.toNat f.dfmt.toNat out { r with fc := r.fc + sfFree * 66 }
  let r2 := (r1.cur (fun a => ((a.setSmctx f.ctx.toNat (if e.v64 then t1.1 else t0.1)).setSm f.smc.toNat t0.2.1).setSm
    f.smf.toNat (if any then 1#32 else 0#32))).flags (t0.2.2.2 ||| (if e.v64 then t1.2.2.2 else 0#6))
  let r3 := if e.v64 then r2.cur (fun a => a.setSm f.smc2.toNat t1.2.1) else r2
  sfGuard e h false f.e.toNat r (sfDone h r3)

/-- SMAXR (R172): m, s and RECIP(s) of directory entry 4. -/
def smaxrRun (ctx smm sms smr : Nat) : ExecF := fun e h r =>
  let g := sfImg r.k h false
  let c := nthD r.k.cur.smctx ctx {}
  let o := sfEval g false (dirEnt g 4) .fp32 .rne true r.fc (argFp32 c.s.toNat) none
  sfGuard e h false 4 r (sfDone h ((({ r with fc := r.fc + sfFree }).cur (fun a =>
    ((a.setSm smm c.m).setSm sms c.s).setSm smr (BitVec.ofNat 32 o.bits))).flags o.fl))

/-- RMSF (R173). -/
def rmsfRun (ctx entry sm : Nat) (eps : W32) : ExecF := fun e h r =>
  let g := sfImg r.k h false
  let c := nthD r.k.cur.rctx ctx {}
  let n := (h.sr.headD 0#64).toNat % 2 ^ 32
  let q := divCount c.a n
  let t := fp32Op2 .rne (FV.add .rne) q.1 eps
  let o := sfEval g false (dirEnt g entry) .fp32 .rne true r.fc (argFp32 t.1.toNat) none
  let v : W32 × Fl := if n = 0 then (0x7FC00000#32, flNangen) else (BitVec.ofNat 32 o.bits, q.2 ||| t.2 ||| o.fl)
  sfGuard e h false entry r (sfDone h ((({ r with fc := r.fc + sfFree }).cur (fun a => a.setSm sm v.1)).flags v.2))

/-- The bank of a core. -/
def CoreArch.bankOf (a : CoreArch) (b : Nat) : Bank := if b = 0 then a.bank0 else a.bank1
def CoreArch.setBank (a : CoreArch) (b : Nat) (v : Bank) : CoreArch :=
  if b = 0 then { a with bank0 := v } else { a with bank1 := v }

/-- A bank image with its validity and id (R157, Table 12). -/
def bankOfImage (img : Memory) : Bank :=
  let v := imageValid (fun a n => Memory.nat img a n)
  { img := img, valid := v, id := if v then Memory.w32 img 4 else 0#32 }

/-- An evaluation starts after every table-load issued before it has started (R153). -/
def sfReady : ReadyF := fun _ h k => !k.run.entries.any (fun x => decide (x.eng = .tload) && decide (x.seq < h.seq) && x.prog == 0)

/-- A table-load starts after every special-function instruction issued before it has started (R153). -/
def tloadReady : ReadyF := fun _ h k => !k.run.entries.any (fun x => decide (x.eng = .sfu) && decide (x.seq < h.seq))

/-- TLOAD reaches its load path (R167): the bank's image is being written and holds no valid image meanwhile. -/
def tloadRun : ExecF := fun _ h r =>
  (r.cur (fun a => a.setBank h.bank { a.bankOf h.bank with valid := false, id := 0#32 })).run
    (fun x => x.setEntry h.seq (fun y => { y with prog := 1 }))

/-- A started table-load finishes (R157, R167): the 201 granules are in the bank, and validation follows. -/
def tloadFinish (h : Entry) (g : Nat) (r : CRes) : CRes :=
  let img := lsPut [] 0 (lsBytesAt r.k.st.ls (32 * g) 6432)
  let b := bankOfImage img
  let r1 := (r.cur (fun a => a.setBank h.bank b)).done h.seq
  if b.valid then r1 else r1.report { code := 0x1A, unit := 4, tag := h.tag }

/-- TLOAD_COMPLETE: the started table-load at the head of the load path finishes. -/
def tloadDone (r : CRes) : CRes :=
  match headEntry .tload r.k.run.entries with
  | none => r
  | some h => match h.instr with
    | .tload _ g => if h.prog = 1 then tloadFinish h g.toNat r else r
    | _ => r

/-- TSWITCH at issue (R166). -/
def tswitchNow (q : Nat) (r : CRes) : CRes := r.late q .bank

/-- The bank active at issue. -/
def issueBank (k : Core) : Nat := if k.cur.bankAct then 1 else 0

/-- Plan of a special-function instruction (R312, R166, R167). -/
def planSfu (e : CEnv) (k : Core) : Instr → PlanR
  | .sfev _ f =>
    if f.dfmt = 3#2 then .fault 0x10
    else .go { eng := .sfu, bank := issueBank k, rd := vres e k f.va.toNat ++ vres e k f.vb.toNat ++
                 (if f.o2 then [] else [.bank (issueBank k)]), wr := vres e k f.vd.toNat }
  | .gact _ f =>
    if f.dfmt = 3#2 then .fault 0x10
    else .go { eng := .sfu, bank := issueBank k, rd := vres e k f.va.toNat ++ vres e k f.vb.toNat ++
                 [.bank (issueBank k)], wr := vres e k f.vd.toNat }
  | .smaxi _ _ => .go { eng := .sfu }
  | .smaxt _ f =>
    if f.dfmt = 3#2 ∨ (!e.v64 ∧ f.smc2 ≠ 0#3) then .fault 0x10
    else .go { eng := .sfu, bank := issueBank k, rd := vres e k f.va.toNat ++ maskRes f.vm.toNat ++ [.bank (issueBank k)],
               wr := vres e k f.vd.toNat ++ [.sm f.smc.toNat, .sm f.smf.toNat] ++ (if e.v64 then [.sm f.smc2.toNat] else []) }
  | .smaxr _ _ a b d =>
    .go { eng := .sfu, bank := issueBank k, rd := [.bank (issueBank k)], wr := [.sm a.toNat, .sm b.toNat, .sm d.toNat] }
  | .rmsf _ ctx _ rn sm _ =>
    if issueKind k ctx.toNat ≠ 1 then .fault 0x14
    else .go { eng := .sfu, bank := issueBank k, rd := [.rctx ctx.toNat, .bank (issueBank k)], wr := [.sm sm.toNat],
               sr := [k.cur.sreg rn.toNat] }
  | .tload _ g =>
    let b := if k.cur.bankAct then 0 else 1
    planChecked k { eng := .tload, bank := b, accs := accRun false (32 * g.toNat) 6432, wr := [.bank b] }
  | _ => .fault 0x10

end Sys2Proof.Machine
end

