-- ==== Sys2Proof/Machine/Issue.lean ====
section
/-! DEFINITION. Machine/Issue.lean: the sequencer (R284 to R290, R298 to R304): long words issue whole, their slots enter
their engines' queues together, commit points take effect, recovery restores. -/

namespace Sys2Proof.Machine

/-- Plan of an instruction that enters an engine's queue; none for the others. -/
def planEng (e : CEnv) (k : Core) (ls : Memory) (i : Instr) : Option PlanR :=
  match i with
  | .mac _ a f => some (planMMul e k ls a .mac f)
  | .sqd _ a f => some (planMMul e k ls a .sqd f)
  | .abd _ a f => some (planMMul e k ls a .abd f)
  | .minp _ a f => some (planMMul e k ls a .minp f)
  | .maxp _ a f => some (planMMul e k ls a .maxp f)
  | .wout _ a f => some (planWOut e k ls a false f)
  | .woutg _ a f => some (planWOut e k ls a true f)
  | .sfev _ _ => some (planSfu e k i)
  | .gact _ _ => some (planSfu e k i)
  | .smaxi _ _ => some (planSfu e k i)
  | .smaxt _ _ => some (planSfu e k i)
  | .smaxr _ _ _ _ _ => some (planSfu e k i)
  | .rmsf _ _ _ _ _ _ => some (planSfu e k i)
  | .tload _ _ => some (planSfu e k i)
  | .cstep _ _ => some (planCarry e k ls i)
  | .cadj _ _ => some (planCarry e k ls i)
  | .ckgen _ _ _ => some (planCarry e k ls i)
  | .cset _ _ => some (planCarry e k ls i)
  | .cget _ _ => some (planCarry e k ls i)
  | .ccmp _ _ => some (planCarry e k ls i)
  | .creset _ _ => some (planCarry e k ls i)
  | .tswitch _ => none
  | .cwait _ => none
  | _ => match planVec e k ls i with
    | .fault 0x10 => none
    | p => some p

/-- Enter a planned instruction in its engine's queue. -/
def enterPlan (e : CEnv) (q : Nat) (tag : W16) (i : Instr) (p : Plan) (r : CRes) : SlotR :=
  let o := r.k.run.ordinal
  if maxMsgs < o + p.msgs then .fault 0x49
  else
    let h := { p.entry q tag i (winAfter e.L i p.sr (issueWin r.k)) with ord := o }
    .ok (r.run (fun x => { x with entries := x.entries ++ [h], ordinal := o + p.msgs }))

/-- One slot other than the scalar slot at issue. `ls` is the local store as a DSET of the same long word leaves it. -/
def issueSlot (e : CEnv) (ls : Memory) (q : Nat) (tag : W16) (i : Instr) (r : CRes) : SlotR :=
  match issueDmv e q tag i r with
  | some x => x
  | none =>
    match i with
    | .tswitch _ => .ok (tswitchNow q r)
    | .cwait _ => .ok (r.run (fun x => { x with cwait := some q }))
    | _ =>
      match planEng e r.k.seen ls i with
      | none => .fault 0x10
      | some (.fault c) => .fault c
      | some .hold => .hold
      | some (.go p) => enterPlan e q tag i p r

/-- The other slots, in slot order: sequence numbers rise from `q`. -/
def issueSlots (e : CEnv) (ls : Memory) (tag : W16) : Nat → List Instr → CRes → SlotR
  | _, [], r => .ok r
  | q, i :: is, r =>
    match issueSlot e ls q tag i r with
    | .ok r1 => issueSlots e ls tag (q + 1) is r1
    | x => x

/-- A fence is satisfied (R256). -/
def fenceDone (r : CoreRun) : Bool :=
  match r.fence with
  | none => true
  | some (fq, eq, q) => !(fq && r.fq.any (fun x => decide (x.seq < q))) && !(eq && r.eq.any (fun x => decide (x.seq < q)))

/-- A CWAIT is satisfied (R313). -/
def cwaitDone (r : CoreRun) : Bool :=
  match r.cwait with
  | none => true
  | some q => !r.entries.any (fun h => h.eng = .carry && decide (h.seq < q))

/-- Issue is held, whatever comes next (Table 3 of Programming model, R127, R302, R404, R406); nothing of a stream issues after its STOP
long word (R282). An outstanding commit mark holds no issue (R290). -/
def issueHeld (k : Core) : Bool :=
  let r := k.run
  r.halt.isSome || r.held || r.marks.any (·.stop) || r.wait.isSome || !fenceDone r || !cwaitDone r
    || r.recov == 1 || r.recov == 2 || k.st.nantrap.getLsbD 1

/-- Streams of a long word that are not resident (R221). -/
def notResident (e : CEnv) (is : List Instr) : List Nat := (is.flatMap streamIds).filter (fun i => (stateBase e i).isNone)

/-- Remove the first occurrence of each id. -/
def takeIds (l ids : List Nat) : List Nat := ids.foldl (fun l i => l.erase i) l

/-- Every id has an admitted increment (R215). -/
def admitted : List Nat → List Nat → Bool
  | _, [] => true
  | l, i :: is => l.contains i && admitted (l.erase i) is

/-- Fault at issue (R302): nothing of the long word takes effect. -/
def issueFault (code : Nat) (tag : W16) (r : CRes) : CRes := r.halt { code := code, unit := 0, tag := tag }

/-- Stream ids of the long words in fetched bytes, in order (R215). -/
def queuedIds (v64 : Bool) (iq : List Byte) : Nat → List Nat
  | 0 => []
  | n + 1 => match decodeLongWord v64 0 iq with
    | .word lw => lw.slots.flatMap streamIds ++ queuedIds v64 (iq.drop lw.size) n
    | _ => []

/-- The fetch engine places the fetched long words in the issue queue, in order; one that names streams waits until their increments have
been granted (R215). Bytes that are no whole long word are placed where they fault at issue. -/
def placeWords (v64 : Bool) (len : Nat) (r : CoreRun) : Nat → CoreRun
  | 0 => r
  | n + 1 =>
    if r.pre.isEmpty then r
    else match decodeLongWord v64 0 r.pre with
      | .word lw =>
        let ids := lw.slots.flatMap streamIds
        if admitted r.qadm ids then
          placeWords v64 len { r with
            iq := r.iq ++ r.pre.take lw.size, pre := r.pre.drop lw.size, qadm := takeIds r.qadm ids } n
        else r
      | .fault _ _ => { r with iq := r.iq ++ r.pre, pre := [] }
      | .more => if len ≤ r.iqOff + r.iq.length + r.pre.length then { r with iq := r.iq ++ r.pre, pre := [] } else r

/-- Everything placed and fetched is discarded (R285): the streams that placed long words name are not queued there any more. -/
def discardQueue (v64 : Bool) (r : CoreRun) : CoreRun :=
  { r with qdec := r.qdec ++ queuedIds v64 r.iq 512 ++ r.qadm, qadm := [], iq := [], pre := [], fetch := none }

/-- Clear the holds that issue has passed, and note the long word. -/
def passIssue (lw : LongWord) (seq : Nat) (r : CRes) : CRes :=
  r.run (fun x => { x with
    fence := if lw.slots.any (fun i => match i with | .fence _ _ _ => true | _ => false) then x.fence else none,
    cwait := if lw.slots.any (fun i => match i with | .cwait _ => true | _ => false) then x.cwait else none,
    lastTag := lw.tag, seq := seq, resSince := none, ranSince := true,
    qadm := if lw.size = 0 then takeIds x.qadm (lw.slots.flatMap streamIds) else x.qadm })

/-- A taken branch discards what was fetched beyond it (R285). -/
def CRes.branchTo (r : CRes) (v64 : Bool) (b : Option Nat) : CRes :=
  match b with
  | some t => r.run (fun x => { discardQueue v64 x with iqOff := t, branch := some t })
  | none => r

/-- A long word with COMMIT or STOP leaves its mark, and the messages of the next region count from 0 (R289, R290). -/
def CRes.marked (r : CRes) (b : Bool) (m : Mark) : CRes :=
  if b then r.run (fun x => { x with marks := x.marks ++ [m], ordinal := 0, xord := 0 }) else r

/-- Issue one long word (R284, R300 to R304): all of it, or nothing. `next` is the offset of the long word after it. DEDUCED: log 104. -/
def issueWord (e : CEnv) (lw : LongWord) (r : CRes) : CRes :=
  if issueHeld r.k then r
  else
    let q := r.k.run.seq + 1
    let k := r.k.seen
    let sc := lw.slots.findSome? (scalPlan e k)
    let rest := lw.slots.filter (fun i => (scalPlan e k i).isNone)
    match sc with
    | some (.fault c) => issueFault c lw.tag r
    | some .hold => r
    | _ =>
      let eff : ScalEff := match sc with
        | some (.go f) => f
        | _ => {}
      let ls := match eff.word with
        | some (a, v) => Memory.setW32 k.st.ls a v
        | none => k.st.ls
      match issueSlots e ls lw.tag (q + 1) rest r with
      | .fault c => issueFault c lw.tag r
      | .hold => r
      | .ok r1 =>
        let ids := lw.slots.flatMap streamIds
        if !(notResident e lw.slots).isEmpty then
          r.run (fun x => { x with resSince := some (x.resSince.getD e.time) })
        else if lw.size = 0 && !admitted r.k.run.qadm ids then r
        else if 64 < r1.k.run.lsUsed then r
        else
          let seq := q + rest.length
          let next := r.k.run.iqOff + lw.size
          let r2 := (passIssue lw seq r1).run (fun x => { x with
            iq := x.iq.drop lw.size, iqOff := next })
          ((eff.apply q r2).branchTo e.v64 eff.br).marked (lw.commit || lw.stop) { seq := seq, stop := lw.stop, next := eff.br.getD next }

/-- LONG_WORD_ISSUE (R284, R282): the long word at the head of the issue queue; a stream whose bytes end first faults. -/
def longWord (e : CEnv) (c : CoreNo) (r : CRes) : CRes :=
  if issueHeld r.k then r
  else match r.k.run.run with
    | none => r
    | some s =>
      match decodeLongWord e.v64 c r.k.run.iq with
      | .more => if s.len ≤ r.k.run.iqOff + r.k.run.iq.length ∧ r.k.run.pre = [] then issueFault 0x4D r.k.run.lastTag r else r
      | .fault code tag => issueFault code tag r
      | .word lw => issueWord e lw r

/-- A one-slot long word with TAG 0 (what a command naming one instruction issues). -/
def oneSlot (i : Instr) : LongWord := { tag := 0#16, commit := false, stop := false, slots := [i], size := 0 }

/-- A command that names an instruction of the scalar or data-movement slot: it issues as a long word of its own (DESIGN CHOICE, log 28). -/
def issueOne (e : CEnv) (i : Instr) (r : CRes) : CRes := issueWord e (oneSlot i) r

/-- A command that names an instruction of an engine (DESIGN CHOICE, log 28): where the instruction heads the engine's queue it runs if it may;
otherwise it issues as a long word of its own, and then runs if it heads the queue and may. -/
def slotStep (e : CEnv) (g : Eng) (i : Instr) (ready : ReadyF) (run : ExecF) (r : CRes) : CRes :=
  match headEntry g r.k.run.entries with
  | some h => if h.instr = i then tryRun e h ready run r else issueOne e i r
  | none =>
    let r1 := issueOne e i r
    match headEntry g r1.k.run.entries with
    | some h => if h.instr = i then tryRun e h ready run r1 else r1
    | none => r1

/-- Nothing issued up to sequence number `q` is unfinished. -/
def allDone (r : CoreRun) (q : Nat) : Bool :=
  !r.entries.any (fun h => decide (h.seq ≤ q)) && !(r.fq ++ r.eq).any (fun x => decide (x.seq ≤ q))
    && !r.late.any (fun x => decide (x.1 ≤ q))

/-- Credits of the items popped since the last commit point (R288). -/
def creditOuts (k : Core) : List Out :=
  k.cur.qpop.filterMap (fun c =>
    let n := c.2 - Sp.get 0 k.rp.qpop c.1
    if n = 0 then none else some (.credits c.1 n))

/-- The actions of Table 5 at a commit point, for one core (R290): the effects that waited for it alone then take place. -/
def commitCore (m : Mark) (r : CRes) : CRes :=
  let a := { r.k.cur with region := (r.k.cur.region + 1) % 2 ^ 48 }
  let outs := creditOuts r.k
  let k : Core := { r.k with
      cur := a, rp := a,
      run := { r.k.run with
        marks := r.k.run.marks.tail, wrote := [], rpOff := m.next, failed := [],
        recov := if r.k.run.recov = 3 then 0 else r.k.run.recov,
        run := if m.stop then none else r.k.run.run, iq := if m.stop then [] else r.k.run.iq, pre := if m.stop then [] else r.k.run.pre,
        fetch := if m.stop then none else r.k.run.fetch, branch := if m.stop then none else r.k.run.branch,
        own := !m.stop && r.k.run.own },
      st := { r.k.st with arrSince := [], semSince := [] } }
  wakeWait { r with outs := r.outs ++ outs, k := k.settle }

/-- COMMIT_POINT (R290, R106): an open batch is dispatched first; the oldest mark's point takes effect once every instruction up to it
has completed. The flag says that it took effect. -/
def commitPoint (e : CEnv) (r : CRes) : CRes × Bool :=
  match r.k.run.marks with
  | [] => (r, false)
  | m :: _ =>
    let r1 := dispatchBatch e true (dispatchBatch e false { r with k := r.k.settle })
    if allDone r1.k.run m.seq then (commitCore m r1, true) else (r1, false)

/-- The architectural state recovery restores (R181, R248, R273, R303, R406): the last commit point's, with the arrivals and posts
accepted since; true where a semaphore passed 65,535. -/
def restored (k : Core) : CoreArch × Bool :=
  let a := k.rp
  let arr := k.st.arrSince.foldl (fun m c => Sp.set 0#32 m c.1 (Sp.get 0#32 m c.1 + c.2)) a.arr
  let sem := k.st.semSince.foldl (fun m c => Sp.set 0 m c.1 (Nat.min (Sp.get 0 m c.1 + c.2) 65535)) a.sem
  let past := k.st.semSince.any (fun c => decide (65535 < Sp.get 0 a.sem c.1 + c.2))
  ({ a with arr := arr, sem := sem }, past)

/-- Abandon the open region: every issued, unfinished instruction and transfer (R406), and fetch again from the last commit
point. The QCOUNT increments of long words not completed stay admitted for the same long words fetched again (DEDUCED, log 36). -/
def abandonRegion (v64 : Bool) (r : CoreRun) : CoreRun :=
  { r with
    entries := [], fq := [], eq := [], fHalt := false, eHalt := false, marks := [], late := [], wait := none, fence := none, cwait := none,
    batchA := none, batchB := none, ordinal := 0, xord := 0, resSince := none, iq := [], pre := [], iqOff := r.rpOff, fetch := none,
    qadm := r.qadm ++ queuedIds v64 r.iq 512 ++ r.entries.flatMap (fun h => streamIds h.instr) }

end Sys2Proof.Machine
end

