-- ==== Sys2Proof/Machine/Guard.lean ====
section
/-! DEFINITION. Machine/Guard.lean: guard bits and the slots of the memory ports (R9, R398 to R400). -/

namespace Sys2Proof.Machine

/-- The remainder of R398, from bit n - 1 down to bit 0. -/
def guardLoop (v : Nat) : Nat → Nat → Nat
  | 0, r => r
  | n + 1, r =>
    let fb := r.testBit 15 != v.testBit n
    guardLoop v n ((2 * r) % 65536 ^^^ (if fb then 0x8005 else 0))

/-- The guard value of the low `n` bits of `v` (R398). -/
def guard16 (n v : Nat) : Nat := guardLoop v n 0 ^^^ 0xFFFF

/-- The 16 guard bits of a granule. Every granule stored or moved carries them as they were generated from its data, so they are a function of
the data until something corrupts the granule, which the model shows as the command GUARD_FAILURE (R399; DEDUCED, log 115). -/
def guardBits (g : Granule) : BitVec 16 := BitVec.ofNat 16 (guard16 256 g.toNat)

/-- A granule of a store with its guard bits (R9). -/
def Memory.guarded (m : Memory) (a : Nat) : BitVec 272 := guardBits (m.granule a) ++ m.granule a

/-- A slot of a memory port (R9, R400): data in bits [255:0], guard bits in [271:256], reserved bits above, written as zero. -/
abbrev MemSlot := BitVec 288
def toSlot (g : Granule) : MemSlot := 0#16 ++ guardBits g ++ g

/-- The data of a slot, and the check of its guard bits; the reserved bits are ignored (R400). -/
def MemSlot.granule (x : MemSlot) : Granule := x.extractLsb' 0 256
def MemSlot.good (x : MemSlot) : Bool := x.extractLsb' 256 16 == guardBits (MemSlot.granule x)

end Sys2Proof.Machine
end

