-- ==== Sys2Proof/Machine/Mesh.lean ====
section
/-! DEFINITION. Machine/Mesh.lean: the 72 mesh positions, their routers and the dimension-order route of a packet (R17 to R19). -/

namespace Sys2Proof.Machine

/-- A mesh position, by column and row. -/
structure Pos where
  col : Nat
  row : Nat
  deriving DecidableEq, Repr

/-- What a mesh position holds. -/
inductive MeshNode where
  | slab (n : Nat)
  | hub (h : Nat)
  deriving DecidableEq, Repr

/-- Half `half` of a router's port, or of a hub's control, out of service (R413). -/
inductive HalfOut where
  | mesh (at_ : Pos) (port : RPort) (half : Bool)
  | hub (h : Nat) (half : Bool)
  deriving DecidableEq, Repr

/-- A position as messages name it: slab `n`, or 68 more than a hub's number. -/
def MeshNode.ofNat (n : Nat) : MeshNode := if n < 68 then .slab n else .hub (n - 68)

/-- Column and row of slab `s` (Table 1 of Block organisation). -/
def slabPlace (s : Nat) : Nat × Nat :=
  if s ≤ 8 then (0, s) else if s ≤ 15 then (s - 8, 8) else if s ≤ 23 then (7, 23 - s) else if s ≤ 27 then (6, s - 24)
  else if s ≤ 29 then (6, s - 23) else if s ≤ 37 then (5, 37 - s) else if s ≤ 45 then (4, s - 38) else if s ≤ 53 then (3, 53 - s)
  else if s ≤ 61 then (2, s - 54) else if s ≤ 64 then (1, 69 - s) else if s ≤ 66 then (1, 68 - s) else (1, 0)

/-- Column and row of hub `h` (Table 1, R18): host hub, link hub, memory hub A, memory hub B. -/
def hubPlace (h : Nat) : Nat × Nat :=
  if h = 0 then (1, 1) else if h = 1 then (6, 7) else if h = 2 then (1, 4) else (6, 4)

/-- Column and row of thermal diode `k`, TD0 to TD7 (R503). -/
def diodePlace (k : Nat) : Pos :=
  match k with
  | 0 => { col := 1, row := 1 }
  | 1 => { col := 1, row := 4 }
  | 2 => { col := 6, row := 4 }
  | 3 => { col := 6, row := 7 }
  | 4 => { col := 3, row := 2 }
  | 5 => { col := 4, row := 2 }
  | 6 => { col := 3, row := 6 }
  | _ => { col := 4, row := 6 }

/-- The position of a slab or hub (R17). -/
def MeshNode.place (n : MeshNode) : Pos :=
  let p := match n with
    | .slab s => slabPlace s
    | .hub h => hubPlace h
  { col := p.1, row := p.2 }

/-- The 72 things that mesh positions hold. -/
def meshNodes : List MeshNode := (List.range 68).map MeshNode.slab ++ (List.range 4).map MeshNode.hub

/-- What the position at `p` holds. -/
def nodeAt (p : Pos) : Option MeshNode := meshNodes.find? (fun n => n.place = p)

/-- The port by which the router at `a` sends a packet for `b`: along its row to the destination column, then along that column, then its
local port (R19). A hub's router does the same. -/
def routePort (a b : Pos) : RPort :=
  if a.col < b.col then .east else if b.col < a.col then .west else if a.row < b.row then .south else if b.row < a.row then .north
  else .local_

/-- The neighbour that a router's link leads to; the local port leads to the position itself. -/
def Pos.next (a : Pos) (d : RPort) : Pos :=
  match d with
  | .west => { a with col := a.col - 1 }
  | .east => { a with col := a.col + 1 }
  | .north => { a with row := a.row - 1 }
  | .south => { a with row := a.row + 1 }
  | .local_ => a

/-- The routers a packet passes from `a` to `b`, each with the port it leaves by; at most `n` links. -/
def routeN (a b : Pos) : Nat → List (Pos × RPort)
  | 0 => []
  | n + 1 => let d := routePort a b
    if d = .local_ then [(a, d)] else (a, d) :: routeN (a.next d) b n

/-- The route of a packet (R19): the longest has 15 hops. -/
def meshRoute (a b : MeshNode) : List (Pos × RPort) := routeN a.place b.place 16

end Sys2Proof.Machine
end

