-- ==== Sys2Proof/Machine/BlockTypes.lean ====
section
/-! DEFINITION. Machine/BlockTypes.lean: the data of the block outside its cores: faults, the slab map, castings, streams,
submissions, messages and memory requests. -/

namespace Sys2Proof.Machine

/-- A fault record before it has its SEQ (Table 1 of Faults and recovery). -/
structure FRec where
  code : Nat
  act : Nat := 0
  esc : Bool := false
  tag : W16 := 0
  pslab : Nat := 0x7F
  lslab : Nat := 0x7F
  core : Nat := 0
  unit : Nat := 15
  hub : Nat := 0
  link : Nat := 0
  time : Nat := 0
  /-- none: the spec states nothing of the field, and a free value is placed (DESIGN CHOICE, log 37) -/
  info0 : Option Nat := none
  info1 : Option Nat := none
  region : Nat := 0
  deriving DecidableEq, Repr

/-- The fault queue (R403): its 512 entries as words (key 8 * i + word), records offered and not yet placed, in the order
offered. -/
structure FaultQ where
  words : Sp W32 := []
  head : Nat := 0
  count : Nat := 0
  seq : Nat := 0
  ovf : Bool := false
  lost : Nat := 0
  offered : List FRec := []
  deriving DecidableEq, Repr

/-- STATE of SLB_ROLE (Table 5 of Block organisation). -/
inductive RoleSt where
  | active | spare | migrating | tempering | retiredTest | retiredService
  deriving DecidableEq, Repr

def RoleSt.code : RoleSt → Nat
  | .active => 0
  | .spare => 1
  | .migrating => 2
  | .tempering => 3
  | .retiredTest => 4
  | .retiredService => 5

/-- A slab's role (R28): its logical number, state and partition; a blank OTP retires every slab at test. -/
structure Role where
  logical : Option Nat := none
  st : RoleSt := .retiredTest
  part : Option Nat := none
  deriving DecidableEq, Repr

/-- A partition of the casting (R33, Table 4 of Castings and platings). -/
structure PartEnt where
  first : Nat
  size : Nat
  qwait : Nat
  deriving DecidableEq, Repr

/-- A MODE entry (Table 6 of Castings and platings). -/
structure ModeEnt where
  part : Nat
  o2en : Bool
  img : Nat
  crv : Nat
  filldl : Nat
  deriving DecidableEq, Repr

/-- An ASSIGN entry. -/
structure AssignEnt where
  part : Nat
  core : Nat
  img : Nat
  crv : Nat
  deriving DecidableEq, Repr

/-- An OWNERSHIP or CLAIMS entry (Table 8). -/
structure OwnEnt where
  cls : Nat
  owner : Nat
  first : Nat
  count : Nat
  deriving DecidableEq, Repr

/-- A parsed image of either kind (R322); the sections an image does not hold are empty. -/
structure Image where
  kind : Nat := 0
  id : Nat := 0
  base : Nat := 0
  scope : Nat := 0
  parts : List PartEnt := []
  qwires : List QWire := []
  owners : List OwnEnt := []
  claims : List OwnEnt := []
  /-- TIMERS: partition and comparator -/
  timers : List (Nat × Nat) := []
  geos : List Geo := []
  wide : List (Nat × List Nat) := []
  images : List Memory := []
  curves : List Memory := []
  modes : List ModeEnt := []
  assigns : List AssignEnt := []
  ceil : Nat := 0
  vmax : Nat := 0
  deriving DecidableEq, Repr

/-- What a load or switch in progress waits to do. -/
inductive CastOp where
  | casting
  | plating (slot : Nat)
  deriving DecidableEq, Repr

/-- Castings and platings (R330 to R337). -/
structure CastSt where
  loaded : Bool := false
  img : Image := {}
  /-- the eight slots -/
  slots : Sp (Option Image) := []
  /-- active slot + 1 of each partition (GLB_PLACT) -/
  act : Sp Nat := []
  busy : Option CastOp := none
  result : Nat := 0
  sect : Nat := 0xFF
  clamp : Bool := false
  /-- a switch in progress: the slot, none for OFF, and the mask of partitions -/
  sw : Option (Option Nat × Nat) := none
  swResult : Nat := 0
  /-- partitions stopped (R32, R336, R407, R414) -/
  stopped : List Nat := []
  deriving DecidableEq, Repr

/-- RES of a stream-table entry (Table 2 of Streams and stretches). -/
inductive ResSt where
  | out | swappingIn | resident | swappingOut
  deriving DecidableEq, Repr

def ResSt.code : ResSt → Nat
  | .out => 0
  | .swappingIn => 1
  | .resident => 2
  | .swappingOut => 3

/-- A stream-table entry (Table 2 of Streams and stretches). -/
structure StrEnt where
  id : Nat := 0
  res : ResSt := .out
  reset : Bool := false
  valid : Bool := false
  slot : Option Nat := none
  qcount : Nat := 0
  part : Nat := 0
  pos : Nat := 0
  gen : Nat := 0
  back : Nat := 0
  deriving DecidableEq, Repr

/-- A swap in progress (R217, R218) and its step. -/
structure Swap where
  ent : Nat
  /-- swap-in, else swap-out -/
  inn : Bool
  /-- 0 the new RES awaits acknowledgement; 1 memory traffic; 2 the RES that ends the swap awaits acknowledgement -/
  phase : Nat
  deriving DecidableEq, Repr

/-- A command for a stream-table entry that waits for an acknowledgement (R217, R218): a swap-out of entry `n`, or a swap-in of id `n`. -/
structure StrWait where
  inn : Bool
  n : Nat
  deriving DecidableEq, Repr

/-- The stream controller (R212 to R229): entries by index, the miss list oldest first, streams not to be swapped in again until
named anew (R218). -/
structure StrCtl where
  ents : Sp StrEnt := []
  miss : List Nat := []
  /-- streams on the miss list whose last swap-in ended in a fault -/
  parked : List Nat := []
  swaps : List Swap := []
  /-- the residency scoreboards (R221): RES as logical slab `l` holds it for entry `i`, key 64 * i + l -/
  score : Sp ResSt := []
  /-- commands that wait, oldest first -/
  waits : List StrWait := []
  /-- the last accepted command's swap, not yet ended: swap-in or swap-out, and id -/
  cmd : Option (Bool × Nat) := none
  result : Nat := 0
  done : Bool := false
  lastId : Nat := 0
  deriving DecidableEq, Repr

/-- The rings of a partition (Tables 7 and 8 of Programming model). -/
structure Ring where
  sqBase : Nat := 0
  sqSize : Nat := 4
  sqErr : Bool := false
  sqTail : Nat := 0
  sqHead : Nat := 0
  cqBase : Nat := 0
  cqSize : Nat := 4
  cqErr : Bool := false
  cqHead : Nat := 0
  cqTail : Nat := 0
  /-- PHASE of the next completion entry (Table 2): 1 on the first pass -/
  phase : Bool := true
  /-- completion entries waiting for room (R283): four words, and the vector to raise -/
  waiting : List (List Nat × Option Nat) := []
  deriving DecidableEq, Repr

/-- An accepted submission whose stream is not complete (R280, R283). Cores by partition-order index. -/
structure Sub where
  num : Nat
  part : Nat
  cores : List Nat
  vec : Nat
  irq : Bool
  usertag : Nat
  passed : List Nat := []
  halted : List Nat := []
  /-- code and tag of the first halted core -/
  first : Option (Nat × Nat) := none
  /-- its partition was stopped (R32) -/
  stopped : Bool := false
  /-- granules of the stream the host hub has read, by byte offset (R281) -/
  buf : Sp Granule := []
  deriving DecidableEq, Repr

/-- What a granule of a CORE message does on arrival (R244, R259, R269). -/
inductive MsgKind where
  /-- write `data` at the target's granule, counting on `ctr` -/
  | put (data : Granule) (ctr : Option Nat)
  /-- read by request: the target's granule goes to the issuing core's granule `lgran` -/
  | get (lgran : Nat)
  deriving DecidableEq, Repr

/-- A granule in flight on the mesh between cores of a partition. Sources are logical core numbers (slab x 32 + core), as in a
message id (R377). -/
structure Msg where
  src : Nat
  /-- sequence number of the transfer at its core -/
  seq : Nat
  region : Nat
  ordinal : Nat
  /-- offset of the granule within its message -/
  off : Nat
  /-- partition and partition-order index of the target core -/
  part : Nat
  dst : Nat
  /-- mesh positions it was sent from and to, as `MeshNode.ofNat` numbers them (R19, R20) -/
  sp : Nat
  dp : Nat
  gran : Nat
  kind : MsgKind
  deriving DecidableEq, Repr

/-- A semaphore post in flight (R272). -/
structure PostMsg where
  src : Nat
  /-- sequence number of the SEMPOST's transfer, none for the post of a completion -/
  seq : Option Nat := none
  tag : W16
  region : Nat
  ordinal : Nat
  part : Nat
  dst : Nat
  sp : Nat
  dp : Nat
  sem : Nat
  cnt : Nat
  deriving DecidableEq, Repr

/-- A queue-end item in flight (R288): pushed by `src`, for inbound end `dend` of core `dst` of partition `part`. -/
structure ItemMsg where
  src : Nat
  /-- sequence number of the transfer that pushes, none for another engine -/
  seq : Option Nat
  region : Nat
  ordinal : Nat
  part : Nat
  dst : Nat
  sp : Nat
  dp : Nat
  dend : Nat
  idx : Nat
  ring : Nat
  nitems : Nat
  bytes : List Byte
  deriving DecidableEq, Repr

/-- Credits on their way back to a producer whose slab is not active (R31, R288): partition, producer core and its outbound end. -/
structure CreditMsg where
  part : Nat
  dst : Nat
  qend : Nat
  n : Nat
  deriving DecidableEq, Repr

/-- A translation cached by a slab (R262). -/
structure Tlb where
  slab : Nat
  part : Nat
  page : Nat
  pte : Nat
  deriving DecidableEq, Repr

/-- What a memory request serves: a transfer of a core by queue and sequence number; an add released from the log of a core; a
packet of a remote region (R380, R384). -/
inductive MemOwner where
  | xfer (core : Nat) (exec : Bool) (seq : Nat)
  | logAdd (core : Nat)
  | region (part peer psn : Nat)
  /-- granule `k` of the aperture access in progress (R497) -/
  | host (k : Nat)
  deriving DecidableEq, Repr

/-- The aperture access in progress (R497): granules not yet ended, the data read, and an error met. -/
structure Taper where
  left : Nat
  got : Nat := 0
  err : Bool := false
  deriving DecidableEq, Repr

/-- What a memory request does to its granule: an add is the hub's read followed by its write (R494). -/
inductive MemOp where
  | read | write | add
  deriving DecidableEq, Repr

/-- A memory-port request of one granule (R493; DESIGN CHOICE, log 29): waiting for an id, or outstanding. A read's data is that of its
acceptance (R494). -/
structure MemReq where
  tierB : Bool
  addr : Nat
  op : MemOp
  /-- the slot that carries its granule on the port (R400) -/
  slot : MemSlot
  /-- local granule a read's data goes to -/
  lgran : Nat := 0
  owner : MemOwner
  /-- partition and page of the translation used, and the request's number, for R262 -/
  part : Nat := 0
  page : Nat := 0
  serial : Nat := 0
  /-- number of the first request made after its access began under that translation -/
  since : Nat := 0
  /-- none until REQ has accepted it -/
  id : Option Nat := none
  time : Nat := 0
  expired : Bool := false
  deriving DecidableEq, Repr

/-- Where a deferred-release entry goes (R291). -/
inductive LogDest where
  /-- an external add to a granule of a tier -/
  | mem (tierB : Bool) (addr : Nat) (part page : Nat)
  /-- granule `off` of the message of an adding REMOTE transfer: its target record, message id, OP and TOTAL -/
  | remote (target : List Nat) (msgid op total off : Nat)
  deriving DecidableEq, Repr

/-- A deferred-release entry of one granule (R268, R291). -/
structure LogEnt where
  core : Nat
  /-- released at its core's commit point, sent, and acknowledged by its target -/
  released : Bool := false
  sent : Bool := false
  acked : Bool := false
  /-- number of the memory request that carries it; before it is sent, of the first request made after it was entered -/
  req : Nat := 0
  /-- copies that fail their check on release (R407) -/
  bad : Nat := 0
  dest : LogDest
  data : Granule
  /-- tag of the long word that made it -/
  tag : W16 := 0
  /-- sequence number of the transfer that entered it: entries leave in the order the core issued them (R291) -/
  seq : Nat := 0
  deriving DecidableEq, Repr

/-- A host-port master read of a stream granule (R281, R499). -/
structure HostReq where
  tag : Nat
  addr : Nat
  /-- submission and byte offset, and the core that has a fetch of its own, none for the multicast read (R281) -/
  sub : Nat
  off : Nat
  own : Option Nat
  deriving DecidableEq, Repr

/-- A beat that a port's bridge or a slab's fabric holds (R31, R59): a memory port's answer, the host bridge's answer to a master read, a
received frame, a target request. -/
inductive Beat where
  | mem (tierB : Bool) (port : BitVec 4) (id : BitVec 8) (err : Bool)
  | host (tag : BitVec 8) (err : Bool) (data : BitVec 512)
  | frame (l : LinkNo) (bytes : List Byte) (bad : Bool)
  | target (f : TReq)
  deriving DecidableEq, Repr

/-- The port a beat came through. -/
def Beat.port : Beat → PortId
  | .mem b n _ _ => if b then .memB n else .memA n
  | .host _ _ _ => .host
  | .frame l _ _ => .frame l
  | .target _ => .host

/-- A substitution or migration in progress (R416, R417). -/
structure SubstOp where
  /-- planned migration (OP 2), else substitution on failure (OP 1) -/
  migrate : Bool
  /-- PATH: the state travels over the spine, else over the fabric -/
  path : Bool := false
  logical : Nat
  old : Nat
  spare : Nat
  /-- the map has changed and the new slab reads migrating -/
  moved : Bool := false
  /-- the spare faulted: the slab stays held until firmware names another (R417) -/
  failed : Bool := false
  deriving DecidableEq, Repr

/-- A page-table invalidation not yet DONE (R262): partition, page (none for all), and the number of the first request made after
it. -/
structure PtInv where
  part : Nat
  page : Option Nat
  upto : Nat
  deriving DecidableEq, Repr

end Sys2Proof.Machine
end

