-- ==== Sys2Proof/Machine/SysTypes.lean ====
section
/-! DEFINITION. Machine/SysTypes.lean: the data of the always-on domain, power, ageing, the OTP, the management core and
start-up. -/

namespace Sys2Proof.Machine

/-- A deadline comparator (Tables 6 and 7 of Always-on domain). -/
structure Dl where
  cmp : Nat := 0
  arm : Bool := false
  wake : Bool := false
  irq : Bool := false
  fired : Bool := false
  owner : Nat := 8
  vec : Nat := 0
  deriving DecidableEq, Repr

/-- A sensor comparator (Table 8 of Always-on domain). `held` is an ARM written and not yet in effect (R447). -/
structure Sc where
  arm : Bool := false
  held : Bool := false
  wake : Bool := false
  irq : Bool := false
  fired : Bool := false
  dir : Bool := false
  owner : Nat := 8
  vec : Nat := 0
  thresh : W16 := 0
  hyst : Nat := 0
  deriving DecidableEq, Repr

/-- A sensor source (R503, R424): last reading, when it came, and since when it has been outside the valid range. -/
structure Sensor where
  val : W16 := 0
  seen : Bool := false
  stale : Bool := false
  time : Nat := 0
  bad : Option Nat := none
  deriving DecidableEq, Repr

/-- The always-on domain (R439 to R448). -/
structure Aon where
  tb : Nat := 0
  /-- captured upper halves for the host and the management core (R442) -/
  capHost : W32 := 0
  capMgmt : W32 := 0
  refLost : Bool := false
  venv : Bool := false
  /-- timebase since which VCORE has been outside tolerance (R448) -/
  vOut : Option Nat := none
  dl : Sp Dl := []
  sc : Sp Sc := []
  sens : Sp Sensor := []
  /-- AON_WAKE -/
  wDl : Bool := false
  wSc : Bool := false
  wHost : Bool := false
  wLink : Bool := false
  /-- a wake source fired in this low-power state and no WAKE has answered it (R453, R455) -/
  wakeReq : Bool := false
  linkWake : Bool := false
  vecEn : Bool := false
  vec : Nat := 0
  deriving DecidableEq, Repr

/-- How far an entry to or a wake from retention or deep sleep has come (R452 to R455). -/
inductive PsStep where
  /-- no change of state in progress -/
  | none_
  /-- accepted, before step 4 of R452 -/
  | entering
  /-- VCORE requested off, power-good not yet deasserted; a wake is latched or not -/
  | offWait (wake : Bool)
  /-- off -/
  | off
  /-- VCORE requested on, power-good awaited -/
  | waking
  deriving DecidableEq, Repr

/-- Power, the governor and quench (R46, R51 to R53, R420 to R427, R449 to R455). -/
structure Pwr where
  /-- REQ, the forwarded request and VREQ_ON -/
  req : Nat := 750
  fwd : Nat := 750
  on : Bool := false
  /-- a transition is in progress (R47) -/
  trans : Bool := false
  ceilReq : Nat := 0
  /-- effective ceiling of the window in progress (R423) -/
  ceilWin : Nat := 200
  level : Nat := 0
  hold : Bool := false
  /-- the next window holds all paced work (R53) -/
  holdNext : Bool := false
  /-- timebase at which the window began, and of the last check within it (R51, R53) -/
  winAt : Nat := 0
  chkAt : Nat := 0
  /-- checks made in the window (R443) -/
  chkN : Nat := 0
  est : W16 := 0
  windows : W32 := 0
  quench : Bool := false
  /-- resumed from a quench, and VCORE not yet within tolerance (R426) -/
  resuming : Bool := false
  cool : Bool := false
  inval : Bool := false
  trips : Nat := 0
  /-- highest valid reading, signed quarter degrees -/
  temp : Int := 0
  coolSince : Option Nat := none
  /-- power state coded as TARGET, and the command in progress -/
  ps : Nat := 0
  target : Nat := 0
  psResult : Nat := 0
  step : PsStep := .none_
  /-- timebase at which VCORE was requested off (R475) -/
  offAt : Nat := 0
  deriving DecidableEq, Repr

/-- Ageing of a slab or hub (Tables 10 and 11 of Ageing and hard limits). -/
structure UnitAge where
  offset : Nat := 31
  floor : Nat := 600
  tdrift : Int := 0
  pend : Nat := 0
  heldOff : Option Nat := none
  heldFloor : Option Nat := none
  drift : Int := 0
  cfail : Bool := false
  auto : Nat := 0
  rcount : W16 := 0
  /-- code 0x74 recorded since the last temper commit (R430) -/
  told : Bool := false
  /-- timebase of the last measurement (R428) -/
  meas : Nat := 0
  deriving DecidableEq, Repr

/-- The temper measurement (R433 to R436). -/
structure Temper where
  busy : Bool := false
  result : Nat := 0
  unit : Nat := 0
  /-- UNIT of the last command (Table 9) -/
  last : Nat := 0
  newOff : Nat := 0
  newFloor : Nat := 0
  drift : Int := 0
  /-- results of a search that found margins await COMMIT -/
  ready : Bool := false
  faults : Nat := 0
  deriving DecidableEq, Repr

/-- The OTP shadow (Table 2 of One-time-programmable settings); the defaults are those of Table 3 for a blank array, with the
clamp of R422. -/
structure Shadow where
  serial : Nat := 0
  v64 : Option Bool := none
  o2 : Bool := false
  locked : Bool := false
  vmax : Nat := 600
  ttrip : Nat := 85
  pceil : Nat := 200
  tapmin : Nat := 31
  vfloor0 : Nat := 600
  vfloorMax : Nat := 600
  guard : Nat := 7
  keyhash : Nat := 0
  /-- ROLE of each slab (REPAIR); an unlisted slab is retired at test -/
  roles : Sp Nat := []
  /-- bypass entries: (position, unit) -/
  bypass : List (Nat × Nat) := []
  /-- BASE of each unit; none where drift measurement is off -/
  base : Option (List Nat) := none
  ratio : List Nat := []
  tapBase : List Nat := []
  /-- TRIMS: energy per beat at index 7c + r in 0.01 pJ, leakage at 2r + t in 0.01 W (R51) -/
  energy : List Nat := List.replicate 70 0xFFFF
  leak : List Nat := List.replicate 14 0xFFFF
  rstOff : Nat := 31
  rstFloor : Nat := 600
  /-- active generation of each field, none without one; fields with no passing generation; fields that skipped one -/
  gens : List (Option Nat) := []
  fail : List Nat := []
  skip : List Nat := []
  deriving DecidableEq, Repr

/-- An OTP program operation in progress (R462). -/
structure Pgm where
  field : Nat
  gen : Nat
  data : List Byte
  deriving DecidableEq, Repr

/-- The OTP (R457 to R464): the array, the array as last loaded, the shadow. -/
structure Otp where
  arr : Memory := []
  raw : Memory := []
  loaded : Bool := false
  sh : Shadow := {}
  pgm : Option Pgm := none
  result : Nat := 0
  gen : Nat := 0
  /-- PGMDATA words -/
  data : Sp W32 := []
  testmode : Bool := false
  deriving DecidableEq, Repr

/-- The management core and the state the spec gives its firmware (R465 to R477). -/
structure Mgmt where
  run : Bool := false
  cause : Nat := 0
  sram : Memory := []
  /-- LENGTH and ENTRY of the loaded image -/
  imgLen : Nat := 0
  entry : Nat := 0
  imgIfver : Nat := 0
  /-- load in progress: OP -/
  load : Option Nat := none
  ldResult : Nat := 0
  ifver : W32 := 0
  cmdBusy : Bool := false
  cmdOp : Nat := 0
  cmdArg : W32 := 0
  cmdResult : Nat := 0
  endResult : Bool := false
  /-- watchdog: timebase of the last kick, and of a handoff that suspends it (R475, R476) -/
  wdKick : Nat := 0
  wdSusp : Option Nat := none
  /-- firmware: policy, escalations not acknowledged, a live update in progress and acknowledgements it carries -/
  policy : W32 := 2
  unack : List Nat := []
  updating : Bool := false
  ackLater : List Nat := []
  /-- log ring: TAIL, entry sequence number, entries held, entries dropped -/
  logTail : Nat := 0
  logHead : Nat := 0
  logSeq : Nat := 0
  logHeld : List (List Nat) := []
  logDrop : Nat := 0
  /-- timebase of the last persistent record (R474) -/
  persistAt : Nat := 0
  deriving DecidableEq, Repr

/-- Resets and self-test (R478 to R489). -/
structure Boot where
  /-- cold reset and block reset inputs asserted; power-good -/
  cold : Bool := true
  blk : Bool := true
  pgood : Bool := false
  init : Bool := true
  /-- the initialisation of R480 has begun -/
  initRun : Bool := false
  cause : Nat := 0
  /-- VAON lies within the envelope -/
  vaon : Bool := true
  /-- straps TIERA_EN and TIERB_EN (DESIGN CHOICE, log 12) -/
  ea : Bool := true
  eb : Bool := true
  /-- a casting load has begun since the last block reset (R437) -/
  castBegun : Bool := false
  stActive : Bool := false
  stDone : Bool := false
  stResult : Nat := 0
  stPhase : Nat := 0
  stNfail : Nat := 0
  stFail : List Nat := []
  deriving DecidableEq, Repr

end Sys2Proof.Machine
end

