-- ==== Sys2Proof/Machine/LinkTypes.lean ====
section
/-! DEFINITION. Machine/LinkTypes.lean: the data of the chip links, remote regions, sealed rounds and the update engine. -/

namespace Sys2Proof.Machine

/-- A key slot (R372). -/
structure KeySlot where
  valid : Bool := false
  key : Nat := 0
  ctr : Nat := 0
  deriving DecidableEq, Repr

/-- A packet transmitted and not acknowledged (R362, R367). -/
structure TxPkt where
  psn : Nat
  /-- its message, and the granules (blocks for ADD8) it carries -/
  send : Nat
  off : Nat
  n : Nat
  acked : Bool := false
  /-- retransmitted fast since its last other transmission -/
  fast : Bool := false
  /-- waits to be transmitted again, and an expiry scheduled that -/
  resend : Bool := false
  byExpiry : Bool := false
  deriving DecidableEq, Repr

/-- A cached peer context (Tables 4 and 5 of Chip link transport): the 16 registration words and the transport state. -/
structure Peer where
  idx : Nat
  reg : List Nat := []
  txPsn : Nat := 0
  txBase : Nat := 0
  /-- received: first PSN not received and the map above it -/
  rxExp : Nat := 0
  rxMap : Nat := 0
  /-- visible: first PSN not visible and the map above it (R366) -/
  viExp : Nat := 0
  viMap : Nat := 0
  cwnd : Nat := 64
  retries : Nat := 0
  dead : Bool := false
  /-- code that sends stop with while dead (R360, R367) -/
  deadCode : Nat := 0x62
  arec : Bool := false
  afail : Nat := 0
  /-- current RTO in µs, and the timebase at which the armed timer expires -/
  rto : Nat := 50
  timer : Option Nat := none
  /-- mark of R369, and whether ECE came since it was set -/
  mark : Nat := 0
  eceSeen : Bool := false
  /-- a CE-marked packet was accepted since the last ACK sent -/
  ce : Bool := false
  /-- packets visible since the last ACK, and the timebase of the oldest -/
  ackN : Nat := 0
  ackSince : Option Nat := none
  /-- an ACK is due that no usable link or key could carry (R363) -/
  ackDue : Bool := false
  lastLink : Nat := 11
  tx : List TxPkt := []
  deriving DecidableEq, Repr

/-- What a message's granules are read from each time a packet is transmitted (R364): contents held for it, local-store granules of a core, the
shard image at an address of tier B (R344). -/
inductive SendData where
  | held (l : List Granule)
  | core (c : Nat) (gs : List Nat)
  | image (a : Nat)
  deriving DecidableEq, Repr

/-- Where a message's granules come from. -/
inductive SendSrc where
  /-- a transfer of a core's queue, by sequence number -/
  | core (c : Nat) (exec : Bool) (seq : Nat)
  /-- a released adding transfer of a core -/
  | log (c : Nat)
  | update
  /-- the response to a READ -/
  | reply
  deriving DecidableEq, Repr

/-- A message being sent (R362). -/
structure Send where
  id : Nat
  src : SendSrc
  peer : Nat
  msgid : Nat
  op : Nat
  total : Nat
  /-- target record (Table 4 of Remote regions), as transmitted -/
  target : List Nat
  data : SendData
  /-- granules it sends: fewer than TOTAL where its block list stops it (R259) -/
  avail : Nat := total
  /-- round slot of a sealed contribution (R394) -/
  rslot : Nat := 0
  /-- granules cut into packets so far -/
  next : Nat := 0
  /-- complete; kept while a copy of a packet is scheduled (Table 7 of Chip link transport) -/
  fin : Bool := false
  deriving DecidableEq, Repr

/-- A Hervasel packet received and not yet processed: its bytes, its link (none for the local block) and the CE mark. -/
structure Pkt where
  bytes : List Byte
  link : Option Nat
  ce : Bool
  /-- it was parked until its peer was fetched (R370) -/
  parked : Bool := false
  deriving DecidableEq, Repr

/-- A packet passed to its target and not yet visible (R366). `grans` are message granules with their data as they take effect. -/
structure RxPkt where
  peer : Nat
  psn : Nat
  msgid : Nat
  op : Nat
  total : Nat
  region : Nat
  /-- region entry words in force -/
  ent : List Nat
  off : Nat
  grans : List (Nat × Granule)
  /-- counts arrivals (not a replayed copy) -/
  count : Bool
  /-- nothing to write: rejected or discarded, and acknowledged -/
  void : Bool
  /-- ROUND of a sealed contribution -/
  round : Nat
  /-- its region entry was invalidated while it waits (R379) -/
  old : Bool := false
  deriving DecidableEq, Repr

/-- The contents that granule `off` of a message first brought (R391). -/
structure FirstCopy where
  peer : Nat
  msgid : Nat
  off : Nat
  data : Granule
  deriving DecidableEq, Repr

/-- A reassembly record (R388). -/
structure Reasm where
  peer : Nat
  msgid : Nat
  total : Nat
  count : Nat
  /-- partition of the region it reaches -/
  part : Nat := 0
  deriving DecidableEq, Repr

/-- An outstanding remote read (R387). -/
structure RdOut where
  send : Nat
  peer : Nat
  msgid : Nat
  core : Nat
  exec : Bool
  seq : Nat
  nread : Nat
  /-- local granule of each response granule, and the response granules visible so far -/
  dst : List Nat
  got : Nat := 0
  /-- timebase of its timeout, from its first transmission -/
  deadline : Option Nat := none
  deriving DecidableEq, Repr

/-- A round slot (R393). -/
structure Round where
  /-- STATE: 0 empty, 1 armed, 2 DONE, 3 FAILED -/
  st : Nat := 0
  round : Nat := 0
  npart : Nat := 0
  agg : Bool := false
  self : Nat := 0
  vec : Nat := 0
  len : Nat := 0
  deadline : Option Nat := none
  seeds : List Nat := []
  count : Nat := 0
  deriving DecidableEq, Repr

/-- The link hub and link engines (R351 to R397). -/
structure Link where
  keys : Sp KeySlot := []
  /-- HUB_KEYDATA0 to HUB_KEYDATA7 (R372) -/
  keyData : Sp W32 := []
  seeds : Sp (Option Nat) := []
  /-- path entries, key link * 16384 + index * 16 + word -/
  paths : Sp W32 := []
  /-- links whose MAC reports UP -/
  up : List Nat := []
  peers : List Peer := []
  /-- peers being fetched or waiting for a line -/
  fetch : List Nat := []
  miss : List Pkt := []
  rx : List Pkt := []
  /-- frames presented to the MACs, oldest first, and frames that wait for a port's clock (R59) -/
  tx : List (Nat × List Byte) := []
  txWait : List (Nat × List Byte) := []
  /-- peer from which each link engine's turn goes on, 12 for the local block (R363) -/
  turn : Sp Nat := []
  sends : List Send := []
  nextSend : Nat := 0
  pend : List RxPkt := []
  reasm : List Reasm := []
  /-- messages completed by each peer: its ring of ids in tier A holds the last 4,096 of them (R389) -/
  dedup : Sp Nat := []
  /-- first contents of the writes whose ids the rings hold (R389, R391) -/
  firsts : List FirstCopy := []
  reads : List RdOut := []
  /-- cached region entries -/
  rcache : List (Nat × List Nat) := []
  regDone : Bool := true
  regRej : Nat := 0
  regLatch : Bool := false
  regLast : Nat := 0
  reasmDrops : Nat := 0
  rounds : Sp Round := []
  peerResult : Nat := 0
  peerDone : Bool := false
  /-- peer of the last accepted command, and evictions whose write-back waits for the host port's clock (R59, R371) -/
  peerCmd : Nat := 0
  evicting : List Peer := []
  sealResult : Bool := false
  deriving DecidableEq, Repr

/-- A layer record (Table 2 of Training state). -/
structure Layer where
  first : Nat
  npages : Nat
  expect : Nat
  sgdm : Bool
  wfmt : Nat
  sgn : Bool
  blk : Bool
  part : Nat
  sem : Nat
  /-- LR, B1, C1, B2, C2, EPS, WD -/
  k : List W32
  sibase : Nat
  skip : Bool
  woff : Nat
  deriving DecidableEq, Repr

/-- A chip record (R340). -/
structure ChipRec where
  peer : Nat
  tenant : Nat
  key : Nat
  region : Nat
  deriving DecidableEq, Repr

/-- The update engine (R338 to R350). -/
structure Upd where
  busy : Bool := false
  /-- a step has started, and its table waits for a port's clock (R59) -/
  reading : Bool := false
  apply : Bool := false
  skipped : Bool := false
  result : Nat := 0
  /-- next layer to start; LAYER reads the last one started -/
  next : Nat := 0
  layer : Nat := 0
  f : Int := 0
  ls : Int := 0
  k1 : W32 := 0
  k2 : W32 := 0
  mbase : Nat := 0
  m1base : Nat := 0
  m2base : Nat := 0
  abase : Nat := 0
  lbase : Nat := 0
  nchip : Nat := 0
  chip : Nat := 0
  chips : List ChipRec := []
  layers : List Layer := []
  /-- granules of update messages arrived for each layer (R346) -/
  arrived : Sp Nat := []
  /-- skipped layers drained, their completion not yet posted (R346) -/
  drained : List Nat := []
  /-- posts made so far -/
  nposts : Nat := 0
  /-- pages updated since the last audited one (R348) -/
  audit : Nat := 0
  mismatch : Nat := 0
  /-- message sequence (R377) -/
  seq : Nat := 0
  deriving DecidableEq, Repr

end Sys2Proof.Machine
end

