-- ==== Sys2Proof/Machine/State.lean ====
section
/-! DEFINITION. Machine/State.lean: the whole state of the block as plain data, why a step stops, and the state after reset. -/

namespace Sys2Proof.Machine

/-- Why a step stops. -/
inductive Fault where
  /-- Raised by MEM_RESPONSE and HOST_MASTER_RESPONSE: the integrator answers a request that is not outstanding. R16 leaves the
  block's behaviour undefined. Safe: no next state is claimed. -/
  | breach (rule : Nat)
  deriving DecidableEq, Repr

/-- Why a command has no meaning. -/
inductive Refusal where
  /-- Raised by Dispatch for a command without a meaning yet. Safe. -/
  | notModelled (mnemonic : String)
  /-- Raised by SENSOR_READING and SENSOR_STALE for a source that R503 does not define. Safe. -/
  | noSuchSource (src : Nat)
  deriving DecidableEq, Repr

/-- The state of the block. -/
structure State where
  /-- commands waiting, first in first out -/
  pending : List Instr := []
  /-- the model's own: counts the free values taken so far (DESIGN CHOICE, log 3) -/
  fc : Nat := 0
  /-- the build has 64 lanes (R133) -/
  v64 : Bool := false
  /-- cores by physical number; an unlisted core is in its reset state -/
  cores : Sp Core := []
  /-- tier contents by physical address, and what the block wrote into host memory -/
  tierA : Memory := []
  tierB : Memory := []
  hostOut : Memory := []
  /-- registers that hold a plain value, by control-space offset -/
  regs : Sp W32 := []
  fq : FaultQ := {}
  roles : Sp Role := []
  /-- physical slab of each mapped logical slab (R29) -/
  lmap : Sp (Option Nat) := []
  mapgen : Nat := 0
  cast : CastSt := {}
  str : StrCtl := {}
  rings : Sp Ring := []
  subs : List Sub := []
  nextSub : Nat := 0
  mesh : List Msg := []
  posts : List PostMsg := []
  items : List ItemMsg := []
  credits : List CreditMsg := []
  tlb : List Tlb := []
  memq : List MemReq := []
  memSerial : Nat := 0
  /-- ports whose clock is marked lost (R59) -/
  lost : List PortId := []
  /-- beats stranded in the ports' bridges, and memory answers held at a slab's fabric, oldest first (R31, R59) -/
  strand : List Beat := []
  /-- answers that wait for the host port's clock (R59) -/
  trspWait : List (BitVec 8 × Bool × BitVec 512) := []
  dlog : List LogEnt := []
  hostReqs : List HostReq := []
  subst : Option SubstOp := none
  substResult : Nat := 0
  ptinv : List PtInv := []
  /-- host vectors raised and not yet presented, and comparators whose interrupt waits for the management core (R444, R500) -/
  irqs : List Nat := []
  mgmtIrqs : List Nat := []
  /-- target requests accepted and not yet answered, oldest first, and the progress of an aperture access at their head (R498) -/
  treqs : List TReq := []
  tap : Option Taper := none
  /-- last answer on TRSP (R496): tag, ERR and data -/
  trsp : Option (BitVec 8 × Bool × BitVec 512) := none
  recovCnt : Nat := 0
  substCnt : Nat := 0
  /-- halves of routers, mesh links and hub controls out of service (R413) -/
  halves : List HalfOut := []
  /-- slabs with a fault recorded against their fabric or mesh port (R416) -/
  fabric : List Nat := []
  aon : Aon := {}
  pwr : Pwr := {}
  ages : Sp UnitAge := []
  temper : Temper := {}
  otp : Otp := {}
  mgmt : Mgmt := {}
  boot : Boot := {}
  link : Link := {}
  upd : Upd := {}
  deriving DecidableEq, Repr

/-- Right after reset: every field at the Reset column's value (R14), or at the value the assumption log names (logs 2, 4, 6, 11,
12); cold reset and block reset are still asserted, and the OTP array is blank. -/
def State.reset : State := { v64 := Config.buildV64 }

end Sys2Proof.Machine
end

