-- ==== Sys2Proof/Machine/Block.lean ====
section
/-! DEFINITION. Machine/Block.lean: the named operations over the block: registers, roles, partitions, what a core sees, what a core
does to the rest of the block, fault records and interrupts. -/

namespace Sys2Proof.Machine

/-! ### Plain registers -/

/-- Offsets of control space (Register map). -/
def hubBase (h : Nat) : Nat := 0x00C00000 + h * 0x40000
def linkBase (n : Nat) : Nat := 0x00800000 + n * 0x10000
def slabBase (s : Nat) : Nat := 0x01000000 + s * 0x200000

def oRefFreq : Nat := 0x00100008
def oPt (p w : Nat) : Nat := 0x500 + 0x10 * p + 4 * w
def oCastSrc (w : Nat) : Nat := 0x800 + 4 * w
def oCastLen : Nat := 0x808
def oCastStg : Nat := 0x80C
def oDriftTh : Nat := 0x00300030
def oLoadSrc (w : Nat) : Nat := 0x00400008 + 4 * w
def oLoadLen : Nat := 0x00400010
def oPersist (w : Nat) : Nat := 0x00400028 + 4 * w
def oLog (w : Nat) : Nat := 0x00400040 + 4 * w
def oLogCfg : Nat := 0x00400048
def oWdt : Nat := 0x00400050
def oStrDir (w : Nat) : Nat := 0x00C08000 + 4 * w
def oTerr : Nat := 0x00C0C004
def oPeerTbl (w : Nat) : Nat := 0x00C4A000 + 4 * w
def oNode : Nat := 0x00C4A008
def oXp (w : Nat) : Nat := 0x00C4A010 + 4 * w
/-- HUB_MISSDROP, HUB_AUTHFAIL, HUB_BADPEER, HUB_RTOEXP -/
def oHubCnt (k : Nat) : Nat := 0x00C4A050 + 4 * k
def oRegTbl (w : Nat) : Nat := 0x00C4B000 + 4 * w
def oRegN : Nat := 0x00C4B008
def oDedup (w : Nat) : Nat := 0x00C4B010 + 4 * w
def oRdTmo : Nat := 0x00C4B018
def oSeedData (k : Nat) : Nat := 0x00C4B040 + 4 * k
def oSealSrc (w : Nat) : Nat := 0x00C4B060 + 4 * w
def oLnkCtrl (n : Nat) : Nat := linkBase n
def oPathIdx (n : Nat) : Nat := linkBase n + 0x10
/-- LNK_TXFRM, LNK_RXFRM, LNK_RXOTHER, LNK_GERR, LNK_CEMARK -/
def oLnkCnt (n k : Nat) : Nat := linkBase n + 0x100 + 4 * k
def oMpCfg (h : Nat) : Nat := hubBase h + 0xC000
def oMpErr (h n : Nat) : Nat := hubBase h + 0xC100 + 4 * n
def oUpdTbl (w : Nat) : Nat := 0x00CC9000 + 4 * w
def oLedger : Nat := 0x00CC9008
def oLoss : Nat := 0x00CC9018
def oLossRun : Nat := 0x00CC901C
def oAudit : Nat := 0x00CC9020

/-- Reset value of the plain register at an offset (the Reset columns; zero where they read "—", DESIGN CHOICE, log 2). -/
def regReset (o : Nat) : W32 :=
  if o = oRefFreq then 0x05F5E100#32
  else if o = oDriftTh then 0x28#32
  else if o = oLogCfg then 0x8#32
  else if o = oWdt then 0x14#32
  else if o = oXp 0 then 0x07D00032#32
  else if o = oXp 1 then 0x007C1F40#32
  else if o = oXp 2 then 0xC2A5103F#32
  else if o = oRdTmo then 0x3E8#32
  else if o = oMpCfg 2 ∨ o = oMpCfg 3 then 0x64#32
  else if o = oLoss then 0x07D02010#32
  else 0#32

/-- A plain register. -/
def State.reg (s : State) (o : Nat) : W32 := Sp.get (regReset o) s.regs o
def State.regN (s : State) (o : Nat) : Nat := (s.reg o).toNat

/-- Write a plain register. -/
def State.setReg (s : State) (o : Nat) (v : W32) : State := { s with regs := Sp.set (regReset o) s.regs o v }
def State.setRegN (s : State) (o v : Nat) : State := s.setReg o (BitVec.ofNat 32 v)

/-- Add 1 to a counter that wraps to 0 after 0xFFFF_FFFF. -/
def State.count (s : State) (o : Nat) : State := s.setReg o (s.reg o + 1#32)

/-- The host port's clock runs; while it is marked lost, traffic toward the port waits (R59). -/
def State.hostUp (s : State) : Bool := !s.lost.contains .host

/-- A 64-bit address held in two registers. -/
def State.pair (s : State) (f : Nat → Nat) : Nat := s.regN (f 0) + 2 ^ 32 * s.regN (f 1)

/-! ### Time -/

def State.fref (s : State) : Nat := s.regN oRefFreq

/-- Microseconds to ticks, rounded up (R107, R441). -/
def State.us (s : State) (n : Nat) : Nat := cdiv (n * s.fref) 1000000

/-- Nanoseconds to ticks, rounded up. -/
def State.ns (s : State) (n : Nat) : Nat := cdiv (n * s.fref) 1000000000

/-- A deadline has passed: deadlines do not expire while REFLOST is 1 (R443). -/
def State.due (s : State) (d : Nat) : Bool := !s.aon.refLost && decide (d ≤ s.aon.tb)

/-- A fresh free value of `w` bits (DESIGN CHOICE, log 3). -/
def State.free (s : State) (w : Nat) : Nat × State := (Config.freeNat s.fc % 2 ^ w, { s with fc := s.fc + 1 })

/-! ### Slabs, partitions, cores -/

def State.role (s : State) (slab : Nat) : Role := Sp.get {} s.roles slab
def State.setRole (s : State) (slab : Nat) (r : Role) : State := { s with roles := Sp.set {} s.roles slab r }
def State.phys (s : State) (logical : Nat) : Option Nat := Sp.get none s.lmap logical

/-- Core `c`, by physical number. -/
def State.core (s : State) (c : Nat) : Core := Sp.get {} s.cores c
def State.setCore (s : State) (c : Nat) (k : Core) : State := { s with cores := Sp.put s.cores c k }
def State.updCore (s : State) (c : Nat) (f : Core → Core) : State := s.setCore c (f (s.core c))
def State.updRun (s : State) (c : Nat) (f : CoreRun → CoreRun) : State :=
  s.updCore c (fun k => { k with run := f k.run })
def State.updSt (s : State) (c : Nat) (f : CoreStore → CoreStore) : State :=
  s.updCore c (fun k => { k with st := f k.st })

/-- A partition of the loaded casting. -/
def State.partEnt (s : State) (p : Nat) : Option PartEnt := if s.cast.loaded then s.cast.img.parts[p]? else none

/-- Physical core of partition-order index `i` of partition `p` (R214). -/
def State.coreAt (s : State) (p i : Nat) : Option Nat :=
  match s.partEnt p with
  | none => none
  | some e => if 32 * e.size ≤ i then none else (s.phys (e.first + i / 32)).map (fun x => 32 * x + i % 32)

/-- Every mapped physical core of partition `p`, in partition order. -/
def State.coresOf (s : State) (p : Nat) : List Nat :=
  match s.partEnt p with
  | none => []
  | some e => (List.range (32 * e.size)).filterMap (s.coreAt p)

/-- The plating active on partition `p` (GLB_PLACT). -/
def State.plating (s : State) (p : Nat) : Option Image :=
  match Sp.get 0 s.cast.act p with
  | 0 => none
  | n + 1 => Sp.get none s.cast.slots n

/-- The MODE values of partition `p` in force (R326). -/
def State.mode (s : State) (p : Nat) : Option ModeEnt :=
  match (s.plating p).bind (fun i => i.modes.find? (fun m => m.part = p)) with
  | some m => some m
  | none => if s.cast.loaded then s.cast.img.modes.find? (fun m => m.part = p) else none

/-- Stream geometry of partition `p`. -/
def State.geo (s : State) (p : Nat) : Option Geo := if s.cast.loaded then s.cast.img.geos.find? (fun g => g.part = p) else none

/-- Partition of physical core `c`. -/
def State.partOf (s : State) (c : Nat) : Option Nat := (s.role (c / 32)).part

/-- Partition-order index of physical core `c`. -/
def State.pidx (s : State) (c : Nat) : Nat :=
  match s.partOf c, (s.role (c / 32)).logical with
  | some p, some l => match s.partEnt p with
    | some e => (l - e.first) * 32 + c % 32
    | none => 0
  | _, _ => 0

/-- Logical number of core `c`: logical slab x 32 + core, as in a message id (R377). -/
def State.lcore (s : State) (c : Nat) : Nat := ((s.role (c / 32)).logical.getD 0) * 32 + c % 32

/-- Physical core of a logical number. -/
def State.pcore (s : State) (l : Nat) : Option Nat := (s.phys (l / 32)).map (fun p => 32 * p + l % 32)

/-- Log space of a slab in use or reserved (R268, R291). -/
def State.logUsed (s : State) (slab : Nat) : Nat :=
  32 * (s.dlog.filter (fun d => d.core / 32 = slab)).length
  + ((List.range 32).map (fun i =>
      let r := (s.core (32 * slab + i)).run
      ((r.fq ++ r.eq).map (fun x => if x.add && !x.dead then 32 * (x.lcnt - x.logged) else 0)).sum)).sum

/-- Streams that the residency scoreboard of logical slab `l` shows resident, with their state pointers (R221, R211). -/
def State.slots (s : State) (g : Geo) (l : Nat) : List (Nat × Nat) :=
  s.str.ents.filterMap (fun c =>
    let e := c.2
    match Sp.get .out s.str.score (64 * c.1 + l), e.slot with
    | .resident, some k => if e.valid && e.part = g.part then some (e.id, g.regBase + k * g.nslot) else none
    | _, _ => none)

/-- What core `c` sees of the block. -/
def State.cenv (s : State) (c : Nat) : CEnv :=
  let p := s.partOf c
  let pe := p.bind s.partEnt
  let g := p.bind s.geo
  let m := p.bind s.mode
  { v64 := s.v64, part := p, psize := (pe.map (·.size)).getD 0, pidx := s.pidx c, time := s.aon.tb, fref := s.fref,
    qwires := s.cast.img.qwires, wide := s.cast.img.wide, geo := g, slots := (g.map (fun g => s.slots g ((s.role (c / 32)).logical.getD 0))).getD [],
    logUsed := s.logUsed (c / 32), o2 := s.otp.sh.o2, fillDl := (m.map (·.filldl)).getD 0,
    qwait := (pe.map (·.qwait)).getD 0, tierA := s.tierA,
    ptBase := match p with | some q => s.regN (oPt q 0) / 32 * 32 + 2 ^ 32 * (s.regN (oPt q 1) % 256) | none => 0,
    ptLen := match p with | some q => s.regN (oPt q 2) % 2 ^ 26 | none => 0 }

/-- Entries of a list that name index `i` of a class (Table 8 of Castings and platings). -/
def ownIn (l : List OwnEnt) (cls i : Nat) : Option Nat :=
  (l.find? (fun e => e.cls = cls && decide (e.first ≤ i) && decide (i < e.first + e.count))).map (·.owner)

/-- Owner of resource `i` of a class (R328): the casting's, else a claim of an active plating; none where unowned. -/
def State.ownerOf (s : State) (cls i : Nat) : Option Nat :=
  match if s.cast.loaded then ownIn s.cast.img.owners cls i else none with
  | some o => some o
  | none => ownIn ((List.range 8).filterMap s.plating |>.flatMap (·.claims)) cls i

/-! ### Interrupts and faults -/

/-- Raise host vector `v`: at most one pending raise per vector (R500). DESIGN CHOICE: log 139. -/
def State.irq (s : State) (v : Nat) : State := if s.irqs.contains v then s else { s with irqs := s.irqs ++ [v] }

/-- ACT of a code that always has the same one (Tables 3 and 4 of Faults and recovery). -/
def escOf (code : Nat) : Bool :=
  code == 0x29 || code == 0x2A || code == 0x2D || code == 0x5F || code == 0x62
    || code == 0x70 || code == 0x71 || code == 0x72 || code == 0x77 || code == 0x78 || code == 0x79 || code == 0x7B || code == 0x7C

/-- Offer a fault record to the queue's arbiter (R403). -/
def State.offer (s : State) (f : FRec) : State :=
  { s with fq := { s.fq with offered := s.fq.offered ++ [{ f with time := s.aon.tb, esc := f.esc || escOf f.code }] } }

/-- Note that core `c` has halted: the stream it runs counts it as halted (R283). DEDUCED: log 89. -/
def State.noteHalt (s : State) (c : Nat) : State :=
  let r := (s.core c).run
  match r.halt, r.run with
  | some code, some b =>
    { s with subs := s.subs.map (fun u =>
        if u.num = b.sub ∧ !u.halted.contains (s.pidx c) then
          { u with halted := u.halted ++ [s.pidx c], first := some (u.first.getD (code, r.lastTag.toNat)) }
        else u) }
  | _, _ => s

/-- Core `c` is replayed after it had halted (R409): its stream does not count it as halted any more. DEDUCED: log 49. -/
def State.noteReplay (s : State) (c : Nat) : State :=
  match (s.core c).run.run with
  | some b => { s with subs := s.subs.map (fun u =>
      if u.num = b.sub then { u with halted := u.halted.erase (s.pidx c), first := if u.halted.length ≤ 1 then none else u.first } else u) }
  | none => s

/-- A record of core `c` (Table 1). -/
def State.offerCore (s : State) (c : Nat) (f : CFault) : State :=
  s.offer
    { code := f.code, act := f.act, esc := f.esc, tag := f.tag, pslab := c / 32, lslab := ((s.role (c / 32)).logical).getD 0x7F,
      core := c % 32, unit := f.unit, info0 := f.info0, info1 := f.info1, region := (s.core c).cur.region % 65536 }

/-- Record a fault with ACT 2 and halt core `c`'s issue (R404). -/
def State.haltCore (s : State) (c : Nat) (f : CFault) : State :=
  let t := s.offerCore c { f with act := 2 }
  if (s.core c).run.halt.isSome then t else (t.updRun c (fun r => { r with halt := some f.code })).noteHalt c

/-- A core of a stopped partition: it holds issue, nothing is bound to it and its open region is abandoned. -/
def stopRun (v64 : Bool) (r : CoreRun) : CoreRun := { abandonRegion v64 r with held := true, run := none, list := [], iqOff := 0, rpOff := 0 }

/-- Stop partition `p`: every core holds issue until a casting is loaded (R32, R336, R407, R414). Its streams end with STATUS 3, so
that nothing stays bound when that casting is loaded (R32, R330; DEDUCED, log 47). -/
def State.stopPart (s : State) (p : Nat) : State :=
  let cs := s.coresOf p
  cs.foldl (fun t c => t.updRun c (stopRun s.v64))
    { s with
      subs := s.subs.map (fun (u : Sub) => if u.part = p then { u with stopped := true } else u),
      dlog := s.dlog.filter (fun d => d.released || !cs.contains d.core),
      cast := { s.cast with stopped := if s.cast.stopped.contains p then s.cast.stopped else s.cast.stopped ++ [p] } }

/-- A queue-end wire by its producer, or by its consumer. -/
def State.wireFrom (s : State) (p i q : Nat) : Option QWire :=
  s.cast.img.qwires.find? (fun w => w.part = p && w.pcore = i && w.pend = q)
def State.wireTo (s : State) (p i q : Nat) : Option QWire :=
  s.cast.img.qwires.find? (fun w => w.part = p && w.ccore = i && w.cend = q)

/-- A credit message reaches the producer's core (R288). -/
def State.credit (s : State) (m : CreditMsg) : State :=
  match s.coreAt m.part m.dst with
  | none => s
  | some d => s.updSt d (fun x => { x with qret := Sp.set 0 x.qret m.qend (Sp.get 0 x.qret m.qend + m.n) })

/-- The slab of a target core takes traffic: what is addressed to a slab that is not active is held at its fabric (R31). -/
def State.open_ (s : State) (p i : Nat) : Bool :=
  match s.coreAt p i with
  | none => false
  | some d => (s.role (d / 32)).st == .active

/-- Credits leave for a producer; held while its slab is not active (R31). -/
def State.sendCredit (s : State) (m : CreditMsg) : State :=
  if s.open_ m.part m.dst then s.credit m else { s with credits := s.credits ++ [m] }

/-- The held credits whose producers' slabs are active go on (R31). -/
def State.pumpCredits (s : State) : State :=
  let ready := s.credits.filter (fun m => s.open_ m.part m.dst)
  ready.foldl State.credit { s with credits := s.credits.filter (fun m => !s.open_ m.part m.dst) }

/-- Physical slab of core `i` of partition `p`, where a packet for it is sent (R19). -/
def State.slabAt (s : State) (p i : Nat) : Nat := ((s.coreAt p i).getD 0) / 32

/-- What core `c` does to the rest of the block. -/
def State.out (s : State) (c : Nat) (o : Out) : State :=
  match o with
  | .fault f => s.offerCore c f
  | .post t sem cnt ord seq tag =>
    let k := s.core c
    let p := (s.partOf c).getD 0
    let m : PostMsg :=
      { src := s.lcore c, seq := some seq, tag := tag, region := k.cur.region, ordinal := ord, part := p, dst := t, sp := c / 32,
        dp := s.slabAt p t, sem := sem, cnt := cnt }
    { s with posts := s.posts ++ [m] }
  | .push q idx ord item =>
    let p := (s.partOf c).getD 0
    match s.wireFrom p (s.pidx c) q with
    | none => s
    | some w =>
      let m : ItemMsg :=
        { src := s.lcore c, seq := none, region := (s.core c).cur.region, ordinal := ord, part := p, dst := w.ccore, sp := c / 32,
          dp := s.slabAt p w.ccore, dend := w.cend, idx := idx, ring := w.ring, nitems := w.nitems, bytes := item }
      { s with items := s.items ++ [m] }
  | .credits q n =>
    let p := (s.partOf c).getD 0
    match s.wireTo p (s.pidx c) q with
    | none => s
    | some w => s.sendCredit { part := p, dst := w.pcore, qend := w.pend, n := n }

/-- Powered, initialised and not quenched: the block's engines run. -/
def State.running (s : State) : Bool :=
  !s.boot.init && !s.boot.cold && !s.boot.blk && !s.pwr.quench && !s.pwr.resuming && decide (s.pwr.ps < 2)

/-- Control space answers: in active and idle, also during a quench, once INIT has cleared (R480, R498). -/
def State.answers (s : State) : Bool := !s.boot.init && !s.boot.cold && !s.boot.blk && decide (s.pwr.ps < 2)

/-- A register write by the driver or by firmware alone takes effect: control space answers and the requester may write (R512). -/
def State.byMgmt (s : State) (req : Requester) : Bool := s.answers && req == .mgmt
def State.byHost (s : State) (req : Requester) : Bool := s.answers && req == .host

/-- The registers of slab `l` answer (R510): a retired slab's behave as reserved. -/
def State.slabAnswers (s : State) (l : Nat) : Bool :=
  s.answers && (s.role l).st != .retiredTest && (s.role l).st != .retiredService

/-- A record that waits where the queue is full: it starts an action or requires service (R403). -/
def FRec.waits (f : FRec) : Bool := f.act != 0 || f.esc

/-- Core `c` holds until a record that it produced, and that finds the queue full, is placed (R403; DEDUCED, log 144). -/
def State.recHeld (s : State) (c : Nat) : Bool :=
  decide (512 ≤ s.fq.count)
    && s.fq.offered.any (fun f => f.waits && f.pslab == c / 32 && f.core == c % 32 && decide (f.unit ≤ 8))

/-- Core `c` works: its slab is active in a partition of the loaded casting (R33), and the block runs. -/
def State.live (s : State) (c : Nat) : Bool :=
  s.running && (s.role (c / 32)).st == .active && ((s.partOf c).bind s.partEnt).isSome && !s.boot.stActive && !s.recHeld c

/-- Core `c` works, and the governor does not hold paced work (R53, R55). -/
def State.livePaced (s : State) (c : Nat) : Bool := s.live c && !s.pwr.hold

/-- Run a core operation and carry its effects to the block. -/
def State.runCore (s : State) (c : Nat) (f : CEnv → CRes → CRes) : State :=
  let r := f (s.cenv c) (CRes.of (s.core c) s.fc)
  let t := r.outs.foldl (fun t o => t.out c o) { (s.setCore c r.k.settle) with fc := r.fc }
  if (s.core c).run.halt.isNone && r.k.run.halt.isSome then t.noteHalt c else t

/-- The meaning of a paced core command: it waits, and the state stays, while the core does not work (R39). -/
def State.onCore (s : State) (c : Nat) (f : CEnv → CRes → CRes) : Host.Outcome State Fault Refusal :=
  if s.livePaced c then .next (s.runCore c f) else .next s

/-- The meaning of a command of an unpaced engine of the core (R55). -/
def State.onCoreFree (s : State) (c : Nat) (f : CEnv → CRes → CRes) : Host.Outcome State Fault Refusal :=
  if s.live c then .next (s.runCore c f) else .next s

end Sys2Proof.Machine
end

