-- ==== Sys2Proof/Machine/LogRing.lean ====
section
/-! DEFINITION. Machine/LogRing.lean: the ring of log entries that firmware writes for the driver (R470, R474). -/

namespace Sys2Proof.Machine

/-! ### Log ring (R470) -/

/-- Entries of the ring and its host address. -/
def State.logN (s : State) : Nat := 2 ^ (s.regN oLogCfg % 16)
def State.logBase (s : State) : Nat := s.regN (oLog 0) / 64 * 64 + 2 ^ 32 * s.regN (oLog 1)

/-- The ring has no room (DEDUCED, log 35). -/
def State.logFull (s : State) : Bool := (s.mgmt.logTail + 1) % s.logN == s.mgmt.logHead % s.logN

/-- Write a 16-word entry at TAIL and advance it; entries with ESC and entries of types 4 and 5 raise VEC. -/
def State.logPut (s : State) (ws : List Nat) : State :=
  let a := s.logBase + 64 * (s.mgmt.logTail % s.logN)
  let m := (ws.zipIdx).foldl (fun m x => Memory.setNat m (a + 4 * x.2) 4 x.1) s.hostOut
  let t := { s with hostOut := m, mgmt := { s.mgmt with logTail := (s.mgmt.logTail + 1) % s.logN } }
  let w0 := ws.headD 0
  if w0.testBit 8 || w0 % 256 == 4 || w0 % 256 == 5 then t.irq (fld (s.regN oLogCfg) 9 4) else t

/-- Append an entry: type, ESC, payload of eight words; it waits for room, or for the host port's clock (R59). DEDUCED: log 76. -/
def State.log (s : State) (type : Nat) (esc : Bool) (payload : List Nat) : State :=
  if (s.logFull || (!s.mgmt.logHeld.isEmpty && s.hostUp)) && type == 1 && !esc then
    { s with mgmt := { s.mgmt with logDrop := Nat.min 65535 (s.mgmt.logDrop + 1) } }
  else
    let ws := [type + 256 * b2n esc, s.mgmt.logSeq % 2 ^ 32, s.aon.tb % 2 ^ 32, s.aon.tb / 2 ^ 32 % 2 ^ 32]
      ++ (payload ++ List.replicate (8 - payload.length) 0) ++ [0, 0, 0, 0]
    let t := { s with mgmt := { s.mgmt with logSeq := s.mgmt.logSeq + 1 } }
    if s.logFull || !s.mgmt.logHeld.isEmpty || !s.hostUp then
      if s.mgmt.logHeld.length < 256 then { t with mgmt := { t.mgmt with logHeld := t.mgmt.logHeld ++ [ws] } } else t
    else t.logPut ws

/-- Entries held for want of room are written when the driver advances HEAD, those held for the host port when its clock resumes. -/
def State.logFlush (s : State) : Nat → State
  | 0 => s
  | n + 1 => match s.mgmt.logHeld with
    | [] => s
    | ws :: rest => if s.logFull || !s.hostUp then s else (({ s with mgmt := { s.mgmt with logHeld := rest } } : State).logPut ws).logFlush n

/-- The PERSIST entry (R474): the address and length of firmware's own buffer are open. DESIGN CHOICE: log 77. -/
def State.persist (s : State) : State :=
  let a := s.free 32
  let b := a.2.free 32
  let c := b.2.free 13
  let t := c.2.log 2 false [a.1, b.1, c.1]
  { t with mgmt := { t.mgmt with persistAt := s.aon.tb } }

/-- With firmware running, a temper commit, a substitution or a bypass is followed by a new persistent record (R474). -/
def State.persistNow (s : State) : State := if s.mgmt.run then s.persist else s

/-- A powered hour has passed since the last persistent record (R474). -/
def State.persistDue (s : State) : Bool := s.mgmt.run && decide (s.pwr.ps < 2) && s.due (s.mgmt.persistAt + s.us 3600000000)

end Sys2Proof.Machine
end

