-- ==== Sys2Proof/Machine/Otp.lean ====
section
/-! DEFINITION. Machine/Otp.lean: the OTP fields and generations (R457 to R461), the shadow load and
programming (R462, R463), and their commands' meanings. -/

namespace Sys2Proof.Machine

/-- An OTP field (Table 1): base, data bytes, generation size. -/
def otpBase (f : Nat) : Nat := nthD [0x000, 0x040, 0x060, 0x090, 0x160, 0x3B0, 0x670] f 0x960
def otpLen (f : Nat) : Nat := nthD [12, 4, 8, 48, 146, 172, 184] f 0
def otpSize (f : Nat) : Nat := nthD [16, 8, 12, 52, 148, 176, 188] f 0

/-- The bits of generation `g` of field `f`: its data and its check (R457, R458). -/
def otpData (m : Memory) (f g : Nat) : Nat := Memory.nat m (otpBase f + g * otpSize f) (otpLen f)
def otpCheck (m : Memory) (f g : Nat) : Nat := Memory.nat m (otpBase f + g * otpSize f + otpLen f) 2

/-- A generation is programmed: some bit of it reads 1. -/
def otpProg (m : Memory) (f g : Nat) : Bool := Memory.nat m (otpBase f + g * otpSize f) (otpSize f) != 0
def otpPass (m : Memory) (f g : Nat) : Bool := otpProg m f g && otpCheck m f g == guard16 (8 * otpLen f) (otpData m f g)

/-- The active generation (R459): the highest that is programmed and passes. -/
def otpActive (m : Memory) (f : Nat) : Option Nat := [3, 2, 1, 0].find? (otpPass m f)

/-- Some generation of the field is programmed and none passes. -/
def otpFailed (m : Memory) (f : Nat) : Bool := [0, 1, 2, 3].any (otpProg m f) && (otpActive m f).isNone

/-- A failed generation lies above the active one. -/
def otpSkip (m : Memory) (f : Nat) : Bool :=
  match otpActive m f with
  | none => false
  | some g => [0, 1, 2, 3].any (fun h => decide (g < h) && otpProg m f h)

/-- Data of the active generation. -/
def otpField (m : Memory) (f : Nat) : Option Nat := (otpActive m f).map (otpData m f)

/-- Bypass entries of a REPAIR generation (Table 2): (position, unit). -/
def repairBypass (d : Nat) : List (Nat × Nat) :=
  (List.range 64).filterMap (fun e =>
    let w := fld d (8 * (18 + 2 * e) + 15) (8 * (18 + 2 * e))
    if w % 8192 = 0 then none else some (w % 8192 - 1, w / 8192))

def repairRole (d s : Nat) : Nat := fld d (2 * s + 1) (2 * s)

/-- Roles after R460: a slab with two bypass entries naming one array is treated as retired at test. -/
def repairRoles (d : Nat) : Sp Nat :=
  let bp := repairBypass d
  let twice (s : Nat) : Bool := bp.any (fun x => decide (x.1 / 64 = s) && decide (1 < (bp.filter (fun y => y.1 = x.1)).length))
  (List.range 68).foldl (fun m s => Sp.set 2 m s (if twice s then 2 else repairRole d s)) []

/-- The shadow of an array (R459, Tables 2 and 3, R422). -/
def otpShadow (m : Memory) : Shadow :=
  let lim := otpField m 2
  let trims := otpField m 6
  let vmax := match lim with | some d => fld d 9 0 | none => 600
  let rep := otpField m 4
  let pat := otpField m 5
  let ident := otpField m 0
  { serial := match ident with | some d => fld d 63 0 | none => 0,
    v64 := ident.map (fun d => d.testBit 64),
    o2 := match ident with | some d => d.testBit 65 | none => false,
    locked := match otpField m 1 with | some d => d.testBit 0 | none => otpFailed m 1,
    vmax := vmax,
    ttrip := match lim with | some d => fld d 17 10 | none => 85,
    pceil := match lim with | some d => fld d 27 18 | none => 200,
    tapmin := match lim with | some d => fld d 32 28 | none => 31,
    vfloor0 := Nat.min vmax (match lim with | some d => fld d 42 33 | none => 640),
    vfloorMax := Nat.min vmax (match lim with | some d => fld d 52 43 | none => 700),
    guard := match lim with | some d => fld d 55 53 | none => 7,
    keyhash := match otpField m 3 with | some d => d | none => 0,
    roles := match rep with | some d => repairRoles d | none => [],
    bypass := match rep with | some d => repairBypass d | none => [],
    base := pat.map (fun d => (List.range 72).map (fun u => fld d (16 * u + 15) (16 * u))),
    ratio := match pat with
      | some d => (List.range 14).map (fun i => fld d (8 * (144 + 2 * i) + 15) (8 * (144 + 2 * i)))
      | none => [],
    tapBase := match trims with | some d => (List.range 12).map (fun c => fld d (8 * c + 4) (8 * c)) | none => List.replicate 12 31,
    energy := match trims with
      | some d => (List.range 70).map (fun i => fld d (8 * (12 + 2 * i) + 15) (8 * (12 + 2 * i)))
      | none => List.replicate 70 0xFFFF,
    leak := match trims with
      | some d => (List.range 14).map (fun i => fld d (8 * (152 + 2 * i) + 15) (8 * (152 + 2 * i)))
      | none => List.replicate 14 0xFFFF,
    rstOff := match trims with | some d => fld d (8 * 180 + 4) (8 * 180) | none => 31,
    rstFloor := Nat.min vmax (match trims with | some d => fld d (8 * 180 + 14) (8 * 180 + 5) | none => 700),
    gens := (List.range 7).map (otpActive m),
    fail := (List.range 7).filter (otpFailed m),
    skip := (List.range 7).filter (otpSkip m) }

/-- The shadow load (R459, R461): a field with programmed generations of which none passes records 0x7B. -/
def State.loadOtp (s : State) : State :=
  let sh := otpShadow s.otp.arr
  let t := { s with
    otp := { s.otp with raw := s.otp.arr, loaded := true, sh := sh },
    v64 := sh.v64.getD Config.buildV64 }
  sh.fail.foldl (fun u f => u.offer { code := 0x7B, info0 := some f }) t

/-- The lowest blank generation above every programmed one (R462). -/
def otpNext (m : Memory) (f : Nat) : Option Nat :=
  (List.range 4).find? (fun g => (List.range 4).all (fun h => decide (h < g) || !otpProg m f h))

/-- LOCKED is set in a generation that passes its check (R462). -/
def otpLocked (m : Memory) : Bool := (List.range 4).any (fun g => otpPass m 1 g && (otpData m 1 g).testBit 0)

/-- Program generation `g`: bits can only be set (R457). -/
def otpWrite (m : Memory) (f g : Nat) (data : List Byte) (check : Nat) : Memory :=
  let bytes := data.take (otpLen f) ++ List.replicate (otpLen f - data.length) 0#8 ++ natBytes 2 check
  (bytes.zipIdx).foldl (fun m x =>
    let a := otpBase f + g * otpSize f + x.2
    Memory.setByte m a (Memory.byte m a ||| x.1)) m

def otpGood (f : Nat) (data : List Byte) : Nat := guard16 (8 * otpLen f) (bytesNat (data.take (otpLen f)) % 2 ^ (8 * otpLen f))

/-- A REPAIR generation firmware may write (R462): it keeps every bypass entry, changes ROLE only 0 to 3 or 1 to 3, and adds bypasses
only of arrays bypassed in service. -/
def repairOk (s : State) (d : Nat) : Bool :=
  let old := (otpField s.otp.arr 4).getD 0
  let bo := repairBypass old
  let bn := repairBypass d
  bo.all (fun x => bn.contains x)
    && (List.range 68).all (fun i =>
      let a := repairRole old i
      let b := repairRole d i
      a == b || ((a == 0 || a == 1) && b == 3))
    && bn.all (fun x => bo.contains x || (
      let st := (s.core (x.1 / 2)).st
      let w := if x.1 % 2 = 1 then st.bypB else st.bypA
      w.getLsbD 3 && w.getLsbD 4 && decide (w.toNat % 8 = x.2)))

/-- An interrupted program operation (R463): the generation is programmed and fails its check. DEDUCED: log 78. -/
def State.otpAbort (s : State) : State :=
  match s.otp.pgm with
  | none => s
  | some p =>
    let x := s.free 16
    let good := otpGood p.field p.data
    let bad := if p.data.all (· = 0#8) then 1 else good ^^^ (1 + x.1 % 65535)
    { x.2 with otp := { x.2.otp with arr := otpWrite x.2.otp.arr p.field p.gen p.data bad, pgm := none } }

/-- OTP_PGMCMD_GO (R462, R464): firmware programs REPAIR from OTP_PGMDATA. -/
def execOtpPgmcmdGo (req : Requester) (field : BitVec 3) (s : State) : Host.Outcome State Fault Refusal :=
  if !s.byMgmt req then .next s
  else
    if s.otp.pgm.isSome then .next s
    else
      let refuse (r : Nat) : State := { s with otp := { s.otp with result := r } }
      let data := (List.range 146).map (fun i =>
        BitVec.ofNat 8 ((Sp.get 0#32 s.otp.data (i / 4)).toNat / 256 ^ (i % 4)))
      if field.toNat ≠ 4 then .next (refuse 2)
      else match otpNext s.otp.arr 4 with
        | none => .next (refuse 1)
        | some g =>
          if !repairOk s (bytesNat data) then .next (refuse 3)
          else .next { s with otp := { s.otp with pgm := some { field := 4, gen := g, data := data } } }

/-- OTP_TEST_PROGRAM (R462, R506): the tester programs any field while TESTMODE is 1, until LOCK is programmed. -/
def execOtpTestProgram (field : BitVec 3) (data : List Byte) (s : State) : Host.Outcome State Fault Refusal :=
  let f := field.toNat
  if 6 < f ∨ !s.boot.vaon ∨ !s.otp.testmode ∨ s.otp.pgm.isSome ∨ otpLocked s.otp.arr then .next s
  else match otpNext s.otp.arr f with
    | none => .next { s with otp := { s.otp with result := 1 } }
    | some g => .next { s with otp := { s.otp with pgm := some { field := f, gen := g, data := data } } }

/-- OTP_PROGRAM_COMPLETE (R462, R463): the generation is written with its check and read back. -/
def execOtpProgramComplete (ok : Bool) (s : State) : Host.Outcome State Fault Refusal :=
  match s.otp.pgm with
  | none => .next s
  | some p =>
    if ok then .next { s with otp := { s.otp with
      arr := otpWrite s.otp.arr p.field p.gen p.data (otpGood p.field p.data), pgm := none, result := 0, gen := p.gen } }
    else
      let t := s.otpAbort
      .next { t with otp := { t.otp with result := 4, gen := p.gen } }

end Sys2Proof.Machine
end

