-- ==== Sys2Proof/Machine/Power.lean ====
section
/-! DEFINITION. Machine/Power.lean: limits, the voltage request, quench, the governor, ageing, temper passes, the always-on domain
and the power states (R46 to R53, R420 to R456, R503). -/

namespace Sys2Proof.Machine

/-! ### Limits and the voltage request -/

/-- The casting and the active platings (R327). -/
def State.inForce (s : State) : List Image :=
  (if s.cast.loaded then [s.cast.img] else []) ++ (List.range 8).filterMap s.plating

/-- The lowest nonzero value of a list, at most `top` (R327: 0 means no request). -/
def lowest (top : Nat) (l : List Nat) : Nat := l.foldl (fun m x => if x = 0 then m else Nat.min m x) top

/-- VMAXEFF (R422). -/
def State.vmaxEff (s : State) : Nat := lowest s.otp.sh.vmax (s.inForce.map (·.vmax))

/-- The ceiling without PWR_CEILREQ: PCEIL, below 200 read as 200, and the lowest CEIL_W (R423). -/
def State.ceilTop (s : State) : Nat := lowest (Nat.max 200 s.otp.sh.pceil) (s.inForce.map (·.ceil))

/-- The effective ceiling in W (R52, R423). -/
def State.ceiling (s : State) : Nat := Nat.max 200 (lowest s.ceilTop [s.pwr.ceilReq])

/-- Ageing state of unit `u` (slabs 0 to 67, hubs 68 to 71). -/
def State.age (s : State) (u : Nat) : UnitAge := Sp.get {} s.ages u
def State.setAge (s : State) (u : Nat) (a : UnitAge) : State := { s with ages := Sp.set {} s.ages u a }

def RoleSt.retired : RoleSt → Bool
  | .retiredTest => true
  | .retiredService => true
  | _ => false

/-- The block floor (R431). -/
def State.floor (s : State) : Nat :=
  (List.range 72).foldl (fun m u => if u < 68 && (s.role u).st.retired then m else Nat.max m (s.age u).floor) s.otp.sh.vfloor0

/-- FWD of R422. -/
def State.fwdActive (s : State) : Nat := Nat.max s.floor (Nat.min s.pwr.req s.vmaxEff)

/-- The forwarded request now: FLOOR in a quench and in idle (R425, R451). -/
def State.fwdNow (s : State) : Nat := if s.pwr.quench || s.pwr.ps == 1 then s.floor else s.fwdActive

/-! ### Sensors -/

def State.sensor (s : State) (k : Nat) : Sensor := Sp.get {} s.aon.sens k

/-- A temperature reading is valid: -40 to 150 °C (R424), in quarter degrees. -/
def tempValid (v : W16) : Bool := decide (-160 ≤ v.toInt) && decide (v.toInt ≤ 600)

/-- A temperature source reads validly now. -/
def Sensor.valid (x : Sensor) : Bool := x.seen && !x.stale && tempValid x.val

/-- The highest valid temperature reading (R424), if any. -/
def State.hottest (s : State) : Option Int :=
  (List.range 8).foldl (fun m k =>
    let x := s.sensor k
    if x.valid then some (match m with | some t => max t x.val.toInt | none => x.val.toInt) else m) none

/-- A source has been outside the valid range for 1 ms, or is stale (R424, R503). -/
def State.badInput (s : State) : Bool :=
  (List.range 8).any (fun k =>
    let x := s.sensor k
    x.seen && (x.stale || (match x.bad with | some t => decide (t + s.us 1000 ≤ s.aon.tb) | none => false)))
  || (s.sensor 8).stale

/-- The exit condition of R426 holds at this moment. -/
def State.coolNow (s : State) : Bool :=
  (match s.hottest with | some t => decide (t ≤ 4 * ((s.otp.sh.ttrip : Int) - 10)) | none => false)
    && (List.range 8).all (fun k => (s.sensor k).valid || !(s.sensor k).seen)

/-- VCORE reads within 15 mV of the forwarded request (R448). -/
def State.vInTol (s : State) : Bool :=
  let v : Int := (s.sensor 8).val.toInt
  (s.sensor 8).seen && decide ((s.pwr.fwd : Int) - 15 ≤ v) && decide (v ≤ (s.pwr.fwd : Int) + 15)

/-- What follows from the readings as they stand: COOL's count, the transition, the envelope monitor, the end of a quench. -/
def State.settle (s : State) : State :=
  let cool := s.coolNow
  let tol := s.vInTol
  let p := s.pwr
  { s with
    pwr := { p with
      temp := s.hottest.getD p.temp, cool := p.cool && cool,
      coolSince := if cool then some (p.coolSince.getD s.aon.tb) else none,
      trans := p.trans && !tol, resuming := p.resuming && !tol },
    aon := { s.aon with
      venv := s.aon.venv && !tol,
      vOut := if tol || p.trans || !p.on then none else some (s.aon.vOut.getD s.aon.tb) } }

/-- Forward the request (R47): a change while VCORE is within 15 mV of the request in force begins a transition, and one in progress continues
toward the latest request; it ends where VCORE is within 15 mV of that. -/
def State.forward (s : State) : State :=
  let f := s.fwdNow
  if f = s.pwr.fwd then s
  else ({ s with pwr := { s.pwr with fwd := f, trans := s.pwr.trans || s.vInTol } } : State).settle

/-- The block counts as in reset for R49 and R431 (R437). -/
def State.tapReset (s : State) : Bool := s.boot.init || !s.boot.castBegun

/-- A shortening or a lowering may take effect in unit `u` (R49). -/
def State.mayShorten (s : State) (u : Nat) : Bool := s.tapReset || (decide (u < 68) && (s.role u).st == .tempering)

/-- Code 0x7A (R422, R423, R431). DEDUCED: log 72. -/
def State.clamped (s : State) : State := s.offer { code := 0x7A }

/-- VREQ_WRITE (R422): REQ is written, and FWD follows with its clamps. -/
def execVreqWrite (req : Requester) (v : W32) (s : State) : Host.Outcome State Fault Refusal :=
  if !s.byMgmt req then .next s
  else
    let mv := v.toNat % 1024
    let t := ({ s with pwr := { s.pwr with req := mv } } : State).forward
    .next (if t.vmaxEff < mv then t.clamped else t)

/-- CEILREQ_WRITE (R423): a request above the other ceilings has no effect and is recorded. -/
def execCeilreqWrite (req : Requester) (v : W32) (s : State) : Host.Outcome State Fault Refusal :=
  if !s.byMgmt req then .next s
  else
    let w := v.toNat % 1024
    let t := { s with pwr := { s.pwr with ceilReq := w } }
    .next (if s.ceilTop < w then t.clamped else t)

/-- A unit's offset and floor take written values: raises at once, shortenings and lowerings held where R49 holds them. -/
def State.writeAge (s : State) (u off fl : Nat) : State :=
  let a := s.age u
  let ok := s.mayShorten u
  let a1 := if a.offset ≤ off ∨ ok then { a with offset := off, heldOff := none } else { a with heldOff := some off }
  let a2 := if a.floor ≤ fl ∨ ok then { a1 with floor := fl, heldFloor := none } else { a1 with heldFloor := some fl }
  (s.setAge u a2).forward

/-- TEMPER_WRITE (R431, R436, R437). -/
def execTemperWrite (req : Requester) (u : UnitNo) (v : W32) (s : State) : Host.Outcome State Fault Refusal :=
  if !s.byMgmt req || (decide (u.val < 68) && !s.slabAnswers u.val) then .next s
  else if s.temper.busy && s.temper.unit == u.val then .next s
  else
    let n := v.toNat
    let fl := fld n 14 5
    let t := s.setAge u.val { s.age u.val with tdrift := sext 11 (fld n 25 15) }
    let t1 := t.writeAge u.val (fld n 4 0) (Nat.min fl s.otp.sh.vfloorMax)
    .next (if s.otp.sh.vfloorMax < fl then t1.clamped else t1)

/-- HELD_SHORTENING_APPLY (R49, R431). -/
def execHeldShorteningApply (u : UnitNo) (s : State) : Host.Outcome State Fault Refusal :=
  if s.mayShorten u.val then
    let a := s.age u.val
    .next (s.setAge u.val
      { a with offset := a.heldOff.getD a.offset, floor := a.heldFloor.getD a.floor, heldOff := none, heldFloor := none }).forward
  else .next s

/-! ### Pace governor -/

/-- Rows of Table 2 of Clockless operation, in mV. -/
def vRows : List Nat := [600, 650, 700, 720, 750, 800, 850]

/-- The row at or below a request, at most the last but one. -/
def vRow (mv : Nat) : Nat := Nat.min 5 ((vRows.filter (· ≤ mv)).length - 1)

/-- Power of the beat counts of the ten engine classes over a window of 1 µs, and of leakage, in units of 0.125 W (R51, R459): coefficients in
0.01 pJ and 0.01 W from TRIMS, taken between rows and points as R428 takes a baseline. DEDUCED: log 149. -/
def State.powerOf (s : State) (beats : List Nat) : Nat :=
  let sh := s.otp.sh
  let mv := s.pwr.fwd
  let r := vRow mv
  let lo := nthD vRows r 600
  let dv : Int := ((nthD vRows (r + 1) 850 : Nat) : Int) - lo
  let x : Int := (mv : Int) - lo
  let e (c : Nat) : Int := ((nthD sh.energy (7 * c + r) 0 : Nat) : Int) * (dv - x) + ((nthD sh.energy (7 * c + r + 1) 0 : Nat) : Int) * x
  let dyn : Int := ((beats.zipIdx).map (fun b => (b.1 : Int) * e b.2)).sum
  let y : Int := s.pwr.temp - 100
  let l (t : Nat) : Int := ((nthD sh.leak (2 * r + t) 0 : Nat) : Int) * (dv - x) + ((nthD sh.leak (2 * (r + 1) + t) 0 : Nat) : Int) * x
  let leak : Int := l 0 * (320 - y) + l 1 * y
  (8 * (320 * dyn + 10 ^ 6 * leak) / (10 ^ 8 * 320 * dv)).toNat

/-- Counts of part of a window, scaled to the whole of it (R53): the timebase says how much of it has passed; while the reference is lost the
governor's oscillator does (R443), so that check k ends the k-th of its eight parts. DEDUCED: log 160. -/
def State.toWindow (s : State) (beats : List W32) : List Nat :=
  if s.aon.refLost then beats.map (fun b => b.toNat * 8 / (s.pwr.chkN + 1))
  else beats.map (fun b => b.toNat * s.us 1 / Nat.max 1 (s.aon.tb - s.pwr.winAt))

/-- A time of the governor has come: it counts on the timebase, or on the oscillator while the reference is lost (R443). -/
def State.paceDue (s : State) (t : Nat) : Bool := s.aon.refLost || s.due t

/-- Projected power at pace level k of an unpaced demand, times 16 (worked example of R53; DEDUCED, log 31). -/
def paced16 (demand k : Nat) : Nat := demand * (16 - k)

/-- Level k meets R52: its projection is at most 95 % of the ceiling; power in units of 0.125 W. -/
def meetsR52 (ceil demand k : Nat) : Bool := decide (100 * paced16 demand k ≤ 95 * 16 * 8 * ceil)

/-- The lowest level at or above `k0` that meets R52. -/
def paceLevel (ceil demand k0 : Nat) : Option Nat := (List.range 16).find? (fun k => decide (k0 ≤ k) && meetsR52 ceil demand k)

/-- PACE_WINDOW_END (R51, R53): a window of 1 µs on the timebase has ended. `beats` are the beats of the ten engine classes counted in it,
and `want` those it would have had unpaced; a fall is by at most one level. Where no level meets R52, or a check in the window found
none, the next window holds all paced work at level 15. DEDUCED: log 31. -/
def execPaceWindowEnd (beats want : List W32) (s : State) : Host.Outcome State Fault Refusal :=
  let p := s.pwr
  if s.boot.init || decide (2 ≤ p.ps) || !s.paceDue (p.winAt + s.us 1) then .next s
  else
    let c := s.ceiling
    let w := if p.level ≠ 0 ∨ p.hold then p.windows + 1#32 else p.windows
    let n : Nat × Bool := match if p.holdNext then none else paceLevel c (s.powerOf (want.map (·.toNat))) (p.level - 1) with
      | some k => (k, false)
      | none => (15, true)
    .next { s with pwr := { p with
      ceilWin := c, est := BitVec.ofNat 16 (Nat.min 65535 (s.powerOf (beats.map (·.toNat)))), windows := w, level := n.1, hold := n.2,
      holdNext := false, winAt := s.aon.tb, chkAt := s.aon.tb, chkN := 0 } }

/-- PACE_CHECK (R53): every 125 ns; where the energy of the `beats` so far, scaled to the window, exceeds the ceiling, the level rises at once;
`want` are the beats so far without pacing. -/
def execPaceCheck (beats want : List W32) (s : State) : Host.Outcome State Fault Refusal :=
  let p := s.pwr
  if s.boot.init || decide (2 ≤ p.ps) || !s.paceDue (p.chkAt + s.ns 125) then .next s
  else
    let q : Pwr := { p with chkAt := s.aon.tb, chkN := p.chkN + 1 }
    if s.powerOf (s.toWindow beats) ≤ 8 * p.ceilWin then .next { s with pwr := q }
    else match paceLevel p.ceilWin (s.powerOf (s.toWindow want)) p.level with
      | some k => .next { s with pwr := { q with level := k } }
      | none => .next { s with pwr := { q with level := 15, holdNext := true } }

/-! ### Sensor comparators and quench -/

/-- The reading a sensor comparator watches (R447). -/
def State.scReading (s : State) (k : Nat) : Option Int :=
  if k < 2 then s.hottest else if (s.sensor 8).seen then some (s.sensor 8).val.toInt else none

/-- A comparator's reading is on the far side of its threshold by its hysteresis. -/
def Sc.far (x : Sc) (r : Int) : Bool :=
  if x.dir then decide (x.thresh.toInt + x.hyst ≤ r) else decide (r ≤ x.thresh.toInt - x.hyst)

/-- A comparator's condition holds (R447). -/
def Sc.hit (x : Sc) (r : Int) : Bool := if x.dir then decide (r ≤ x.thresh.toInt) else decide (x.thresh.toInt ≤ r)

/-- Held ARM bits take effect (R447). -/
def State.armSc (s : State) : State :=
  (List.range 4).foldl (fun t k =>
    let x := Sp.get {} t.aon.sc k
    match t.scReading k with
    | some r => if x.held && x.far r then
        { t with aon := { t.aon with sc := Sp.set {} t.aon.sc k { x with held := false, arm := true } } } else t
    | none => t) s

/-- SENSOR_READING (R503, R424, R447, R448). DESIGN CHOICE: log 83. -/
def execSensorReading (src : BitVec 4) (v : W16) (s : State) : Host.Outcome State Fault Refusal :=
  if 8 < src.toNat then .refused (.noSuchSource src.toNat)
  else if s.boot.cold then .next s
  else
    let x := s.sensor src.toNat
    let ok := tempValid v || src.toNat == 8
    let y : Sensor := { val := v, seen := true, stale := false, time := s.aon.tb,
                        bad := if ok then none else some (x.bad.getD s.aon.tb) }
    .next (({ s with aon := { s.aon with sens := Sp.set {} s.aon.sens src.toNat y } } : State).settle).armSc

/-- SENSOR_STALE (R503): a source that has reported gives no fresh reading for 1 ms. -/
def execSensorStale (src : BitVec 4) (s : State) : Host.Outcome State Fault Refusal :=
  if 8 < src.toNat then .refused (.noSuchSource src.toNat)
  else
    let x := s.sensor src.toNat
    if x.seen && !x.stale && s.due (x.time + s.us 1000) then
      .next ({ s with aon := { s.aon with sens := Sp.set {} s.aon.sens src.toNat { x with stale := true } } } : State).settle
    else .next s

/-- A temper measurement ends with RESULT 5 (Table 2 of Ageing and hard limits). -/
def State.endTemper (s : State) : State :=
  if !s.temper.busy then s
  else
    let t := { s with temper := { s.temper with busy := false, result := 5, ready := false } }
    if s.temper.unit < 68 then t.setRole s.temper.unit { s.role s.temper.unit with st := .spare } else t

/-- The block quenches (R425). -/
def State.quenchNow (s : State) (inval : Bool) : State :=
  let t := s.endTemper
  let p := t.pwr
  let step := match p.step with | .entering => PsStep.none_ | x => x
  let res := match p.step with | .entering => 3 | _ => p.psResult
  let t1 := { t with
    pwr := { p with quench := true, resuming := false, cool := false, coolSince := none, inval := inval,
                    trips := Nat.min 65535 (p.trips + 1), step := step, psResult := res } }
  (t1.offer { code := 0x72, act := 4, esc := true }).forward

/-- THERMAL_TRIP (R424, R425, R427): a trip during a quench changes nothing. -/
def execThermalTrip (s : State) : Host.Outcome State Fault Refusal :=
  if s.boot.cold || s.pwr.quench || decide (2 ≤ s.pwr.ps) then .next s
  else
    let hot := match s.hottest with | some t => decide (4 * (s.otp.sh.ttrip : Int) ≤ t) | none => false
    if hot then .next (s.quenchNow false)
    else if s.badInput then .next (s.quenchNow true)
    else .next s

/-- COOL_CONDITION (R426): the condition has held for 10 ms. -/
def execCoolCondition (s : State) : Host.Outcome State Fault Refusal :=
  match s.pwr.coolSince with
  | some t => if s.coolNow && s.due (t + s.us 10000) then .next { s with pwr := { s.pwr with cool := true } } else .next s
  | none => .next s

/-- QCMD_RESUME (R426): a RESUME written while COOL is 0 is ignored. -/
def execQcmdResume (req : Requester) (s : State) : Host.Outcome State Fault Refusal :=
  if s.byMgmt req && s.pwr.quench && s.pwr.cool then
    .next (({ s with pwr := { s.pwr with quench := false, resuming := true } } : State).forward).settle
  else .next s

/-! ### Patina, canaries and temper passes -/

/-- Baseline of unit `u` at row r and temperature point t: round(BASE × RATIO / 2^15) (R459). -/
def baseAt (sh : Shadow) (base r t : Nat) : Int := (((base * nthD sh.ratio (2 * r + t) 0) + 2 ^ 14) / 2 ^ 15 : Nat)

/-- B of R428, interpolated, as a numerator over 520 × (row step): request in mV, temperature in quarter degrees. -/
def baseline (sh : Shadow) (base mv : Nat) (temp : Int) : Int × Int :=
  let r := vRow mv
  let lo := nthD vRows r 600
  let hi := nthD vRows (r + 1) 850
  let dv : Int := (hi : Int) - lo
  let x : Int := (mv : Int) - lo
  let y : Int := temp - 100
  let at_ (t : Nat) : Int := baseAt sh base r t * (dv - x) + baseAt sh base (r + 1) t * x
  (at_ 0 * (320 - y) + at_ 1 * y, dv * 320)

/-- DRIFT in units of 0.05 % (R428): the exact quotient where it is a whole number; otherwise the spec states no rounding, and a free
value chooses between the two nearest (DESIGN CHOICE, log 32). -/
def State.driftOf (s : State) (u : Nat) (rcount : Nat) (temp : Int) : Int × State :=
  match s.otp.sh.base with
  | none => (0, s)
  | some bs =>
    let b := baseline s.otp.sh (nthD bs u 0) s.pwr.fwd temp
    let f := s.free 11
    if b.1 ≤ 0 then (sext 11 f.1, f.2)
    else
      let num : Int := 2000 * (b.1 - rcount * b.2)
      let q := num / b.1
      let q1 := if num % b.1 = 0 then q else q + (f.1 % 2 : Nat)
      if -1024 ≤ q1 ∧ q1 ≤ 1023 then (q1, f.2) else (sext 11 f.1, f.2)

/-- The unit's effective code on every channel is 31 (R48; DEDUCED, log 33). -/
def State.codeFull (s : State) (u : Nat) : Bool :=
  s.otp.sh.tapBase.all (fun b => decide (31 ≤ Nat.max s.otp.sh.tapmin (b + (s.age u).offset)))

/-- A record about unit `u` (R430, R434). -/
def State.offerUnit (s : State) (u code : Nat) (esc : Bool) : State :=
  if u < 68 then s.offer { code := code, esc := esc, pslab := u, lslab := ((s.role u).logical).getD 0x7F }
  else s.offer { code := code, esc := esc, unit := 10, hub := u - 68 }

/-- A canary of unit `u` fails (R429, R436). -/
def State.canary (s : State) (u : Nat) : State :=
  let a := s.age u
  let t := s.setAge u { a with cfail := true }
  if s.temper.busy && s.temper.unit == u then t
  else if s.codeFull u then t.offerUnit u 0x74 false
  else t.setAge u { a with cfail := true, offset := Nat.min 31 (a.offset + 1), auto := Nat.min 15 (a.auto + 1) }

/-- PATINA_MEASUREMENT (R428 to R430), once every millisecond of the timebase: the ring count, the unit's temperature and the canaries' outcome are measured. -/
def execPatinaMeasurement (u : UnitNo) (rcount temp : W16) (canary : Bool) (s : State) : Host.Outcome State Fault Refusal :=
  if s.boot.init || decide (2 ≤ s.pwr.ps) || !s.due ((s.age u.val).meas + s.us 1000) then .next s
  else
    let d := s.driftOf u.val rcount.toNat temp.toInt
    let t := d.2.setAge u.val { d.2.age u.val with drift := d.1, rcount := rcount, meas := s.aon.tb }
    let t1 := if canary then t.canary u.val else t
    let a := t1.age u.val
    let big := s.otp.sh.base.isSome && decide ((s.regN oDriftTh % 1024 : Int) < a.drift - a.tdrift)
    if !a.told && (big || decide (3 ≤ a.auto)) then
      .next ((t1.setAge u.val { a with told := true }).offerUnit u.val 0x74 false)
    else .next t1

/-- TMPCMD_MEASURE (R433). -/
def execTmpcmdMeasure (req : Requester) (u : BitVec 7) (s : State) : Host.Outcome State Fault Refusal :=
  if !s.byMgmt req || decide (72 ≤ u.toNat) then .next s
  else
    let n := u.toNat
    let st := (s.role n).st
    if s.temper.busy then .next { s with temper := { s.temper with result := 2, last := n } }
    else if n < 68 ∧ st ≠ .spare ∧ st ≠ .tempering then
      .next { s with temper := { s.temper with result := 1, unit := n, last := n, ready := false } }
    else
      let t := { s with temper := { busy := true, unit := n, last := n } }
      .next (if n < 68 then t.setRole n { s.role n with st := .tempering } else t)

/-- A search fails (R434, R435): a slab is retired; a hub keeps its offset. -/
def State.searchFail (s : State) (result : Nat) : State :=
  let u := s.temper.unit
  let t := { s with temper := { s.temper with busy := false, result := result, ready := false } }
  if u < 68 then ((t.setRole u { logical := none, st := .retiredService, part := none }).forward).offerUnit u 0x75 false
  else t.offerUnit u 0x75 true

/-- MARGIN_SEARCH_COMPLETE (R434, R435): the smallest passing offset is measured; none where no offset passes at code 31. A search does not
end while VCORE is outside tolerance of the request: it restarts once VCORE is within (Table 2 of Ageing and hard limits). -/
def execMarginSearchComplete (minoff : Option (BitVec 5)) (s : State) : Host.Outcome State Fault Refusal :=
  if !s.temper.busy || s.pwr.trans then .next s
  else
    let u := s.temper.unit
    match minoff with
    | none => .next (s.searchFail 3)
    | some m =>
      let d := (s.age u).drift
      let off := Nat.min 31 (m.toNat + s.otp.sh.guard + (if u < 68 then 0 else 1))
      let fl := s.otp.sh.vfloor0 + 5 * cdiv d.toNat 10
      if s.otp.sh.vfloorMax < fl then .next (s.searchFail 4)
      else .next { s with temper := { s.temper with busy := false, result := 0, newOff := off, newFloor := fl, drift := d, ready := true } }

/-- TMPCMD_COMMIT (R50, R433, R435, R436): the result of a hub's latest pass takes effect at once, or waits in PEND in place of an earlier one. -/
def execTmpcmdCommit (req : Requester) (u : BitVec 7) (s : State) : Host.Outcome State Fault Refusal :=
  if !s.byMgmt req || !s.temper.ready || s.temper.result != 0 || s.temper.unit != u.toNat then .next s
  else
    let n := u.toNat
    let m := s.temper
    let a : UnitAge := { s.age n with tdrift := m.drift, cfail := false, auto := 0, told := false }
    let t := { s with temper := { m with ready := false, last := n } }
    if n < 68 then
      .next (((t.setAge n { a with offset := m.newOff, floor := m.newFloor, heldOff := none, heldFloor := none }).setRole n
        { s.role n with st := .spare }).forward).persistNow
    else
      let t1 := t.setAge n (if a.offset ≤ m.newOff then { a with offset := m.newOff, pend := 0 } else { a with pend := m.newOff })
      .next (t1.writeAge n (t1.age n).offset m.newFloor).persistNow

/-- TMPCMD_ABORT (R436). -/
def execTmpcmdAbort (req : Requester) (u : BitVec 7) (s : State) : Host.Outcome State Fault Refusal :=
  if s.byMgmt req && s.temper.busy && s.temper.unit == u.toNat then
    .next ({ s with temper := { s.temper with last := u.toNat } } : State).endTemper
  else .next s

/-! ### Always-on domain -/

/-- A wake source fires (R451, R453, R455): it is latched while the block is in, or entering, a low-power state. -/
def State.wakeSource (s : State) (f : Aon → Aon) : State :=
  if s.pwr.ps = 0 ∧ s.pwr.step ≠ .entering then s else { s with aon := { f s.aon with wakeReq := true } }

/-- The interrupt of comparator `n` (deadline 0 to 15, sensor 16 to 19) goes to its owner (R444, R447). -/
def State.cmpIrq (s : State) (n owner vec : Nat) : State :=
  if owner = 8 then { s with mgmtIrqs := if s.mgmtIrqs.contains n then s.mgmtIrqs else s.mgmtIrqs ++ [n] } else s.irq vec

def State.dl (s : State) (k : Nat) : Dl := Sp.get {} s.aon.dl k
def State.setDl (s : State) (k : Nat) (d : Dl) : State := { s with aon := { s.aon with dl := Sp.set {} s.aon.dl k d } }
/-- Deadlines of the timed waits of partition `p`'s cores (R325): AWAIT and SEMWAIT, queue ends, residency. -/
def State.waitTimes (s : State) (p : Nat) : List Nat :=
  (s.coresOf p).flatMap (fun c =>
    let r := (s.core c).run
    (match r.wait with
      | some (.arrive _ _ _ d) => d.toList
      | some (.sema _ _ d) => d.toList
      | none => [])
    ++ ((r.entries.map (·.deadline)) ++ ((r.fq ++ r.eq).map (·.deadline))).filter (· ≠ 0)
    ++ (match r.resSince, s.geo p with
      | some t, some g => if g.reswait = 0 then [] else [t + s.us g.reswait]
      | _, _ => []))

/-- A comparator as it stands: the block arms the one that TIMERS gives a partition for the earliest of the partition's waits (R325, R445). -/
def State.dlNow (s : State) (k : Nat) : Dl :=
  let d := s.dl k
  if s.cast.loaded && s.cast.img.timers.contains (d.owner, k) then
    match (s.waitTimes d.owner).min? with
    | some m => { d with cmp := m, arm := true }
    | none => { d with arm := false }
  else d

def State.sc (s : State) (k : Nat) : Sc := Sp.get {} s.aon.sc k
def State.setSc (s : State) (k : Nat) (d : Sc) : State := { s with aon := { s.aon with sc := Sp.set {} s.aon.sc k d } }

/-- The requester owns a comparator (R445): firmware owner 8, the driver owner 9; a partition's is written by neither. DEDUCED: log 80. -/
def owns (req : Requester) (owner : Nat) : Bool :=
  match req with
  | .host => owner == 9
  | .mgmt => owner == 8

/-- DEADLINE_WRITE (R444 to R446). -/
def execDeadlineWrite (req : Requester) (k : BitVec 4) (word : BitVec 2) (v : W32) (s : State) : Host.Outcome State Fault Refusal :=
  let d := s.dl k.toNat
  if !s.answers || !owns req d.owner then .next s
  else match word.toNat with
    | 0 => .next (s.setDl k.toNat { d with cmp := d.cmp / 2 ^ 32 * 2 ^ 32 + v.toNat })
    | 1 => .next (s.setDl k.toNat { d with cmp := d.cmp % 2 ^ 32 + 2 ^ 32 * v.toNat })
    | 2 => .next (s.setDl k.toNat
        { d with arm := v.getLsbD 0, wake := v.getLsbD 1, irq := v.getLsbD 2, fired := d.fired && !v.getLsbD 3,
                 vec := if d.owner = 9 then fld v.toNat 13 8 else d.vec })
    | _ => .next s

/-- DEADLINE_FIRE (R325, R444): a partition's comparator fires for its earliest wait, and the wait itself ends by its own event. -/
def execDeadlineFire (k : BitVec 4) (s : State) : Host.Outcome State Fault Refusal :=
  let d := s.dlNow k.toNat
  if d.arm && s.due d.cmp then
    let t := s.setDl k.toNat { d with arm := false, fired := true }
    let t1 := if d.irq then t.cmpIrq k.toNat d.owner d.vec else t
    .next (if d.wake then t1.wakeSource (fun a => { a with wDl := true }) else t1)
  else .next s

/-- SENSOR_COMPARATOR_FIRE (R447). -/
def execSensorComparatorFire (k : BitVec 2) (s : State) : Host.Outcome State Fault Refusal :=
  let x := s.sc k.toNat
  match s.scReading k.toNat with
  | none => .next s
  | some r =>
    if x.arm && x.hit r then
      let t := s.setSc k.toNat { x with arm := false, fired := true }
      let t1 := if x.irq then t.cmpIrq (16 + k.toNat) (if x.owner = 8 then 8 else 9) x.vec else t
      .next (if x.wake then t1.wakeSource (fun a => { a with wSc := true }) else t1)
    else .next s

/-- A write of word `w` of sensor comparator `k` (R447, R445: a partition's behaves as the driver's). -/
def State.writeSc (s : State) (req : Requester) (k w : Nat) (v : W32) : State :=
  let x := s.sc k
  if !owns req (if x.owner = 8 then 8 else 9) then s
  else if w = 0 then
    (s.setSc k
      { x with arm := false, held := v.getLsbD 0, wake := v.getLsbD 1, irq := v.getLsbD 2, fired := x.fired && !v.getLsbD 3,
               dir := v.getLsbD 4, vec := if x.owner = 8 then x.vec else fld v.toNat 14 9 }).armSc
  else s.setSc k { x with thresh := v.setWidth 16, hyst := fld v.toNat 23 16 }

/-- VCORE_ENVELOPE_EXCURSION (R448): VCORE has been outside tolerance for 10 µs, and no transition is in progress. -/
def execVcoreEnvelopeExcursion (s : State) : Host.Outcome State Fault Refusal :=
  match s.aon.vOut with
  | none => .next s
  | some t =>
    if !s.aon.venv && s.pwr.on && !s.pwr.trans && s.due (t + s.us 10) then
      .next (({ s with aon := { s.aon with venv := true } } : State).offer { code := 0x73, unit := 12 })
    else .next s

/-- REFERENCE_LOST (R443). -/
def execReferenceLost (s : State) : Host.Outcome State Fault Refusal :=
  if s.boot.cold || s.aon.refLost then .next s
  else .next (({ s with aon := { s.aon with refLost := true } } : State).offer { code := 0x7C, esc := true, unit := 12 })

/-- REFERENCE_RESUMED (R443). -/
def execReferenceResumed (s : State) : Host.Outcome State Fault Refusal :=
  .next { s with aon := { s.aon with refLost := false } }

/-- Capture the upper timebase bits for a requester (R442). -/
def State.captureTb (s : State) (req : Requester) : State :=
  let hi := BitVec.ofNat 32 (s.aon.tb / 2 ^ 32)
  match req with
  | .host => { s with aon := { s.aon with capHost := hi } }
  | .mgmt => { s with aon := { s.aon with capMgmt := hi } }

/-- TBLO_READ (R442). -/
def execTbloRead (req : Requester) (s : State) : Host.Outcome State Fault Refusal :=
  if s.answers then .next (s.captureTb req) else .next s

end Sys2Proof.Machine
end

