-- ==== Sys2Proof/Machine/Mgmt.lean ====
section
/-! DEFINITION. Machine/Mgmt.lean: the management core: loading, interface version, commands, log ring, watchdog and live update
(R465 to R477). What firmware does is modelled where the spec states it as an effect of a command (DESIGN CHOICE, log 34). -/

namespace Sys2Proof.Machine

/-! ### Loading (R466, R467, R476) -/

/-- The image header passes (Table 1, R467). -/
def fwImageOk (img : List Byte) : Bool :=
  let n := bytesNat (img.take 64)
  let w (i : Nat) := fld n (32 * i + 31) (32 * i)
  w 0 == 0x0A5EF1A0 && decide (w 1 < 65536) && decide (64 ≤ w 2) && decide (w 2 ≤ 786432) && w 2 % 32 == 0
    && decide (w 3 < w 2) && w 3 % 4 == 0 && n / 2 ^ 128 == 0 && decide (w 2 ≤ img.length)

/-- Firmware starts: its own state as after a cold load. -/
def Mgmt.fresh (m : Mgmt) : Mgmt := { m with policy := 2, unack := [], ackLater := [], updating := false, logHeld := [] }

/-- LDCMD_COLD_LOAD (R467, R477): host only; refused while RUN is 1. -/
def execLdcmdColdLoad (req : Requester) (s : State) : Host.Outcome State Fault Refusal :=
  if !s.byHost req || s.mgmt.load.isSome then .next s
  else if s.mgmt.run then .next { s with mgmt := { s.mgmt with ldResult := 1 } }
  else .next { s with mgmt := { s.mgmt with load := some 1 } }

/-- LDCMD_HANDOFF_LOAD (R476): firmware only; the watchdog is suspended. -/
def execLdcmdHandoffLoad (req : Requester) (s : State) : Host.Outcome State Fault Refusal :=
  if !s.byMgmt req || !s.mgmt.run || s.mgmt.load.isSome then .next s
  else .next { s with mgmt := { s.mgmt with load := some 2, wdSusp := some s.aon.tb } }

/-- The image is in SRAM and the core starts at ENTRY (R467 step 4); a handoff keeps SRAM from 0x000F_C000 upward. -/
def State.fwStart (s : State) (img : List Byte) (handoff : Bool) : State :=
  let n := bytesNat (img.take 64)
  let keep : Memory := if handoff then s.mgmt.sram.filter (fun c => decide (0xFC000 ≤ c.1)) else []
  { s with mgmt := { s.mgmt with
      sram := lsPut keep 0 (img.take (fld n 95 64)), run := true, cause := if handoff then 4 else 1, imgLen := fld n 95 64,
      entry := fld n 127 96, imgIfver := fld n 47 32, load := none, ldResult := 0, wdKick := s.aon.tb,
      persistAt := if handoff then s.mgmt.persistAt else s.aon.tb,
      wdSusp := if handoff then s.mgmt.wdSusp else none } }

/-- Complete the acknowledgements that an update carried (R476). -/
def State.ackCarried (s : State) : State :=
  { s with mgmt := { s.mgmt with
      unack := s.mgmt.ackLater.foldl (fun l x => l.erase x) s.mgmt.unack, ackLater := [],
      cmdBusy := if s.mgmt.ackLater.isEmpty then s.mgmt.cmdBusy else false,
      cmdResult := if s.mgmt.ackLater.isEmpty then s.mgmt.cmdResult else 0 } }

/-- FIRMWARE_LOAD_COMPLETE (R467, R476): the MGT_LOADLEN bytes read over the host port are checked. `accepts` is whether a handoff record passes
the new firmware's own checks. -/
def execFirmwareLoadComplete (img : List Byte) (accepts : Bool) (s : State) : Host.Outcome State Fault Refusal :=
  match s.mgmt.load with
  | none => .next s
  | some op =>
    let img := img.take (s.regN oLoadLen)
    if !s.hostUp then .next s
    else if !fwImageOk img then .next { s with mgmt := { s.mgmt with load := none, ldResult := 2, run := false } }
    else if op = 1 then
      let t := s.fwStart img false
      .next { t with mgmt := t.mgmt.fresh }
    else
      let old := s.mgmt.ifver.toNat % 65536
      let t := s.fwStart img true
      if accepts then
        let t1 := ({ t with mgmt := { t.mgmt with updating := false } } : State).ackCarried
        .next (t1.log 6 false [old, t.mgmt.imgIfver, 1])
      else
        let t1 := ({ t with mgmt := t.mgmt.fresh } : State).offer { code := 0x79, esc := true, unit := 13 }
        .next (t1.log 6 false [old, t.mgmt.imgIfver, 0])

/-- IFVER_WRITE (R468, R477). -/
def execIfverWrite (req : Requester) (v : W32) (s : State) : Host.Outcome State Fault Refusal :=
  if s.byMgmt req then .next { s with mgmt := { s.mgmt with ifver := BitVec.ofNat 32 (v.toNat % 2 ^ 17) } } else .next s

/-! ### Commands (R469, R471) -/

/-- The driver writes MGT_CMDARG and MGT_CMD: ignored while BUSY; with firmware running, `f` is what firmware does, and RESULT its
answer; during an update RESULT is 1 (R476). -/
def State.command (s : State) (req : Requester) (op : Nat) (arg : W32) (f : State → State × Nat) : State :=
  if !s.byHost req || s.mgmt.cmdBusy then s
  else
    let t := { s with mgmt := { s.mgmt with cmdArg := arg, cmdOp := op, cmdBusy := true } }
    if !t.mgmt.run then t
    else if t.mgmt.updating then { t with mgmt := { t.mgmt with cmdBusy := false, cmdResult := 1 } }
    else
      let r := f t
      { r.1 with mgmt := { r.1.mgmt with cmdBusy := false, cmdResult := r.2 } }

/-- CMD_ACK (R471, R476): during an update the acknowledgement is carried into the record. -/
def execCmdAck (req : Requester) (v : W32) (s : State) : Host.Outcome State Fault Refusal :=
  let q := v.toNat % 65536
  if s.byHost req && !s.mgmt.cmdBusy && s.mgmt.run && s.mgmt.updating then
    .next { s with mgmt := { s.mgmt with cmdArg := v, cmdOp := 1, cmdBusy := true, ackLater := s.mgmt.ackLater ++ [q] } }
  else .next (s.command req 1 v (fun t =>
    if t.mgmt.unack.contains q then ({ t with mgmt := { t.mgmt with unack := t.mgmt.unack.erase q } }, 0) else (t, 3)))

/-- CMD_UPDATE (R476 step 1). -/
def execCmdUpdate (req : Requester) (v : W32) (s : State) : Host.Outcome State Fault Refusal :=
  .next (s.command req 3 v (fun t =>
    if v ≠ 0#32 then (t, 2) else ({ t with mgmt := { t.mgmt with updating := true } }, 0)))

/-- CMD_POLICY (Table 2). -/
def execCmdPolicy (req : Requester) (v : W32) (s : State) : Host.Outcome State Fault Refusal :=
  .next (s.command req 4 v (fun t =>
    if 4 ≤ v.toNat then (t, 2) else ({ t with mgmt := { t.mgmt with policy := v } }, 0)))

/-- CMD_SAVE (R474). -/
def execCmdSave (req : Requester) (v : W32) (s : State) : Host.Outcome State Fault Refusal :=
  .next (s.command req 5 v (fun t => if v ≠ 0#32 then (t, 2) else (t.persist, 0)))

/-! ### Watchdog (R475) -/

/-- WDKICK: host writes are ignored (R477). -/
def execWdkick (req : Requester) (s : State) : Host.Outcome State Fault Refusal :=
  if s.byMgmt req then .next { s with mgmt := { s.mgmt with wdKick := s.aon.tb, wdSusp := none } } else .next s

/-- Self-test is abandoned (R488). -/
def State.abortSelfTest (s : State) : State :=
  if s.boot.stActive then { s with boot := { s.boot with stActive := false, stResult := 3, stPhase := 0 } } else s

/-- The management core is reset, SRAM kept, and restarted with a cause (R475, R465); a damaged image leaves it held. -/
def State.mgmtRestart (s : State) (code cause : Nat) (bad : Bool) : State :=
  let t := (s.abortSelfTest).offer { code := code, esc := true, unit := 13 }
  let m := { t.mgmt with wdKick := t.aon.tb, wdSusp := none, updating := false, load := none }
  if bad then { t with mgmt := { m with run := false, cause := 5 } }
  else ({ t with mgmt := { m with run := true, cause := cause } } : State).log 5 false
    [cause, (t.mgmt.unack.headD 0)]

/-- The watchdog has expired. -/
def State.wdExpired (s : State) : Bool :=
  s.mgmt.run && decide (s.pwr.ps < 2) && (match s.mgmt.wdSusp with
    | some t => s.due (t + s.us 100000)
    | none => s.due (s.mgmt.wdKick + s.us (1000 * (s.regN oWdt % 256))))

/-- WATCHDOG_EXPIRY (R475): `imageBad` is the outcome of the check of the image's guard bits. -/
def execWatchdogExpiry (imageBad : Bool) (s : State) : Host.Outcome State Fault Refusal :=
  if s.wdExpired then .next (s.mgmtRestart 0x70 2 imageBad) else .next s

end Sys2Proof.Machine
end

