-- ==== Sys2Proof/Machine/Boot.lean ====
section
/-! DEFINITION. Machine/Boot.lean: resets, start-up, self-test and the power states (R449 to R455, R478 to R489). -/

namespace Sys2Proof.Machine

/-! ### Resets -/

/-- What no reset of the block touches: the queue of commands, the tiers, host memory, the MACs' link reports, the model's own
fields. -/
def State.bare (s : State) : State :=
  { pending := s.pending, fc := s.fc, v64 := s.v64, tierA := s.tierA, tierB := s.tierB, hostOut := s.hostOut,
    link := { up := s.link.up } }

/-- Everything is reset and cold reset is asserted (R478). -/
def State.coldReset (s : State) (cause : Nat) (vaon testmode : Bool) : State :=
  let t := s.otpAbort
  { t.bare with
    otp := { arr := t.otp.arr, testmode := testmode },
    boot := { vaon := vaon, cause := cause, blk := s.boot.blk } }

/-- Deadline comparators after a reset that unloads the casting: firmware owns them again (R445). -/
def freeDl (m : Sp Dl) : Sp Dl :=
  m.map (fun c => if c.2.owner = 8 then c else (c.1, { c.2 with owner := 8, arm := false, fired := false }))
def freeSc (m : Sp Sc) : Sp Sc :=
  m.map (fun c => if c.2.owner = 8 then c else (c.1, { c.2 with owner := 8, arm := false, fired := false }))

/-- Slabs, hubs and the management core are reset; the always-on domain, AON_REFFREQ, the OTP and the straps stay (R478), and with the
domain its power-state controller while VCORE is off (R439). Hub offsets waiting in PEND stay for the reset to apply (R435).
DEDUCED: log 141. -/
def State.blockReset (s : State) (cause : Nat) : State :=
  { s.bare with
    regs := Sp.set (regReset oRefFreq) [] oRefFreq (s.reg oRefFreq),
    aon := { s.aon with dl := freeDl s.aon.dl, sc := freeSc s.aon.sc },
    otp := s.otp,
    ages := s.ages.filter (fun c => decide (68 ≤ c.1)),
    pwr := { on := s.pwr.on, fwd := s.pwr.fwd, ceilWin := Nat.max 200 s.otp.sh.pceil,
             ps := if s.pwr.ps < 2 then 0 else s.pwr.ps, target := if s.pwr.ps < 2 then 0 else s.pwr.target,
             step := if s.pwr.ps < 2 then .none_ else s.pwr.step },
    boot := { s.boot with
      init := true, initRun := false, cause := cause, castBegun := false, stActive := false, stDone := false, stResult := 0,
      stPhase := 0, stNfail := 0, stFail := [] } }

/-- The role of a slab after reset, from ROLE of the OTP (R25, R460). `l` is the next logical number. -/
def roleAfter (role l : Nat) : Role × Nat :=
  match role with
  | 0 => if l < 64 then ({ logical := some l, st := .active }, l + 1) else ({ st := .spare }, l)
  | 1 => ({ st := .spare }, l)
  | 2 => ({ st := .retiredTest }, l)
  | _ => ({ st := .retiredService }, l)

/-- Map logical slabs in ascending physical order (R25). DEDUCED: log 71. -/
def State.mapSlabs (s : State) : State :=
  ((List.range 68).foldl (fun (x : State × Nat) p =>
    let r := roleAfter (Sp.get 2 s.otp.sh.roles p) x.2
    let t := x.1.setRole p r.1
    (match r.1.logical with
      | some l => { t with lmap := Sp.set none t.lmap l (some p) }
      | none => t, r.2)) ({ s with roles := [], lmap := [] }, 0)).1

/-- Taps and floors from RSTOFF and RSTFLOOR (R480); a hub's offset in PEND applies (R435). A shortening held under R49 (HELD) is dropped, and the
reset values stand in its place. DEDUCED: log 81. -/
def State.loadTaps (s : State) : State :=
  (List.range 72).foldl (fun t u =>
    let p := (s.age u).pend
    t.setAge u { offset := if 68 ≤ u && p != 0 then p else s.otp.sh.rstOff, floor := s.otp.sh.rstFloor }) { s with ages := [] }

/-- Bypasses of the repair map (R110). -/
def State.loadBypass (s : State) : State :=
  s.otp.sh.bypass.foldl (fun t x => t.updSt (x.1 / 2) (fun st =>
    let w : W32 := BitVec.ofNat 32 (x.2 % 8 + 8)
    if x.1 % 2 = 1 then { st with bypB := w } else { st with bypA := w })) s

/-- The initialisation of R480 begins. -/
def State.startInit (s : State) : State :=
  let t := ((s.mapSlabs).loadTaps).loadBypass
  { t with boot := { t.boot with initRun := true } }

/-- COLD_RESET_ASSERT (R478, R504, R506): TESTMODE is sampled while cold reset is asserted. -/
def execColdResetAssert (testmode : Bool) (s : State) : Host.Outcome State Fault Refusal :=
  if s.boot.cold then .next { s with
    otp := { s.otp with testmode := testmode }, boot := { s.boot with vaon := true } }
  else .next (s.coldReset 1 true testmode)

/-- Request VCORE on at FWD of R422 (R479 step 2). -/
def State.vcoreOn (s : State) : State :=
  { s with pwr := { s.pwr with on := true, fwd := s.fwdActive, trans := true, ceilWin := Nat.max 200 s.otp.sh.pceil } }

/-- COLD_RESET_RELEASE (R440, R461, R479, R491). FLOOR before initialisation is RSTFLOOR. -/
def execColdResetRelease (tierA tierB : Bool) (s : State) : Host.Outcome State Fault Refusal :=
  if !s.boot.cold || !s.boot.vaon then .next s
  else
    let t := ({ s with
      boot := { s.boot with cold := false, ea := tierA, eb := tierB }, aon := { s.aon with tb := 0 } } : State).loadOtp
    .next (t.loadTaps).vcoreOn

/-- BLOCK_RESET_ASSERT (R478, R488). -/
def execBlockResetAssert (s : State) : Host.Outcome State Fault Refusal :=
  if s.boot.cold then .next { s with boot := { s.boot with blk := true } }
  else
    let t := s.blockReset 2
    .next { t with boot := { t.boot with blk := true } }

/-- BLOCK_RESET_RELEASE (R479, R480): held internally until power-good. -/
def execBlockResetRelease (s : State) : Host.Outcome State Fault Refusal :=
  if !s.boot.blk then .next s
  else
    let t := { s with boot := { s.boot with blk := false } }
    .next (if t.boot.pgood && !t.boot.cold && t.otp.loaded && decide (t.pwr.ps < 2) then t.startInit else t)

/-- INIT_COMPLETE (R480, R503, R454): every source 0 to 8 has reported; after deep sleep VEC is raised when VECEN is 1. -/
def execInitComplete (s : State) : Host.Outcome State Fault Refusal :=
  if s.boot.initRun && s.boot.init && !s.boot.blk && !s.boot.cold && (List.range 9).all (fun k => (s.sensor k).seen) then
    let t := ({ s with boot := { s.boot with init := false, initRun := false } } : State).forward
    .next (if s.boot.cause = 3 && s.aon.vecEn then t.irq s.aon.vec else t)
  else .next s

/-! ### Power states -/

/-- A partition has a bound stream or a waiting completion entry, or an update step runs (R450). -/
def State.busyWork (s : State) : Bool :=
  s.cores.any (fun c => c.2.run.run.isSome || !c.2.run.list.isEmpty) || s.rings.any (fun c => !c.2.waiting.isEmpty) || s.upd.busy

/-- What else refuses retention and deep sleep (R450). -/
def State.busyDeep (s : State) : Bool :=
  s.cast.busy.isSome || s.cast.sw.isSome || s.temper.busy || s.subst.isSome || !s.link.peers.isEmpty || !s.link.evicting.isEmpty
    || s.link.rounds.any (fun c => c.2.st == 1) || s.fq.count != 0 || !s.fq.offered.isEmpty

/-- Firmware's power-state request (R450). -/
def State.psRequest (s : State) (req : Requester) (deep : Bool) (f : State → State) : State :=
  if !s.byMgmt req || s.pwr.step != .none_ then s
  else if s.pwr.quench || s.busyWork || (deep && s.busyDeep) then { s with pwr := { s.pwr with psResult := 1 } }
  else f { s with pwr := { s.pwr with psResult := 0 } }

/-- PSCMD_ACTIVE. -/
def execPscmdActive (req : Requester) (s : State) : Host.Outcome State Fault Refusal :=
  .next (s.psRequest req false (fun t => ({ t with pwr := { t.pwr with ps := 0, target := 0 } } : State).forward))

/-- PSCMD_IDLE (R451): FLOOR is forwarded. -/
def execPscmdIdle (req : Requester) (s : State) : Host.Outcome State Fault Refusal :=
  .next (s.psRequest req false (fun t => ({ t with
    pwr := { t.pwr with ps := 1, target := 1 }, aon := { t.aon with wakeReq := false } } : State).forward))

/-- PSCMD_RETENTION (R452): entry begins; the idle step takes step 4 when it may. -/
def execPscmdRetention (req : Requester) (s : State) : Host.Outcome State Fault Refusal :=
  .next (s.psRequest req true (fun t => { t with
    pwr := { t.pwr with target := 2, step := .entering }, aon := { t.aon with wakeReq := false } }))

/-- PSCMD_DEEP_SLEEP (R454). -/
def execPscmdDeepSleep (req : Requester) (s : State) : Host.Outcome State Fault Refusal :=
  .next (s.psRequest req true (fun t => { t with
    pwr := { t.pwr with target := 3, step := .entering }, aon := { t.aon with wakeReq := false } }))

/-- VCORE is requested on for a wake (R453, R454): deep sleep reloads the shadow and acts as a block reset. Interrupts that fell due in
deep sleep are still to be delivered (R444). -/
def State.wakeOn (s : State) : State :=
  if s.pwr.target = 3 then
    let t := ({ (s.loadOtp).blockReset 3 with ages := [] } : State).loadTaps
    ({ t with
      irqs := s.irqs, mgmtIrqs := s.mgmtIrqs, pwr := { t.pwr with ps := 3, target := 3, step := .waking } } : State).vcoreOn
  else ({ s with pwr := { s.pwr with step := .waking } } : State).vcoreOn

/-- WAKE (R451, R453, R455): a latched wake source acts. -/
def execWake (s : State) : Host.Outcome State Fault Refusal :=
  if !s.aon.wakeReq then .next s
  else
    let t := { s with aon := { s.aon with wakeReq := false } }
    match s.pwr.step with
    | .entering => .next (({ t with pwr := { t.pwr with step := .none_, ps := 0, psResult := 3 } } : State).forward)
    | .offWait _ => .next { t with pwr := { t.pwr with step := .offWait true } }
    | .off => .next t.wakeOn
    | .waking => .next t
    | .none_ =>
      if s.pwr.ps = 1 then .next (({ t with pwr := { t.pwr with ps := 0, psResult := 0 } } : State).forward) else .next t

/-- HOST_WAKE (R504): sampled only in retention and deep sleep. -/
def execHostWake (s : State) : Host.Outcome State Fault Refusal :=
  if 2 ≤ s.pwr.ps then .next (s.wakeSource (fun a => { a with wHost := true })) else .next s

/-- LINK_ACTIVITY (R451). -/
def execLinkActivity (s : State) : Host.Outcome State Fault Refusal :=
  if s.aon.linkWake then .next (s.wakeSource (fun a => { a with wLink := true })) else .next s

/-- A core after retention: its stores, banks, curves, kept tables, base, region and streams stay; the rest is as at block reset
(Table 2). A wake is no block reset, so bypasses, held ones too, stay, and the core has issued since reset as before (R110). -/
def coreAfterRetention (k : Core) : Core :=
  let keep (a : CoreArch) : CoreArch :=
    { bank0 := a.bank0, bank1 := a.bank1, bankAct := a.bankAct, curve0 := a.curve0, curve1 := a.curve1, curveAct := a.curveAct,
      store := a.store, strs := a.strs, kept := a.kept, dbase := a.dbase, region := a.region }
  { cur := keep k.cur, rp := keep k.rp, run := { ranSince := k.run.ranSince },
    st := { ls := k.st.ls, o2en := k.st.o2en, bypA := k.st.bypA, bypB := k.st.bypB, holdA := k.st.holdA, holdB := k.st.holdB } }

/-- The measurements of a unit are reset in retention; its offset, floor, TDRIFT and PEND are kept (Table 2, R453). -/
def ageAfterRetention (a : UnitAge) : UnitAge := { offset := a.offset, floor := a.floor, tdrift := a.tdrift, pend := a.pend, meas := a.meas }

/-- The watchdog has not counted in retention (R452, R475). -/
def Mgmt.slept (m : Mgmt) (n : Nat) : Mgmt := { m with wdKick := m.wdKick + n, wdSusp := m.wdSusp.map (· + n) }

/-- The block after retention (R453, Table 2): the configuration shadow is restored, other slab and hub state is as at block reset. DEDUCED: log 79. -/
def State.afterRetention (s : State) : State :=
  { s with
    cores := s.cores.map (fun c => (c.1, coreAfterRetention c.2)),
    mesh := [], posts := [], items := [], credits := [], strand := [], trspWait := [], tlb := [], memq := [], treqs := [], tap := none, dlog := [], hostReqs := [], ptinv := [],
    link := { up := s.link.up, dedup := s.link.dedup, firsts := s.link.firsts },
    regs := s.regs.filter (fun x => decide (0x00100000 ≤ x.1) && decide (x.1 < 0x00800000)),
    rings := [], upd := { seq := s.upd.seq },
    ages := s.ages.map (fun c => (c.1, ageAfterRetention c.2)), mgmt := s.mgmt.slept (s.aon.tb - s.pwr.offAt),
    pwr := { s.pwr with ps := 0, psResult := 0, step := .none_ } }

/-- POWER_GOOD (R479, R453, R454): power-up or a wake goes on; firmware reports a wake from retention (R453, R470). -/
def execPowerGood (s : State) : Host.Outcome State Fault Refusal :=
  let t := { s with boot := { s.boot with pgood := true } }
  match s.pwr.step with
  | .waking =>
    if s.pwr.ps = 3 ∨ s.boot.init = true then
      let u : State := { t with pwr := { t.pwr with ps := 0, target := 0, step := .none_ } }
      .next (if s.boot.blk then u else u.startInit)
    else
      let a := s.aon
      .next ((t.afterRetention).log 4 false
        [b2n a.wDl + 2 * b2n a.wSc + 4 * b2n a.wHost + 8 * b2n a.wLink + 16 * b2n a.linkWake + 32 * b2n a.vecEn + 64 * a.vec])
  | _ =>
    if s.pwr.on && s.boot.init && !s.boot.initRun && !s.boot.blk && !s.boot.cold && s.otp.loaded then .next t.startInit else .next t

/-- POWER_GOOD_DEASSERT (R455): only then may a waiting wake request VCORE on again. -/
def execPowerGoodDeassert (s : State) : Host.Outcome State Fault Refusal :=
  let t := { s with boot := { s.boot with pgood := false } }
  match s.pwr.step with
  | .offWait true => .next t.wakeOn
  | .offWait false => .next { t with pwr := { t.pwr with step := .off } }
  | _ => .next t

/-- VAON_LOSS (R439, R463): all activity ends; an interrupted OTP generation stays programmed and fails its check. -/
def execVaonLoss (s : State) : Host.Outcome State Fault Refusal :=
  .next (s.coldReset 0 false false)

/-! ### Self-test (R484 to R488) -/

/-- The staging range (R330). DESIGN CHOICE: log 116. -/
def State.stage (s : State) : Nat := s.regN oCastStg % 2 ^ 19 * 2 ^ 21

/-- The self-test image's header passes (R484). -/
def State.stHeaderOk (s : State) : Bool :=
  let n := Memory.nat s.tierA s.stage 64
  fld n 31 0 == 0x0A5E5E1F && fld n 63 32 == s.mgmt.ifver.toNat % 65536 && decide (fld n 95 64 ≤ 8388608) && fld n 95 64 % 32 == 0
    && n / 2 ^ 96 == 0

/-- STCMD_START (R484, R485, R489): a failed header check sets RESULT 2, any other refusal RESULT 4. DEDUCED: log
159. -/
def execStcmdStart (req : Requester) (s : State) : Host.Outcome State Fault Refusal :=
  if !s.byMgmt req || s.boot.stActive then .next s
  else if s.cast.loaded || s.cast.busy.isSome then .next { s with boot := { s.boot with stResult := 4 } }
  else if !s.stHeaderOk then .next { s with boot := { s.boot with stResult := 2 } }
  else .next { s with boot := { s.boot with stActive := true, stDone := false, stPhase := 1, stFail := [], stNfail := 0 } }

/-- STCMD_ABORT (R488). -/
def execStcmdAbort (req : Requester) (s : State) : Host.Outcome State Fault Refusal :=
  if s.byMgmt req then .next s.abortSelfTest else .next s

/-- The spare that self-test maps to a failed slab's number: R486 orders the mapping and does not say which spare is taken; the model takes the
lowest-numbered one. DESIGN CHOICE: log 150. -/
def State.firstSpare (s : State) : Option Nat := (List.range 68).find? (fun p => (s.role p).st == .spare)

/-- A map change bracketed by its two increments of GEN (R30). -/
def State.mapChange (s : State) (f : State → State) : State :=
  let t := f { s with mapgen := (s.mapgen + 1) % 2 ^ 32 }
  { t with mapgen := (t.mapgen + 1) % 2 ^ 32 }

/-- A failed slab is retired (R486). -/
def State.retire (s : State) (p : Nat) : State := s.setRole p { logical := none, st := .retiredService, part := none }

/-- A spare takes the logical number, or it stays unmapped. -/
def State.remap (s : State) (l : Nat) : State :=
  match s.firstSpare with
  | none => { s with lmap := Sp.set none s.lmap l none }
  | some q => { s.setRole q { logical := some l, st := .active, part := none } with lmap := Sp.set none s.lmap l (some q) }

/-- SELF_TEST_COMPLETE (R486): the slabs that failed, the cores whose cross-check failed and the hubs that failed are measured. DESIGN CHOICE: log 82. -/
def execSelfTestComplete (slabs : List SlabNo) (cross : List CoreNo) (hubs : List (BitVec 2)) (s : State) :
    Host.Outcome State Fault Refusal :=
  if !s.boot.stActive then .next s
  else
    let bad := (List.range 68).filter (fun p =>
      !(s.role p).st.retired && (slabs.any (fun x => x.val = p) || cross.any (fun c => c.val / 32 = p)))
    let t1 := cross.foldl (fun t c => t.offerCore c.val { code := 0x1C, unit := 5 }) s
    let logical := bad.filterMap (fun p => (s.role p).logical)
    let t2 := if bad.isEmpty then t1 else
      t1.mapChange (fun t => logical.foldl State.remap (bad.foldl State.retire t))
    let t3 := hubs.foldl (fun t h => t.offer { code := 0x28, esc := true, unit := 10, hub := h.toNat }) t2
    .next ({ t3 with boot := { t3.boot with
      stActive := false, stDone := true, stPhase := 0, stNfail := bad.length, stFail := bad,
      stResult := if bad.isEmpty && hubs.isEmpty then 0 else 1 } } : State).forward

end Sys2Proof.Machine
end

