-- ==== Sys2Proof/Machine/ExecCarry.lean ====
section
/-! DEFINITION. Machine/ExecCarry.lean: the meanings of the carry slot (R179 to R208, R313). -/

namespace Sys2Proof.Machine

/-- A carry instruction named by a command: the carry unit is never paced, so an issued one runs under a hold of the governor; issue
waits (R55). -/
def State.onCarry (s : State) (c : Nat) (i : Instr) (run : ExecF) : Host.Outcome State Fault Refusal :=
  if s.pwr.hold then
    match headEntry .carry (s.core c).run.entries with
    | some h => if h.instr = i then s.onCoreFree c (fun e r => tryRun e h always run r) else .next s
    | none => .next s
  else s.onCore c (fun e r => slotStep e .carry i always run r)

/-- CSTEP (R189): Steps T positions of one to four streams, optionally with readout, reset marks, cumulative decay, emit or FINISH. -/
def execCstep (c : CoreNo) (f : CStepF) (s : State) : Host.Outcome State Fault Refusal :=
  s.onCarry c.val (.cstep c f) (cstepRun f)

/-- CADJ (R201): Runs the adjoint recurrence in reverse time over T positions. -/
def execCadj (c : CoreNo) (f : CStepF) (s : State) : Host.Outcome State Fault Refusal :=
  s.onCarry c.val (.cadj c f) (cadjRun f)

/-- CKGEN (R199): Generates a convolution kernel of length L from a decay and a weight. -/
def execCkgen (c : CoreNo) (blk : BitVec 13) (rt : BitVec 5) (s : State) : Host.Outcome State Fault Refusal :=
  s.onCarry c.val (.ckgen c blk rt) (ckgenRun)

/-- CSET (R206): Writes a slice or parameter range from the local store, a constant fill or a product. -/
def execCset (c : CoreNo) (f : CSetF) (s : State) : Host.Outcome State Fault Refusal :=
  s.onCarry c.val (.cset c f) (csetRun f)

/-- CGET (R206): Writes a slice or parameter range to the local store. -/
def execCget (c : CoreNo) (f : CGetF) (s : State) : Host.Outcome State Fault Refusal :=
  s.onCarry c.val (.cget c f) (cgetRun f)

/-- CCMP (R207): Compares two local-store ranges against a relative bound and reports the first failure. -/
def execCcmp (c : CoreNo) (f : CCmpF) (s : State) : Host.Outcome State Fault Refusal :=
  s.onCarry c.val (.ccmp c f) (ccmpRun f)

/-- CRESET (R219): Sets the issuing core's reset flag for a stream. -/
def execCreset (c : CoreNo) (id : W16) (s : State) : Host.Outcome State Fault Refusal :=
  s.onCarry c.val (.creset c id) (cresetRun id.toNat)

end Sys2Proof.Machine
end

