-- ==== Sys2Proof/Machine/ExecMatrix.lean ====
section
/-! DEFINITION. Machine/ExecMatrix.lean: the meanings of the matrix slots and of the arrays' own events (R88 to R128, R143, R203). -/

namespace Sys2Proof.Machine

/-- A matrix instruction named by a command (DESIGN CHOICE, log 28): where it heads its array's queue the array runs it; otherwise it issues first. -/
def mmStep (e : CEnv) (arr : Bool) (i : Instr) (r : CRes) : CRes :=
  let r1 := match headEntry (.arr arr) r.k.run.entries with
    | some h => if h.instr = i then r else issueOne e i r
    | none => issueOne e i r
  match headEntry (.arr arr) r1.k.run.entries with
  | some h => if h.instr = i then matrixExecute e arr r1 else r1
  | none => r1

/-- MAC (R88): Matrix multiply-add of a stationary and a streaming operand into accumulator tiles, optionally batched or sliding. -/
def execMac (c : CoreNo) (arr : Bool) (f : MMul) (s : State) : Host.Outcome State Fault Refusal :=
  s.onCore c.val (fun e r => mmStep e arr (.mac c arr f) r)

/-- SQD (R102): Matrix sum of squared differences into accumulator tiles. -/
def execSqd (c : CoreNo) (arr : Bool) (f : MMul) (s : State) : Host.Outcome State Fault Refusal :=
  s.onCore c.val (fun e r => mmStep e arr (.sqd c arr f) r)

/-- ABD (R102): Matrix sum of absolute differences into accumulator tiles. -/
def execAbd (c : CoreNo) (arr : Bool) (f : MMul) (s : State) : Host.Outcome State Fault Refusal :=
  s.onCore c.val (fun e r => mmStep e arr (.abd c arr f) r)

/-- MINP (R104): Matrix min-plus combination into accumulator tiles. -/
def execMinp (c : CoreNo) (arr : Bool) (f : MMul) (s : State) : Host.Outcome State Fault Refusal :=
  s.onCore c.val (fun e r => mmStep e arr (.minp c arr f) r)

/-- MAXP (R104): Matrix max-plus combination into accumulator tiles. -/
def execMaxp (c : CoreNo) (arr : Bool) (f : MMul) (s : State) : Host.Outcome State Fault Refusal :=
  s.onCore c.val (fun e r => mmStep e arr (.maxp c arr f) r)

/-- WOUT (R118): Writes accumulator tiles out to the local store or the finished-tile queue with one rounding. -/
def execWout (c : CoreNo) (arr : Bool) (f : WOut) (s : State) : Host.Outcome State Fault Refusal :=
  s.onCore c.val (fun e r => mmStep e arr (.wout c arr f) r)

/-- WOUTG (R203): Gated write-out delivering G(z) times v from tiles of both arrays. -/
def execWoutg (c : CoreNo) (arr : Bool) (f : WOut) (s : State) : Host.Outcome State Fault Refusal :=
  s.onCore c.val (fun e r => mmStep e arr (.woutg c arr f) r)

/-- MATRIX_EXECUTE (R92): An array starts and runs the passes of an issued matrix instruction by the folding rule once its operands are ready. -/
def execMatrixExecute (c : CoreNo) (arr : Bool) (s : State) : Host.Outcome State Fault Refusal :=
  s.onCore c.val (fun e r => matrixExecute e arr r)

/-- FILL_DEADLINE_EXPIRY (R107): The batch's fill deadline expires on the timebase and the open batch dispatches. -/
def execFillDeadlineExpiry (c : CoreNo) (arr : Bool) (s : State) : Host.Outcome State Fault Refusal :=
  if s.aon.refLost then .next s else s.onCore c.val (fun e r => fillExpiry e arr r)

/-- TILE_ENQUEUE (R143): A pending write-out enters its tile into the finished-tile queue once the queue has room. -/
def execTileEnqueue (c : CoreNo) (arr : Bool) (s : State) : Host.Outcome State Fault Refusal :=
  s.onCore c.val (fun _ r => tileEnqueue arr r)

/-- A write of COR_NANTRAP (R127, R128, R13): ARM takes the written bit, and FIRED clears where 1 is written. -/
def nantrapWrite (v : W32) (x : CoreStore) : CoreStore :=
  let a := if v.getLsbD 0 then x.nantrap ||| 1#32 else x.nantrap &&& ~~~1#32
  { x with nantrap := if v.getLsbD 1 then a &&& ~~~2#32 else a }

/-- NANTRAP_ARM (R127): A write of ARM to COR_NANTRAP arms the first-NaN trap. -/
def execNantrapArm (req : Requester) (c : CoreNo) (s : State) : Host.Outcome State Fault Refusal :=
  let _ := req
  if s.slabAnswers (c.val / 32) then .next (s.updSt c.val (nantrapWrite 1#32)) else .next s

/-- NANTRAP_CLEAR_FIRED (R127): Clearing FIRED in COR_NANTRAP resumes the core's issue. -/
def execNantrapClearFired (req : Requester) (c : CoreNo) (s : State) : Host.Outcome State Fault Refusal :=
  let _ := req
  if s.slabAnswers (c.val / 32) then .next (s.updSt c.val (fun x => { x with nantrap := x.nantrap &&& ~~~2#32 })) else .next s

/-- The bypass register of an array. -/
def CoreStore.byp (x : CoreStore) (arr : Bool) : W32 := if arr then x.bypB else x.bypA
def CoreStore.setByp (x : CoreStore) (arr : Bool) (v : W32) : CoreStore := if arr then { x with bypB := v } else { x with bypA := v }
def CoreStore.hold (x : CoreStore) (arr : Bool) : Option Nat := if arr then x.holdB else x.holdA
def CoreStore.setHold (x : CoreStore) (arr : Bool) (v : Option Nat) : CoreStore :=
  if arr then { x with holdB := v } else { x with holdA := v }

/-- The core is halted for recovery or counts as in reset (R110; DEDUCED, log 30). -/
def bypassNow (r : CoreRun) : Bool := !r.ranSince || r.recov == 1 || r.recov == 2 || r.halt == some 0x2A

/-- A bypass set in service takes effect (Table 6 of Matrix arrays: VALID and SRC). -/
def setBypass (arr : Bool) (unit : Nat) (k : Core) : Core :=
  { k with st := (k.st.setByp arr (BitVec.ofNat 32 (unit + 8 + 16))).setHold arr none }

/-- MAT_BYPASS_WRITE (R110): Firmware's write of MAT_BYPASS bypasses a unit at once while the core is halted or in reset, and otherwise holds it.
R109 ignores a write once a unit is bypassed and does not say what a write does while an earlier one is only HELD; the model ignores that
one too. DESIGN CHOICE: log 151. -/
def execMatBypassWrite (req : Requester) (c : CoreNo) (arr : Bool) (unit : BitVec 3) (valid : Bool) (s : State) : Host.Outcome State Fault Refusal :=
  if !(s.byMgmt req && s.slabAnswers (c.val / 32)) then .next s
  else
    let k := s.core c.val
    if !valid || (k.st.byp arr).getLsbD 3 || (k.st.hold arr).isSome then .next s
    else if bypassNow k.run then .next (s.updCore c.val (setBypass arr unit.toNat)).persistNow
    else .next (s.updSt c.val (fun x => x.setHold arr (some unit.toNat)))

/-- BYPASS_HELD_APPLY (R110): A held bypass takes effect when the core next halts for recovery or enters reset. -/
def execBypassHeldApply (c : CoreNo) (arr : Bool) (s : State) : Host.Outcome State Fault Refusal :=
  match (s.core c.val).st.hold arr with
  | none => .next s
  | some u => if bypassNow (s.core c.val).run then .next (s.updCore c.val (setBypass arr u)).persistNow else .next s

end Sys2Proof.Machine
end

