-- ==== Sys2Proof/Machine/ExecMove.lean ====
section
/-! DEFINITION. Machine/ExecMove.lean: the meanings of the data-movement slot and of the other instructions that act at issue (R246, R247, R249, R254 to R257, R270 to R272, R166, R313). -/

namespace Sys2Proof.Machine

/-- XFER (R317): Enters a block-list transfer into the fetch or execute queue. -/
def execXfer (c : CoreNo) (f : XferF) (s : State) : Host.Outcome State Fault Refusal :=
  s.onCore c.val (fun e r => issueOne e (.xfer c f) r)

/-- GATH (R319): Enters a gather or scatter transfer into its queue. -/
def execGath (c : CoreNo) (f : GathF) (s : State) : Host.Outcome State Fault Refusal :=
  s.onCore c.val (fun e r => issueOne e (.gath c f) r)

/-- FENCE (R256): Holds issue until every earlier transfer of the named queues has completed. -/
def execFence (c : CoreNo) (fq eq : Bool) (s : State) : Host.Outcome State Fault Refusal :=
  s.onCore c.val (fun e r => issueOne e (.fence c fq eq) r)

/-- AWAIT (R247): Holds issue until an arrival counter reaches its threshold or the timeout expires. -/
def execAwait (c : CoreNo) (ctr : BitVec 6) (rt rd : BitVec 5) (timeout : W32) (s : State) : Host.Outcome State Fault Refusal :=
  s.onCore c.val (fun e r => issueOne e (.await c ctr rt rd timeout) r)

/-- ARRSET (R246): Sets an arrival counter to a value. -/
def execArrset (c : CoreNo) (ctr : BitVec 6) (ra : BitVec 5) (s : State) : Host.Outcome State Fault Refusal :=
  s.onCore c.val (fun e r => issueOne e (.arrset c ctr ra) r)

/-- ARRSET_SUBTRACT (R246): Subtracts an amount from an arrival counter. -/
def execArrsetSubtract (c : CoreNo) (ctr : BitVec 6) (ra : BitVec 5) (s : State) : Host.Outcome State Fault Refusal :=
  s.onCore c.val (fun e r => issueOne e (.arrsetSubtract c ctr ra) r)

/-- SEMWAIT (R271): Holds issue until a semaphore is at least 1, then decrements it. -/
def execSemwait (c : CoreNo) (sem rd : BitVec 5) (timeout : W32) (s : State) : Host.Outcome State Fault Refusal :=
  s.onCore c.val (fun e r => issueOne e (.semwait c sem rd timeout) r)

/-- SEMSET (R270): Writes a semaphore count. -/
def execSemset (c : CoreNo) (sem ra : BitVec 5) (s : State) : Host.Outcome State Fault Refusal :=
  s.onCore c.val (fun e r => issueOne e (.semset c sem ra) r)

/-- SEMRD (R270): Copies a semaphore count to a scalar register. -/
def execSemrd (c : CoreNo) (sem rd : BitVec 5) (s : State) : Host.Outcome State Fault Refusal :=
  s.onCore c.val (fun e r => issueOne e (.semrd c sem rd) r)

/-- KEEP (R249): Writes a kept-range entry with a translated backing address. -/
def execKeep (c : CoreNo) (k : BitVec 4) (first : BitVec 13) (rb : BitVec 5) (count1 : BitVec 13) (s : State) : Host.Outcome State Fault Refusal :=
  s.onCore c.val (fun e r => issueOne e (.keep c k first rb count1) r)

/-- KEEP_CLEAR (R249): Clears a kept-range entry. -/
def execKeepClear (c : CoreNo) (k : BitVec 4) (s : State) : Host.Outcome State Fault Refusal :=
  s.onCore c.val (fun e r => issueOne e (.keepClear c k) r)

/-- CWAIT (R313): Holds issue until every earlier carry instruction has completed. -/
def execCwait (c : CoreNo) (s : State) : Host.Outcome State Fault Refusal :=
  s.onCore c.val (fun e r => issueOne e (.cwait c) r)

/-- TSWITCH (R166): Makes the other special-function bank active for later instructions. -/
def execTswitch (c : CoreNo) (s : State) : Host.Outcome State Fault Refusal :=
  s.onCore c.val (fun e r => issueOne e (.tswitch c) r)

/-- SEMPOST (R272): Increments a semaphore of this or another core of the partition, after its range is released. -/
def execSempost (c : CoreNo) (f : SemPostF) (s : State) : Host.Outcome State Fault Refusal :=
  s.onCore c.val (fun e r => issueOne e (.sempost c f) r)

/-- SEMWAIT_TIMEOUT (R271): The timeout of a semaphore wait expires, leaving the count unchanged. -/
def execSemwaitTimeout (c : CoreNo) (s : State) : Host.Outcome State Fault Refusal :=
  if s.aon.refLost then .next s else s.onCoreFree c.val semTimeout

end Sys2Proof.Machine
end

