-- ==== Sys2Proof/Machine/ExecScalar.lean ====
section
/-! DEFINITION. Machine/ExecScalar.lean: the meanings of the scalar slot (R305, R306). -/

namespace Sys2Proof.Machine

/-- ADD (R305): Scalar add of RA and RB into RD, modulo 2^64. -/
def execAdd (c : CoreNo) (rd ra rb : BitVec 5) (s : State) : Host.Outcome State Fault Refusal :=
  s.onCore c.val (fun e r => issueOne e (.add c rd ra rb) r)

/-- SUB (R305): Scalar subtract of RB from RA into RD. -/
def execSub (c : CoreNo) (rd ra rb : BitVec 5) (s : State) : Host.Outcome State Fault Refusal :=
  s.onCore c.val (fun e r => issueOne e (.sub c rd ra rb) r)

/-- AND (R305): Scalar bitwise and of RA and RB into RD. -/
def execAnd (c : CoreNo) (rd ra rb : BitVec 5) (s : State) : Host.Outcome State Fault Refusal :=
  s.onCore c.val (fun e r => issueOne e (.and c rd ra rb) r)

/-- OR (R305): Scalar bitwise or of RA and RB into RD. -/
def execOr (c : CoreNo) (rd ra rb : BitVec 5) (s : State) : Host.Outcome State Fault Refusal :=
  s.onCore c.val (fun e r => issueOne e (.or c rd ra rb) r)

/-- XOR (R305): Scalar bitwise exclusive-or of RA and RB into RD. -/
def execXor (c : CoreNo) (rd ra rb : BitVec 5) (s : State) : Host.Outcome State Fault Refusal :=
  s.onCore c.val (fun e r => issueOne e (.xor c rd ra rb) r)

/-- SHL (R305): Scalar shift left of RA by the low 6 bits of RB. -/
def execShl (c : CoreNo) (rd ra rb : BitVec 5) (s : State) : Host.Outcome State Fault Refusal :=
  s.onCore c.val (fun e r => issueOne e (.shl c rd ra rb) r)

/-- SHR (R305): Scalar logical shift right of RA by the low 6 bits of RB. -/
def execShr (c : CoreNo) (rd ra rb : BitVec 5) (s : State) : Host.Outcome State Fault Refusal :=
  s.onCore c.val (fun e r => issueOne e (.shr c rd ra rb) r)

/-- SAR (R305): Scalar arithmetic shift right of RA by the low 6 bits of RB. -/
def execSar (c : CoreNo) (rd ra rb : BitVec 5) (s : State) : Host.Outcome State Fault Refusal :=
  s.onCore c.val (fun e r => issueOne e (.sar c rd ra rb) r)

/-- MUL (R305): Scalar multiply of RA and RB, keeping the low 64 bits. -/
def execMul (c : CoreNo) (rd ra rb : BitVec 5) (s : State) : Host.Outcome State Fault Refusal :=
  s.onCore c.val (fun e r => issueOne e (.mul c rd ra rb) r)

/-- SLT (R305): RD becomes 1 if RA is less than RB, signed, and 0 otherwise. -/
def execSlt (c : CoreNo) (rd ra rb : BitVec 5) (s : State) : Host.Outcome State Fault Refusal :=
  s.onCore c.val (fun e r => issueOne e (.slt c rd ra rb) r)

/-- SLTU (R305): RD becomes 1 if RA is less than RB, unsigned, and 0 otherwise. -/
def execSltu (c : CoreNo) (rd ra rb : BitVec 5) (s : State) : Host.Outcome State Fault Refusal :=
  s.onCore c.val (fun e r => issueOne e (.sltu c rd ra rb) r)

/-- SEQ (R305): RD becomes 1 if RA equals RB, and 0 otherwise. -/
def execSeq (c : CoreNo) (rd ra rb : BitVec 5) (s : State) : Host.Outcome State Fault Refusal :=
  s.onCore c.val (fun e r => issueOne e (.seq c rd ra rb) r)

/-- ADDI (R305): Scalar add of RA and the signed immediate into RD. -/
def execAddi (c : CoreNo) (rd ra : BitVec 5) (imm : W16) (s : State) : Host.Outcome State Fault Refusal :=
  s.onCore c.val (fun e r => issueOne e (.addi c rd ra imm) r)

/-- SUBI (R305): Scalar subtract of the immediate from RA into RD. -/
def execSubi (c : CoreNo) (rd ra : BitVec 5) (imm : W16) (s : State) : Host.Outcome State Fault Refusal :=
  s.onCore c.val (fun e r => issueOne e (.subi c rd ra imm) r)

/-- ANDI (R305): Scalar and of RA with the immediate into RD. -/
def execAndi (c : CoreNo) (rd ra : BitVec 5) (imm : W16) (s : State) : Host.Outcome State Fault Refusal :=
  s.onCore c.val (fun e r => issueOne e (.andi c rd ra imm) r)

/-- ORI (R305): Scalar or of RA with the immediate into RD. -/
def execOri (c : CoreNo) (rd ra : BitVec 5) (imm : W16) (s : State) : Host.Outcome State Fault Refusal :=
  s.onCore c.val (fun e r => issueOne e (.ori c rd ra imm) r)

/-- XORI (R305): Scalar exclusive-or of RA with the immediate into RD. -/
def execXori (c : CoreNo) (rd ra : BitVec 5) (imm : W16) (s : State) : Host.Outcome State Fault Refusal :=
  s.onCore c.val (fun e r => issueOne e (.xori c rd ra imm) r)

/-- SHLI (R305): Scalar shift left of RA by the immediate. -/
def execShli (c : CoreNo) (rd ra : BitVec 5) (imm : W16) (s : State) : Host.Outcome State Fault Refusal :=
  s.onCore c.val (fun e r => issueOne e (.shli c rd ra imm) r)

/-- SHRI (R305): Scalar logical shift right of RA by the immediate. -/
def execShri (c : CoreNo) (rd ra : BitVec 5) (imm : W16) (s : State) : Host.Outcome State Fault Refusal :=
  s.onCore c.val (fun e r => issueOne e (.shri c rd ra imm) r)

/-- SARI (R305): Scalar arithmetic shift right of RA by the immediate. -/
def execSari (c : CoreNo) (rd ra : BitVec 5) (imm : W16) (s : State) : Host.Outcome State Fault Refusal :=
  s.onCore c.val (fun e r => issueOne e (.sari c rd ra imm) r)

/-- MULI (R305): Scalar multiply of RA by the immediate, keeping the low 64 bits. -/
def execMuli (c : CoreNo) (rd ra : BitVec 5) (imm : W16) (s : State) : Host.Outcome State Fault Refusal :=
  s.onCore c.val (fun e r => issueOne e (.muli c rd ra imm) r)

/-- SLTI (R305): Signed compare of RA with the immediate, giving 1 or 0. -/
def execSlti (c : CoreNo) (rd ra : BitVec 5) (imm : W16) (s : State) : Host.Outcome State Fault Refusal :=
  s.onCore c.val (fun e r => issueOne e (.slti c rd ra imm) r)

/-- SLTUI (R305): Unsigned compare of RA with the immediate, giving 1 or 0. -/
def execSltui (c : CoreNo) (rd ra : BitVec 5) (imm : W16) (s : State) : Host.Outcome State Fault Refusal :=
  s.onCore c.val (fun e r => issueOne e (.sltui c rd ra imm) r)

/-- SEQI (R305): Equality test of RA with the immediate, giving 1 or 0. -/
def execSeqi (c : CoreNo) (rd ra : BitVec 5) (imm : W16) (s : State) : Host.Outcome State Fault Refusal :=
  s.onCore c.val (fun e r => issueOne e (.seqi c rd ra imm) r)

/-- MOVSM (R305): Copies a summary register, zero-extended, into RD, waiting while the summary is pending. -/
def execMovsm (c : CoreNo) (rd : BitVec 5) (sm : BitVec 3) (s : State) : Host.Outcome State Fault Refusal :=
  s.onCore c.val (fun e r => issueOne e (.movsm c rd sm) r)

/-- TBR (R305): Reads the slab's copy of the always-on timebase into RD. -/
def execTbr (c : CoreNo) (rd : BitVec 5) (s : State) : Host.Outcome State Fault Refusal :=
  s.onCore c.val (fun e r => issueOne e (.tbr c rd) r)

/-- DBASE (R286): Sets the core's descriptor-table base word address. -/
def execDbase (c : CoreNo) (ra : BitVec 5) (imm : W16) (s : State) : Host.Outcome State Fault Refusal :=
  s.onCore c.val (fun e r => issueOne e (.dbase c ra imm) r)

/-- DSET (R305): Writes one word of a descriptor in the local store, scoreboarded as a write. -/
def execDset (c : CoreNo) (h : BitVec 10) (w : BitVec 3) (ra : BitVec 5) (s : State) : Host.Outcome State Fault Refusal :=
  s.onCore c.val (fun e r => issueOne e (.dset c h w ra) r)

/-- LI (R305): Loads the sign-extended 32-bit immediate into RD. -/
def execLi (c : CoreNo) (rd : BitVec 5) (imm : W32) (s : State) : Host.Outcome State Fault Refusal :=
  s.onCore c.val (fun e r => issueOne e (.li c rd imm) r)

/-- LIH (R305): Loads the immediate into bits [63:32] of RD, keeping bits [31:0]. -/
def execLih (c : CoreNo) (rd : BitVec 5) (imm : W32) (s : State) : Host.Outcome State Fault Refusal :=
  s.onCore c.val (fun e r => issueOne e (.lih c rd imm) r)

/-- BR (R306): Branches to a byte offset of the current stream when the condition holds for RA and RB. -/
def execBr (c : CoreNo) (cond : BitVec 3) (ra rb : BitVec 5) (target : W32) (s : State) : Host.Outcome State Fault Refusal :=
  s.onCore c.val (fun e r => issueOne e (.br c cond ra rb target) r)

end Sys2Proof.Machine
end

