-- ==== Sys2Proof/Machine/ExecSfu.lean ====
section
/-! DEFINITION. Machine/ExecSfu.lean: the meanings of the special-function slot (R153 to R177, R312). -/

namespace Sys2Proof.Machine

/-- SFEV (R312): Evaluates a directory entry of the bound bank, or of the compatibility image, on a register. -/
def execSfev (c : CoreNo) (f : Sfev) (s : State) : Host.Outcome State Fault Refusal :=
  s.onCore c.val (fun e r => slotStep e .sfu (.sfev c f) sfReady (sfevRun f) r)

/-- GACT (R174): Delivers the activation of the gate element times the up element, rounded once. -/
def execGact (c : CoreNo) (f : Gact) (s : State) : Host.Outcome State Fault Refusal :=
  s.onCore c.val (fun e r => slotStep e .sfu (.gact c f) sfReady (gactRun f) r)

/-- SMAXI (R171): Initialises a soft-maximum context to m = -Inf and s = +0. -/
def execSmaxi (c : CoreNo) (ctx : BitVec 2) (s : State) : Host.Outcome State Fault Refusal :=
  s.onCore c.val (fun e r => slotStep e .sfu (.smaxi c ctx) sfReady (smaxiRun ctx.toNat) r)

/-- SMAXT (R171): Processes one tile (two in V64) of a soft maximum and writes c to a summary register. -/
def execSmaxt (c : CoreNo) (f : SmaxT) (s : State) : Host.Outcome State Fault Refusal :=
  s.onCore c.val (fun e r => slotStep e .sfu (.smaxt c f) sfReady (smaxtRun f) r)

/-- SMAXR (R172): Delivers m, s and RECIP(s) of a soft-maximum context to summary registers. -/
def execSmaxr (c : CoreNo) (ctx : BitVec 2) (smm sms smr : BitVec 3) (s : State) : Host.Outcome State Fault Refusal :=
  s.onCore c.val (fun e r => slotStep e .sfu (.smaxr c ctx smm sms smr) sfReady (smaxrRun ctx.toNat smm.toNat sms.toNat smr.toNat) r)

/-- RMSF (R173): Writes the root-mean-square factor of an SSQ context to a summary register. -/
def execRmsf (c : CoreNo) (ctx : BitVec 2) (entry : BitVec 4) (rn : BitVec 5) (sm : BitVec 3) (eps : W32) (s : State) : Host.Outcome State Fault Refusal :=
  s.onCore c.val (fun e r => slotStep e .sfu (.rmsf c ctx entry rn sm eps) sfReady (rmsfRun ctx.toNat entry.toNat sm.toNat eps) r)

/-- TLOAD (R167): Writes a 201-granule image from the local store into the inactive bank. -/
def execTload (c : CoreNo) (g : BitVec 13) (s : State) : Host.Outcome State Fault Refusal :=
  s.onCore c.val (fun e r => slotStep e .tload (.tload c g) tloadReady (tloadRun) r)

/-- TLOAD_COMPLETE (R157): A table-load finishes writing its bank and validates the image, marking the bank valid or recording 0x1A. -/
def execTloadComplete (c : CoreNo) (s : State) : Host.Outcome State Fault Refusal :=
  s.onCore c.val (fun _ r => tloadDone r)

end Sys2Proof.Machine
end

