-- ==== Sys2Proof/Machine/ExecVector.lean ====
section
/-! DEFINITION. Machine/ExecVector.lean: the meanings of the vector slot (R135 to R151, R307, R308). -/

namespace Sys2Proof.Machine

/-- FADD (R135): Lane-wise FP32 add. -/
def execFadd (c : CoreNo) (vd va vb : BitVec 5) (vm : BitVec 3) (rm : BitVec 2) (s : State) : Host.Outcome State Fault Refusal :=
  s.onCore c.val (fun e r => slotStep e .vec (.fadd c vd va vb vm rm) always (faddRun vd.toNat va.toNat vb.toNat vm.toNat rm.toNat) r)

/-- FSUB (R135): Lane-wise FP32 subtract. -/
def execFsub (c : CoreNo) (vd va vb : BitVec 5) (vm : BitVec 3) (rm : BitVec 2) (s : State) : Host.Outcome State Fault Refusal :=
  s.onCore c.val (fun e r => slotStep e .vec (.fsub c vd va vb vm rm) always (fsubRun vd.toNat va.toNat vb.toNat vm.toNat rm.toNat) r)

/-- FMUL (R135): Lane-wise FP32 multiply. -/
def execFmul (c : CoreNo) (vd va vb : BitVec 5) (vm : BitVec 3) (rm : BitVec 2) (s : State) : Host.Outcome State Fault Refusal :=
  s.onCore c.val (fun e r => slotStep e .vec (.fmul c vd va vb vm rm) always (fmulRun vd.toNat va.toNat vb.toNat vm.toNat rm.toNat) r)

/-- FFMA (R135): Lane-wise fused multiply-add with one rounding. -/
def execFfma (c : CoreNo) (vd va vb vc : BitVec 5) (vm : BitVec 3) (rm : BitVec 2) (s : State) : Host.Outcome State Fault Refusal :=
  s.onCore c.val (fun e r => slotStep e .vec (.ffma c vd va vb vc vm rm) always (ffmaRun vd.toNat va.toNat vb.toNat vc.toNat vm.toNat rm.toNat) r)

/-- FABS (R135): Lane-wise FP32 absolute value. -/
def execFabs (c : CoreNo) (vd va : BitVec 5) (vm : BitVec 3) (s : State) : Host.Outcome State Fault Refusal :=
  s.onCore c.val (fun e r => slotStep e .vec (.fabs c vd va vm) always (fabsRun vd.toNat va.toNat vm.toNat) r)

/-- FNEG (R135): Lane-wise FP32 negation. -/
def execFneg (c : CoreNo) (vd va : BitVec 5) (vm : BitVec 3) (s : State) : Host.Outcome State Fault Refusal :=
  s.onCore c.val (fun e r => slotStep e .vec (.fneg c vd va vm) always (fnegRun vd.toNat va.toNat vm.toNat) r)

/-- FMIN (R71): Lane-wise FP32 minimum. -/
def execFmin (c : CoreNo) (vd va vb : BitVec 5) (vm : BitVec 3) (s : State) : Host.Outcome State Fault Refusal :=
  s.onCore c.val (fun e r => slotStep e .vec (.fmin c vd va vb vm) always (fminRun vd.toNat va.toNat vb.toNat vm.toNat) r)

/-- FMAX (R71): Lane-wise FP32 maximum. -/
def execFmax (c : CoreNo) (vd va vb : BitVec 5) (vm : BitVec 3) (s : State) : Host.Outcome State Fault Refusal :=
  s.onCore c.val (fun e r => slotStep e .vec (.fmax c vd va vb vm) always (fmaxRun vd.toNat va.toNat vb.toNat vm.toNat) r)

/-- FSEL (R307): Selects a or b in every lane by the mask bit. -/
def execFsel (c : CoreNo) (vd va vb : BitVec 5) (vm : BitVec 3) (s : State) : Host.Outcome State Fault Refusal :=
  s.onCore c.val (fun e r => slotStep e .vec (.fsel c vd va vb vm) always (fselRun vd.toNat va.toNat vb.toNat vm.toNat) r)

/-- FCEQ (R70): Lane-wise equal compare, written to a mask. -/
def execFceq (c : CoreNo) (md : BitVec 3) (va vb : BitVec 5) (vm : BitVec 3) (s : State) : Host.Outcome State Fault Refusal :=
  s.onCore c.val (fun e r => slotStep e .vec (.fceq c md va vb vm) always (fceqRun md.toNat va.toNat vb.toNat vm.toNat) r)

/-- FCLT (R70): Lane-wise less-than compare, written to a mask. -/
def execFclt (c : CoreNo) (md : BitVec 3) (va vb : BitVec 5) (vm : BitVec 3) (s : State) : Host.Outcome State Fault Refusal :=
  s.onCore c.val (fun e r => slotStep e .vec (.fclt c md va vb vm) always (fcltRun md.toNat va.toNat vb.toNat vm.toNat) r)

/-- FCLE (R70): Lane-wise less-or-equal compare, written to a mask. -/
def execFcle (c : CoreNo) (md : BitVec 3) (va vb : BitVec 5) (vm : BitVec 3) (s : State) : Host.Outcome State Fault Refusal :=
  s.onCore c.val (fun e r => slotStep e .vec (.fcle c md va vb vm) always (fcleRun md.toNat va.toNat vb.toNat vm.toNat) r)

/-- FCNE (R70): Lane-wise not-equal compare, written to a mask. -/
def execFcne (c : CoreNo) (md : BitVec 3) (va vb : BitVec 5) (vm : BitVec 3) (s : State) : Host.Outcome State Fault Refusal :=
  s.onCore c.val (fun e r => slotStep e .vec (.fcne c md va vb vm) always (fcneRun md.toNat va.toNat vb.toNat vm.toNat) r)

/-- IADD (R135): Lane-wise 32-bit integer add, wrapping. -/
def execIadd (c : CoreNo) (vd va vb : BitVec 5) (vm : BitVec 3) (s : State) : Host.Outcome State Fault Refusal :=
  s.onCore c.val (fun e r => slotStep e .vec (.iadd c vd va vb vm) always (iaddRun vd.toNat va.toNat vb.toNat vm.toNat) r)

/-- ISUB (R135): Lane-wise 32-bit integer subtract, wrapping. -/
def execIsub (c : CoreNo) (vd va vb : BitVec 5) (vm : BitVec 3) (s : State) : Host.Outcome State Fault Refusal :=
  s.onCore c.val (fun e r => slotStep e .vec (.isub c vd va vb vm) always (isubRun vd.toNat va.toNat vb.toNat vm.toNat) r)

/-- IMUL (R135): Lane-wise 32-bit integer multiply, keeping the low half. -/
def execImul (c : CoreNo) (vd va vb : BitVec 5) (vm : BitVec 3) (s : State) : Host.Outcome State Fault Refusal :=
  s.onCore c.val (fun e r => slotStep e .vec (.imul c vd va vb vm) always (imulRun vd.toNat va.toNat vb.toNat vm.toNat) r)

/-- IMIN (R307): Lane-wise integer minimum. -/
def execImin (c : CoreNo) (vd va vb : BitVec 5) (vm : BitVec 3) (s : State) : Host.Outcome State Fault Refusal :=
  s.onCore c.val (fun e r => slotStep e .vec (.imin c vd va vb vm) always (iminRun vd.toNat va.toNat vb.toNat vm.toNat) r)

/-- IMAX (R307): Lane-wise integer maximum. -/
def execImax (c : CoreNo) (vd va vb : BitVec 5) (vm : BitVec 3) (s : State) : Host.Outcome State Fault Refusal :=
  s.onCore c.val (fun e r => slotStep e .vec (.imax c vd va vb vm) always (imaxRun vd.toNat va.toNat vb.toNat vm.toNat) r)

/-- IAND (R307): Lane-wise bitwise and. -/
def execIand (c : CoreNo) (vd va vb : BitVec 5) (vm : BitVec 3) (s : State) : Host.Outcome State Fault Refusal :=
  s.onCore c.val (fun e r => slotStep e .vec (.iand c vd va vb vm) always (iandRun vd.toNat va.toNat vb.toNat vm.toNat) r)

/-- IOR (R307): Lane-wise bitwise or. -/
def execIor (c : CoreNo) (vd va vb : BitVec 5) (vm : BitVec 3) (s : State) : Host.Outcome State Fault Refusal :=
  s.onCore c.val (fun e r => slotStep e .vec (.ior c vd va vb vm) always (iorRun vd.toNat va.toNat vb.toNat vm.toNat) r)

/-- IXOR (R307): Lane-wise bitwise exclusive-or. -/
def execIxor (c : CoreNo) (vd va vb : BitVec 5) (vm : BitVec 3) (s : State) : Host.Outcome State Fault Refusal :=
  s.onCore c.val (fun e r => slotStep e .vec (.ixor c vd va vb vm) always (ixorRun vd.toNat va.toNat vb.toNat vm.toNat) r)

/-- ISHL (R307): Lane-wise shift left by b[4:0]. -/
def execIshl (c : CoreNo) (vd va vb : BitVec 5) (vm : BitVec 3) (s : State) : Host.Outcome State Fault Refusal :=
  s.onCore c.val (fun e r => slotStep e .vec (.ishl c vd va vb vm) always (ishlRun vd.toNat va.toNat vb.toNat vm.toNat) r)

/-- ISHR (R307): Lane-wise logical shift right by b[4:0]. -/
def execIshr (c : CoreNo) (vd va vb : BitVec 5) (vm : BitVec 3) (s : State) : Host.Outcome State Fault Refusal :=
  s.onCore c.val (fun e r => slotStep e .vec (.ishr c vd va vb vm) always (ishrRun vd.toNat va.toNat vb.toNat vm.toNat) r)

/-- ISAR (R307): Lane-wise arithmetic shift right by b[4:0]. -/
def execIsar (c : CoreNo) (vd va vb : BitVec 5) (vm : BitVec 3) (s : State) : Host.Outcome State Fault Refusal :=
  s.onCore c.val (fun e r => slotStep e .vec (.isar c vd va vb vm) always (isarRun vd.toNat va.toNat vb.toNat vm.toNat) r)

/-- CVTFI (R136): Converts FP32 lanes to 32-bit integers under the rounding mode, clamping. -/
def execCvtfi (c : CoreNo) (vd va : BitVec 5) (vm : BitVec 3) (rm : BitVec 2) (s : State) : Host.Outcome State Fault Refusal :=
  s.onCore c.val (fun e r => slotStep e .vec (.cvtfi c vd va vm rm) always (cvtfiRun vd.toNat va.toNat vm.toNat rm.toNat) r)

/-- CVTIF (R136): Converts 32-bit integer lanes to FP32 under the rounding mode. -/
def execCvtif (c : CoreNo) (vd va : BitVec 5) (vm : BitVec 3) (rm : BitVec 2) (s : State) : Host.Outcome State Fault Refusal :=
  s.onCore c.val (fun e r => slotStep e .vec (.cvtif c vd va vm rm) always (cvtifRun vd.toNat va.toNat vm.toNat rm.toNat) r)

/-- BCSM (R307): Broadcasts a summary register to every lane. -/
def execBcsm (c : CoreNo) (vd : BitVec 5) (sm : BitVec 3) (vm : BitVec 3) (s : State) : Host.Outcome State Fault Refusal :=
  s.onCore c.val (fun e r => slotStep e .vec (.bcsm c vd sm vm) always (bcsmRun vd.toNat sm.toNat vm.toNat) r)

/-- BCSR (R307): Broadcasts the low 32 bits of a scalar register to every lane. -/
def execBcsr (c : CoreNo) (vd ra : BitVec 5) (vm : BitVec 3) (s : State) : Host.Outcome State Fault Refusal :=
  s.onCore c.val (fun e r => slotStep e .vec (.bcsr c vd ra vm) always (bcsrRun vd.toNat vm.toNat) r)

/-- LSH (R307): Shifts or rotates lanes by a constant count. -/
def execLsh (c : CoreNo) (vd va : BitVec 5) (count : BitVec 6) (dir rot : Bool) (s : State) : Host.Outcome State Fault Refusal :=
  s.onCore c.val (fun e r => slotStep e .vec (.lsh c vd va count dir rot) always (lshRun vd.toNat va.toNat count.toNat dir rot) r)

/-- LGATH (R307): Lane i takes source lane idx[i] mod L. -/
def execLgath (c : CoreNo) (vd va vb : BitVec 5) (vm : BitVec 3) (s : State) : Host.Outcome State Fault Refusal :=
  s.onCore c.val (fun e r => slotStep e .vec (.lgath c vd va vb vm) always (lgathRun vd.toNat va.toNat vb.toNat vm.toNat) r)

/-- VEXT (R150): Copies one lane of a vector register to a summary register. -/
def execVext (c : CoreNo) (sm : BitVec 3) (va : BitVec 5) (lane : BitVec 6) (s : State) : Host.Outcome State Fault Refusal :=
  s.onCore c.val (fun e r => slotStep e .vec (.vext c sm va lane) always (vextRun sm.toNat va.toNat lane.toNat) r)

/-- MSUM (R150): Writes the ANY, ALL, COUNT or FIRST summary of a mask to a summary register. -/
def execMsum (c : CoreNo) (sm mask : BitVec 3) (kind : BitVec 2) (s : State) : Host.Outcome State Fault Refusal :=
  s.onCore c.val (fun e r => slotStep e .vec (.msum c sm mask kind) always (msumRun sm.toNat mask.toNat kind.toNat) r)

/-- WSET (R137): Sets a vector register's window base absolutely. -/
def execWset (c : CoreNo) (vd : BitVec 5) (base : BitVec 9) (rs : BitVec 5) (s : State) : Host.Outcome State Fault Refusal :=
  s.onCore c.val (fun e r => slotStep e .vec (.wset c vd base rs) always (winRun) r)

/-- WSTEP (R137): Moves a vector register's window base by a signed granule count modulo 512. -/
def execWstep (c : CoreNo) (vd : BitVec 5) (count : BitVec 10) (s : State) : Host.Outcome State Fault Refusal :=
  s.onCore c.val (fun e r => slotStep e .vec (.wstep c vd count) always (winRun) r)

/-- TPOP (R144): Removes the oldest tile of an array's finished-tile queue into the operand cache, waiting while the queue is empty. -/
def execTpop (c : CoreNo) (arr : Bool) (g : BitVec 9) (sm : BitVec 3) (s : State) : Host.Outcome State Fault Refusal :=
  s.onCore c.val (fun e r => slotStep e .vec (.tpop c arr g sm) (tpopReady arr) (tpopRun arr g.toNat sm.toNat) r)

/-- VLD (R308): Loads L elements from the local store or an inbound queue end into a vector register, converting to FP32. -/
def execVld (c : CoreNo) (f : VMem) (s : State) : Host.Outcome State Fault Refusal :=
  s.onCore c.val (fun e r => slotStep e .vec (.vld c f) popReady (vldRun f) r)

/-- VST (R308): Stores a vector register to the local store or an outbound queue end, converting and encoding. -/
def execVst (c : CoreNo) (f : VMem) (s : State) : Host.Outcome State Fault Refusal :=
  s.onCore c.val (fun e r => slotStep e .vec (.vst c f) always (vstRun f) r)

/-- RINIT (R147): Sets a reduction context's kind and its starting state, empty or carried. -/
def execRinit (c : CoreNo) (ctx : BitVec 2) (kind : BitVec 3) (carry : Bool) (va : BitVec 5) (s : State) : Host.Outcome State Fault Refusal :=
  s.onCore c.val (fun e r => slotStep e .vec (.rinit c ctx kind carry va) always (rinitRun ctx.toNat kind.toNat carry va.toNat) r)

/-- RFEED (R148): Feeds the active lanes of a vector register into a reduction context. -/
def execRfeed (c : CoreNo) (ctx : BitVec 2) (va : BitVec 5) (mask : BitVec 3) (s : State) : Host.Outcome State Fault Refusal :=
  s.onCore c.val (fun e r => slotStep e .vec (.rfeed c ctx va mask) always (rfeedRun ctx.toNat va.toNat mask.toNat) r)

/-- RFEEDM (R147): Feeds a local-store range of FP32 elements into a reduction context. -/
def execRfeedm (c : CoreNo) (ctx : BitVec 2) (addr : W16) (rn : BitVec 5) (s : State) : Host.Outcome State Fault Refusal :=
  s.onCore c.val (fun e r => slotStep e .vec (.rfeedm c ctx addr rn) always (rfeedmRun ctx.toNat addr.toNat) r)

/-- RREAD (R149): Delivers a reduction context's state to a vector register or one component to a summary register. -/
def execRread (c : CoreNo) (ctx : BitVec 2) (tov : Bool) (vd : BitVec 5) (sm comp : BitVec 3) (s : State) : Host.Outcome State Fault Refusal :=
  s.onCore c.val (fun e r => slotStep e .vec (.rread c ctx tov vd sm comp) always (rreadRun ctx.toNat tov vd.toNat sm.toNat comp.toNat) r)

end Sys2Proof.Machine
end

