-- ==== Sys2Proof/Machine/Mem.lean ====
section
/-! DEFINITION. Machine/Mem.lean: the two tiers and their memory ports: where an address goes, requests, acceptance (R263, R491 to
R495). -/

namespace Sys2Proof.Machine

/-- The contents of a tier. -/
def State.tier (s : State) (b : Bool) : Memory := if b then s.tierB else s.tierA
def State.setTier (s : State) (b : Bool) (m : Memory) : State := if b then { s with tierB := m } else { s with tierA := m }

/-- The granule at byte address `a` of a tier. -/
def State.gran (s : State) (b : Bool) (a : Nat) : Granule := Memory.granule (s.tier b) a
def State.putGran (s : State) (b : Bool) (a : Nat) (g : Granule) : State := s.setTier b (Memory.setGranule (s.tier b) a g)

/-- A tier is enabled by its strap (R491). -/
def State.tierOn (s : State) (b : Bool) : Bool := if b then s.boot.eb else s.boot.ea

/-- The port of a physical tier address (R263, R492). -/
def portOf (x : Nat) : Nat := (x / 2 ^ 12 % 16) ^^^ (x / 2 ^ 16 % 16)

/-- The port-local byte address Y, which drops bits [15:12], and REQ_ADDR, the granule address (R492, R493). -/
def portLocal (x : Nat) : Nat := x / 2 ^ 16 * 2 ^ 12 + x % 2 ^ 12
def reqAddr (x : Nat) : Nat := portLocal x / 32

/-- The port of a tier as a port with a clock of its own. -/
def memPort (b : Bool) (n : Nat) : PortId := if b then .memB (BitVec.ofNat 4 n) else .memA (BitVec.ofNat 4 n)

/-- The clock of the port that holds byte `a` of a tier runs, and of every port that holds one of `n` bytes from it (R59). -/
def State.portUp (s : State) (b : Bool) (a : Nat) : Bool := !s.lost.contains (memPort b (portOf a))
def State.rangeUp (s : State) (b : Bool) (a n : Nat) : Bool :=
  (List.range (Nat.min 512 ((a % 4096 + n + 4095) / 4096))).all (fun i => s.portUp b (a + 4096 * i))

/-- The clock of every port of a tier runs. -/
def State.tierUp (s : State) (b : Bool) : Bool := (List.range 16).all (fun n => !s.lost.contains (memPort b n))

/-- Address of the page-table entry of page `g` of partition `p` in tier A (R261). -/
def State.pteAddr (s : State) (p g : Nat) : Nat := s.regN (oPt p 0) / 32 * 32 + 2 ^ 32 * (s.regN (oPt p 1) % 256) + 8 * g

/-- Add 8 words modulo 2^32 (R268, R384). -/
def addWords (a b : Granule) : Granule :=
  (List.range 8).foldl (fun (g : Granule) i =>
    g ||| (((a.extractLsb' (32 * i) 32 + b.extractLsb' (32 * i) 32).setWidth 256) <<< (32 * i))) 0#256

/-- The lowest request id that a port has free (R493; DESIGN CHOICE, log 38). -/
def freeReqId (q : List MemReq) (b : Bool) (port : Nat) : Option Nat :=
  (List.range 256).find? (fun i => !q.any (fun r => r.tierB == b && portOf r.addr == port && r.id == some i))

/-- REQ accepts a request: it takes effect in the order of acceptance (R494). -/
def State.acceptReq (s : State) (r : MemReq) (i : Nat) : State :=
  let old := s.gran r.tierB r.addr
  let r1 : MemReq := { r with id := some i, time := s.aon.tb, slot := if r.op = .read then toSlot old else r.slot }
  let t := match r.op with
    | .read => s
    | .write => s.putGran r.tierB r.addr r.slot.granule
    | .add => s.putGran r.tierB r.addr (addWords old r.slot.granule)
  { t with memq := t.memq.map (fun x => if x.serial = r.serial then r1 else x) }

/-- Present the waiting requests, in the order made: a port with its clock lost or every id in use takes none (R59, R493). -/
def State.pumpMem (s : State) : State :=
  s.memq.foldl (fun t r =>
    if r.id.isSome || !t.portUp r.tierB r.addr then t
    else match freeReqId t.memq r.tierB (portOf r.addr) with
      | some i => t.acceptReq r i
      | none => t) s

/-- Make a request to an enabled tier. -/
def State.askMem (s : State) (r : MemReq) : State :=
  let since := match r.owner with
    | .logAdd _ => r.since
    | _ => s.memSerial
  ({ s with memq := s.memq ++ [{ r with serial := s.memSerial, since := since }], memSerial := s.memSerial + 1 } : State).pumpMem

/-- Count an error response, or an expiry, of a port (Table 8 of Ports and integration). -/
def State.countMpErr (s : State) (b : Bool) (port : Nat) (expiry : Bool) : State :=
  let o := oMpErr (if b then 3 else 2) port
  let v := s.regN o
  if expiry then s.setRegN o (v % 65536 + 65536 * Nat.min 65535 (v / 65536 + 1))
  else s.setRegN o (v / 65536 * 65536 + Nat.min 65535 (v % 65536 + 1))

/-- A granule left undefined by a failed write (R495): a fresh free value, unless a later write has replaced its data. -/
def State.undefGran (s : State) (r : MemReq) : State :=
  if s.gran r.tierB r.addr = r.slot.granule then
    let f := s.free 256
    f.2.putGran r.tierB r.addr (BitVec.ofNat 256 f.1)
  else s

/-- Fill `n` granules from `a` with free values. -/
def State.undefRange (s : State) (b : Bool) (a : Nat) : Nat → State
  | 0 => s
  | n + 1 =>
    let f := s.free 256
    (f.2.putGran b a (BitVec.ofNat 256 f.1)).undefRange b (a + 32) n

/-! ### Aperture accesses (R497, R498) -/

/-- Answer on TRSP, in its turn while the port's clock is lost (R59); an ERR is counted (Table 7 of Ports and integration). DEDUCED: log 53. -/
def State.answer (s : State) (tag : BitVec 8) (err : Bool) (data : Nat) : State :=
  let b := (tag, err, BitVec.ofNat 512 data)
  let t := if s.hostUp then { s with trsp := some b } else { s with trspWait := s.trspWait ++ [b] }
  if err then t.setRegN oTerr (t.regN oTerr % 65536 + 65536 * Nat.min 65535 (t.regN oTerr / 65536 + 1)) else t

/-- The byte of a target write that goes to byte `i` of granule `k` of its access, if it is enabled. -/
def targetByte (r : TReq) (k i : Nat) : Option Byte :=
  let j := 32 * k + i
  let o := r.ta.toNat % 32
  if o ≤ j ∧ j < o + r.len.toNat ∧ r.be.getLsbD (j - o) then some (r.data.extractLsb' (8 * (j - o)) 8) else none

/-- A target write covers the whole of granule `k`, or some of it. -/
def targetWhole (r : TReq) (k : Nat) : Bool := (List.range 32).all (fun i => (targetByte r k i).isSome)
def targetSome (r : TReq) (k : Nat) : Bool := (List.range 32).any (fun i => (targetByte r k i).isSome)

/-- Merge a target write into granule `k` of its access (R233). -/
def mergeTarget (r : TReq) (k : Nat) (g : Granule) : Granule :=
  (List.range 32).foldl (fun (x : Granule) i =>
    x ||| ((((targetByte r k i).getD (g.extractLsb' (8 * i) 8)).setWidth 256) <<< (8 * i))) 0#256

/-- The request to memory for granule `k` of an aperture access at byte address `a`. -/
def apReq (b : Bool) (a k : Nat) (op : MemOp) (g : Granule) : MemReq :=
  { tierB := b, addr := a / 32 * 32 + 32 * k, op := op, slot := toSlot g, owner := .host k, part := 8 }

/-- A granule of the aperture access in progress has ended; with the last, the access is answered. -/
def State.apDone (s : State) (f : Taper → Taper) : State :=
  match s.tap, s.treqs with
  | some p, r :: rest =>
    let q := f { p with left := p.left - 1 }
    if q.left = 0 then
      ({ s with tap := none, treqs := rest } : State).answer r.tag q.err
        (if r.wr || q.err then 0 else q.got / 2 ^ (8 * (r.ta.toNat % 32)) % 2 ^ (8 * r.len.toNat))
    else { s with tap := some q }
  | _, _ => s

/-- A granule of the aperture access in progress is answered without error: a merge read is followed by its write. -/
def State.apOk (s : State) (q : MemReq) (k : Nat) : State :=
  match q.op, s.treqs with
  | .read, r :: _ =>
    if r.wr then s.askMem { q with op := .write, slot := toSlot (mergeTarget r k q.slot.granule), id := none }
    else s.apDone (fun p => { p with got := p.got + q.slot.granule.toNat * 2 ^ (256 * k) })
  | _, _ => s.apDone id

end Sys2Proof.Machine
end

