-- ==== Sys2Proof/Machine/Ledger.lean ====
section
/-! DEFINITION. Machine/Ledger.lean: the layer table, the gradient ledger's arrival words and the images that arrive (R339 to R346). -/

namespace Sys2Proof.Machine

/-- Address of the layer table in tier A. -/
def State.updBase (s : State) : Nat := s.regN (oUpdTbl 0) / 32 * 32 + 2 ^ 32 * (s.regN (oUpdTbl 1) % 256)

/-- Ledger slots. -/
def State.nslotL (s : State) : Nat := s.regN oLedger % 65536

/-- Bytes of a ledger slot, and granules of a contribution (R342). -/
def slotBytes : Nat := 0x201000
def pageParams : Nat := 524288
def contribution : Nat := 65537

/-- A layer record (Table 2). -/
def layerAt (m : Memory) (a : Nat) : Layer :=
  let w (i : Nat) : Nat := Memory.nat m (a + 4 * i) 4
  { first := w 0, npages := w 1, expect := fld (w 2) 15 0, sgdm := bitOf (w 2) 16, wfmt := fld (w 2) 19 17, sgn := bitOf (w 2) 20,
    blk := bitOf (w 2) 21, part := fld (w 2) 24 22, sem := fld (w 2) 29 25, k := (List.range 7).map (fun i => Memory.w32 m (a + 12 + 4 * i)),
    sibase := w 10 + 2 ^ 32 * (w 11 % 256), skip := bitOf (w 12) 0, woff := w 13 }

/-- A chip record (R340). -/
def chipAt (m : Memory) (a : Nat) : ChipRec :=
  let w (i : Nat) : Nat := Memory.nat m (a + 4 * i) 4
  { peer := fld (w 0) 13 0, tenant := fld (w 0) 31 24, key := w 1, region := fld (w 2) 15 0 }

/-- Byte offset of chip record `c` and of layer record `l` (R340). -/
def chipOff (c : Nat) : Nat := 0x40 + 32 * c
def layerOff (nchip l : Nat) : Nat := 0x40 + 32 * nchip + 64 * l

/-- The engine reads the header, the chip records and the layer records (R341). -/
def Upd.readTable (u : Upd) (m : Memory) (a : Nat) : Upd :=
  let w0 := Memory.nat m a 4
  let nchip := fld w0 22 16
  { u with
    f := sext 8 (Memory.nat m (a + 4) 1), k1 := Memory.w32 m (a + 8), k2 := Memory.w32 m (a + 12), mbase := Memory.nat m (a + 0x10) 5,
    m1base := Memory.nat m (a + 0x18) 5, m2base := Memory.nat m (a + 0x20) 5, abase := Memory.nat m (a + 0x28) 5,
    lbase := Memory.nat m (a + 0x30) 5, nchip := nchip, chip := fld w0 29 23,
    chips := (List.range nchip).map (fun c => chipAt m (a + chipOff c)),
    layers := (List.range (fld w0 15 0)).map (fun l => layerAt m (a + layerOff nchip l)) }

/-- Bytes of a page's working image (R344). -/
def Layer.imgBytes (l : Layer) : Nat :=
  let n := if l.blk then 32 else 16
  if l.wfmt = 4 then pageParams + pageParams / n else if l.wfmt = 5 then pageParams / 2 + pageParams / n else 2 * pageParams

/-- Why the step ends before any page is touched (R341; DEDUCED, log 46: the tier-B arrays end with tier B). -/
def tableBad (m : Memory) (a : Nat) (u : Upd) : Bool :=
  let w (o : Nat) : Nat := Memory.nat m (a + o) 4
  let chip (c o : Nat) : Nat := Memory.nat m (a + chipOff c + 4 * o) 4
  let lay (l o : Nat) : Nat := Memory.nat m (a + layerOff u.nchip l + 4 * o) 4
  fld (w 0) 31 30 != 0 || fld (w 4) 31 8 != 0 || [0x10, 0x18, 0x20, 0x28, 0x30].any (fun o => Memory.nat m (a + o + 5) 3 != 0)
    || Memory.nat m (a + 0x38) 8 != 0 || decide (u.nchip ≤ u.chip) || decide (64 < u.nchip)
    || (List.range u.nchip).any (fun c => fld (chip c 0) 23 14 != 0 || fld (chip c 2) 31 16 != 0
      || (List.range 5).any (fun i => chip c (3 + i) != 0))
    || (u.layers.zipIdx).any (fun x =>
      let l := x.1
      let e := l.first + l.npages
      !([1, 2, 4, 5].contains l.wfmt) || fld (lay x.2 2) 31 30 != 0 || lay x.2 10 % 32 != 0 || lay x.2 11 / 256 != 0
        || lay x.2 12 / 2 != 0 || lay x.2 14 != 0 || lay x.2 15 != 0
        || decide (2 ^ 45 < u.mbase + e * 2 ^ 21) || decide (2 ^ 45 < u.m1base + e * 2 ^ 20) || decide (2 ^ 45 < u.m2base + e * 2 ^ 20)
        || decide (2 ^ 45 < u.abase + e * (3 * 2 ^ 20)) || decide (2 ^ 45 < l.sibase + l.npages * l.imgBytes))

/-- The step has read its table. -/
def State.tableRead (s : State) : Bool := s.upd.busy && !s.upd.reading

/-- The table can be looked at: the step holds it, or tier A's ports answer (R59). -/
def State.tableUp (s : State) : Bool := s.tableRead || s.tierUp false

/-- The table the engine works with: the step's, or between steps the one in tier A (DEDUCED, log 46). -/
def State.table (s : State) : Upd := if s.tableRead then s.upd else s.upd.readTable s.tierA s.updBase

/-- Tier-A address of ledger slot 0. -/
def State.lbase (s : State) : Nat := if s.tableRead then s.upd.lbase else Memory.nat s.tierA (s.updBase + 0x30) 5

/-- Address of an arrival word (R342). -/
def State.arrAddr (s : State) (slot : Nat) : Nat := s.lbase + s.nslotL * slotBytes + 4 * slot
def State.arrivedOf (s : State) (slot : Nat) : Nat := Memory.nat s.tierA (s.arrAddr slot) 4

/-- Memory hub A counts a granule of an add that became visible in a slot (R342). -/
def State.ledgerAdd (s : State) (addr : Nat) : State :=
  if s.lbase ≤ addr ∧ addr < s.lbase + s.nslotL * slotBytes then
    let k := (addr - s.lbase) / slotBytes
    { s with tierA := Memory.setNat s.tierA (s.arrAddr k) 4 ((s.arrivedOf k + 1) % 2 ^ 32) }
  else s

/-- The link hub reports a completed update-engine message of `total` granules at granule `off` of a region (R344, R346). -/
def State.reportImage (s : State) (region off total : Nat) : State :=
  let u := s.table
  match u.chips[u.chip]? with
  | none => s
  | some c =>
    if c.region ≠ region then s
    else match u.layers.findIdx? (fun l => decide (l.woff ≤ off) && decide (off < l.woff + u.nchip * l.npages * (l.imgBytes / 32))) with
      | none => s
      | some l => { s with upd := { s.upd with arrived := Sp.set 0 s.upd.arrived l (Sp.get 0 s.upd.arrived l + total) } }

end Sys2Proof.Machine
end

