-- ==== Sys2Proof/Machine/Crypto.lean ====
section
/-! DEFINITION. Machine/Crypto.lean: the published algorithms that the spec names: AES-256 and AES-256-GCM (R372, R394; NIST SP 800-38D),
SHA-384 and ECDSA over P-384 (R323). Blocks and strings are lists of byte values in string order. -/

namespace Sys2Proof.Machine

/-! ### AES-256 -/

/-- Multiply by x in GF(2^8). -/
def xtime (a : Nat) : Nat := let b := 2 * a; if 256 ≤ b then (b ^^^ 0x11B) else b

/-- Product in GF(2^8), over the bits of `b` from bit `i` down. -/
def gmulBits (a b : Nat) : Nat → Nat
  | 0 => 0
  | n + 1 => xtime (gmulBits a (b / 2) n) ^^^ (if b.testBit 0 then a else 0)

def gmul (a b : Nat) : Nat := gmulBits a b 8

/-- a^254, the inverse in GF(2^8). -/
def ginv (a : Nat) : Nat :=
  let a2 := gmul a a
  let a3 := gmul a2 a
  let a6 := gmul a3 a3
  let a12 := gmul a6 a6
  let a15 := gmul a12 a3
  let a30 := gmul a15 a15
  let a60 := gmul a30 a30
  let a120 := gmul a60 a60
  let a126 := gmul a120 a6
  let a127 := gmul a126 a
  gmul a127 a127

/-- Rotate a byte left. -/
def rotl8 (b n : Nat) : Nat := (b * 2 ^ n) % 256 ||| b / 2 ^ (8 - n)

/-- SubBytes of one byte. -/
def sbox (a : Nat) : Nat :=
  let b := ginv a
  b ^^^ rotl8 b 1 ^^^ rotl8 b 2 ^^^ rotl8 b 3 ^^^ rotl8 b 4 ^^^ 0x63

def xorList (a b : List Nat) : List Nat := (a.zip b).map (fun x => x.1 ^^^ x.2)

/-- Words of the key schedule, newest first: `n` more words after `k` of them. -/
def keyWords : Nat → Nat → Nat → List (List Nat) → List (List Nat)
  | 0, _, _, ws => ws
  | n + 1, k, rc, ws =>
    let prev := ws.headD []
    let old := nthD ws 7 []
    let t : List Nat :=
      if k % 8 = 0 then xorList ((prev.drop 1 ++ prev.take 1).map sbox) [rc, 0, 0, 0]
      else if k % 8 = 4 then prev.map sbox
      else prev
    keyWords n (k + 1) (if k % 8 = 0 then xtime rc else rc) (xorList t old :: ws)

/-- The 15 round keys of a 32-byte key. -/
def roundKeys (key : List Nat) : List (List Nat) :=
  let w0 := (List.range 8).map (fun i => (key.drop (4 * i)).take 4)
  let ws := (keyWords 52 8 1 w0.reverse).reverse
  (List.range 15).map (fun r => ((ws.drop (4 * r)).take 4).flatten)

/-- ShiftRows. -/
def shiftRows (s : List Nat) : List Nat :=
  (List.range 16).map (fun i => nthD s ((4 * (i / 4 + i % 4) + i % 4) % 16) 0)

/-- MixColumns. -/
def mixCols (s : List Nat) : List Nat :=
  (List.range 16).map (fun i =>
    let c := i / 4 * 4
    let at_ (k : Nat) : Nat := nthD s (c + (i + k) % 4) 0
    gmul 2 (at_ 0) ^^^ gmul 3 (at_ 1) ^^^ at_ 2 ^^^ at_ 3)

/-- Encrypt one 16-byte block under expanded round keys. -/
def aesBlock (rk : List (List Nat)) (b : List Nat) : List Nat :=
  let s0 := xorList b (nthD rk 0 [])
  let s := (List.range 13).foldl (fun s r => xorList (mixCols (shiftRows (s.map sbox))) (nthD rk (r + 1) [])) s0
  xorList (shiftRows (s.map sbox)) (nthD rk 14 [])

/-- The bytes of a number, `n` of them, most significant first. -/
def beBytes (n v : Nat) : List Nat := (List.range n).map (fun i => v / 256 ^ (n - 1 - i) % 256)
/-- Least significant first. -/
def leBytes (n v : Nat) : List Nat := (List.range n).map (fun i => v / 256 ^ i % 256)
def beNat (l : List Nat) : Nat := l.foldl (fun v b => 256 * v + b) 0
def leNat (l : List Nat) : Nat := beNat l.reverse

/-- AES-256 of one block under a key held as a number whose byte k is key byte k. -/
def aes256 (key : Nat) (b : List Nat) : List Nat := aesBlock (roundKeys (leBytes 32 key)) b

/-! ### GCM -/

/-- Product in GF(2^128) with GCM's bit order: `n` bits of x remain, from the most significant. -/
def ghashMulLoop (x : Nat) : Nat → Nat → Nat → Nat
  | 0, _, z => z
  | n + 1, v, z =>
    let z1 := if x.testBit n then z ^^^ v else z
    let v1 := if v.testBit 0 then (v / 2) ^^^ (0xE1 * 2 ^ 120) else v / 2
    ghashMulLoop x n v1 z1

def ghashMul (x y : Nat) : Nat := ghashMulLoop x 128 y 0

/-- Split into 16-byte blocks, the last padded with zeros. -/
def blocks16 (l : List Nat) : List (List Nat) :=
  (List.range (cdiv l.length 16)).map (fun i => let b := (l.drop (16 * i)).take 16; b ++ List.replicate (16 - b.length) 0)

def ghash (h : Nat) (bs : List (List Nat)) : Nat := bs.foldl (fun y b => ghashMul (y ^^^ beNat b) h) 0

/-- Counter-mode key stream applied to data, from counter 2. -/
def gcmCtr (rk : List (List Nat)) (iv data : List Nat) : List Nat :=
  (List.range (cdiv data.length 16)).flatMap (fun i =>
    let d := (data.drop (16 * i)).take 16
    xorList d (aesBlock rk (iv ++ beBytes 4 (i + 2))))

/-- The 128-bit tag over additional data and cipher text. -/
def gcmTag (rk : List (List Nat)) (iv aad cipher : List Nat) : List Nat :=
  let h := beNat (aesBlock rk (List.replicate 16 0))
  let s := ghash h (blocks16 aad ++ blocks16 cipher ++ [beBytes 8 (8 * aad.length) ++ beBytes 8 (8 * cipher.length)])
  xorList (beBytes 16 s) (aesBlock rk (iv ++ [0, 0, 0, 1]))

/-- Seal: cipher text and tag. -/
def gcmSeal (key : Nat) (iv aad plain : List Nat) : List Nat × List Nat :=
  let rk := roundKeys (leBytes 32 key)
  let c := gcmCtr rk iv plain
  (c, gcmTag rk iv aad c)

/-- Open: the plain text, where the tag is right. -/
def gcmOpen (key : Nat) (iv aad cipher tag : List Nat) : Option (List Nat) :=
  let rk := roundKeys (leBytes 32 key)
  if gcmTag rk iv aad cipher = tag then some (gcmCtr rk iv cipher) else none

/-! ### SHA-384 -/

/-- Largest r below 2^n (from a base) with r^e ≤ v, by bits. -/
def rootBits (e v : Nat) : Nat → Nat → Nat
  | 0, r => r
  | n + 1, r => let q := r + 2 ^ n; rootBits e v n (if q ^ e ≤ v then q else r)

/-- Primes below 441 = 21^2: no number from 2 to 20 divides them but themselves. -/
def isPrime (n : Nat) : Bool := decide (2 ≤ n) && (List.range 21).all (fun d => d < 2 || d == n || n % d != 0)

/-- The first 80 primes: those below 410. -/
def primes80 : List Nat := (List.range 410).filter isPrime

/-- The 80 round constants: the first 64 bits of the fractional parts of the primes' cube roots. -/
def shaK : List Nat := primes80.map (fun p => rootBits 3 (p * 2 ^ 192) 68 0 % 2 ^ 64)

/-- The initial values: the fractional parts of the square roots of the ninth to sixteenth primes. -/
def sha384Init : List Nat := ((primes80.drop 8).take 8).map (fun p => rootBits 2 (p * 2 ^ 128) 68 0 % 2 ^ 64)

def add64 (a b : Nat) : Nat := (a + b) % 2 ^ 64
def rotr64 (x n : Nat) : Nat := x / 2 ^ n + x % 2 ^ n * 2 ^ (64 - n)
def not64 (x : Nat) : Nat := 2 ^ 64 - 1 - x

/-- Message schedule, newest first. -/
def shaSched : Nat → List Nat → List Nat
  | 0, ws => ws
  | n + 1, ws =>
    let w (k : Nat) : Nat := nthD ws (k - 1) 0
    let s0 := rotr64 (w 15) 1 ^^^ rotr64 (w 15) 8 ^^^ (w 15 / 2 ^ 7)
    let s1 := rotr64 (w 2) 19 ^^^ rotr64 (w 2) 61 ^^^ (w 2 / 2 ^ 6)
    shaSched n (add64 (add64 (w 16) s0) (add64 (w 7) s1) :: ws)

/-- One round on the eight working values. -/
def shaRound (v : List Nat) (kw : Nat × Nat) : List Nat :=
  match v with
  | [a, b, c, d, e, f, g, h] =>
    let s1 := rotr64 e 14 ^^^ rotr64 e 18 ^^^ rotr64 e 41
    let ch := (e &&& f) ^^^ (not64 e &&& g)
    let t1 := add64 (add64 h s1) (add64 ch (add64 kw.1 kw.2))
    let s0 := rotr64 a 28 ^^^ rotr64 a 34 ^^^ rotr64 a 39
    let mj := (a &&& b) ^^^ (a &&& c) ^^^ (b &&& c)
    [add64 t1 (add64 s0 mj), a, b, c, add64 d t1, e, f, g]
  | _ => v

/-- One 128-byte block. -/
def shaBlock (ks : List Nat) (h : List Nat) (b : List Nat) : List Nat :=
  let w0 := (List.range 16).map (fun i => beNat ((b.drop (8 * i)).take 8))
  let ws := (shaSched 64 w0.reverse).reverse
  let v := (ks.zip ws).foldl shaRound h
  (h.zip v).map (fun x => add64 x.1 x.2)

/-- SHA-384 of a byte string, as 48 bytes. -/
def sha384 (m : List Nat) : List Nat :=
  let z := (239 - m.length % 128) % 128
  let p := m ++ [0x80] ++ List.replicate z 0 ++ beBytes 16 (8 * m.length)
  let ks := shaK
  let h := (List.range (p.length / 128)).foldl (fun h i => shaBlock ks h ((p.drop (128 * i)).take 128)) sha384Init
  (h.take 6).flatMap (beBytes 8)

/-! ### ECDSA over P-384 (FIPS 186) -/

def p384P : Nat := 2 ^ 384 - 2 ^ 128 - 2 ^ 96 + 2 ^ 32 - 1
def p384N : Nat := 0xFFFFFFFFFFFFFFFFFFFFFFFFFFFFFFFFFFFFFFFFFFFFFFFFC7634D81F4372DDF581A0DB248B0A77AECEC196ACCC52973
def p384B : Nat := 0xB3312FA7E23EE7E4988E056BE3F82D19181D9C6EFE8141120314088F5013875AC656398D8A2ED19D2A85C8EDD3EC2AEF
def p384Gx : Nat := 0xAA87CA22BE8B05378EB1C71EF320AD746E1D3B628BA79B9859F741E082542A385502F25DBF55296C3A545E3872760AB7
def p384Gy : Nat := 0x3617DE4A96262C6F5D9E98BF9292DC29F8F41DBD289A147CE9DA3113B5F0B8C00A60B1CE1D7E819D7A431D7C90EA0E5F

/-- b^e modulo m, over the low `n` bits of e. -/
def powMod (m b e : Nat) : Nat → Nat
  | 0 => 1 % m
  | n + 1 =>
    let h := powMod m b (e / 2) n
    let q := h * h % m
    if e.testBit 0 then q * b % m else q

/-- Inverse modulo a prime of at most 384 bits. -/
def invMod (m a : Nat) : Nat := powMod m a (m - 2) 384

/-- Sum of two curve points; none is the point at infinity. -/
def ecAdd (x y : Option (Nat × Nat)) : Option (Nat × Nat) :=
  match x, y with
  | none, q => q
  | q, none => q
  | some (x1, y1), some (x2, y2) =>
    let p := p384P
    if x1 = x2 ∧ (y1 + y2) % p = 0 then none
    else
      let l := if x1 = x2 then (3 * x1 * x1 + (p - 3)) * invMod p (2 * y1 % p) % p
        else (y2 + (p - y1)) * invMod p ((x2 + (p - x1)) % p) % p
      let x3 := (l * l + 2 * p - x1 - x2) % p
      some (x3, (l * (x1 + (p - x3)) + (p - y1)) % p)

/-- k times a point, over the low `n` bits of k. -/
def ecMul (q : Option (Nat × Nat)) (k : Nat) : Nat → Option (Nat × Nat)
  | 0 => none
  | n + 1 =>
    let h := ecMul q (k / 2) n
    let d := ecAdd h h
    if k.testBit 0 then ecAdd d q else d

/-- The public key is a point of the curve. -/
def onCurve (x y : Nat) : Bool :=
  decide (x < p384P) && decide (y < p384P) && decide ((y * y) % p384P = (x * x * x + (p384P - 3) * x + p384B) % p384P)

/-- The signature (r, s) over a message under the public key (x, y) verifies. -/
def ecdsaOk (msg : List Nat) (x y r s : Nat) : Bool :=
  if !onCurve x y || r = 0 || p384N ≤ r || s = 0 || p384N ≤ s then false
  else
    let e := beNat (sha384 msg)
    let w := invMod p384N s
    match ecAdd (ecMul (some (p384Gx, p384Gy)) (e * w % p384N) 384) (ecMul (some (x, y)) (r * w % p384N) 384) with
    | none => false
    | some q => q.1 % p384N == r

end Sys2Proof.Machine
end

