-- ==== Sys2Proof/Machine/Recover.lean ====
section
/-! DEFINITION. Machine/Recover.lean: detected faults and the recovery of a core (R251, R405 to R411). -/

namespace Sys2Proof.Machine

/-- A core of the slab recovers, or replays a region not yet committed (R409). -/
def State.slabFaulty (s : State) (slab : Nat) : Bool :=
  (List.range 32).any (fun i => (s.core (32 * slab + i)).run.recov != 0)

/-- Discard core `c`'s deferred-release entries of the open region (R291, R406). -/
def State.dropLog (s : State) (c : Nat) : State := { s with dlog := s.dlog.filter (fun d => d.core != c || d.released) }

/-- Messages of core `c` to remote regions that have not started are abandoned (R390). -/
def State.dropUnsent (s : State) (c : Nat) : State :=
  let mine (x : Send) : Bool := match x.src with
    | .core d _ _ => d == c && x.next == 0
    | _ => false
  let ids := (s.link.sends.filter mine).map (fun (x : Send) => x.id)
  { s with link := { s.link with
      sends := s.link.sends.filter (fun x => !mine x), reads := s.link.reads.filter (fun r => !ids.contains r.send) } }

/-- Steps 1 and 2 of R406: issue stops, the open region is abandoned, started messages drain. -/
def State.beginRecovery (s : State) (c : Nat) : State :=
  let t := ((s.dropLog c).dropUnsent c).updRun c (fun r => { abandonRegion s.v64 r with recov := 1, recovCnt := Nat.min 65535 (r.recovCnt + 1) })
  { t with recovCnt := Nat.min 0xFFFFFF (t.recovCnt + 1) }

/-- A detected fault that core `c` answers for (R405, R406, R409): it recovers; a second fault before the slab's replay commits halts
it with code 0x2A; a halted core does not recover. -/
def State.guardCore (s : State) (c : Nat) (f : CFault) : State :=
  if (s.core c).run.halt.isSome then s.offerCore c { f with act := 2 }
  else if s.slabFaulty (c / 32) then s.haltCore c { code := 0x2A, unit := f.unit, tag := f.tag }
  else (s.offerCore c { f with act := 1 }).beginRecovery c

/-- Rewrite granule `g` of core `c` from the backing copy of the committed kept range that holds it (R251, R405). -/
def State.refillGran (s : State) (c g : Nat) : State :=
  match (s.core c).rp.kept.find? (fun x => decide (x.2.first ≤ g) && decide (g < x.2.first + x.2.count)) with
  | none => s
  | some x =>
    let d := s.gran x.2.tierB (x.2.back + 32 * (g - x.2.first))
    s.updSt c (fun st => { st with ls := Memory.setGranule st.ls (32 * g) d, landing := st.landing.erase g })

/-- Rewrite the committed kept ranges of core `c` from their backing copies (R251). -/
def State.refill (s : State) (c : Nat) : State :=
  (s.core c).rp.kept.foldl (fun t x => (List.range x.2.count).foldl (fun t i => t.refillGran c (x.2.first + i)) t) s

/-- Zero the granules of core `c` that failed and are not kept (R251). -/
def State.zeroFailed (s : State) (c : Nat) : State :=
  let k := s.core c
  k.run.failed.foldl (fun t g =>
    if inKept k.rp.kept g then t else t.updSt c (fun st => { st with ls := Memory.setGranule st.ls (32 * g) 0#256 })) s

/-- Steps 3 and 4 of R406: the last commit point's state, kept ranges refilled, failed granules zeroed. -/
def State.restoreCore (s : State) (c : Nat) : State :=
  let t := s.updCore c (fun k => { k with cur := (restored k).1 })
  ((t.refill c).zeroFailed c)

/-- A failed granule that the core cannot rebuild: in a landing range and not kept (R410). -/
def lostGranule (k : Core) : Option Nat := k.run.failed.find? (fun g => k.st.landing.contains g && !inKept k.rp.kept g)

/-- The core holds for a while without its region: halted at its last commit point. -/
def State.endRecovery (s : State) (c : Nat) : State := s.updRun c (fun r => { r with recov := 0, failed := [] })

/-- Steps 3 to 5 of R406: restore and replay; code 0x29 (R410) or 0x46 (R273) instead of replaying. A granule that cannot be rebuilt is
left as it is. -/
def State.replayCore (s : State) (c : Nat) : State :=
  let k := s.core c
  match lostGranule k with
  | some g =>
    let t := (s.updCore c (fun k => { k with cur := (restored k).1 })).refill c
    (t.endRecovery c).haltCore c { code := 0x29, esc := true, unit := 6, info0 := some g }
  | none =>
    let t := s.restoreCore c
    if (restored k).2 then (t.endRecovery c).haltCore c { code := 0x46, unit := 7 }
    else t.updRun c (fun r => { r with recov := 3, failed := [] })

/-- A message of core `c` has left it and has not completed: granules, posts and items in flight, remote messages whose source is
a transfer of its open region (R390), and transfers that a substitution lets go on (R416 step 4). -/
def State.draining (s : State) (c : Nat) : Bool :=
  let l := s.lcore c
  s.mesh.any (fun m => m.src == l) || s.posts.any (fun m => m.src == l) || s.items.any (fun m => m.src == l)
    || s.link.sends.any (fun x => match x.src with | .core d _ _ => d == c && !x.fin | _ => false) || s.link.reads.any (fun r => r.core == c)
    || ((s.core c).run.fq ++ (s.core c).run.eq).any (fun x => !x.dead)

/-- Code 0x2D (R407): partition `p` stops. -/
def State.lostEntry (s : State) (p : Nat) (f : FRec) : State :=
  (s.offer { f with code := 0x2D, act := 3, esc := true }).stopPart p

/-- A request ends in error (R405, R407, R495; DEDUCED, log 39): the core whose transfer made it recovers; a lost add stops the partition. A
request of an abandoned transfer concerns nothing. DEDUCED: log 138. -/
def State.memFail (s : State) (r : MemReq) (code : Nat) : State :=
  let t := if r.op = .read then s else s.undefGran r
  match r.owner with
  | .xfer c e q =>
    let run := (t.core c).run
    if (if e then run.eq else run.fq).any (fun x => x.seq = q) then
      t.guardCore c { code := code, unit := 7, tag := ((if e then run.eq else run.fq).find? (fun x => x.seq = q)).elim 0 (fun x => x.tag) }
    else t
  | .logAdd c =>
    let tag := (t.dlog.find? (fun d => d.req = r.serial && d.sent)).elim 0#16 (·.tag)
    ({ t with dlog := t.dlog.filter (fun d => d.req ≠ r.serial || !d.sent) } : State).lostEntry ((t.partOf c).getD 0)
      { code := 0x2D, unit := 10, hub := if r.tierB then 3 else 2, info0 := some r.addr, tag := tag }
  | .region p _ _ =>
    if r.op = .add then t.lostEntry p { code := 0x2D, unit := 10, hub := if r.tierB then 3 else 2, info0 := some r.addr } else t
  | .host _ => t.apDone (fun p => { p with err := true })

/-- A request to a tier: a disabled tier answers with an error (R491). -/
def State.reqMem (s : State) (r : MemReq) : State := if s.tierOn r.tierB then s.askMem r else s.memFail r 0x27

end Sys2Proof.Machine
end

