-- ==== Sys2Proof/Machine/Send.lean ====
section
/-! DEFINITION. Machine/Send.lean: messages to remote regions as the sender holds them, sealed contributions (R362, R364, R382, R392 to
R394, R411). -/

namespace Sys2Proof.Machine

/-! ### Sealed contributions -/

def State.round (s : State) (k : Nat) : Round := Sp.get {} s.link.rounds k
def State.setRound (s : State) (k : Nat) (r : Round) : State :=
  { s with link := { s.link with rounds := Sp.set {} s.link.rounds k r } }

/-- M(seed, w) of R394. -/
def maskWord (seed round w : Nat) : Nat :=
  let b := aes256 seed (leBytes 4 round ++ [0, 0, 0, 0] ++ leBytes 8 (w / 4))
  leNat ((b.drop (4 * (w % 4))).take 4)

/-- The sum of the masks of word `w` of a round (R394). -/
def State.maskSum (s : State) (r : Round) (w : Nat) : Int :=
  ((r.seeds.zipIdx).map (fun x =>
    if x.2 = r.self then (0 : Int)
    else
      let m : Int := maskWord ((Sp.get none s.link.seeds x.1).getD 0) r.round w
      if r.self < x.2 then m else -m)).sum

/-- Granule `j` of a sealed contribution whose record has OFF `off` (R394). -/
def State.sealGran (s : State) (r : Round) (off j : Nat) (g : Granule) : Granule :=
  (List.range 8).foldl (fun (a : Granule) i =>
    let x : Int := (g.extractLsb' (32 * i) 32).toNat
    a ||| ((BitVec.ofNat 256 (wrap 32 (x + s.maskSum r (8 * (off + j) + i)))) <<< (32 * i))) 0#256

/-! ### Sends -/

def State.peer (s : State) (i : Nat) : Option Peer := s.link.peers.find? (fun p => p.idx = i)
def State.setPeer (s : State) (p : Peer) : State :=
  { s with link := { s.link with peers := s.link.peers.map (fun x => if x.idx = p.idx then p else x) } }

/-- Stop a transfer of core `c` on a fault with ACT 2 (R266, R364). -/
def State.stopXfer (s : State) (c : Nat) (exec : Bool) (seq code : Nat) : State :=
  let f (x : Xfer) : Xfer := if x.seq = seq then { x with dead := true, walk := none } else x
  let x := ((s.core c).run.fq ++ (s.core c).run.eq).find? (fun x => x.seq = seq)
  let t := s.updRun c (fun r => if exec then { r with eq := r.eq.map f } else { r with fq := r.fq.map f })
  (if x.elim false (·.tgt == 2) then t.dropLog c else t).haltCore c { code := code, unit := 7, tag := x.elim 0#16 (·.tag) }

/-- A message to a remote region stops (R360, R364, R367, R411; DEDUCED, log 40): its transfer stops and its core halts issue; what a released
adding transfer still held is lost. -/
def State.failSend (s : State) (x : Send) (code : Nat) : State :=
  let t := { s with link := { s.link with sends := s.link.sends.filter (fun y => y.id ≠ x.id) } }
  match x.src with
  | .core c e q =>
    if ((t.core c).run.fq ++ (t.core c).run.eq).any (fun y => y.seq = q) then t.stopXfer c e q code
    else (t.dropLog c).haltCore c { code := code, unit := 7 }
  | .log c =>
    let mine (d : LogEnt) : Bool :=
      match d.dest with
      | .remote _ m _ _ _ => d.core == c && m == x.msgid
      | _ => false
    ({ t with dlog := t.dlog.filter (fun d => !(mine d && d.sent)) } : State).haltCore c
      { code := code, unit := 7, tag := (t.dlog.find? mine).elim 0#16 (·.tag) }
  | .update => t
  | .reply => t

/-- The link hub starts a fetch of a peer that is not cached (R370). -/
def State.wantPeer (s : State) (i : Nat) : State :=
  if (s.peer i).isSome || s.link.fetch.contains i then s else { s with link := { s.link with fetch := s.link.fetch ++ [i] } }

/-- A message is handed to the link hub: sends to a DEAD peer stop at once (R360, R367). -/
def State.addSend (s : State) (x : Send) : State :=
  let y : Send := { x with id := s.link.nextSend }
  let t := { s with link := { s.link with sends := s.link.sends ++ [y], nextSend := s.link.nextSend + 1 } }
  match s.peer y.peer with
  | some p => if p.dead then t.failSend y p.deadCode else t
  | none => t.wantPeer y.peer

/-- Every packet of a message has been acknowledged (R364, R291). -/
def State.finishSend (s : State) (x : Send) : State :=
  let t := { s with link := { s.link with sends := s.link.sends.filter (fun y => y.id ≠ x.id) } }
  match x.src with
  | .core c e q =>
    if x.op = 3 then t
    else
      let f (y : Xfer) : Xfer := if y.seq = q then { y with open_ := 0 } else y
      t.updRun c (fun r => if e then { r with eq := r.eq.map f } else { r with fq := r.fq.map f })
  | .log c =>
    { t with dlog := t.dlog.map (fun d => match d.dest with
        | .remote _ m _ _ _ => if d.core = c ∧ m = x.msgid ∧ d.sent then { d with acked := true } else d
        | _ => d) }
  | .update => t
  | .reply => t

/-- Granule `i` of a message, read from its source (R364). -/
def State.sendGran (s : State) (d : SendData) (i : Nat) : Granule :=
  match d with
  | .held l => nthD l i 0#256
  | .core c gs => Memory.granule (s.core c).st.ls (32 * nthD gs i 0)
  | .image a => s.gran true (a + 32 * i)

/-- Message id of a core message (Table 1 of Remote regions). -/
def msgId (src region ordinal : Nat) : Nat := src % 2048 * 2 ^ 52 + region % 2 ^ 39 * 2 ^ 13 + ordinal % 2 ^ 13

/-- Send one released entry, or the whole message that begins with it (R291). -/
def State.releaseEnt (s : State) (i : Nat) (d : LogEnt) : State :=
  match d.dest with
  | .mem b a p pg =>
    let t := { s with dlog := updAt s.dlog i (fun d => { d with sent := true, req := s.memSerial }) }
    t.reqMem { tierB := b, addr := a, op := .add, slot := toSlot d.data, owner := .logAdd d.core, part := p, page := pg, since := d.req }
  | .remote tg m op total off =>
    if off ≠ 0 then s
    else
      let mine (e : LogEnt) : Bool := match e.dest with
        | .remote _ m' _ _ _ => e.core = d.core && m' = m && e.released && !e.sent
        | _ => false
      let w0 := nthD tg 0 0
      let data := (s.dlog.filter mine).map (·.data)
      let t := { s with dlog := s.dlog.map (fun e => if mine e then { e with sent := true } else e) }
      t.addSend { id := 0, src := .log d.core, peer := w0 % 2 ^ 14, msgid := m, op := op, total := total,
                  target := (w0 / 2 ^ 19 * 2 ^ 19 + w0 / 2 ^ 14 % 4 * 2 ^ 14) :: tg.drop 1, data := .held data, avail := data.length,
                  rslot := fld w0 18 16 }

/-- A release reads the copies of entry `i`, or of the whole message that begins with it (R407): a bad first copy is reported and
the second is used; with both bad the entry is lost and the partition of the issuing core stops. -/
def State.releaseChecked (s : State) (i : Nat) (d : LogEnt) : State :=
  let mine (e : LogEnt) : Bool := match d.dest, e.dest with
    | .remote _ m _ _ _, .remote _ m' _ _ _ => e.core = d.core && m' = m && e.released && !e.sent
    | _, _ => false
  let all := d :: (s.dlog.filter (fun e => mine e && e != d))
  let f (e : LogEnt) : CFault := { code := 0x2B, act := 0, unit := 8, tag := e.tag }
  if all.any (fun e => e.bad == 2) then
    ({ s with dlog := (s.dlog.eraseIdx i).filter (fun e => !mine e) } : State).lostEntry ((s.partOf d.core).getD 0)
      { code := 0x2D, pslab := d.core / 32, lslab := ((s.role (d.core / 32)).logical).getD 0x7F, core := d.core % 32, unit := 8,
        tag := d.tag, region := (s.core d.core).cur.region % 65536 }
  else ((all.filter (fun e => e.bad == 1)).foldl (fun t e => t.offerCore d.core (f e)) s).releaseEnt i d

/-- Entries of core `c` leave the log in the order it issued them, at most `n` of them (R291). -/
def State.releaseLog (s : State) (c : Nat) : Nat → State
  | 0 => s
  | n + 1 =>
    let goes (d : LogEnt) : Bool := d.core = c && d.released && !d.sent
    match ((s.dlog.filter goes).map (·.seq)).min? with
    | some q =>
      let i := s.dlog.findIdx (fun d => goes d && d.seq == q)
      match s.dlog[i]? with
      | some d => (s.releaseChecked i d).releaseLog c n
      | none => s
    | none => s

end Sys2Proof.Machine
end

