-- ==== Sys2Proof/Machine/Stream.lean ====
section
/-! DEFINITION. Machine/Stream.lean: submissions, instruction streams, fetching, commit points, the stream table and swaps (R210 to
R222, R278 to R285, R290, R291). -/

namespace Sys2Proof.Machine

/-! ### Fetching (R281, R282) -/

/-- The lowest of the 256 host-port tags that is free (R499; DESIGN CHOICE, log 38). -/
def freeTag (q : List HostReq) : Option Nat := (List.range 256).find? (fun i => !q.any (fun r => r.tag = i))

/-- A host address is the stream granule of submission `b` at an offset. -/
def State.subBuf (s : State) (b : Nat) : Option (Sp Granule) := (s.subs.find? (fun u => u.num = b)).map (·.buf)

/-- The long word that heads the fetched bytes waits for the increments of the streams it names: the fetch waits with it (R215, R216). -/
def CoreRun.incWaits (r : CoreRun) (v64 : Bool) : Bool :=
  match decodeLongWord v64 0 r.pre with
  | .word lw => !admitted r.qadm (lw.slots.flatMap streamIds)
  | _ => false

/-- Bytes of a stream granule enter a core's fetch, and what may be placed is placed. -/
def CoreRun.take (r : CoreRun) (v64 : Bool) (len : Nat) (bytes : List Byte) : CoreRun :=
  placeWords v64 len { r with
    pre := r.pre ++ bytes.drop ((r.iqOff + r.iq.length + r.pre.length) % 32), fetch := none } 512

/-- Byte offset of the next granule that core `c` fetches, where its issue queue has room for it. -/
def CoreRun.nextOff (r : CoreRun) (v64 : Bool) (b : BoundStream) : Option Nat :=
  let off := (r.iqOff + r.iq.length + r.pre.length) / 32 * 32
  if r.fetch.isSome ∨ r.recov = 1 ∨ r.recov = 2 ∨ r.halt.isSome ∨ 2048 < r.iq.length + r.pre.length + 32 ∨ b.len ≤ off
      ∨ r.incWaits v64 then none
  else some off

/-- Fetch for core `c` (R281): granules the host hub has read come from the slab's fetch buffer; the next one is read once for every
bound core, or for a core that has a fetch of its own. At most `n` granules. DESIGN CHOICE: log 41. -/
def State.fetchN (s : State) (c : Nat) : Nat → State
  | 0 => s
  | n + 1 =>
    let r := (s.core c).run
    match r.run with
    | none => s
    | some b => match r.nextOff s.v64 b with
      | none => s
      | some off =>
        let own := r.own || (s.subBuf b.sub).isNone
        let want (t : State) : State := t.updRun c (fun x => { x with fetch := some off })
        match if own then none else (s.subBuf b.sub).bind (fun m => (m.find? (fun g => g.1 = off)).map (·.2)) with
        | some g => (s.updRun c (fun x => x.take s.v64 b.len (natBytes 32 g.toNat))).fetchN c n
        | none =>
          if s.hostReqs.any (fun q => q.sub = b.sub ∧ q.off = off ∧ q.own = (if own then some c else none)) then want s
          else if !s.hostUp then s
          else match freeTag s.hostReqs with
            | none => s
            | some t => want { s with hostReqs := s.hostReqs ++
                [{ tag := t, addr := b.addr + off, sub := b.sub, off := off, own := if own then some c else none }] }

def State.fetchNext (s : State) (c : Nat) : State := s.fetchN c 65

/-- Cores that wait for a granule of a stream. -/
def State.waiters (s : State) (q : HostReq) : List Nat :=
  match q.own with
  | some c => if (s.core c).run.fetch = some q.off ∧ ((s.core c).run.run.map (·.sub)) = some q.sub then [c] else []
  | none => (s.cores.filter (fun x => match x.2.run.run, x.2.run.fetch with
    | some b, some off => decide (b.sub = q.sub) && decide (off = q.off) && !x.2.run.own
    | _, _ => false)).map (·.1)

/-- A stream granule arrives: it goes to every core that waits for it, and the fetch buffers keep a multicast one (R281). -/
def State.deliver (s : State) (q : HostReq) (g : Granule) : State :=
  let t : State := if q.own.isSome then s else { s with subs := s.subs.map (fun u =>
    if u.num = q.sub then { u with buf := Sp.put u.buf q.off g } else u) }
  (s.waiters q).foldl (fun t c =>
    (t.updRun c (fun r => r.take s.v64 ((r.run.map (·.len)).getD 0) (natBytes 32 g.toNat))).fetchNext c) t

/-- The read of a stream granule ends in error: every core that waits for it records 0x2C and halts issue (R282). -/
def State.readError (s : State) (q : HostReq) : State :=
  (s.waiters q).foldl (fun t c =>
    (t.updRun c (fun r => { r with fetch := none })).haltCore c { code := 0x2C, unit := 0 }) s

/-- STREAM_READ_ERROR (R282): the error comes through the host port, once its clock runs (R59). -/
def execStreamReadError (c : CoreNo) (s : State) : Host.Outcome State Fault Refusal :=
  match if s.hostUp then s.hostReqs.find? (fun q => (s.waiters q).contains c.val) else none with
  | some q => .next (({ s with hostReqs := s.hostReqs.filter (fun x => x.tag ≠ q.tag) } : State).readError q)
  | none => .next s

/-- A plating switch in progress covers the core's partition: no new stream starts (R335 step 1). -/
def State.switching (s : State) (c : Nat) : Bool :=
  match s.cast.sw, s.partOf c with
  | some (_, m), some p => m.testBit p
  | _, _ => false

/-- STREAM_START (R280): the next stream of the core's list is fetched from its first byte. -/
def execStreamStart (c : CoreNo) (s : State) : Host.Outcome State Fault Refusal :=
  let r := (s.core c.val).run
  match r.run, r.list with
  | none, b :: rest =>
    if !s.live c.val || r.held || r.halt.isSome || r.recov = 1 || s.switching c.val then .next s
    else .next ((s.updRun c.val (fun x =>
      { x with list := rest, run := some b, iq := [], pre := [], iqOff := 0, rpOff := 0, fetch := none, branch := none, own := false })).fetchNext c.val)
  | _, _ => .next s

/-- A core that has just branched where another core of its slab that runs the stream last branched elsewhere is fed by a fetch of its
own from the target onward (R281). -/
def State.noteBranch (s : State) (c : Nat) : State :=
  let r := (s.core c).run
  let differs (d : Nat) : Bool :=
    let x := (s.core d).run
    d != c && x.run == r.run && x.halt.isNone && x.branch.isSome && x.branch != r.branch
  if r.branch = some r.iqOff && r.iq.isEmpty && r.pre.isEmpty && (List.range 32).any (fun i => differs (c / 32 * 32 + i)) then
    s.updRun c (fun x => { x with own := true })
  else s

/-- LONG_WORD_ISSUE (R284, R300 to R302): paced work (R55). -/
def execLongWordIssue (c : CoreNo) (s : State) : Host.Outcome State Fault Refusal :=
  if s.livePaced c.val then .next (((s.runCore c.val (fun e r => longWord e c r)).noteBranch c.val).fetchNext c.val) else .next s

/-! ### Commit points (R290) -/

/-- Index of the stream-table entry in use for an id. -/
def State.entOf (s : State) (id : Nat) : Option Nat := (s.str.ents.find? (fun x => x.2.valid && x.2.id == id)).map (·.1)
def State.ent (s : State) (i : Nat) : StrEnt := Sp.get {} s.str.ents i
def State.setEnt (s : State) (i : Nat) (e : StrEnt) : State := { s with str := { s.str with ents := Sp.set {} s.str.ents i e } }

/-- DIRTY of a stream (R220): some core of the partition has written its slice since its last commit point. -/
def State.dirty (s : State) (p id : Nat) : Bool := (s.coresOf p).any (fun c => (s.core c).run.wrote.contains id)

/-- GEN of the streams that stop being dirty (R220). -/
def State.bumpGen (s : State) (p : Nat) (ids : List Nat) : State :=
  ids.foldl (fun t id =>
    if t.dirty p id then t
    else match t.entOf id with
      | some i => let e := t.ent i; t.setEnt i { e with gen := (e.gen + 1) % 2 ^ 32 }
      | none => t) s

/-- A slab number's cores, all held or with nothing to run (R416, step 1 of OP 2). -/
def State.allHeld (s : State) (slab : Nat) : Bool :=
  (List.range 32).all (fun i =>
    let r := (s.core (32 * slab + i)).run
    r.held || r.run.isNone || r.halt.isSome || r.recov != 0)

/-- The first increment of GEN and the role and map updates of a map change that stays in progress (R30). DEDUCED: log 65. -/
def State.mapBegin (s : State) (f : State → State) : State := f { s with mapgen := (s.mapgen + 1) % 2 ^ 32 }

/-- The last updates of a map change in progress, and its second increment of GEN (R30). -/
def State.mapEnd (s : State) (f : State → State) : State :=
  let t := f s
  { t with mapgen := (t.mapgen + 1) % 2 ^ 32 }

/-- Step 1 of R416 ends: the map change begins and the new slab reads migrating; GEN stays odd until the spare reads
active (R30 and the worked example after R32). -/
def State.moveMap (s : State) (o : SubstOp) : State :=
  let old := s.role o.old
  let t := (List.range 32).foldl (fun t i => t.updRun (32 * o.old + i) (fun r => { r with held := true })) s
  ({ t with subst := some { o with moved := true } } : State).mapBegin (fun t =>
    let t1 := (t.setRole o.spare { logical := some o.logical, st := .migrating, part := old.part }).setRole o.old
      { logical := none, st := if o.migrate then .tempering else .retiredService, part := none }
    { t1 with lmap := Sp.set none t1.lmap o.logical (some o.spare) })

/-- A planned migration goes on once every core of the slab holds. -/
def State.migrateReady (s : State) : State :=
  match s.subst with
  | some o => if o.migrate && !o.moved && s.allHeld o.old then s.moveMap o else s
  | none => s

/-- What a commit point of core `c` does outside the core (Table 5, R220, R283, R288, R291, R390, R416). -/
def State.afterCommit (s : State) (c : Nat) (old : Core) (m : Mark) : State :=
  let p := (s.partOf c).getD 0
  let l := s.lcore c
  let t := { s with dlog := s.dlog.map (fun (d : LogEnt) => if d.core = c then { d with released := true } else d) }
  let t1 := (t.releaseLog c t.dlog.length).bumpGen p old.run.wrote
  let t2 := (t1.coresOf p).foldl (fun t d => t.updSt d (fun st =>
    { st with
      msgs := st.msgs.filter (fun x => x.src ≠ l || x.region ≠ old.cur.region),
      posts := st.posts.filter (fun x => x.src ≠ l || x.region ≠ old.cur.region) })) t1
  let t3 := if m.stop then
      let num := (old.run.run.map (·.sub)).getD 0
      ({ t2 with subs := t2.subs.map (fun u => if u.num = num ∧ old.run.run.isSome then
          { u with passed := u.passed ++ [s.pidx c] } else u) } : State).updRun c
        (fun r => { r with qdec := r.qdec ++ queuedIds s.v64 old.run.iq 512 ++ r.qadm, qadm := [] })
    else t2
  let t4 := match t3.subst with
    | some o => if o.migrate && !o.moved && o.old = c / 32 then t3.updRun c (fun r => { r with held := true }) else t3
    | none => t3
  (t4.migrateReady).fetchNext c

/-- COMMIT_POINT (R290): COR_REGION advances where the commit point takes effect. -/
def execCommitPoint (c : CoreNo) (s : State) : Host.Outcome State Fault Refusal :=
  if !s.live c.val then .next s
  else
    let old := s.core c.val
    match old.run.marks with
    | [] => .next s
    | m :: _ =>
      let t := s.runCore c.val (fun e r => (commitPoint e r).1)
      .next (if (t.core c.val).cur.region = old.cur.region then t else t.afterCommit c.val old m)

/-- DEFERRED_ENTRY_ACK (R291): entry `k` of the slab's log frees its space once its target has acknowledged it. -/
def execDeferredEntryAck (slab : SlabNo) (k : Nat) (s : State) : Host.Outcome State Fault Refusal :=
  match ((s.dlog.zipIdx).filter (fun d => d.1.core / 32 = slab.val))[k]? with
  | some d => if d.1.acked then .next { s with dlog := s.dlog.eraseIdx d.2 } else .next s
  | none => .next s

/-! ### QCOUNT and the miss list (R215, R216) -/

/-- A swap whose change of RES every slab has not yet acknowledged: the entry's arbiter grants nothing (R217, R218). -/
def State.entLocked (s : State) (i : Nat) : Bool := s.str.swaps.any (fun w => w.ent = i && w.phase != 1)

/-- Partition whose id range holds a stream. -/
def State.geoOfId (s : State) (id : Nat) : Option Geo :=
  if s.cast.loaded then s.cast.img.geos.find? (fun g => decide (g.idFirst ≤ id) && decide (id ≤ g.idLast))
  else none

/-- The lowest entry of a partition that is free, or out with QCOUNT 0 (R216). -/
def State.takeEnt (s : State) (g : Geo) : Option Nat :=
  ((List.range g.entCount).map (g.entBase + ·)).find? (fun i =>
    let e := s.ent i
    !s.entLocked i && (!e.valid || (e.res == .out && e.qcount == 0)))

/-- Slots of a partition that no entry holds. -/
def State.freeSlots (s : State) (g : Geo) : List Nat :=
  (List.range g.slots).filter (fun k => !s.str.ents.any (fun x =>
    decide (g.entBase ≤ x.1) && decide (x.1 < g.entBase + g.entCount) && x.2.valid && x.2.slot == some k))

/-- A stream joins the miss list, if it is not on it; a swap-in of it may start again (R216, R218). -/
def State.miss (s : State) (id : Nat) : State :=
  { s with str := { s.str with
      miss := if s.str.miss.contains id then s.str.miss else s.str.miss ++ [id], parked := s.str.parked.erase id } }

/-- The long word that heads core `d`'s fetched bytes waits for an increment of stream `n`. -/
def State.wantsInc (s : State) (d n : Nat) : Bool :=
  let r := (s.core d).run
  match decodeLongWord s.v64 0 r.pre with
  | .word lw =>
    let ids := lw.slots.flatMap streamIds
    decide ((r.qadm.filter (· = n)).length < (ids.filter (· = n)).length)
  | _ => false

/-- The cores of core `c`'s slab to which its fetch engine multicasts the long word that core `c` waits with (R215, R281). -/
def State.multicast (s : State) (c n : Nat) : List Nat :=
  let r := (s.core c).run
  if r.own then (if s.wantsInc c n then [c] else [])
  else if !s.wantsInc c n then []
  else ((List.range 32).map (c / 32 * 32 + ·)).filter (fun d =>
    let x := (s.core d).run
    x.run == r.run && !x.own && decide (x.iqOff + x.iq.length = r.iqOff + r.iq.length) && s.wantsInc d n)

/-- The increment of stream `n` is granted to the fetch of cores `ds`: the long word may now be placed. -/
def State.grantInc (s : State) (ds : List Nat) (n : Nat) : State :=
  ds.foldl (fun t d => (t.updRun d (fun x =>
    placeWords s.v64 ((x.run.map (·.len)).getD 0) { x with qadm := x.qadm ++ [n] } 512)).fetchNext d) s

/-- QCOUNT_INCREMENT (R215, R216): core `c`'s fetch engine asks for the increment of an id that the next long word of the fetch names, once for
every core the long word is multicast to; it is held, with the fetch of the stream, while every entry of the partition is in use.
DEDUCED: log 86. -/
def execQcountIncrement (c : CoreNo) (id : W16) (s : State) : Host.Outcome State Fault Refusal :=
  let n := id.toNat
  match (s.partOf c.val).bind s.geo with
  | none => .next s
  | some g =>
    let ds := s.multicast c.val n
    if !s.live c.val || n < g.idFirst || g.idLast < n || ds.isEmpty then .next s
    else
      match s.entOf n with
      | some i =>
        let e := s.ent i
        if s.entLocked i then .next s
        else
          let t := s.setEnt i { e with qcount := e.qcount + ds.length }
          .next ((if e.res == .out || e.res == .swappingOut then t.miss n else t).grantInc ds n)
      | none => match s.takeEnt g with
        | none => .next s
        | some i =>
          .next (((s.setEnt i { id := n, valid := true, qcount := ds.length, part := g.part }).miss n).grantInc ds n)

/-- QCOUNT_DECREMENT (R215). -/
def execQcountDecrement (c : CoreNo) (id : W16) (s : State) : Host.Outcome State Fault Refusal :=
  let n := id.toNat
  if !s.running || !(s.core c.val).run.qdec.contains n then .next s
  else
    let t := s.updRun c.val (fun x => { x with qdec := x.qdec.erase n })
    match s.entOf n with
    | none => .next t
    | some i =>
      let e := s.ent i
      if s.entLocked i then .next s else .next (t.setEnt i { e with qcount := e.qcount - 1 })

/-! ### Swaps (R217, R218) -/

/-- The committed reset flag of a stream on a core, and whether the working one agrees. -/
def flagsOf (s : State) (p id : Nat) : List Bool :=
  (s.coresOf p).flatMap (fun c => [((s.core c).cur.view id).flag, ((s.core c).rp.view id).flag])

/-- RESET of an entry (R219): the committed flag of some core is 1. -/
def State.resetOf (s : State) (e : StrEnt) : Bool :=
  if e.res == .resident || e.res == .swappingOut then (s.coresOf e.part).any (fun c => ((s.core c).rp.view e.id).flag) else e.reset

/-- POS of an entry (R220): the least committed position among the cores that have stepped the stream. -/
def State.posOf (s : State) (e : StrEnt) : Nat :=
  if e.res == .resident || e.res == .swappingOut then
    match ((s.coresOf e.part).filter (fun c => ((s.core c).cur.view e.id).stepped)).map (fun c => ((s.core c).rp.view e.id).pos) with
    | [] => e.pos
    | x :: l => l.foldl Nat.min x
  else e.pos

/-- The eight words of an entry (Table 2). -/
def State.entWords (s : State) (e : StrEnt) : List Nat :=
  [e.id % 65536 + 2 ^ 16 * e.res.code + 2 ^ 18 * b2n (s.resetOf e)
     + 2 ^ 19 * b2n (e.valid && e.res == .resident && s.dirty e.part e.id) + 2 ^ 20 * b2n e.valid + 2 ^ 21 * (e.slot.getD 0x7FF),
   e.qcount % 2 ^ 24 + 2 ^ 24 * (e.part % 8), s.posOf e % 2 ^ 32, s.posOf e / 2 ^ 32 % 2 ^ 16, e.gen % 2 ^ 32,
   e.back % 2 ^ 32, e.back / 2 ^ 32 % 2 ^ 8, 0]

/-- Address of the directory record of an id (R213). -/
def State.dirAddr (s : State) (id : Nat) : Nat := s.regN (oStrDir 0) / 32 * 32 + 2 ^ 32 * (s.regN (oStrDir 1) % 256) + 32 * id

/-- The result of a firmware command (Table 8). -/
def State.strResult (s : State) (r id : Nat) : State := { s with str := { s.str with result := r, lastId := id } }

/-- The arbiter decides a swap-out of entry `i` (R217). -/
def State.decideOut (s : State) (i : Nat) : State :=
  let e := s.ent i
  if !e.valid || e.res != .resident then s.strResult 1 e.id
  else if e.qcount ≠ 0 then s.strResult 2 e.id
  else
    let fl := flagsOf s e.part e.id
    if s.dirty e.part e.id || fl.any (· != fl.headD false) then s.strResult 3 e.id
    else
      let t := (s.strResult 0 e.id).setEnt i { e with res := .swappingOut, pos := s.posOf e, reset := s.resetOf e }
      { t with str := { t.str with
        done := false, cmd := some (false, e.id), swaps := t.str.swaps ++ [{ ent := i, inn := false, phase := 0 }] } }

/-- A command waits for its entry's acknowledgement (R217). -/
def State.strWait (s : State) (w : StrWait) : State := { s with str := { s.str with waits := s.str.waits ++ [w] } }

/-- STRCMD_SWAP_OUT (R217, R228): decided at once, or once the entry's change of RES has been acknowledged. -/
def execStrcmdSwapOut (req : Requester) (ent : BitVec 12) (s : State) : Host.Outcome State Fault Refusal :=
  if !s.byMgmt req then .next s
  else if s.entLocked ent.toNat then .next (s.strWait { inn := false, n := ent.toNat })
  else .next (s.decideOut ent.toNat)

/-- A swap-in begins: a free slot is assigned (R218 step 1); which one the spec leaves open. DESIGN CHOICE: log 87. -/
def State.startSwapIn (s : State) (i : Nat) (g : Geo) : State :=
  let f := s.free 16
  let fs := s.freeSlots g
  let e := f.2.ent i
  let t := f.2.setEnt i { e with res := .swappingIn, slot := some (nthD fs (f.1 % fs.length) 0), part := g.part }
  { t with str := { t.str with parked := t.str.parked.erase e.id, swaps := t.str.swaps ++ [{ ent := i, inn := true, phase := 0 }] } }

/-- The miss list's stream may be swapped in now. -/
def State.startable (s : State) (id : Nat) : Option (Nat × Geo) :=
  match s.entOf id, s.geoOfId id with
  | some i, some g =>
    if !s.entLocked i && (s.ent i).res == .out && !s.str.parked.contains id && !(s.freeSlots g).isEmpty then some (i, g) else none
  | _, _ => none

/-- Level of the stream-miss interrupt to the management core (R216): a stream of the miss list finds no free slot in its partition. -/
def State.streamMissIrq (s : State) : Bool :=
  s.str.miss.any (fun id => match s.geoOfId id with | some g => (s.freeSlots g).isEmpty | none => false)

/-- SWAP_IN_START (R216): for the oldest stream on the miss list that may be swapped in. -/
def execSwapInStart (s : State) : Host.Outcome State Fault Refusal :=
  if !s.running then .next s
  else match s.str.miss.findSome? s.startable with
    | some (i, g) => .next (s.startSwapIn i g)
    | none => .next s

/-- The arbiter decides a swap-in of stream `n` (R218). -/
def State.decideIn (s : State) (n : Nat) : State :=
  let wait (t : State) : State := { t with str := { t.str with done := false, cmd := some (true, n) } }
  match s.geoOfId n with
  | none => s.strResult 5 n
  | some g =>
    let full := (s.freeSlots g).isEmpty
    match s.entOf n with
    | some i =>
      match (s.ent i).res with
      | .resident => let t := s.strResult 0 n; { t with str := { t.str with done := true, cmd := none } }
      | .swappingIn => wait (s.strResult 0 n)
      | .swappingOut => (wait (s.strResult 0 n)).miss n
      | .out => if full then s.strResult 4 n else (wait (s.strResult 0 n)).startSwapIn i g
    | none =>
      match s.takeEnt g with
      | none => s.strResult 4 n
      | some i =>
        if full then s.strResult 4 n
        else (wait ((s.strResult 0 n).setEnt i { id := n, valid := true, part := g.part })).startSwapIn i g

/-- The entry a waiting command is for has no unacknowledged change of RES. -/
def State.strReady (s : State) (w : StrWait) : Bool :=
  if w.inn then (match s.entOf w.n with | some i => !s.entLocked i | none => true) else !s.entLocked w.n

/-- The waiting commands whose entries are free are decided, oldest first; at most `k`. -/
def State.strWake (s : State) : Nat → State
  | 0 => s
  | k + 1 => match s.str.waits.find? s.strReady with
    | none => s
    | some w =>
      let t : State := { s with str := { s.str with waits := s.str.waits.erase w } }
      (if w.inn then t.decideIn w.n else t.decideOut w.n).strWake k

/-- STRCMD_SWAP_IN (R218): decided at once, or once the entry's change of RES has been acknowledged. -/
def execStrcmdSwapIn (req : Requester) (id : W16) (s : State) : Host.Outcome State Fault Refusal :=
  let w : StrWait := { inn := true, n := id.toNat }
  if !s.byMgmt req then .next s
  else if s.strReady w then .next (s.decideIn id.toNat)
  else .next (s.strWait w)

/-- The last accepted command's swap ends (Table 8). -/
def State.cmdEnds (s : State) (inn : Bool) (id : Nat) (res : Option Nat) : State :=
  if s.str.cmd = some (inn, id) then
    { s with str := { s.str with done := true, cmd := none, result := res.getD s.str.result } }
  else s

/-- A swap whose final RES awaits acknowledgement. -/
def State.swapPhase (s : State) (i ph : Nat) : State :=
  { s with str := { s.str with swaps := s.str.swaps.map (fun w => if w.ent = i then { w with phase := ph } else w) } }
def State.dropSwap (s : State) (i : Nat) : State :=
  { s with str := { s.str with swaps := s.str.swaps.filter (fun w => w.ent ≠ i) } }

/-- Every slab of the partition shows an entry's RES on its residency scoreboard (R221). -/
def State.ackScore (s : State) (i : Nat) : State :=
  let e := s.ent i
  let ls := match s.partEnt e.part with
    | some p => (List.range p.size).map (p.first + ·)
    | none => []
  { s with str := { s.str with score := ls.foldl (fun m l => Sp.set .out m (64 * i + l) e.res) s.str.score } }

/-- SWAP_STATE_ACKNOWLEDGED (R217, R218, R221): every slab has acknowledged a change of RES; commands that waited for it are decided. -/
def execSwapStateAcknowledged (ent : BitVec 12) (s : State) : Host.Outcome State Fault Refusal :=
  match s.str.swaps.find? (fun w => w.ent = ent.toNat) with
  | some w =>
    if !s.running || w.phase = 1 then .next s
    else
      let t := s.ackScore w.ent
      let u := if w.phase = 0 then t.swapPhase w.ent 1 else t.dropSwap w.ent
      .next (u.strWake u.str.waits.length)
  | none => .next s

/-- Cores of a partition, mapped or not, and the mapped ones with their partition-order indices (R214). -/
def State.ncoresOf (s : State) (p : Nat) : Nat := match s.partEnt p with | some e => 32 * e.size | none => 0
def State.indexed (s : State) (p : Nat) : List (Nat × Nat) :=
  (List.range (s.ncoresOf p)).filterMap (fun i => (s.coreAt p i).map (fun c => (c, i)))

/-- Bytes of a state image block, and the image's length in granules with its trailer (R213, R214). -/
def imageBlock (g : Geo) : Nat := 5 * g.nslot
def State.imageGrans (s : State) (g : Geo) : Nat := (s.ncoresOf g.part * imageBlock g + 32) / 32

/-- Write the slice of every core, the trailer and the directory record (R214, R217 step 2). -/
def State.writeImage (s : State) (e : StrEnt) (g : Geo) : State :=
  let base := g.regBase + (e.slot.getD 0) * g.nslot
  let m1 := (s.indexed g.part).foldl (fun m x =>
    let st := (s.core x.1).rp.store
    (List.range g.nslot).foldl (fun m i =>
      Memory.setNat m (e.back + x.2 * imageBlock g + 5 * i) 5 (Sp.get 0#40 st (base + i)).toNat) m) s.tierA
  let m2 := Memory.setNat m1 (e.back + s.ncoresOf g.part * imageBlock g) 32 (e.gen % 2 ^ 32 + 2 ^ 32 * e.id + 2 ^ 48 * e.pos)
  let out : StrEnt := { e with res := .out, slot := none, qcount := 0 }
  let ws := ({ s with tierA := m2 } : State).entWords out
  { s with tierA := (ws.zipIdx).foldl (fun m x => Memory.setNat m (s.dirAddr e.id + 4 * x.2) 4 x.1) m2 }

/-- Every core forgets a stream that left its slot. -/
def State.forget (s : State) (p id : Nat) : State :=
  (s.coresOf p).foldl (fun t c => t.updCore c (fun k =>
    { k with cur := { k.cur with strs := Sp.set {} k.cur.strs id {} }, rp := { k.rp with strs := Sp.set {} k.rp.strs id {} } })) s

/-- A swap-out's writes end (R217 step 3). -/
def State.endSwapOut (s : State) (i : Nat) (g : Geo) (err : Bool) : State :=
  let e := s.ent i
  if err then
    let t := (s.undefRange false e.back (s.imageGrans g)).undefRange false (s.dirAddr e.id) 1
    ((t.setEnt i { e with res := .resident }).swapPhase i 2).cmdEnds false e.id (some 6) |>.offer
      { code := 0x27, unit := 10, info0 := some e.id }
  else
    let t := (s.writeImage e g).forget g.part e.id
    ((t.setEnt i { e with res := .out, slot := none }).swapPhase i 2).cmdEnds false e.id none

/-- A swap-in ends in fault (R218): the slot is freed and the stream stays on the miss list, not to be tried again by itself. -/
def State.failSwapIn (s : State) (i code : Nat) : State :=
  let e := s.ent i
  let t := (s.setEnt i { e with res := .out, slot := none }).swapPhase i 2
  let t1 := { t with str := { t.str with parked := if t.str.miss.contains e.id then t.str.parked ++ [e.id] else t.str.parked } }
  (t1.cmdEnds true e.id (some (if code = 0x31 then 5 else 6))).offer { code := code, unit := 10, info0 := some e.id }

/-- A swap-in's reads end without error (R218 steps 2 to 4). -/
def State.endSwapIn (s : State) (i : Nat) (g : Geo) : State :=
  let e := s.ent i
  let w (k : Nat) : Nat := Memory.nat s.tierA (s.dirAddr e.id + 4 * k) 4
  let back := w 5 / 32 * 32 + 2 ^ 32 * (w 6 % 256)
  let gen := w 4
  let pos := w 2 + 2 ^ 32 * (w 3 % 65536)
  let tr := Memory.nat s.tierA (back + s.ncoresOf g.part * imageBlock g) 32
  if !bitOf (w 0) 20 then s.failSwapIn i 0x31
  else if gen ≠ 0 ∧ (fld tr 31 0 ≠ gen ∨ fld tr 47 32 ≠ fld (w 0) 15 0) then s.failSwapIn i 0x32
  else
    let base := g.regBase + (e.slot.getD 0) * g.nslot
    let view : StrView := { flag := bitOf (w 0) 18, pos := pos }
    let t := (s.indexed g.part).foldl (fun t x => t.updCore x.1 (fun k =>
      let put (m : Sp W40) : Sp W40 := (List.range g.nslot).foldl (fun m j =>
        Sp.set 0#40 m (base + j) (if gen = 0 then 0#40 else BitVec.ofNat 40 (Memory.nat s.tierA (back + x.2 * imageBlock g + 5 * j) 5))) m
      { k with cur := ({ k.cur with store := put k.cur.store } : CoreArch).setView e.id view,
               rp := ({ k.rp with store := put k.rp.store } : CoreArch).setView e.id view })) s
    let t1 := (t.setEnt i { e with
      res := .resident, reset := bitOf (w 0) 18, pos := pos, gen := gen, back := back, part := g.part }).swapPhase i 2
    ({ t1 with str := { t1.str with miss := t1.str.miss.erase e.id } } : State).cmdEnds true e.id none

/-- The clocks of the ports run that a swap's image and its directory record reach (R59). -/
def State.swapUp (s : State) (i : Nat) (inn : Bool) (g : Geo) : Bool :=
  let e := s.ent i
  let back := if inn then Memory.nat s.tierA (s.dirAddr e.id + 20) 4 / 32 * 32 + 2 ^ 32 * (Memory.nat s.tierA (s.dirAddr e.id + 24) 4 % 256)
    else e.back
  s.portUp false (s.dirAddr e.id) && s.rangeUp false back (32 * s.imageGrans g)

/-- SWAP_MEMORY_DONE (R217, R218): the swap's memory accesses end, one of them with an error response where `err`. -/
def execSwapMemoryDone (ent : BitVec 12) (err : Bool) (s : State) : Host.Outcome State Fault Refusal :=
  let i := ent.toNat
  match s.str.swaps.find? (fun w => w.ent = i && w.phase = 1), s.geo (s.ent i).part with
  | some w, some g =>
    if !s.running || !s.swapUp i w.inn g then .next s
    else if w.inn then .next (if err then s.failSwapIn i 0x27 else s.endSwapIn i g)
    else .next (s.endSwapOut i g err)
  | _, _ => .next s

/-- The long word that heads core `c`'s issue queue names a stream that its residency scoreboard does not show resident (R221). -/
def State.waitsRes (s : State) (c : Nat) : Bool :=
  match decodeLongWord s.v64 0 (s.core c).run.iq with
  | .word lw => !(notResident (s.cenv c) lw.slots).isEmpty
  | _ => false

/-- RESWAIT_EXPIRY (R222): counted on the timebase from the beat at which the long word first held, while it still holds on residency. -/
def execReswaitExpiry (c : CoreNo) (s : State) : Host.Outcome State Fault Refusal :=
  let r := (s.core c.val).run
  match r.resSince, (s.partOf c.val).bind s.geo with
  | some t, some g =>
    if g.reswait ≠ 0 && r.halt.isNone && s.waitsRes c.val && s.due (t + s.us g.reswait) then
      let tag := match decodeLongWord s.v64 c r.iq with | .word lw => lw.tag | _ => r.lastTag
      .next ((s.updRun c.val (fun x => { x with resSince := none })).haltCore c.val { code := 0x34, unit := 0, tag := tag })
    else .next s
  | _, _ => .next s

/-! ### Rings (R278, R279, R283, R295) -/

def State.ring (s : State) (p : Nat) : Ring := Sp.get {} s.rings p
def State.setRing (s : State) (p : Nat) (r : Ring) : State := { s with rings := Sp.set {} s.rings p r }

/-- SQTAIL_WRITE (R278, R451, R455, R485): a doorbell; in idle it is the host's wake source and returns the block to active, also from an
entry that has not reached step 4; during self-test it is ignored. -/
def execSqtailWrite (req : Requester) (p : BitVec 3) (v : W32) (s : State) : Host.Outcome State Fault Refusal :=
  let r := s.ring p.toNat
  let n := v.toNat % 65536
  if !s.byHost req || s.boot.stActive then .next s
  else if 2 ^ r.sqSize ≤ n then .next (s.setRing p.toNat { r with sqErr := true })
  else
    let t := if s.pwr.ps = 1 then
        ({ s with pwr := { s.pwr with ps := 0, psResult := if s.pwr.step = .entering then 3 else 0, step := .none_ },
                  aon := { s.aon with wHost := true, wakeReq := false } } : State).forward else s
    .next (t.setRing p.toNat { r with sqTail := n })

/-- CQHEAD_WRITE (R278). -/
def execCqheadWrite (req : Requester) (p : BitVec 3) (v : W32) (s : State) : Host.Outcome State Fault Refusal :=
  let r := s.ring p.toNat
  let n := v.toNat % 65536
  if !s.byHost req then .next s
  else .next (s.setRing p.toNat (if 2 ^ r.cqSize ≤ n then { r with cqErr := true } else { r with cqHead := n }))

/-- The completion ring has no room (DEDUCED, log 42: one slot stays unused). -/
def Ring.full (r : Ring) : Bool := (r.cqTail + 1) % 2 ^ r.cqSize == r.cqHead

/-- Write a completion entry at CQTAIL, advance it, and raise the vector once the entry is visible (R283). -/
def State.putCompletion (s : State) (p : Nat) (x : List Nat × Option Nat) : State :=
  let r := s.ring p
  let ws := x.1 ++ [b2n r.phase]
  let a := r.cqBase / 16 * 16 + 16 * r.cqTail
  let tail := (r.cqTail + 1) % 2 ^ r.cqSize
  let t := { s with hostOut := (ws.zipIdx).foldl (fun m (w : Nat × Nat) => Memory.setNat m (a + 4 * w.2) 4 w.1) s.hostOut }
  let t1 := t.setRing p { r with cqTail := tail, phase := if tail = 0 then !r.phase else r.phase }
  match x.2 with
  | some v => t1.irq v
  | none => t1

/-- A completion entry is written, or waits in its turn for room or for the host port's clock (R59, R283). -/
def State.complete (s : State) (p : Nat) (x : List Nat × Option Nat) : State :=
  let r := s.ring p
  if r.waiting.isEmpty && !r.full && s.hostUp then s.putCompletion p x else s.setRing p { r with waiting := r.waiting ++ [x] }

/-- COMPLETION_ENTRY_WRITE (R59, R283): the oldest waiting entry is written once the ring has room and the host port's clock runs. -/
def execCompletionEntryWrite (p : BitVec 3) (s : State) : Host.Outcome State Fault Refusal :=
  let r := s.ring p.toNat
  match r.waiting with
  | x :: rest => if s.running && !r.full && s.hostUp then .next ((s.setRing p.toNat { r with waiting := rest }).putCompletion p.toNat x) else .next s
  | [] => .next s

/-- A submission entry (Table 1). -/
structure SubEntry where
  addr : Nat
  len : Nat
  first : Nat
  count : Nat
  stride : Nat
  vec : Nat
  irq : Bool
  usertag : Nat
  /-- a reserved field is nonzero -/
  dirty : Bool
  deriving DecidableEq, Repr

def subEntry (ws : List W32) : SubEntry :=
  let w (i : Nat) : Nat := (nthD ws i 0#32).toNat
  { addr := w 0 + 2 ^ 32 * w 1, len := w 2, first := fld (w 3) 15 0, count := fld (w 3) 31 16, stride := fld (w 4) 7 0,
    vec := fld (w 4) 13 8, irq := bitOf (w 4) 14, usertag := w 5, dirty := fld (w 4) 31 15 != 0 || w 6 != 0 || w 7 != 0 }

/-- Partition-order indices of the bound cores (R278). -/
def SubEntry.bound (e : SubEntry) : List Nat := (List.range e.count).map (fun k => e.first + k * e.stride)

/-- R279: the entry is refused. DEDUCED: log 88. -/
def SubEntry.refused (e : SubEntry) (part : Option PartEnt) : Bool :=
  match part with
  | none => true
  | some p => e.dirty || e.addr % 32 != 0 || e.len % 32 != 0 || decide (e.len < 32) || e.stride == 0
      || e.bound.any (fun i => decide (32 * p.size ≤ i))

/-- Append an accepted entry to the list of each bound core (R280). -/
def State.bind (s : State) (p : Nat) (e : SubEntry) : State :=
  let n := s.nextSub
  let u : Sub := { num := n, part := p, cores := e.bound, vec := e.vec, irq := e.irq, usertag := e.usertag }
  e.bound.foldl (fun t i => match t.coreAt p i with
    | some c => t.updRun c (fun r => { r with list := r.list ++ [{ sub := n, addr := e.addr, len := e.len }] })
    | none => t) { s with subs := s.subs ++ [u], nextSub := n + 1 }

/-- SUBMISSION_ENTRY_READ (R278, R279, R283): the entry as host memory holds it when the block reads it. -/
def execSubmissionEntryRead (p : BitVec 3) (words : List W32) (s : State) : Host.Outcome State Fault Refusal :=
  let q := p.toNat
  let r := s.ring q
  if !s.running || r.sqHead = r.sqTail || !r.waiting.isEmpty || !s.hostUp then .next s
  else
    let e := subEntry words
    let t := s.setRing q { r with sqHead := (r.sqHead + 1) % 2 ^ r.sqSize }
    let vec := if e.irq then some e.vec else none
    if e.refused (s.partEnt q) then .next (t.complete q ([e.usertag, 2, 0], vec))
    else if s.cast.stopped.contains q then .next (t.complete q ([e.usertag, 3, 0], vec))
    else .next (t.bind q e)

/-- STREAM_COMPLETE (R283; a stream of a stopped partition ends with STATUS 3): submission `k` of those not complete; up to 64 entries wait for room. -/
def execStreamComplete (k : Nat) (s : State) : Host.Outcome State Fault Refusal :=
  match s.subs[k]? with
  | none => .next s
  | some u =>
    if !s.running || 64 ≤ (s.ring u.part).waiting.length
        || !(u.stopped || u.cores.all (fun i => u.passed.contains i || u.halted.contains i)) then .next s
    else
      let f := u.first.getD (0, 0)
      let st := if u.stopped then 3 else if u.halted.isEmpty then 0 else 1
      .next (({ s with subs := s.subs.eraseIdx k } : State).complete u.part
        ([u.usertag, st + 256 * (f.1 % 256) + 65536 * (f.2 % 65536), u.passed.length], if u.irq then some u.vec else none))

end Sys2Proof.Machine
end

