-- ==== Sys2Proof/Machine/Xfer.lean ====
section
/-! DEFINITION. Machine/Xfer.lean: the data-movement engine's transfers from their start to completion, translation, page faults (R254 to
R269, R276, R317 to R319, R383, R394). -/

namespace Sys2Proof.Machine

/-! ### Transfers of a queue -/

def State.xfers (s : State) (c : Nat) (exec : Bool) : List Xfer := let r := (s.core c).run; if exec then r.eq else r.fq
def State.setXfers (s : State) (c : Nat) (exec : Bool) (l : List Xfer) : State :=
  s.updRun c (fun r => if exec then { r with eq := l } else { r with fq := l })
def State.xfer (s : State) (c : Nat) (exec : Bool) (q : Nat) : Option Xfer := (s.xfers c exec).find? (fun x => x.seq = q)
def State.updXfer (s : State) (c : Nat) (exec : Bool) (q : Nat) (f : Xfer → Xfer) : State :=
  s.setXfers c exec ((s.xfers c exec).map (fun x => if x.seq = q then f x else x))

/-- A queue is halted on a page fault (R264). -/
def State.qHalt (s : State) (c : Nat) (exec : Bool) : Bool := let r := (s.core c).run; if exec then r.eHalt else r.fHalt
def State.setQHalt (s : State) (c : Nat) (exec b : Bool) : State :=
  s.updRun c (fun r => if exec then { r with eHalt := b } else { r with fHalt := b })

/-- Cores of the partition of core `c`. -/
def State.ncores (s : State) (c : Nat) : Nat := (s.cenv c).ncores

/-! ### Translation (R261, R262) -/

def State.tlbOf (s : State) (slab p page : Nat) : Option Nat :=
  (s.tlb.find? (fun t => t.slab = slab && t.part = p && t.page = page)).map (·.pte)

/-- Cache a translation: 512 a slab, the oldest leaves (DESIGN CHOICE, log 38). -/
def State.addTlb (s : State) (t : Tlb) : State :=
  let mine := s.tlb.filter (fun x => x.slab = t.slab)
  let old := match mine with
    | o :: _ => if 512 ≤ mine.length then s.tlb.erase o else s.tlb
    | [] => s.tlb
  { s with tlb := old ++ [t] }

/-! ### Stops and page faults (R259, R264, R266, R267) -/

/-- The partition address of a transfer's position. -/
def posAddr (ls : Memory) (x : Xfer) : Nat :=
  if x.gath then
    let v := x.rec8
    fld v 63 0 + 32 * (Memory.nat ls (4 * fld v 143 128 + 4 * x.blk) 4 * fld v 95 64 + x.off)
  else (blkEnt ls x x.blk).addr + 32 * x.off

/-- A page fault (R264): the granules before the position have been delivered. INFO0 of the record holds what COR_DMPF0 and COR_DMPF1 do, the
partition address and the queue; INFO1 the position. DEDUCED: log 147. -/
def State.pageFault (s : State) (c : Nat) (exec : Bool) (x : Xfer) : State :=
  let pa := posAddr (s.core c).st.ls x
  let row := x.blk
  let d : List W32 :=
    [BitVec.ofNat 32 pa,
     BitVec.ofNat 32 (pa / 2 ^ 32 % 2 ^ 15 + 2 ^ 15 * b2n exec + 2 ^ 16 * b2n exec + 2 ^ 17 + 2 ^ 18 * b2n x.gath),
     BitVec.ofNat 32 ((if x.gath then x.off else x.blk) % 2 ^ 12 + 2 ^ 16 * x.tag.toNat),
     BitVec.ofNat 32 (if x.gath then row else x.off % 2 ^ 16)]
  let t := ((s.updXfer c exec x.seq (fun y => { y with stop := none, walk := none, halted := true })).setQHalt c exec true).updSt c
    (fun st => { st with dmpf := d })
  t.offerCore c
    { code := 0x40, act := 0, unit := 7, tag := x.tag, info0 := some ((nthD d 0 0#32).toNat + 2 ^ 32 * (nthD d 1 0#32).toNat),
      info1 := some (if x.gath then row else x.blk % 2 ^ 12 + 2 ^ 16 * (x.off % 2 ^ 16)) }

/-- What a transfer has found at its position is recorded once every granule it requested before is delivered. -/
def State.stopNow (s : State) (c : Nat) (exec : Bool) (q : Nat) : State :=
  match s.xfer c exec q with
  | none => s
  | some x => match x.stop with
    | none => s
    | some code =>
      if x.open_ ≠ 0 || x.dead || x.halted then s
      else if code = 0x40 then s.pageFault c exec x
      else s.stopXfer c exec q code

/-- The transfer finds a code at its position: 0x40 halts its queue, the others stop it (R264, R266). -/
def State.stopAt (s : State) (c : Nat) (exec : Bool) (q code : Nat) : State :=
  (s.updXfer c exec q (fun x => { x with stop := some code, walk := none })).stopNow c exec q

/-- `n` requests of a transfer are answered. -/
def State.answered (s : State) (c : Nat) (exec : Bool) (q n : Nat) : State :=
  (s.updXfer c exec q (fun x => { x with open_ := x.open_ - n })).stopNow c exec q

/-! ### One granule -/

/-- A granule of MEM at partition address `pa`, local granule `lg` (R259, R261, R268). True where the run goes on. -/
def State.memGranule (s : State) (c : Nat) (exec : Bool) (x : Xfer) (pa lg : Nat) : State × Bool :=
  let p := (s.partOf c).getD 0
  let page := pa / 2 ^ 21
  if (s.cenv c).ptLen ≤ page then (s.stopAt c exec x.seq 0x42, false)
  else if !exec && inKept (s.core c).cur.kept lg then (s.stopAt c exec x.seq 0x24, false)
  else match s.tlbOf (c / 32) p page with
    | none => (s.updXfer c exec x.seq (fun y => { y with walk := some page }), false)
    | some pte =>
      if exec && !bitOf pte 1 then (s.stopAt c exec x.seq 0x41, false)
      else
        let addr := fld pte 44 21 * 2 ^ 21 + pa % 2 ^ 21
        let b := bitOf pte 2
        let data := Memory.granule (s.core c).st.ls (32 * lg)
        if x.add then
          let e : LogEnt := { core := c, req := s.memSerial, dest := .mem b addr p page, data := data, seq := x.seq, tag := x.tag }
          (({ s with dlog := s.dlog ++ [e] } : State).updXfer c exec x.seq
            (fun y => { y with off := y.off + 1, logged := y.logged + 1 }), true)
        else
          ((s.updXfer c exec x.seq (fun y => { y with off := y.off + 1, open_ := y.open_ + 1 })).reqMem
            { tierB := b, addr := addr, op := if exec then .write else .read, slot := toSlot data, lgran := lg,
              owner := .xfer c exec x.seq, part := p, page := page }, true)

/-- A granule of CORE: target granule `tg` of partition core `t`, local granule `lg` (R259, R269). -/
def State.coreGranule (s : State) (c : Nat) (exec : Bool) (x : Xfer) (t tg lg : Nat) (ctr : Option Nat) : State × Bool :=
  if !exec && inKept (s.core c).cur.kept lg then (s.stopAt c exec x.seq 0x24, false)
  else
    let k : MsgKind := if exec then .put (Memory.granule (s.core c).st.ls (32 * lg)) (if t = s.pidx c then none else ctr) else .get lg
    let p := (s.partOf c).getD 0
    let m : Msg :=
      { src := s.lcore c, seq := x.seq, region := (s.core c).cur.region, ordinal := x.ordinal, off := x.moved,
        part := p, dst := t, sp := c / 32, dp := s.slabAt p t, gran := tg, kind := k }
    (({ s with mesh := s.mesh ++ [m] } : State).updXfer c exec x.seq
      (fun y => { y with off := y.off + 1, moved := y.moved + 1, open_ := y.open_ + 1 }), true)

/-! ### Block lists (R258, R259) -/

/-- Code with which an entry stops the transfer before its first granule, if any (R259, R268, R383). -/
def blkFault (x : Xfer) (e : BlkEnt) : Option Nat :=
  if !e.zero ∨ (x.tgt = 0 ∧ e.addr % 32 ≠ 0) ∨ (x.tgt = 1 ∧ 2 ^ 13 ≤ e.addr) ∨ (x.tgt = 2 ∧ e.addr ≠ 0) then some 0x43
  else if e.lgran < x.lfirst ∨ x.lfirst + x.lcnt < e.lgran + e.len then some 0x44
  else if x.tgt = 1 ∧ 6144 < e.addr + e.len then some 0x43
  else if x.add ∧ x.lcnt < x.logged + e.len then some 0x47
  else none

/-- One granule of a block list, or the end of the list. -/
def State.blkStep (s : State) (c : Nat) (exec : Bool) (x : Xfer) : State × Bool :=
  if x.nent ≤ x.blk then (s.updXfer c exec x.seq (fun y => { y with allReq := true, rd := [] }), false)
  else
    let e := blkEnt (s.core c).st.ls x x.blk
    match if x.off = 0 then blkFault x e else none with
    | some code => (s.stopAt c exec x.seq code, false)
    | none =>
      if e.len ≤ x.off then (s.updXfer c exec x.seq (fun y => { y with blk := y.blk + 1, off := 0 }), true)
      else if x.tgt = 0 then s.memGranule c exec x (e.addr + 32 * x.off) (e.lgran + x.off)
      else s.coreGranule c exec x x.tcore (e.addr + x.off) (e.lgran + x.off) x.ctr

/-! ### Gathers and scatters (R267, R319) -/

/-- A record that stops the transfer before its first request (R267, R319; DEDUCED, log 43: TCORE is zero for MEM). -/
def gathBad (x : Xfer) : Bool :=
  let v := x.rec8
  let base := fld v 63 0
  (if x.tgt = 0 then fld base 63 47 != 0 || base % 32 != 0 || fld v 234 224 != 0 else fld base 63 13 != 0)
    || fld v 127 104 != 0 || fld v 159 144 != 0 || fld v 191 160 == 0 || fld v 255 235 != 0

/-- One granule of a gather or scatter, or its end. -/
def State.gathStep (s : State) (c : Nat) (exec : Bool) (x : Xfer) : State × Bool :=
  let v := x.rec8
  let len := fld v 103 96 + 1
  if fld v 191 160 ≤ x.blk then (s.updXfer c exec x.seq (fun y => { y with allReq := true, rd := [] }), false)
  else
    let a := 4 * fld v 143 128 + 4 * x.blk
    let i := Memory.nat (s.core c).st.ls a 4
    let row := i * fld v 95 64
    let l := x.lfirst + x.blk * len
    if lsBytes < a + 4 then (s.stopAt c exec x.seq 0x25, false)
    else if x.off = 0 ∧ (fld v 223 192 ≤ i ∨ (x.tgt = 1 ∧ 6144 < fld v 12 0 + row + len)) then (s.stopAt c exec x.seq 0x45, false)
    else if x.off = 0 ∧ x.lfirst + x.lcnt < l + len then (s.stopAt c exec x.seq 0x44, false)
    else if len ≤ x.off then (s.updXfer c exec x.seq (fun y => { y with blk := y.blk + 1, off := 0 }), true)
    else if x.tgt = 0 then s.memGranule c exec x (fld v 63 0 + 32 * (row + x.off)) (l + x.off)
    else s.coreGranule c exec x (fld v 234 224) (fld v 12 0 + row + x.off) (l + x.off) none

/-- Issue a transfer's requests from its position, until it ends, stops or waits for a page walk; at most `n` steps. -/
def State.runXfer (s : State) (c : Nat) (exec : Bool) (q : Nat) : Nat → State
  | 0 => s
  | n + 1 => match s.xfer c exec q with
    | none => s
    | some x =>
      if x.dead || x.halted || x.stop.isSome || x.walk.isSome || x.allReq then s
      else
        let r := if x.gath then s.gathStep c exec x else s.blkStep c exec x
        if r.2 then r.1.runXfer c exec q n else r.1

/-- Steps that a transfer can take at most: granules and blocks of its list, or of its rows. -/
def Xfer.steps (x : Xfer) : Nat := if x.gath then fld x.rec8 191 160 * 257 + 1 else x.nent * 65537 + 1

/-! ### Messages to remote regions (R383, R387, R394) -/

/-- The local granules of a list in order, up to its first bad entry, and that entry's code. -/
def listGranules (ls : Memory) (x : Xfer) : List Nat × Option Nat :=
  (List.range x.nent).foldl (fun (r : List Nat × Option Nat) i =>
    match r.2 with
    | some _ => r
    | none =>
      let e := blkEnt ls x i
      match blkFault { x with logged := r.1.length } e with
      | some c => (r.1, some c)
      | none => (r.1 ++ (List.range e.len).map (e.lgran + ·), none)) ([], none)

/-- Granules that the block lengths of a list name. -/
def listTotal (ls : Memory) (x : Xfer) : Nat := ((List.range x.nent).map (fun i => (blkEnt ls x i).len)).sum

/-- The target record breaks Table 4 or Table 5 of Remote regions. -/
def targetBad (x : Xfer) (exec : Bool) : Bool :=
  let w (i : Nat) : Nat := x.h (i + 2)
  let enc := bitOf (w 0) 14
  let sl := bitOf (w 0) 15
  fld (w 0) 23 19 != 0 || fld (w 2) 31 16 != 0 || w 5 != 0 || (!sl && (w 4 != 0 || fld (w 0) 18 16 != 0))
    || (enc && sl) || ((enc || sl) && (!exec || !x.add))

/-- OP of Table 5. -/
def opOf (x : Xfer) (exec : Bool) : Nat :=
  if !exec then 3 else if !x.add then 0 else if bitOf (x.h 2) 15 then 5 else if bitOf (x.h 2) 14 then 2 else 1

/-- The sealed parameters of a SEAL transfer are refused (R394). -/
def State.sealBad (s : State) (c : Nat) (x : Xfer) (total : Nat) : Bool :=
  let r := s.round (fld (x.h 2) 18 16)
  r.st != 1 || decide (r.len < x.h 5 + total)
    || (r.seeds.zipIdx).any (fun y => y.2 != r.self && (match s.ownerOf 4 y.1 with
        | some o => s.partOf c != some o
        | none => false))

/-- A transfer to a REMOTE target starts: its record is checked, then the blocks before a bad entry of its list go to the link hub as one
message, or those of an adding one enter the deferred-release log, sealed where the record says so (R259, R268, R362, R383, R394; DEDUCED,
log 44). -/
def State.startRemote (s : State) (c : Nat) (exec : Bool) (x : Xfer) : State :=
  let ls := (s.core c).st.ls
  let tg := (List.range 6).map (fun i => x.h (i + 2))
  let op := opOf x exec
  let id := msgId (s.lcore c) (s.core c).cur.region x.ordinal
  let w0 := x.h 2
  let wire := (w0 / 2 ^ 19 * 2 ^ 19 + w0 / 2 ^ 14 % 4 * 2 ^ 14) :: tg.drop 1
  let total := listTotal ls x
  if targetBad x exec || decide (2 ^ 21 < total) || (op == 5 && s.sealBad c x total) then s.stopXfer c exec x.seq 0x69
  else match listGranules ls x with
    | ([], some code) => s.stopXfer c exec x.seq code
    | (l, bad) =>
      let n := l.length
      let t := s.updXfer c exec x.seq (fun y => { y with allReq := true, stop := bad })
      let base : Send :=
        { id := 0, src := .core c exec x.seq, peer := w0 % 2 ^ 14, msgid := id, op := op, total := total, target := wire,
          data := .core c l, avail := n }
      if op = 0 then (t.updXfer c exec x.seq (fun y => { y with open_ := 1 })).addSend base
      else if op = 3 then
        let rd : RdOut :=
          { send := t.link.nextSend, peer := w0 % 2 ^ 14, msgid := id, core := c, exec := exec, seq := x.seq, nread := n, dst := l }
        (({ t with link := { t.link with reads := t.link.reads ++ [rd] } } : State).updXfer c exec x.seq
          (fun y => { y with open_ := n })).addSend { base with total := 1, data := .held [BitVec.ofNat 256 n], avail := 1 }
      else
        let r := s.round (fld w0 18 16)
        let ents := (l.zipIdx).map (fun g =>
          let d := Memory.granule ls (32 * g.1)
          ({ core := c, dest := .remote tg id op total g.2, data := if op = 5 then s.sealGran r (x.h 5) g.2 d else d, seq := x.seq,
             tag := x.tag } : LogEnt))
        (({ t with dlog := t.dlog ++ ents } : State).updXfer c exec x.seq (fun y => { y with logged := n })).stopNow c exec x.seq

/-! ### Queue-end pushes (R276) -/

/-- The producer may push on outbound queue end `q` (R287, R288). -/
def pushReady (k : Core) (w : QWire) : Bool := creditFor k w.nitems w.pend

/-- A queue-end push starts: the block is delivered as one item. DEDUCED: log 91. -/
def State.startPush (s : State) (c : Nat) (x : Xfer) (w : QWire) : State :=
  let k := s.core c
  let e := blkEnt k.st.ls x 0
  if x.nent ≠ 1 ∨ !e.zero ∨ e.addr ≠ 0 ∨ e.len ≠ w.item then s.stopXfer c true x.seq 0x43
  else if e.lgran ≠ x.lfirst then s.stopXfer c true x.seq 0x44
  else
    let idx := Sp.get 0 k.cur.qpush w.pend
    let p := (s.partOf c).getD 0
    let m : ItemMsg :=
      { src := s.lcore c, seq := some x.seq, region := k.cur.region, ordinal := x.ordinal, part := p, dst := w.ccore,
        sp := c / 32, dp := s.slabAt p w.ccore, dend := w.cend, idx := idx, ring := w.ring, nitems := w.nitems, bytes := lsBytesAt k.st.ls (32 * e.lgran) (32 * w.item) }
    (({ s with items := s.items ++ [m] } : State).updCore c (fun k => { k with
      cur := { k.cur with qpush := Sp.set 0 k.cur.qpush w.pend (idx + 1) },
      st := { k.st with qsent := Sp.set 0 k.st.qsent w.pend (Nat.max (Sp.get 0 k.st.qsent w.pend) (idx + 1)) } })).updXfer c true x.seq
        (fun y => { y with allReq := true, rd := [], open_ := 1 })

/-! ### Starting -/

/-- Code with which a header stops the transfer before its first request (R254, R276, R318). -/
def State.headFault (s : State) (c : Nat) (exec : Bool) (x : Xfer) : Option Nat :=
  let n := s.ncores c
  if fld (x.h 0) 31 23 ≠ 0 ∨ fld (x.h 1) 31 22 ≠ 0 ∨ (!x.qpush ∧ x.qend ≠ 0) ∨ (x.tgt ≠ 1 ∧ x.tcore ≠ 0)
      ∨ (x.tgt ≠ 2 ∧ (List.range 6).any (fun i => x.h (i + 2) != 0)) then some 0x4F
  else if x.qpush ∧ (!exec ∨ x.tgt ≠ 1 ∨ x.add ∨ x.tcore ≠ 0 ∨ bitOf (x.h 0) 11 ∨ x.posten) then some 0x4F
  else if (x.tgt = 1 ∧ n ≤ x.tcore) ∨ n ≤ x.pcore then some 0x4A
  else if x.qpush then
    if !(s.cenv c).qends then some 0x15
    else match s.wireFrom ((s.partOf c).getD 0) (s.pidx c) x.qend with
      | none => some 0x15
      | some w => if x.lcnt ≠ w.item then some 0x4F else none
  else none

/-- The ordinal of a transfer's completion post to another core (R377): taken at issue; a header written since then takes the next one, or
stops the transfer with 0x49. -/
def State.takePord (s : State) (c : Nat) (exec : Bool) (x : Xfer) : Except Nat State :=
  let o := (s.core c).run.ordinal
  if !x.postsFar (s.pidx c) ∨ x.pord.isSome then .ok s
  else if maxMsgs ≤ o then .error 0x49
  else .ok ((s.updRun c (fun r => { r with ordinal := o + 1 })).updXfer c exec x.seq (fun y => { y with pord := some o }))

/-- A transfer starts (R256): its header or record is read, then its requests leave. -/
def State.startXfer (s : State) (c : Nat) (exec : Bool) (x : Xfer) : State :=
  let y : Xfer := { x with started := true, head := headWords (s.core c).st.ls x }
  let t := s.updXfer c exec x.seq (fun _ => y)
  if x.gath then
    if gathBad y then t.stopXfer c exec x.seq 0x43
    else if x.tgt = 1 ∧ s.ncores c ≤ fld y.rec8 234 224 then t.stopXfer c exec x.seq 0x4A
    else t.runXfer c exec x.seq y.steps
  else match if x.hdr then s.headFault c exec y else none with
    | some code => t.stopXfer c exec x.seq code
    | none =>
      match t.takePord c exec y with
      | .error code => t.stopXfer c exec x.seq code
      | .ok t =>
        if y.qpush then
          match s.wireFrom ((s.partOf c).getD 0) (s.pidx c) y.qend with
          | none => t
          | some w =>
            if pushReady (s.core c) w then t.startPush c y w
            else s.updXfer c exec x.seq (fun z => { z with deadline := waitDeadline (s.cenv c) z.deadline })
        else if x.tgt = 2 then t.startRemote c exec y
        else t.runXfer c exec x.seq y.steps

/-- TRANSFER_START (R256): paced work (R55). A semaphore post takes place (R272). -/
def execTransferStart (c : CoreNo) (exec : Bool) (s : State) : Host.Outcome State Fault Refusal :=
  let k := s.core c.val
  match nextXfer (s.xfers c.val exec) with
  | none => .next s
  | some x =>
    let y : Xfer := { x with head := headWords k.st.ls x }
    let x' : Xfer := if exec && x.post.isNone then { x with wr := y.selfWrites k.st.ls (s.pidx c.val) } else x
    if !s.livePaced c.val || s.qHalt c.val exec || !x'.free k then .next s
    else if x.post.isSome then .next (s.runCore c.val (fun _ r => postNext r))
    else .next (s.startXfer c.val exec x')

/-! ### Walks and page faults (R261, R264, R265) -/

/-- PAGE_WALK_COMPLETE (R261, R264): paced work (R55); the walk that transfer `k` of the queue waits for returns the entry as tier A holds it. -/
def execPageWalkComplete (c : CoreNo) (exec : Bool) (k : Nat) (s : State) : Host.Outcome State Fault Refusal :=
  match (s.xfers c.val exec)[k]? with
  | none => .next s
  | some x =>
    match x.walk with
    | none => .next s
    | some page =>
      if !s.livePaced c.val || !s.portUp false (s.pteAddr ((s.partOf c.val).getD 0) page) then .next s
      else
        let e := s.cenv c.val
        let pte := ptEntry e page
        if e.ptLen ≤ page then .next (s.stopAt c.val exec x.seq 0x42)
        else if !bitOf pte 0 then .next (s.stopAt c.val exec x.seq 0x40)
        else if frameBad pte then .next (s.stopAt c.val exec x.seq 0x42)
        else
          let t := s.addTlb { slab := c.val / 32, part := (s.partOf c.val).getD 0, page := page, pte := pte }
          .next ((t.updXfer c.val exec x.seq (fun y => { y with walk := none })).runXfer c.val exec x.seq x.steps)

/-- Resume a halted queue (R265): the halted transfer walks again from its saved position. -/
def State.resumeQueue (s : State) (c : Nat) (exec : Bool) : State :=
  if s.qHalt c exec then
    (s.setQHalt c exec false).setXfers c exec ((s.xfers c exec).map (fun x =>
      if x.halted then { x with halted := false, walk := some (posAddr (s.core c).st.ls x / 2 ^ 21) } else x))
  else s

/-- DMRESUME_FETCH (R265, R277): accepted from the driver and from firmware. -/
def execDmresumeFetch (_req : Requester) (c : CoreNo) (s : State) : Host.Outcome State Fault Refusal :=
  if s.slabAnswers (c.val / 32) then .next (s.resumeQueue c.val false) else .next s

/-- DMRESUME_EXEC (R265, R277). -/
def execDmresumeExec (_req : Requester) (c : CoreNo) (s : State) : Host.Outcome State Fault Refusal :=
  if s.slabAnswers (c.val / 32) then .next (s.resumeQueue c.val true) else .next s

/-- PTINV_WRITE (R262, R277): the named translations leave every slab's cache. -/
def execPtinvWrite (_req : Requester) (v : W32) (s : State) : Host.Outcome State Fault Refusal :=
  if !s.answers then .next s
  else
    let p := fld v.toNat 2 0
    let page := if bitOf v.toNat 3 then none else some (fld v.toNat 29 4)
    .next { s with
      tlb := s.tlb.filter (fun t => t.part ≠ p || (match page with | some g => t.page ≠ g | none => false)),
      memSerial := s.memSerial + 1, ptinv := s.ptinv ++ [{ part := p, page := page, upto := s.memSerial + 1 }] }

/-- An invalidation names a page. -/
def PtInv.names (i : PtInv) (part page : Nat) : Bool := part == i.part && (match i.page with | some g => page == g | none => true)

/-- An invalidation waits for no access made under a removed translation: no request, and no add that the deferred-release log took under
it and has not sent. -/
def State.ptinvClear (s : State) (i : PtInv) : Bool :=
  !s.memq.any (fun r => decide (r.since < i.upto) && i.names r.part r.page)
    && !s.dlog.any (fun d => !d.sent && decide (d.req < i.upto) && (match d.dest with | .mem _ _ p g => i.names p g | _ => false))

/-- PTINV_DONE (R262). -/
def execPtinvDone (s : State) : Host.Outcome State Fault Refusal :=
  if s.ptinv.all s.ptinvClear then .next { s with ptinv := [] } else .next s

/-! ### Completion (R256, R272) -/

/-- The post a transfer names on its completion. -/
def State.postOnDone (s : State) (c : Nat) (x : Xfer) : State :=
  let t := x.pcore
  let sem := fld (x.h 1) 16 12
  let cnt := fld (x.h 1) 21 17 + 1
  if !x.hdr || !x.posten then s
  else if t = s.pidx c then s.runCore c (fun _ r => postSelf x.tag sem cnt r)
  else
    let p := (s.partOf c).getD 0
    let m : PostMsg :=
      { src := s.lcore c, tag := x.tag, region := (s.core c).cur.region, ordinal := x.pord.getD 0, part := p,
        dst := t, sp := c / 32, dp := s.slabAt p t, sem := sem, cnt := cnt }
    { s with posts := s.posts ++ [m] }

/-- TRANSFER_COMPLETE (R256, R364): transfer `k` of the queue has made and had answered every request. -/
def execTransferComplete (c : CoreNo) (exec : Bool) (k : Nat) (s : State) : Host.Outcome State Fault Refusal :=
  match (s.xfers c.val exec)[k]? with
  | none => .next s
  | some x =>
    if !s.live c.val || !x.started || !x.allReq || x.dead || x.open_ ≠ 0 then .next s
    else .next (((s.setXfers c.val exec ((s.xfers c.val exec).eraseIdx k)).updCore c.val Core.settle).postOnDone c.val x)

/-! ### Arrivals (R243 to R247, R250, R271, R272, R287, R288, R415) -/

/-- The target acknowledges a granule or an item of a transfer. -/
def State.ackXfer (s : State) (l q : Nat) : State :=
  match s.pcore l with
  | none => s
  | some c =>
    (s.answered c false q 1).answered c true q 1

/-- The store of core `d` grants the bank slots of an access to a whole granule (R232, R253). -/
def State.slotHit (s : State) (d g : Nat) : State :=
  s.updSt d (fun st => { st with perf := Sp.set 0#32 st.perf oSlots (Sp.get 0#32 st.perf oSlots + BitVec.ofNat 32 (slotCost (8 * g) 8)) })

/-- A granule is written through FIN by a message (R250, R410), of another core or chip where `far`: refused where the granule is kept.
DEDUCED: log 92. -/
def State.inbound (s : State) (d g : Nat) (data : Granule) (far : Bool := true) : State × Bool :=
  if inKept (s.core d).cur.kept g then (s.haltCore d { code := 0x24, unit := 6 }, false)
  else
    ((s.slotHit d g).updSt d (fun st => { st with
      ls := Memory.setGranule st.ls (32 * g) data,
      landing := if !far then st.landing.erase g else if st.landing.contains g then st.landing else st.landing ++ [g] }), true)

/-- Count `n` arrivals on counter `ctr` (R244, R248), and end a wait they satisfy. -/
def State.arrive (s : State) (d ctr n : Nat) : State :=
  s.runCore d (fun _ r => wakeWait ((r.cur (fun a =>
    { a with arr := Sp.set 0#32 a.arr ctr (Sp.get 0#32 a.arr ctr + BitVec.ofNat 32 n) })).st
      (fun st => { st with arrSince := Sp.set 0 st.arrSince ctr (Sp.get 0 st.arrSince ctr + n) })))

/-- No packet of the class ahead of packet `k` goes from the same position to the same position (R20). Each kind of message is a class of
its own. DESIGN CHOICE: log 158. -/
def firstOf {α : Type} (l : List α) (k : Nat) (sp dp : α → Nat) : Bool :=
  match l[k]? with
  | none => false
  | some m => !(l.take k).any (fun x => sp x == sp m && dp x == dp m)

/-- Granules of a message that its target has counted (R415). -/
def counted (l : List MsgCount) (src region ordinal : Nat) : Nat :=
  match l.find? (fun x => x.src = src && x.region = region && x.ordinal = ordinal) with
  | some x => x.counted
  | none => 0

/-- The contents that granule `off` of a message first brought (R391). -/
def firstCopy (l : List MsgCount) (src region ordinal off : Nat) : Option Granule :=
  (l.find? (fun x => x.src = src && x.region = region && x.ordinal = ordinal)).bind (fun x => x.grans[off]?)

/-- Count one more granule, with the contents `gs` it brought. -/
def countOne (l : List MsgCount) (src region ordinal : Nat) (gs : List Granule) : List MsgCount :=
  let old := l.find? (fun x => x.src = src && x.region = region && x.ordinal = ordinal)
  l.filter (fun x => !(x.src = src && x.region = region && x.ordinal = ordinal))
    ++ [{ src := src, region := region, ordinal := ordinal, counted := (old.map (·.counted)).getD 0 + 1,
          grans := (old.map (·.grans)).getD [] ++ gs }]

/-- The slab of a target core takes messages: traffic to a slab that is not active is held (R31). -/
def State.takes (s : State) (d : Nat) : Bool := s.running && (s.role (d / 32)).st == .active

/-- The slab of the core that asked for a read takes its data (R31). -/
def State.srcTakes (s : State) (m : Msg) : Bool :=
  match m.kind with
  | .get _ => (match s.pcore m.src with
    | some c => s.takes c
    | none => true)
  | .put _ _ => true

/-- MESH_GRANULE_ARRIVAL (R19, R20, R244, R245, R269, R415): granule `k` of those in flight has passed the routers of its route; one core's
granules, and those between the same two positions, arrive in order. A replayed granule is written again as its first copy was
(R391). -/
def execMeshGranuleArrival (k : Nat) (s : State) : Host.Outcome State Fault Refusal :=
  match s.mesh[k]? with
  | none => .next s
  | some m =>
    match s.coreAt m.part m.dst with
    | none => .next s
    | some d =>
      if !s.takes d || !s.srcTakes m || !firstOf s.mesh k (·.sp) (·.dp)
          || (s.mesh.take k).any (fun x => x.src == m.src && x.seq == m.seq) then .next s
      else
        let t := { s with mesh := s.mesh.eraseIdx k }
        match m.kind with
        | .get g =>
          let data := Memory.granule (t.core d).st.ls (32 * m.gran)
          let u := match t.pcore m.src with
            | some c => t.updSt c (fun st => { st with ls := Memory.setGranule st.ls (32 * g) data, landing := st.landing.erase g })
            | none => t
          .next ((u.slotHit d m.gran).ackXfer m.src m.seq)
        | .put data ctr =>
          let n := counted (t.core d).st.msgs m.src m.region m.ordinal
          let now := (firstCopy (t.core d).st.msgs m.src m.region m.ordinal m.off).getD data
          let r := t.inbound d m.gran now (s.lcore d != m.src)
          let u := if r.2 && n = m.off then
              let v := r.1.updSt d (fun st => { st with msgs := countOne st.msgs m.src m.region m.ordinal [data] })
              match ctr with
              | some a => v.arrive d a 1
              | none => v
            else r.1
          .next (u.ackXfer m.src m.seq)

/-- SEMAPHORE_POST_ARRIVAL (R272): post `k` of those in flight; a replayed copy is discarded. -/
def execSemaphorePostArrival (k : Nat) (s : State) : Host.Outcome State Fault Refusal :=
  match s.posts[k]? with
  | none => .next s
  | some m =>
    match s.coreAt m.part m.dst with
    | none => .next s
    | some d =>
      if !s.takes d || !firstOf s.posts k (·.sp) (·.dp) then .next s
      else
        let t0 : State := { s with posts := s.posts.eraseIdx k }
        let t := match m.seq with
          | some q => t0.ackXfer m.src q
          | none => t0
        if counted (t.core d).st.posts m.src m.region m.ordinal ≠ 0 then .next t
        else
          let past := (semAdd m.sem m.cnt (t.core d).cur).2
          let u := t.runCore d (fun _ r => wakeWait ((r.cur (fun a => (semAdd m.sem m.cnt a).1)).st (fun st => { st with
            posts := countOne st.posts m.src m.region m.ordinal [],
            semSince := Sp.set 0 st.semSince m.sem (Sp.get 0 st.semSince m.sem + m.cnt) })))
          match past, s.pcore m.src with
          | true, some c => .next (u.haltCore c { code := 0x46, unit := 7, tag := m.tag })
          | _, _ => .next u

/-- An item ahead of item `k` between the same positions has yet to arrive (R20); one that itself waits for a lost item of its end, which the
replay sends again, is passed. -/
def State.itemBehind (s : State) (k : Nat) (m : ItemMsg) : Bool :=
  (s.items.take k).any (fun x => x.sp == m.sp && x.dp == m.dp && (match s.coreAt x.part x.dst with
    | some d => decide (x.idx ≤ Sp.get 0 (s.core d).st.qarr x.dend)
    | none => false))

/-- QUEUE_ITEM_ARRIVE (R287, R288): item `k` of those in flight, in push order; a replayed copy is discarded. -/
def execQueueItemArrive (k : Nat) (s : State) : Host.Outcome State Fault Refusal :=
  match s.items[k]? with
  | none => .next s
  | some m =>
    match s.coreAt m.part m.dst with
    | none => .next s
    | some d =>
      let n := Sp.get 0 (s.core d).st.qarr m.dend
      if !s.takes d || n < m.idx || s.itemBehind k m then .next s
      else
        let t := { s with items := s.items.eraseIdx k }
        let ack (u : State) : State := match m.seq with
          | some q => u.ackXfer m.src q
          | none => u
        if m.idx < n then .next (ack t)
        else
          let size := m.bytes.length / 32
          let g := m.ring + m.idx % m.nitems * size
          if (List.range size).any (fun i => inKept (t.core d).cur.kept (g + i)) then
            .next (ack (t.haltCore d { code := 0x24, unit := 6 }))
          else
            .next (ack (t.updSt d (fun st => { st with
              ls := lsPut st.ls (32 * g) m.bytes, qarr := Sp.set 0 st.qarr m.dend (n + 1),
              landing := ((List.range size).map (g + ·)).foldl (fun l x => if l.contains x then l else l ++ [x]) st.landing })))

/-- An entry waits for a queue end (R288): to pop an item, or for a credit to push one. -/
def queueWaits (e : CEnv) (h : Entry) (k : Core) : Bool :=
  !h.pushes.isEmpty || !popReady e h k

/-- A push transfer that waits for a credit (R276). -/
def State.pushWaits (s : State) (c : Nat) (x : Xfer) : Bool :=
  let y : Xfer := { x with head := headWords (s.core c).st.ls x }
  x.hdr && y.qpush && (match s.wireFrom ((s.partOf c).getD 0) (s.pidx c) y.qend with
    | some w => !pushReady (s.core c) w
    | none => false)

/-- QUEUE_WAIT_TIMEOUT (R288): a push or pop of core `c` has waited past its partition's limit, counted from when its engine found that it
must wait. DEDUCED: log 142. -/
def execQueueWaitTimeout (c : CoreNo) (s : State) : Host.Outcome State Fault Refusal :=
  let k := s.core c.val
  let e := s.cenv c.val
  if k.run.halt.isSome then .next s
  else match k.run.entries.find? (fun h => h.deadline ≠ 0 && s.due h.deadline && !h.dead && queueWaits e h k) with
    | some h => .next (s.haltCore c.val { code := 0x4C, unit := 0, tag := h.tag })
    | none =>
      match nextXfer k.run.eq with
      | some x =>
        if x.deadline ≠ 0 && s.due x.deadline && s.pushWaits c.val x then
          .next (s.haltCore c.val { code := 0x4C, unit := 7, tag := x.tag })
        else .next s
      | none => .next s

end Sys2Proof.Machine
end

