-- ==== Sys2Proof/Machine/ExecMem.lean ====
section
/-! DEFINITION. Machine/ExecMem.lean: answers of the memory ports and of the host port (R59, R281, R282, R493 to R495, R499). -/

namespace Sys2Proof.Machine

/-- The outstanding request of an id (R493). -/
def State.reqOf (s : State) (b : Bool) (port id : Nat) : Option MemReq :=
  s.memq.find? (fun r => r.tierB == b && portOf r.addr == port && r.id == some id)

/-- A request leaves the list. -/
def State.dropReq (s : State) (r : MemReq) : State := { s with memq := s.memq.filter (fun x => x.serial ≠ r.serial) }

/-- A request is answered without error: a read's granule goes to the local store of the transfer's core; the transfer, or the log
entry, has one access fewer open. -/
def State.memOk (s0 : State) (r : MemReq) : State :=
  let s := if r.op = .add && !r.tierB then s0.ledgerAdd r.addr else s0
  match r.owner with
  | .xfer c e q =>
    match s.xfer c e q with
    | none => s
    | some _ =>
      let t := if r.op = .read then s.updSt c (fun st => { st with ls := Memory.setGranule st.ls (32 * r.lgran) r.slot.granule, landing := st.landing.erase r.lgran }) else s
      t.answered c e q 1
  | .logAdd _ => { s with dlog := s.dlog.map (fun d => if d.sent && d.req = r.serial then { d with acked := true } else d) }
  | .region _ _ _ => s
  | .host k => s.apOk r k

/-- The answer goes to a core whose slab hands its work over: it is held until the new slab reads active (R31). -/
def State.answerHeld (s : State) (r : MemReq) : Bool :=
  match r.owner, s.subst with
  | .xfer c _ _, some o => o.moved && o.old == c / 32
  | _, _ => false

/-- A memory port's answer takes effect (R493, R494): it goes to the request of its id; a read's slot is checked (R399); a late one is discarded and frees the id (R495); one
for a slab that hands its work over is held at its fabric (R31). -/
def State.memAnswer (s : State) (tierB : Bool) (port : BitVec 4) (id : BitVec 8) (err : Bool) : State :=
  match s.reqOf tierB port.toNat id.toNat with
  | none => s
  | some r =>
    if s.answerHeld r then { s with strand := s.strand ++ [.mem tierB port id err] }
    else if r.expired then (s.dropReq r).pumpMem
    else if err then (((s.countMpErr tierB port.toNat false).dropReq r).memFail r 0x27).pumpMem
    else if r.op == .read && !r.slot.good then ((s.dropReq r).memFail r 0x23).pumpMem
    else ((s.dropReq r).memOk r).pumpMem

/-- An answer for an id is held already. -/
def State.idAnswered (s : State) (tierB : Bool) (port : BitVec 4) (id : BitVec 8) : Bool :=
  s.strand.any (fun b => match b with
    | .mem b p i _ => b == tierB && p == port && i == id
    | _ => false)

/-- MEM_RESPONSE (R493, R494): an answer to no outstanding request breaks R16; while the port's clock is marked lost it stays in the bridge
(R59). A read returns the bits last written (R494). DESIGN CHOICE: log 84. -/
def execMemResponse (tierB : Bool) (port : BitVec 4) (id : BitVec 8) (err : Bool) (s : State) : Host.Outcome State Fault Refusal :=
  if (s.reqOf tierB port.toNat id.toNat).isNone || s.idAnswered tierB port id then .fault (.breach 493)
  else if s.lost.contains (memPort tierB port.toNat) then .next { s with strand := s.strand ++ [.mem tierB port id err] }
  else .next (s.memAnswer tierB port id err)

/-- The memory answers held at a slab's fabric, whose ports' clocks run, go on (R31). -/
def State.pumpAnswers (s : State) : State :=
  let goes (b : Beat) : Bool := match b with
    | .mem _ _ _ _ => !s.lost.contains b.port
    | _ => false
  (s.strand.filter goes).foldl (fun (t : State) b => match b with
    | .mem tb p i e => t.memAnswer tb p i e
    | _ => t) { s with strand := s.strand.filter (fun b => !goes b) }

/-- MEM_REQUEST_EXPIRY (R495): the id stays reserved. -/
def execMemRequestExpiry (tierB : Bool) (port : BitVec 4) (id : BitVec 8) (s : State) : Host.Outcome State Fault Refusal :=
  match s.reqOf tierB port.toNat id.toNat with
  | none => .next s
  | some r =>
    let tmo := s.regN (oMpCfg (if tierB then 3 else 2)) % 65536
    if r.expired || tmo = 0 || !s.due (r.time + s.us tmo) then .next s
    else
      let t := s.countMpErr tierB port.toNat true
      .next (({ t with memq := t.memq.map (fun x => if x.serial = r.serial then { x with expired := true } else x) } : State).memFail r 0x27)

/-- The host bridge's answer to a master read takes effect: the granule of a stream is the low half of the beat. -/
def State.hostAnswer (s : State) (tag : BitVec 8) (err : Bool) (data : BitVec 512) : State :=
  match s.hostReqs.find? (fun q => q.tag = tag.toNat) with
  | none => s
  | some q =>
    let t := { s with hostReqs := s.hostReqs.filter (fun x => x.tag ≠ tag.toNat) }
    if err then t.readError q else t.deliver q (BitVec.ofNat 256 data.toNat)

/-- An answer for a tag is held already. -/
def State.tagAnswered (s : State) (tag : BitVec 8) : Bool :=
  s.strand.any (fun b => match b with
    | .host t _ _ => t == tag
    | _ => false)

/-- HOST_MASTER_RESPONSE (R281, R282, R499): an answer to no outstanding read breaks R16; while the port's clock is marked lost it stays in
the bridge (R59). -/
def execHostMasterResponse (tag : BitVec 8) (err : Bool) (data : BitVec 512) (s : State) : Host.Outcome State Fault Refusal :=
  if !s.hostReqs.any (fun q => q.tag = tag.toNat) || s.tagAnswered tag then .fault (.breach 499)
  else if !s.hostUp then .next { s with strand := s.strand ++ [.host tag err data] }
  else .next (s.hostAnswer tag err data)

end Sys2Proof.Machine
end

