-- ==== Sys2Proof/Machine/Casting.lean ====
section
/-! DEFINITION. Machine/Casting.lean: casting and plating images, their validation, loads, evictions and switches (R322 to R337). -/

namespace Sys2Proof.Machine

/-! ### Parsing (R322, R323, Tables 1 to 9) -/

/-- The little-endian `n`-byte number at offset `o`. -/
def bytesAt (l : List Byte) (o n : Nat) : Nat := bytesNat ((l.drop o).take n)

/-- The big-endian number of 48 bytes at offset `o` (R324). -/
def beAt (l : List Byte) (o : Nat) : Nat := beNat (((l.drop o).take 48).map (·.toNat))

/-- The `n`-byte entries of a section. -/
def entriesOf (n : Nat) (l : List Byte) : List Nat := (List.range (l.length / n)).map (fun i => bytesAt l (n * i) n)

/-- Directory entries of an image. -/
def imgDirs (img : List Byte) : List Nat := (List.range (bytesAt img 0x0C 2)).map (fun i => bytesAt img (0x40 + 16 * i) 16)

def dirType (d : Nat) : Nat := fld d 7 0
def dirOff (d : Nat) : Nat := fld d 63 32
def dirLen (d : Nat) : Nat := fld d 95 64

/-- The bytes of the section of a type, empty where there is none. -/
def section_ (img : List Byte) (dirs : List Nat) (ty : Nat) : List Byte :=
  match dirs.find? (fun d => dirType d = ty) with
  | some d => (img.drop (dirOff d)).take (dirLen d)
  | none => []

/-- Directory index of a type, 0xFF where there is none. -/
def sectIdx (dirs : List Nat) (ty : Nat) : Nat := (dirs.findIdx? (fun d => dirType d = ty)).getD 0xFF

/-- A WIDE record: LIST, NCH + NWT and the indices. -/
structure WideRec where
  list : Nat
  total : Nat
  idx : List Nat
  deriving DecidableEq, Repr

/-- The records of a WIDE section, and whether its words make whole records. -/
def wideRecs : Nat → List Nat → List WideRec × Bool
  | 0, ws => ([], ws.isEmpty)
  | n + 1, ws => match ws with
    | [] => ([], true)
    | w :: rest =>
      let k := fld w 14 8
      if rest.length < k then ([], false)
      else
        let r := wideRecs n (rest.drop k)
        ({ list := fld w 7 0, total := k + fld w 21 15, idx := rest.take k } :: r.1, r.2)

def wideOf (l : List Byte) : List WideRec × Bool := let ws := entriesOf 4 l; wideRecs ws.length ws

def partOfNat (v : Nat) : PartEnt := { first := fld v 5 0, size := 2 ^ fld v 10 8, qwait := fld v 63 32 }

def qwireOfNat (v : Nat) : QWire :=
  { part := fld v 114 112, pcore := fld v 10 0, pend := fld v 14 11, ccore := fld v 26 16, cend := fld v 30 27,
    fmt := fld v 35 32, sgn := bitOf v 36, blk := bitOf v 37, wide := fld v 39 38, wlist := fld v 47 40, item := fld v 55 48 + 1,
    ring := fld v 76 64, nitems := fld v 87 77 + 1, sbase := fld v 111 96 }

def ownOfNat (v : Nat) : OwnEnt := { cls := fld v 3 0, owner := fld v 7 4, first := fld v 15 8, count := fld v 23 16 + 1 }

def geoOfNat (v : Nat) : Geo :=
  { part := fld v 27 25, entBase := fld v 11 0, entCount := fld v 24 12, regBase := 32 * fld v 41 32, slots := fld v 52 42,
    nslot := 32 * fld v 63 53, idFirst := fld v 79 64, idLast := fld v 95 80, reswait := fld v 127 96 }

def modeOfNat (v : Nat) : ModeEnt :=
  { part := fld v 2 0, o2en := bitOf v 3, img := fld v 7 4, crv := fld v 11 8, filldl := fld v 31 16 }

def assignOfNat (v : Nat) : AssignEnt := { part := fld v 2 0, core := fld v 13 3, img := fld v 17 14, crv := fld v 21 18 }

/-- Items of `n` bytes of a section as memories. -/
def memsOf (n : Nat) (l : List Byte) : List Memory := (List.range (l.length / n)).map (fun i => lsPut [] 0 ((l.drop (n * i)).take n))

/-- The image as data. -/
def parseImage (img : List Byte) : Image :=
  let dirs := imgDirs img
  let sec := section_ img dirs
  let lim := (entriesOf 8 (sec 0x0B)).headD 0
  { kind := bytesAt img 4 1, id := bytesAt img 0x10 4, base := bytesAt img 0x14 4, scope := bytesAt img 0x18 1,
    parts := (entriesOf 8 (sec 1)).map partOfNat,
    qwires := (entriesOf 16 (sec 2)).map qwireOfNat,
    owners := (entriesOf 4 (sec 3)).map ownOfNat,
    claims := (entriesOf 4 (sec 0x0C)).map ownOfNat,
    timers := (entriesOf 4 (sec 4)).map (fun v => (fld v 2 0, fld v 7 4)),
    geos := (entriesOf 16 (sec 5)).map geoOfNat,
    wide := (wideOf (sec 6)).1.map (fun r => (r.list, r.idx)),
    images := memsOf 6432 (sec 7), curves := memsOf 1280 (sec 8),
    modes := (entriesOf 8 (sec 9)).map modeOfNat, assigns := (entriesOf 4 (sec 0x0A)).map assignOfNat,
    ceil := fld lim 9 0, vmax := fld lim 41 32 }

/-! ### Validation (R324, R329, Table 10) -/

/-- Every two elements of a list, the earlier first, satisfy `f`. -/
def allPairs {α : Type} (f : α → α → Bool) : List α → Bool
  | [] => true
  | x :: l => l.all (f x) && allPairs f l

/-- Two ranges share nothing; an empty one shares nothing with any. -/
def apart (a n b m : Nat) : Bool := n == 0 || m == 0 || decide (a + n ≤ b) || decide (b + m ≤ a)

/-- Code 0x51: the header and the trailer's zero bytes. DEDUCED: log 118. -/
def headerBad (img : List Byte) (kind castlen : Nat) : Bool :=
  let len := bytesAt img 8 4
  bytesAt img 0 4 != 0x0A5ECA57 || bytesAt img 4 1 != kind || bytesAt img 5 1 != 1 || bytesAt img 6 1 != 3
    || bytesAt img 7 1 != 1 || decide ((if kind = 1 then 25165824 else 262144) < len) || decide (len < 320) || len % 32 != 0
    || len != castlen || len != img.length || bytesAt img 0x0E 2 != 0 || bytesAt img 0x10 4 == 0
    || (if kind = 1 then bytesAt img 0x14 5 != 0 else bytesAt img 0x18 1 == 0)
    || bytesAt img 0x19 39 != 0 || bytesAt img (len - 64) 64 != 0

/-- Code 0x50: the key and the signature (R324). -/
def signatureBad (img : List Byte) (keyhash : Nat) : Bool :=
  let t := img.length - 256
  let point := 4 :: ((img.drop t).take 96).map (·.toNat)
  keyhash == 0 || leNat (sha384 point) != keyhash
    || !ecdsaOk ((img.take t).map (·.toNat)) (beAt img t) (beAt img (t + 48)) (beAt img (t + 96)) (beAt img (t + 144))

/-- Entry size of a section type, none for WIDE's words (Table 1). -/
def sectSize (ty : Nat) : Nat := nthD [1, 8, 16, 4, 4, 16, 4, 6432, 1280, 8, 4, 8, 4] ty 1

def sectAllowed (kind ty : Nat) : Bool :=
  if kind = 1 then decide (1 ≤ ty) && decide (ty ≤ 0x0B) else decide (7 ≤ ty) && decide (ty ≤ 0x0C)

/-- Directory entry `d` breaks code 0x52, `before` being the entries before it. -/
def dirBad (img : List Byte) (kind dend : Nat) (before : List Nat) (d : Nat) : Bool :=
  let ty := dirType d
  let sec := (img.drop (dirOff d)).take (dirLen d)
  fld d 31 8 != 0 || fld d 127 96 != 0 || !sectAllowed kind ty || before.any (fun b => dirType b = ty)
    || dirOff d % 32 != 0 || decide (dirOff d < dend) || decide (img.length - 256 < dirOff d + dirLen d)
    || !before.all (fun b => apart (dirOff b) (dirLen b) (dirOff d) (dirLen d))
    || dirLen d % sectSize ty != 0 || ((ty == 7 || ty == 8) && decide (16 * sectSize ty < dirLen d)) || (ty == 0x0B && dirLen d != 8)
    || (ty == 6 && !(wideOf sec).2)

/-- Code 0x52: the index of the first bad entry, 0xFF for the directory as a whole. -/
def directoryBad (img : List Byte) (kind : Nat) (dirs : List Nat) : Option Nat :=
  let n := dirs.length
  let dend := 0x40 + 16 * n
  if n = 0 ∨ 12 < n ∨ img.length - 256 < dend then some 0xFF
  else match (List.range n).find? (fun i => dirBad img kind dend (dirs.take i) (nthD dirs i 0)) with
    | some i => some i
    | none => if kind = 1 ∧ !([1, 4, 8, 9].all (fun ty => dirs.any (fun d => dirType d = ty))) then some 0xFF else none

/-- R33. -/
def partsOk (ps : List PartEnt) : Bool :=
  decide (1 ≤ ps.length) && decide (ps.length ≤ 8)
    && ps.all (fun p => decide (p.size ≤ 64) && p.first % p.size == 0 && decide (p.first + p.size ≤ 64))
    && allPairs (fun a b => apart a.first a.size b.first b.size) ps

def sizeOf_ (ps : List PartEnt) (p : Nat) : Nat := match ps[p]? with | some e => e.size | none => 0

/-- Code 0x54. -/
def qwiresOk (ps : List PartEnt) (wide : List (Nat × List Nat)) (qs : List QWire) : Bool :=
  qs.all (fun q =>
    decide (32 ≤ sizeOf_ ps q.part) && decide (q.pcore < 32 * sizeOf_ ps q.part) && decide (q.ccore < 32 * sizeOf_ ps q.part)
      && decide (q.ring + q.item * q.nitems ≤ 6144) && decide (q.fmt < 7)
      && (q.wide != 1 || wide.any (fun x => x.1 = q.wlist)) && (q.wide == 0 || decide (4 * q.sbase < lsBytes)))
    && allPairs (fun (a b : QWire) => a.part != b.part
      || ((a.pcore != b.pcore || a.pend != b.pend) && (a.ccore != b.ccore
        || (a.cend != b.cend && apart a.ring (a.item * a.nitems) b.ring (b.item * b.nitems))))) qs

def classSize (c : Nat) : Nat := nthD [16, 4, 12, 256, 128] c 0

/-- The list names each resource once and none beyond its class. DEDUCED: log 124. -/
def resourcesOk (l : List OwnEnt) : Bool :=
  l.all (fun e => decide (e.first + e.count ≤ classSize e.cls))
    && allPairs (fun (a b : OwnEnt) => a.cls != b.cls || apart a.first a.count b.first b.count) l

/-- R186: a curve of a set. DEDUCED: log 119. -/
def curveOk (m : Memory) (k : Nat) : Bool :=
  let b := 160 * k
  let fin (a : Nat) : Bool := fld (Memory.nat m a 4) 30 23 != 255
  let y (j : Nat) : FV := (FFmt.fp32.read (Memory.nat m (b + 8 + 4 * j) 4)).1
  let w := Memory.nat m (b + 4) 4
  let ew := sext 8 (w % 256)
  fin b && (List.range 33).all (fun j => fin (b + 8 + 4 * j)) && decide (-100 ≤ ew) && decide (ew ≤ 100) && fld w 9 8 != 3
    && fld w 15 10 == 0 && Memory.nat m (b + 0x8C) 20 == 0
    && (List.range 32).all (fun j =>
      if fld w 9 8 = 1 then FV.le (y j) (y (j + 1)) else if fld w 9 8 = 2 then FV.le (y (j + 1)) (y j) else true)

def curvesOk (m : Memory) : Bool := (List.range 8).all (curveOk m)

/-- R210. -/
def geosOk (gs : List Geo) : Bool :=
  gs.all (fun g => decide (g.idFirst ≤ g.idLast) && decide (g.entBase + g.entCount ≤ 4096) && decide (32 ≤ g.nslot)
    && decide (g.nslot ≤ 32768) && decide (g.slots ≤ 1024) && decide (g.slots ≤ g.entCount)
    && decide (g.regBase + g.slots * g.nslot ≤ 32768))
    && decide ((gs.map (·.entCount)).sum ≤ 4096)
    && allPairs (fun (a b : Geo) => a.part != b.part && apart a.idFirst (a.idLast + 1 - a.idFirst) b.idFirst (b.idLast + 1 - b.idFirst)
      && apart a.entBase a.entCount b.entBase b.entCount) gs

def strictlyUp : List Nat → Bool
  | [] => true
  | [_] => true
  | a :: b :: l => decide (a < b) && strictlyUp (b :: l)

/-- Code 0x59. -/
def widesOk (rs : List WideRec) : Bool :=
  rs.all (fun r => r.total != 0 && decide (r.total ≤ 64) && strictlyUp r.idx)
    && allPairs (fun (a b : WideRec) => a.list != b.list) rs

/-- Refusal of an image (Table 10, in its order): the code and the directory index. `ps` and `own` are the partitions and owners of
the casting: the image's own, or for a plating those of the casting loaded, whose id is `base`. -/
def State.refusal (s : State) (kind : Nat) (img : List Byte) (i : Image) : Option (Nat × Nat) :=
  if headerBad img kind (s.regN oCastLen) then some (0x51, 0xFF)
  else if signatureBad img s.otp.sh.keyhash then some (0x50, 0xFF)
  else
    let dirs := imgDirs img
    match directoryBad img kind dirs with
    | some k => some (0x52, k)
    | none =>
      let cast := kind = 1
      let old : Image := if s.cast.loaded then s.cast.img else {}
      let ps := if cast then i.parts else old.parts
      let ix := sectIdx dirs
      let covers (p : Nat) : Bool := decide (p < ps.length) && (decide cast || i.scope.testBit p)
      let nimg := i.images.length
      let ncrv := i.curves.length
      let raw (ty : Nat) : List Nat := entriesOf (sectSize ty) (section_ img dirs ty)
      let ids := List.range ps.length
      let checks : List (Bool × Nat × Nat) :=
        [(cast && !partsOk ps, 0x53, ix 1),
         (cast && !ids.all (fun p => i.timers.any (fun t => t.1 = p)), 0x53, ix 4),
         (cast && !ids.all (fun p => i.modes.any (fun m => m.part = p)), 0x53, ix 9),
         (cast && ps.any (fun p => p.qwait != 0 && decide (p.size < 32)), 0x53, ix 1),
         (!qwiresOk ps i.wide i.qwires, 0x54, ix 2),
         (!resourcesOk i.owners, 0x55, ix 3),
         (i.timers.any (fun t => decide (t.1 < ps.length) && ownIn i.owners 0 t.2 != some t.1), 0x55, ix 4),
         (!resourcesOk i.claims || i.claims.any (fun c => decide (8 ≤ c.owner) || !i.scope.testBit c.owner
           || old.owners.any (fun o => o.cls == c.cls && !apart o.first o.count c.first c.count)), 0x55, ix 0x0C),
         (!i.images.all (fun m => imageValid (fun a n => Memory.nat m a n)), 0x56, ix 7),
         (!i.curves.all curvesOk, 0x56, ix 8),
         (!geosOk i.geos || i.geos.any (fun g => decide (ps.length ≤ g.part)), 0x57, ix 5),
         (!allPairs (fun (a b : Nat × Nat) => a.1 != b.1) i.timers || i.timers.any (fun t => decide (ps.length ≤ t.1)), 0x58, ix 4),
         (!widesOk (wideOf (section_ img dirs 6)).1, 0x59, ix 6),
         (!(raw 9).all (fun v => fld v 15 12 == 0 && fld v 63 32 == 0)
           || !allPairs (fun (a b : ModeEnt) => a.part != b.part) i.modes
           || i.modes.any (fun m => !covers m.part || (m.o2en && !s.otp.sh.o2) || (m.img != 15 && decide (nimg ≤ m.img))
             || (m.crv != 15 && decide (ncrv ≤ m.crv)) || (decide cast && m.crv == 15)), 0x5A, ix 9),
         (!(raw 0x0A).all (fun v => v / 2 ^ 22 == 0)
           || !allPairs (fun (a b : AssignEnt) => a.part != b.part || a.core != b.core) i.assigns
           || i.assigns.any (fun a => !covers a.part || decide (32 * sizeOf_ ps a.part ≤ a.core)
             || (a.img != 15 && decide (nimg ≤ a.img)) || (a.crv != 15 && decide (ncrv ≤ a.crv))), 0x5A, ix 0x0A),
         (!(raw 0x0B).all (fun v => fld v 31 10 == 0 && fld v 63 42 == 0)
           || (i.ceil != 0 && decide (i.ceil < 200)) || (i.vmax != 0 && decide (i.vmax < 600)), 0x5A, ix 0x0B),
         (!cast && (!s.cast.loaded || i.base != s.cast.img.id), 0x5B, 0xFF)]
      (checks.find? (·.1)).map (·.2)

/-! ### What a casting or a plating sets -/

/-- Image and curve set of core `idx` of partition `p`: ASSIGN over MODE; 15 is none. -/
def Image.pick (i : Image) (p idx : Nat) : Nat × Nat :=
  let m := i.modes.find? (fun m => m.part = p)
  let mi := (m.map (·.img)).getD 15
  let mc := (m.map (·.crv)).getD 15
  match i.assigns.find? (fun a => a.part = p && a.core = idx) with
  | some a => (if a.img = 15 then mi else a.img, if a.crv = 15 then mc else a.crv)
  | none => (mi, mc)

/-- Comparators whose owner changes are disarmed and their FIRED cleared (R445, R447). -/
def State.reown (s : State) : State :=
  let t := (List.range 16).foldl (fun (t : State) k =>
    let d := t.dl k
    let o := (t.ownerOf 0 k).getD 8
    if o = d.owner then t else t.setDl k { d with owner := o, arm := false, fired := false }) s
  (List.range 4).foldl (fun (t : State) k =>
    let d := t.sc k
    let o := (t.ownerOf 1 k).getD 8
    if o = d.owner then t else t.setSc k { d with owner := o, arm := false, held := false, fired := false }) t

/-- The limits of R327: CLAMP says that a request in force exceeds its OTP limit. DEDUCED: log 121. -/
def State.newLimits (s : State) : State :=
  let above := s.inForce.any (fun i => decide (Nat.max 200 s.otp.sh.pceil < i.ceil) || decide (s.otp.sh.vmax < i.vmax))
  ({ s with cast := { s.cast with clamp := above } } : State).forward

/-- Core state that a casting load empties (R331, R332); local store, arrival counters and COR_REGION stay. -/
def cleanArch (a : CoreArch) : CoreArch :=
  { a with
    finA := [], finB := [], strs := [], kept := [], dbase := 0, qpop := [], qpush := [], bankAct := false, bank0 := {},
    bank1 := { a.bank1 with valid := false, id := 0 } }

def cleanCore (k : Core) : Core :=
  { k with
    cur := cleanArch k.cur, rp := cleanArch k.rp,
    run := { lastTag := k.run.lastTag, seq := k.run.seq, ordinal := k.run.ordinal, xord := k.run.xord, recovCnt := k.run.recovCnt,
             nextGroup := k.run.nextGroup, ranSince := k.run.ranSince },
    st := { k.st with qarr := [], qsent := [], qret := [] } }

/-- Item `n` of an image's special-function images or curve sets; 15 is none (R326). -/
def item15 (l : List Memory) (n : Nat) : Option Memory := if n = 15 then none else l[n]?

/-- The tables of a casting on core `idx` of partition `p` (R165, R186, R331). DEDUCED: log 122. DEDUCED: log 123. -/
def castCore (i : Image) (p idx : Nat) (k : Core) : Core :=
  let n := i.pick p idx
  let put (a : CoreArch) : CoreArch :=
    let b := match item15 i.images n.1 with | some m => { a with bank0 := bankOfImage m } | none => a
    match item15 i.curves n.2 with | some m => { b with curve0 := m, curve1 := m, curveAct := false } | none => b
  { k with cur := put k.cur, rp := put k.rp, st := { k.st with o2en := (i.modes.find? (fun m => m.part = p)).any (·.o2en) } }

/-- The tables of a plating on core `idx` of partition `p` (R170, R186). -/
def plateCore (i : Image) (p idx : Nat) (k : Core) : Core :=
  let n := i.pick p idx
  let put (a : CoreArch) : CoreArch :=
    let b := match item15 i.images n.1 with
      | some m => { a.setBank (if a.bankAct then 0 else 1) (bankOfImage m) with bankAct := !a.bankAct }
      | none => a
    match item15 i.curves n.2 with
    | some m => if b.curveAct then { b with curve0 := m, curveAct := false } else { b with curve1 := m, curveAct := true }
    | none => b
  { k with cur := put k.cur, rp := put k.rp }

/-- Swap out every resident stream under the old geometry (R331 step 5). -/
def State.flushStreams (s : State) : State :=
  s.str.ents.foldl (fun (t : State) x =>
    let e := x.2
    match t.geo e.part with
    | some g => if e.valid && (e.res == .resident || e.res == .swappingOut)
        then t.writeImage { e with pos := t.posOf e, reset := t.resetOf e } g else t
    | none => t) s

/-- PART of every slab's role. -/
def partOfLogical (ps : List PartEnt) (l : Nat) : Option Nat :=
  ps.findIdx? (fun p => decide (p.first ≤ l) && decide (l < p.first + p.size))

/-- Step 4 of R331, the swap-outs of step 5, and what step 5 clears on every slab and hub; the partitions become those of image `i`. -/
def State.clearCasting (s : State) (i : Image) (loaded : Bool) : State :=
  let t := { s with cast := { s.cast with slots := [], act := [] } }.flushStreams
  { t with
    cores := t.cores.map (fun c => (c.1, cleanCore c.2)),
    roles := t.roles.map (fun r => (r.1, { r.2 with part := r.2.logical.bind (partOfLogical i.parts) })),
    str := { result := t.str.result, done := t.str.done || t.str.cmd.isSome, lastId := t.str.lastId },
    tlb := [], link := { t.link with rcache := [] },
    cast := { t.cast with loaded := loaded, img := i, stopped := [] } }

/-- A guard error interrupts step 5 (R331): LOADED clears, GLB_CASTID reads 0 and every partition is undefined. DEDUCED: log 146. -/
def State.unloadCasting (s : State) : State := ((s.clearCasting {} false).reown).newLimits

/-- Steps 4 to 6 of R331. -/
def State.installCasting (s : State) (i : Image) : State :=
  let t1 := s.clearCasting i true
  let t2 := (List.range i.parts.length).foldl (fun (u : State) p =>
    ((u.coresOf p).zipIdx).foldl (fun (v : State) c => v.updCore c.1 (castCore i p (v.pidx c.1))) u) t1
  t2.reown.newLimits

/-! ### Commands (R330, R333 to R337) -/

/-- The last command's end: RESULT and SECT. -/
def State.castEnd (s : State) (result sect : Nat) : State :=
  { s with cast := { s.cast with busy := none, result := result, sect := sect } }

/-- A command refused while another may be in progress. -/
def State.castRefuse (s : State) (code : Nat) : State := { s with cast := { s.cast with result := code, sect := 0xFF } }

/-- A partition has a bound stream (R330). -/
def State.anyBound (s : State) : Bool := s.cores.any (fun c => c.2.run.run.isSome || !c.2.run.list.isEmpty)

/-- CASTCMD_LOAD_CASTING (R330, R337, R437, R485). -/
def execCastcmdLoadCasting (req : Requester) (s : State) : Host.Outcome State Fault Refusal :=
  if !s.byHost req then .next s
  else if s.anyBound || s.cast.sw.isSome || s.cast.busy.isSome || s.boot.stActive then .next (s.castRefuse 0x5E)
  else .next { s with cast := { s.cast with busy := some .casting }, boot := { s.boot with castBegun := true } }

/-- Bytes copied to tier A. -/
def State.stageBytes (s : State) (off : Nat) (l : List Byte) : State := { s with tierA := lsPut s.tierA (s.stage + off) l }

/-- CASTING_LOAD_COMPLETE (R331): the bytes are what the host hub read, GLB_CASTLEN of them. DEDUCED: log 117. -/
def execCastingLoadComplete (img : List Byte) (s : State) : Host.Outcome State Fault Refusal :=
  match s.cast.busy with
  | some .casting =>
    if img.length ≠ s.regN oCastLen || !s.hostUp || !s.tierUp false then .next s
    else
      let t := s.stageBytes 0 (img.take 25165824)
      let i := parseImage img
      match s.refusal 1 img i with
      | some (code, sect) => .next (t.castEnd code sect)
      | none => .next ((t.installCasting i).castEnd 0 0xFF)
  | _ => .next s

/-- The plating of slot `k` is active, or a switch to it is in progress. -/
def State.slotActive (s : State) (k : Nat) : Bool :=
  (List.range 8).any (fun p => Sp.get 0 s.cast.act p = k + 1) || s.cast.sw.any (fun w => w.1 == some k)

/-- CASTCMD_LOAD_PLATING (R333). DEDUCED: log 120. -/
def execCastcmdLoadPlating (req : Requester) (slot : BitVec 3) (s : State) : Host.Outcome State Fault Refusal :=
  if !s.byHost req then .next s
  else if s.cast.busy.isSome then .next (s.castRefuse 0x5E)
  else if s.slotActive slot.toNat then .next (s.castRefuse 0x5D)
  else .next { s with cast := { s.cast with busy := some (.plating slot.toNat) } }

/-- PLATING_LOAD_COMPLETE (R333): a refused load leaves the slot as it was. -/
def execPlatingLoadComplete (img : List Byte) (s : State) : Host.Outcome State Fault Refusal :=
  match s.cast.busy with
  | some (.plating k) =>
    if img.length ≠ s.regN oCastLen || !s.hostUp || !s.rangeUp false (s.stage + 25165824 + 262144 * k) img.length then .next s
    else
      let i := parseImage img
      match s.refusal 2 img i with
      | some (code, sect) => .next (s.castEnd code sect)
      | none =>
        let t := s.stageBytes (25165824 + 262144 * k) img
        .next (({ t with cast := { t.cast with slots := Sp.set none t.cast.slots k (some i) } } : State).castEnd 0 0xFF)
  | _ => .next s

/-- CASTCMD_EVICT (R333). -/
def execCastcmdEvict (req : Requester) (slot : BitVec 3) (s : State) : Host.Outcome State Fault Refusal :=
  if !s.byHost req then .next s
  else if s.cast.busy.isSome then .next (s.castRefuse 0x5E)
  else if s.slotActive slot.toNat then .next (s.castRefuse 0x5D)
  else .next (({ s with cast := { s.cast with slots := Sp.set none s.cast.slots slot.toNat none } } : State).castEnd 0 0xFF)

/-- The partitions on which the plating of slot `k` is active, as a mask. -/
def State.activeMask (s : State) (k : Nat) : Nat :=
  ((List.range 8).map (fun p => if Sp.get 0 s.cast.act p = k + 1 then 2 ^ p else 0)).sum

/-- Some active plating meets the scope without lying inside it. -/
def State.crosses (s : State) (scope : Nat) : Bool :=
  (List.range 8).any (fun k => let m := s.activeMask k; m &&& scope != 0 && m &&& scope != m)

/-- A claim of the plating names a resource that an active plating outside the scope claims. -/
def State.claimed (s : State) (i : Image) : Bool :=
  (List.range 8).any (fun k =>
    let m := s.activeMask k
    m != 0 && m &&& i.scope == 0 && match Sp.get none s.cast.slots k with
      | some o => o.claims.any (fun x => i.claims.any (fun y => x.cls == y.cls && !apart x.first x.count y.first y.count))
      | none => false)

/-- An accepted switch begins (R335 step 1): open batches dispatch (R106). -/
def State.startSwitch (s : State) (slot : Option Nat) (scope : Nat) : State :=
  let t := { s with cast := { s.cast with sw := some (slot, scope) } }
  (List.range 8).foldl (fun (u : State) p =>
    if scope.testBit p then
      (u.coresOf p).foldl (fun (v : State) c => v.runCore c (fun e r => dispatchBatch e true (dispatchBatch e false r))) u
    else u) t

def State.swRefuse (s : State) (code : Nat) : State := { s with cast := { s.cast with swResult := code } }

/-- PLSW_SWITCH (R334). -/
def execPlswSwitch (req : Requester) (slot : BitVec 3) (s : State) : Host.Outcome State Fault Refusal :=
  if !s.byHost req then .next s
  else if s.cast.sw.isSome || s.cast.busy.isSome then .next (s.swRefuse 0x5D)
  else match Sp.get none s.cast.slots slot.toNat with
    | none => .next (s.swRefuse 0x5D)
    | some i =>
      if s.crosses i.scope then .next (s.swRefuse 0x5D)
      else if s.claimed i then .next (s.swRefuse 0x5C)
      else .next (s.startSwitch (some slot.toNat) i.scope)

/-- PLSW_OFF (R334). -/
def execPlswOff (req : Requester) (parts : BitVec 8) (s : State) : Host.Outcome State Fault Refusal :=
  if !s.byHost req then .next s
  else if s.cast.sw.isSome || s.cast.busy.isSome || s.crosses parts.toNat then .next (s.swRefuse 0x5D)
  else .next (s.startSwitch none parts.toNat)

/-- A core is quiescent, and its special-function instructions issued before the switch are complete (R335 step 2, R336, R170); one that
faulted does not complete. -/
def State.quiet (s : State) (c : Nat) : Bool :=
  let r := (s.core c).run
  (r.run.isNone || r.halt.isSome)
    && !r.entries.any (fun h => (h.eng = .sfu || h.eng = .tload) && !h.dead)

/-- O2EN in force on every core of partition `p`. -/
def State.setO2 (s : State) (p : Nat) : State :=
  let o := (s.mode p).any (·.o2en)
  (s.coresOf p).foldl (fun (t : State) c => t.updSt c (fun x => { x with o2en := o })) s

/-- PLATING_SWITCH_APPLY (R335 steps 3 and 4). -/
def execPlatingSwitchApply (s : State) : Host.Outcome State Fault Refusal :=
  match s.cast.sw with
  | none => .next s
  | some (slot, scope) =>
    let ps := (List.range 8).filter (fun p => scope.testBit p)
    if !ps.all (fun p => (s.coresOf p).all s.quiet) then .next s
    else
      let act := ps.foldl (fun m p => Sp.set 0 m p (match slot with | some k => k + 1 | none => 0)) s.cast.act
      let t : State := { s with cast := { s.cast with act := act, sw := none, swResult := 0 } }
      let t1 := ps.foldl (fun (u : State) p =>
        let v := match slot.bind (fun k => Sp.get none s.cast.slots k) with
          | some i => (u.coresOf p).foldl (fun (v : State) c => v.updCore c (plateCore i p (v.pidx c))) u
          | none => u
        v.setO2 p) t
      .next t1.reown.newLimits

end Sys2Proof.Machine
end

