-- ==== Sys2Proof/Machine/Faults.lean ====
section
/-! DEFINITION. Machine/Faults.lean: guard failures, recovery's end, the fault queue, ending a core's stream, substitution and the spine
(R30 to R32, R401 to R419, R465, R471, R472). -/

namespace Sys2Proof.Machine

/-! ### Guard failures (Table 5 of Faults and recovery) -/

/-- The substitution in progress whose spare a slab is. -/
def State.spareFault (s : State) (slab : Nat) : Option SubstOp := s.subst.bind (fun o => if o.spare = slab ∧ o.moved then some o else none)

/-- A core on the spare of a substitution in progress faults: code 0x2A, and the logical slab stays held (R417). -/
def State.guardAt (s : State) (c : Nat) (f : CFault) : State :=
  match s.spareFault (c / 32) with
  | some o => ({ s with subst := some { o with failed := true } } : State).offerCore c { code := 0x2A, act := 2, unit := f.unit, tag := f.tag }
  | none => s.guardCore c f

/-- Stop every partition that uses a hub structure (R408). -/
def State.hubStop (s : State) (h : Nat) (info : Nat) (ps : List Nat) : State :=
  ps.foldl State.stopPart (s.offer { code := 0x28, act := 3, esc := true, unit := 10, hub := h, info0 := some info })

/-- One copy, or both, of an entry of a slab's log goes bad; a release of the entry meets it (R407). DESIGN CHOICE: log 75. -/
def State.logFail (s : State) (slab k : Nat) (both : Bool) : State :=
  match ((s.dlog.zipIdx).filter (fun d => d.1.core / 32 = slab))[k]? with
  | none => s
  | some d => { s with dlog := updAt s.dlog d.2 (fun e => { e with bad := if both then 2 else Nat.max e.bad 1 }) }

/-- UNIT (Table 2) of the engine that holds an issued instruction. -/
def engUnit : Eng → Nat
  | .arr b => if b then 2 else 1
  | .wq b => if b then 2 else 1
  | .vec => 3
  | .sfu => 4
  | .tload => 4
  | .carry => 5

/-- TAG of the long word a guard failure in unit `u` concerns: that of the oldest unfinished instruction there, zero where there is
none (Table 1; DEDUCED, log 48). -/
def unitTag (r : CoreRun) (u : Nat) : W16 := ((r.entries.find? (fun e => engUnit e.eng = u)).map (fun e => e.tag)).getD 0

/-- Partition of a region entry (Table 2 of Remote regions). -/
def entPart (e : List Nat) : Nat := fld (nthD e 0 0) 10 8

/-- Partitions that use an object of a hub structure without a backing copy (R408). A round slot is used by the partitions whose sealed
contributions name it, and by those of the regions that such contributions reach. -/
def State.usersOf (s : State) (o : HubOwn) : List Nat :=
  let ps : List Nat := match o with
    | .streamEntry i => let e := s.ent i.toNat; if e.valid then [e.part] else []
    | .reassembly k => match s.link.reasm[k]? with
      | some x => [x.part]
      | none => []
    | .roundSlot i =>
      (s.dlog.filterMap (fun d => match d.dest with
        | .remote tg _ op _ _ => if op = 5 ∧ fld (nthD tg 0 0) 18 16 = i.toNat then s.partOf d.core else none
        | _ => none))
      ++ s.link.sends.filterMap (fun x => match x.src with
        | .log c => if x.op = 5 ∧ x.rslot = i.toNat then s.partOf c else none
        | _ => none)
      ++ s.link.pend.filterMap (fun x => if x.op = 5 ∧ x.round = (Sp.get {} s.link.rounds i.toNat).round then some (entPart x.ent) else none)
    | .completion p k => if k < (s.ring p.toNat).waiting.length then [p.toNat] else []
  (List.range 8).filter ps.contains

/-- The hub of a structure of R408: stream-table entries and completion entries lie in the host hub, the rest in the link hub. DEDUCED:
log 145. -/
def hubOfOwn : HubOwn → Nat
  | .streamEntry _ => 0
  | .completion _ _ => 0
  | _ => 1

/-- What INFO0 names of a structure of R408. -/
def infoOfOwn : HubOwn → Nat
  | .streamEntry i => i.toNat
  | .reassembly k => k
  | .roundSlot i => i.toNat
  | .completion _ k => k

/-- A structure with a backing copy is fetched again, and its access is retried (R408): a cached translation or region entry leaves its cache
for its next access to fetch; the copies of a peer context and of a directory record say what the hub held. DEDUCED: log 145. -/
def State.refetch (s : State) (o : HubObj) : State :=
  let rec_ (h i : Nat) : FRec := { code := 0x28, act := 0, unit := 10, hub := h, info0 := some i }
  match o with
  | .peer i => s.offer (rec_ 1 i.toNat)
  | .region r => ({ s with link := { s.link with rcache := s.link.rcache.filter (fun x => x.1 ≠ r.toNat) } } : State).offer (rec_ 1 r.toNat)
  | .page p g =>
    ({ s with tlb := s.tlb.filter (fun t => t.part ≠ p.toNat || t.page ≠ g.toNat) } : State).offer (rec_ 2 (g.toNat * 2 ^ 21))
  | .directory i => s.offer (rec_ 0 i.toNat)

/-- Local-store port (Table 1 of Local store) by which an engine reads. -/
def portEng (port : Nat) (g : Eng) : Bool :=
  match g with
  | .arr b => port == (if b then 2 else 0) || port == (if b then 3 else 1)
  | .wq b => port == (if b then 2 else 0)
  | .vec => port == 4
  | .sfu => port == 4
  | .tload => port == 4
  | .carry => port == 5

/-- Some range holds granule `g`. -/
def rangesHold (l : List Res) (g : Nat) : Bool :=
  l.any (fun x => match x with
    | .ls lo hi => decide (lo ≤ g) && decide (g < hi)
    | _ => false)

/-- TAG of the long word whose access of granule `g` by a port fails (R252): the oldest unfinished instruction or transfer on that port
whose ranges hold the granule; zero where there is none. -/
def accessTag (r : CoreRun) (port g : Nat) : W16 :=
  if 6 ≤ port then
    ((r.eq ++ r.fq).find? (fun x => rangesHold (x.rd ++ x.wr) g)).elim 0#16 (·.tag)
  else
    (r.entries.find? (fun e => portEng port e.eng && rangesHold (e.rd ++ e.wr) g)).elim 0#16 (·.tag)

/-- LST_GERR keeps the granule and port of a failure (R252). -/
def State.setGerr (s : State) (c g port : Nat) : State :=
  s.updSt c (fun st => { st with lstGerr := BitVec.ofNat 32 (g + 2 ^ 13 * port + 2 ^ 16) })

/-- The physical core that sent something in flight, and the tag of its long word: the oldest unfinished transfer of its sequence number. -/
def State.flightSrc (s : State) (w : InFlight) : Option (Nat × W16) :=
  let tagOf (c q : Nat) : W16 := (((s.core c).run.fq ++ (s.core c).run.eq).find? (fun x => x.seq = q)).elim 0#16 (·.tag)
  match w with
  | .granule k => (s.mesh[k]?).bind (fun m => (s.pcore m.src).map (fun c => (c, tagOf c m.seq)))
  | .post k => (s.posts[k]?).bind (fun m => (s.pcore m.src).map (fun c => (c, m.tag)))
  | .item k => (s.items[k]?).bind (fun m => (s.pcore m.src).map (fun c => (c, match m.seq with | some q => tagOf c q | none => 0#16)))
  | .answer b p i => (s.reqOf b p.toNat i.toNat).bind (fun r => match r.owner with
    | .xfer c _ q => if r.op == .read && !r.expired then some (c, tagOf c q) else none
    | _ => none)

/-- Something in flight is not delivered. -/
def State.dropFlight (s : State) (w : InFlight) : State :=
  match w with
  | .granule k => { s with mesh := s.mesh.eraseIdx k }
  | .post k => { s with posts := s.posts.eraseIdx k }
  | .item k => { s with items := s.items.eraseIdx k }
  | .answer b p i => match s.reqOf b p.toNat i.toNat with
    | some r => (s.dropReq r).pumpMem
    | none => s

/-- Where something in flight goes from and to (R17, R19): memory answers come from their hub. -/
def State.flightEnds (s : State) (w : InFlight) : Option (MeshNode × MeshNode) :=
  match w with
  | .granule k => (s.mesh[k]?).map (fun m => (.ofNat m.sp, .ofNat m.dp))
  | .post k => (s.posts[k]?).map (fun m => (.ofNat m.sp, .ofNat m.dp))
  | .item k => (s.items[k]?).map (fun m => (.ofNat m.sp, .ofNat m.dp))
  | .answer b p i => (s.reqOf b p.toNat i.toNat).bind (fun r => match r.owner with
    | .xfer c _ _ => some (.hub (if b then 3 else 2), .slab (c / 32))
    | _ => none)

/-- A failure against the fabric or mesh port of a slab is noted (R416). -/
def State.noteFabric (s : State) (slab : Nat) : State :=
  { s with fabric := if s.fabric.contains slab then s.fabric else s.fabric ++ [slab] }

/-- A granule in transit fails (Table 5): the core whose transfer or message it is recovers, and nothing of the granule is delivered. -/
def State.transitFail (s : State) (w : InFlight) (mesh : Bool) : State :=
  match s.flightSrc w with
  | none => s
  | some (c, tag) => ((s.dropFlight w).noteFabric (c / 32)).guardAt c { code := 0x20, unit := if mesh then 9 else 8, tag := tag }

/-- Another core's local store fails a read for a transfer of core `c` (Table 5, R252, R410): a granule that its owner keeps is rewritten,
and the requesting core recovers; any other is lost. -/
def State.otherFail (s : State) (k : Nat) : State :=
  match s.mesh[k]?, s.flightSrc (.granule k) with
  | some m, some (c, tag) =>
    match m.kind, s.coreAt m.part m.dst with
    | .get _, some o =>
      let t := (s.dropFlight (.granule k)).setGerr o m.gran 6
      if inKept (s.core o).rp.kept m.gran then
        (t.refillGran o m.gran).guardAt c { code := 0x21, unit := 6, info0 := some m.gran, info1 := some 6, tag := tag }
      else
        (t.dropLog c).haltCore c { code := 0x29, esc := true, unit := 7, info0 := some (m.gran + 2 ^ 16 * o), tag := tag }
    | _, _ => s
  | _, _ => s

/-- A half of a router or mesh link leaves service (R413): code 0x20 with ACT 0 for the position, and the core whose transfer it was recovers
(R405). -/
def State.meshHalfFail (s : State) (w : InFlight) (a : Pos) (d : RPort) (half : Bool) : State :=
  match s.flightEnds w with
  | none => s
  | some (x, y) =>
    if (meshRoute x y).contains (a, d) then
      let o : HalfOut := .mesh a d half
      let t : State := { s with halves := if s.halves.contains o then s.halves else s.halves ++ [o] }
      let f : FRec := match nodeAt a with
        | some (.slab n) => { code := 0x20, unit := 9, pslab := n, lslab := ((s.role n).logical).getD 0x7F }
        | some (.hub h) => { code := 0x20, unit := 9, hub := h }
        | none => { code := 0x20, unit := 9 }
      (t.offer f).transitFail w true
    else s

/-- GUARD_FAILURE (R252, R401, R405 to R413, R218, R331, R336, R436, R465). DEDUCED: log 73. DEDUCED: log 115. -/
def execGuardFailure (g : GuardSite) (s : State) : Host.Outcome State Fault Refusal :=
  if s.boot.init || s.boot.cold then .next s
  else match g with
  | .store c g port =>
    let t := (s.setGerr c.val g.toNat port.toNat).updRun c.val (fun r => { r with failed := r.failed ++ [g.toNat] })
    .next (t.guardAt c.val
      { code := 0x21, unit := 6, info0 := some g.toNat, info1 := some port.toNat, tag := accessTag (s.core c.val).run port.toNat g.toNat })
  | .engine c unit =>
    .next (s.guardAt c.val { code := 0x22, unit := unit.toNat, tag := unitTag (s.core c.val).run unit.toNat })
  | .transit w mesh => .next (s.transitFail w mesh)
  | .other k => .next (s.otherFail k)
  | .mem b port id =>
    match s.reqOf b port.toNat id.toNat with
    | none => .next s
    | some r => if r.expired || (r.op == .write) then .next s else .next ((s.dropReq r).memFail r 0x23).pumpMem
  | .swap ent =>
    match s.str.swaps.find? (fun w => w.ent = ent.toNat && w.phase = 1 && w.inn) with
    | some _ => .next (s.failSwapIn ent.toNat 0x23)
    | none => .next s
  | .update => if s.upd.busy then .next (s.offer { code := 0x28, act := 0, unit := 10, hub := 3 }) else .next s
  | .hubBacked o => .next (s.refetch o)
  | .hubOwn o => .next (s.hubStop (hubOfOwn o) (infoOfOwn o) (s.usersOf o))
  | .log slab k both => .next (s.logFail slab.val k both)
  | .sram g => if s.mgmt.run then .next (s.mgmtRestart 0x71 3 (decide (32 * g.toNat < s.mgmt.imgLen))) else .next s
  | .meshHalf w col row d half => .next (s.meshHalfFail w { col := col.toNat, row := row.toNat } d half)
  | .hubHalf h half =>
    let o : HalfOut := .hub h.toNat half
    .next (({ s with halves := if s.halves.contains o then s.halves else s.halves ++ [o] } : State).offer
      { code := 0x20, act := 0, unit := 10, hub := h.toNat })
  | .casting =>
    match s.cast.busy with
    | some .casting =>
      let t := (s.unloadCasting).offer { code := 0x5F, act := 3, esc := true, unit := 14 }
      .next ({ t with cast := { t.cast with busy := none, result := 0x5F } } : State).forward
    | _ => .next s
  | .plating =>
    match s.cast.sw with
    | some (_, m) =>
      let t := s.offer { code := 0x5F, act := 3, esc := true, unit := 14 }
      .next ((List.range 8).foldl (fun u p => if m.testBit p then u.stopPart p else u)
        { t with cast := { t.cast with sw := none, swResult := 0x5F } })
    | none => .next s
  | .tempering =>
    if !s.temper.busy || decide (68 ≤ s.temper.unit) then .next s
    else if s.temper.faults = 0 then .next { s with temper := { s.temper with faults := 1 } }
    else .next (s.searchFail 3)

/-- RECOVERY_DRAIN_COMPLETE (R390, R406): the core's started messages are complete. -/
def execRecoveryDrainComplete (c : CoreNo) (s : State) : Host.Outcome State Fault Refusal :=
  let r := (s.core c.val).run
  if r.recov ≠ 1 || r.halt.isSome || s.draining c.val || !s.live c.val then .next s
  else .next ((s.replayCore c.val).fetchNext c.val)

/-! ### The fault queue (R402, R403, R471) -/

/-- The eight words of a record (Table 1); a field that the spec leaves open holds a free value. -/
def State.recWords (s : State) (f : FRec) (seq : Nat) : List Nat × State :=
  let a : Nat × State := match f.info0 with | some v => (v, s) | none => s.free 64
  let b : Nat × State := match f.info1 with | some v => (v, a.2) | none => a.2.free 32
  ([f.code % 256 + 256 * (f.act % 8) + 2048 * b2n f.esc + 65536 * f.tag.toNat,
    f.pslab % 128 + 128 * (f.lslab % 128) + 16384 * (f.core % 32) + 2 ^ 19 * (f.unit % 16) + 2 ^ 23 * (f.hub % 8) + 2 ^ 26 * (f.link % 16),
    f.time % 2 ^ 32, f.time / 2 ^ 32 % 2 ^ 32, a.1 % 2 ^ 32, a.1 / 2 ^ 32 % 2 ^ 32, b.1 % 2 ^ 32,
    seq % 65536 + 65536 * (f.region % 65536)], b.2)

/-- FAULT_RECORD_PLACE (R403): the arbiter grants record `k` of those offered. A record with ACT 0 and ESC 0 that finds the queue full
is dropped; any other waits. -/
def execFaultRecordPlace (k : Nat) (s : State) : Host.Outcome State Fault Refusal :=
  match s.fq.offered[k]? with
  | none => .next s
  | some f =>
    let q := s.fq
    if q.count < 512 then
      let w := s.recWords f q.seq
      let i := (q.head + q.count) % 512
      .next { w.2 with fq := { q with
        words := Sp.setMany 0#32 q.words (8 * i) (w.1.map (BitVec.ofNat 32)), count := q.count + 1, seq := (q.seq + 1) % 65536,
        offered := q.offered.eraseIdx k } }
    else if f.act = 0 ∧ !f.esc then
      .next { s with fq := { q with ovf := true, lost := Nat.min 65535 (q.lost + 1), offered := q.offered.eraseIdx k } }
    else .next s

/-- Level of the fault interrupt to the management core (R403): the queue holds a record. DESIGN CHOICE: log 136. -/
def State.faultIrq (s : State) : Bool := s.fq.count != 0

/-- Firmware forwards the record at HEAD as a FAULT entry and lists an escalation as unacknowledged (R471). -/
def State.consume (s : State) : State :=
  let q := s.fq
  let ws := (Sp.getMany 0#32 q.words (8 * q.head) 8).map BitVec.toNat
  let esc := (ws.headD 0).testBit 11
  let t := s.log 1 esc ws
  { t with
    fq := { q with head := (q.head + 1) % 512, count := q.count - 1 },
    mgmt := { t.mgmt with unack := if esc then t.mgmt.unack ++ [nthD ws 7 0 % 65536] else t.mgmt.unack } }

/-- Consume `n` records. -/
def State.consumeN (s : State) : Nat → State
  | 0 => s
  | n + 1 => if s.fq.count = 0 then s else s.consume.consumeN n

/-- FQHEAD_WRITE (R403, R419, R471): firmware advances HEAD past the records it has consumed. -/
def execFqheadWrite (req : Requester) (v : W32) (s : State) : Host.Outcome State Fault Refusal :=
  if s.byMgmt req then
    let n := (v.toNat % 512 + 512 - s.fq.head) % 512
    .next (if n ≤ s.fq.count then s.consumeN n else s)
  else .next s

/-! ### Ending a stream (R472) -/

/-- What MGT_ENDCMD does to core `c`, as one step. -/
def State.endStream (s : State) (c : Nat) : State :=
  let k := s.core c
  let t := (s.dropLog c).updRun c (fun r =>
    let a := abandonRegion s.v64 r
    { a with
      halt := none, recov := 0, run := none, iqOff := 0, rpOff := 0, qadm := [], qdec := a.qdec ++ a.qadm,
      branch := none, own := false, failed := r.failed })
  let u := ((t.restoreCore c).updCore c (fun x =>
    let g := (k.rp.region + 1) % 2 ^ 48
    { x with cur := { x.cur with region := g }, rp := { x.rp with region := g } })).endRecovery c
  match k.run.run with
  | none => u
  | some b =>
    { u with subs := u.subs.map (fun w =>
        if w.num = b.sub ∧ !w.halted.contains (s.pidx c) then
          { w with halted := w.halted ++ [s.pidx c], first := some (w.first.getD (k.run.halt.getD 0, k.run.lastTag.toNat)) }
        else w) }

/-- ENDCMD (R472): firmware writes MGT_ENDCMD with a logical slab and core. -/
def execEndcmd (req : Requester) (lslab : BitVec 6) (core : BitVec 5) (s : State) : Host.Outcome State Fault Refusal :=
  if !s.byMgmt req then .next s
  else
    let bad : State := { s with mgmt := { s.mgmt with endResult := true } }
    match s.phys lslab.toNat with
    | none => .next bad
    | some p =>
      let c := 32 * p + core.toNat
      if (s.core c).run.halt.isNone then .next bad
      else let t := s.endStream c; .next { t with mgmt := { t.mgmt with endResult := false } }

/-- CMD_END (R469, R472): the driver asks firmware to end a halted core's stream. -/
def execCmdEnd (req : Requester) (v : W32) (s : State) : Host.Outcome State Fault Refusal :=
  .next (s.command req 2 v (fun t =>
    if fld v.toNat 31 11 ≠ 0 then (t, 2)
    else match t.phys (fld v.toNat 5 0) with
      | none => (t, 3)
      | some p =>
        let c := 32 * p + fld v.toNat 10 6
        if (t.core c).run.halt.isNone then (t, 3) else (t.endStream c, 0)))

/-! ### Substitution (R416, R417, R30 to R32) -/

/-- The logical slab stays unmapped and its partition stops (R32, R417). -/
def State.noSpare (s : State) (l old : Nat) : State :=
  let s0 := match (s.role old).part with
    | some p => s.stopPart p
    | none => s
  let t := s0.mapChange (fun t =>
    let t1 := t.setRole old { logical := none, st := .retiredService, part := none }
    { t1 with lmap := Sp.set none t1.lmap l none })
  t.offer { code := 0x77, act := 3, esc := true, pslab := old, lslab := l }

/-- A failed substitution of the same logical slab that waits for another spare (R417). -/
def State.retryOf (s : State) (l : Nat) : Option SubstOp :=
  s.subst.bind (fun o => if o.failed ∧ o.moved ∧ o.logical = l then some o else none)

/-- No spare is left for a failed substitution: the logical slab stays unmapped, its partition stops, and the map change in progress ends
(R30, R32, R417). -/
def State.noSpareEnd (s : State) (o : SubstOp) : State :=
  let s0 := match (s.role o.spare).part with
    | some p => s.stopPart p
    | none => s
  let t := ({ s0 with subst := none } : State).mapEnd (fun t =>
    let t1 := t.setRole o.spare { logical := none, st := .retiredService, part := none }
    { t1 with lmap := Sp.set none t1.lmap o.logical none })
  t.offer { code := 0x77, act := 3, esc := true, pslab := o.spare, lslab := o.logical }

/-- A write of GLB_SUBCMD with OP 1 or 2 (R416, R417). `f` begins the accepted operation with the old slab. DEDUCED: log 66. DEDUCED: log 67. -/
def State.subcmd (s : State) (req : Requester) (path : Bool) (l spare : Nat) (migrate : Bool) (f : State → Nat → State) : State :=
  let res (t : State) (r : Nat) : State := { t with substResult := r }
  if !s.byMgmt req then s
  else if s.subst.isSome ∧ (migrate ∨ (s.retryOf l).isNone) then res s 1
  else match s.phys l with
    | none => res s (if (s.role spare).st = .spare then 3 else 2)
    | some p =>
      let old := match s.retryOf l with | some o => o.old | none => p
      if 68 ≤ spare ∨ (s.role spare).st ≠ .spare then
        let t := res s 2
        if migrate ∨ s.firstSpare.isSome then t
        else match s.retryOf l with
          | some o => t.noSpareEnd o
          | none => t.noSpare l p
      else if !path ∧ s.fabric.contains old then res s 4
      else f (res s 0) old

/-- SUBCMD_SUBSTITUTE (R416, OP 1): every core of the slab halts issue at once. A spare named for a failed
substitution goes on inside the map change in progress. -/
def execSubcmdSubstitute (req : Requester) (path : Bool) (logical : BitVec 6) (spare : BitVec 7) (s : State) :
    Host.Outcome State Fault Refusal :=
  let l := logical.toNat
  .next (s.subcmd req path l spare.toNat false (fun t old =>
    match s.retryOf l with
    | some o =>
      let u : State := { t with subst := some { o with path := path, spare := spare.toNat, failed := false } }
      let v := (u.setRole spare.toNat { logical := some l, st := .migrating, part := (u.role o.spare).part }).setRole o.spare
          { logical := none, st := .retiredService, part := none }
      { v with lmap := Sp.set none v.lmap l (some spare.toNat) }
    | none => t.moveMap { migrate := false, path := path, logical := l, old := old, spare := spare.toNat }))

/-- SUBCMD_MIGRATE (R416, OP 2): each core of the slab holds issue at its next commit point. -/
def execSubcmdMigrate (req : Requester) (path : Bool) (logical : BitVec 6) (spare : BitVec 7) (s : State) :
    Host.Outcome State Fault Refusal :=
  let l := logical.toNat
  .next (s.subcmd req path l spare.toNat true (fun t old =>
    ({ t with subst := some { migrate := true, path := path, logical := l, old := old, spare := spare.toNat } } : State).migrateReady))

/-- A region is open on a core: it has issued since its last commit point. -/
def openRegion (r : CoreRun) : Bool :=
  r.iqOff != r.rpOff || r.recov != 0 || r.halt.isSome || !r.entries.isEmpty || !(r.fq ++ r.eq).isEmpty || !r.late.isEmpty

/-- The issue state of a core on its new slab (R416 step 4): a core halted in an open region lets its transfers in progress go on, then
replays; a core halted by a fault stays halted. -/
def movedRun (v64 : Bool) (old new : CoreRun) : CoreRun :=
  let r := abandonRegion v64 old
  let going (l : List Xfer) : List Xfer := l.filter (fun x => x.started && !x.dead)
  if openRegion old && old.halt.isNone then
    { r with held := false, list := r.list ++ new.list, recov := 1, fq := going old.fq, eq := going old.eq,
             fHalt := old.fHalt, eHalt := old.eHalt, recovCnt := new.recovCnt }
  else { r with held := false, list := r.list ++ new.list, recovCnt := new.recovCnt }

/-- The registers and storage of a core on its new slab (R416 step 2): what belongs to the logical core moves; what belongs to the
physical arrays and store stays: bypassed units (R110), event counters and LST_GERR. DEDUCED: log 70. -/
def movedSt (old new : CoreStore) : CoreStore :=
  { old with bypA := new.bypA, bypB := new.bypB, holdA := new.holdA, holdB := new.holdB, perf := new.perf, lstGerr := new.lstGerr }

/-- Core `a`'s state is installed in core `b` of the spare (R416 steps 2 to 4): its restore point, with arrivals and posts since, and its
local store as it stands. Streams bound to the logical core since the map changed follow those it held. DEDUCED: log 70. -/
def State.moveCore (s : State) (a b : Nat) : State :=
  let k := s.core a
  let n := s.core b
  let t := (s.dropLog a).setCore b
    { cur := (restored k).1, rp := k.rp, run := movedRun s.v64 k.run n.run, st := movedSt k.st n.st }
  let u := t.setCore a { run := { recovCnt := k.run.recovCnt }, st := movedSt {} k.st }
  let own (o : MemOwner) : MemOwner := match o with
    | .xfer c e q => if c = a then .xfer b e q else o
    | .logAdd c => if c = a then .logAdd b else o
    | _ => o
  { u with
    dlog := u.dlog.map (fun (d : LogEnt) => if d.core = a then { d with core := b } else d),
    memq := u.memq.map (fun (r : MemReq) => { r with owner := own r.owner }),
    link := { u.link with
      sends := u.link.sends.map (fun x => { x with
        src := match x.src with
          | .core c e q => if c = a then .core b e q else x.src
          | .log c => if c = a then .log b else x.src
          | o => o,
        data := match x.data with
          | .core c gs => if c = a then .core b gs else x.data
          | o => o }),
      reads := u.link.reads.map (fun r => if r.core = a then { r with core := b } else r) } }

/-- SUBSTITUTION_RESUME (R416 steps 3 and 4): the spare reads active, and code 0x76 is recorded. -/
def execSubstitutionResume (s : State) : Host.Outcome State Fault Refusal :=
  match s.subst with
  | none => .next s
  | some o =>
    if !o.moved || o.failed || !s.running then .next s
    else
      let cs := List.range 32
      let t := cs.foldl (fun t i => t.moveCore (32 * o.old + i) (32 * o.spare + i)) s
      let t1 := { t with
        tlb := t.tlb.filter (fun x => x.slab ≠ o.old && x.slab ≠ o.spare),
        subst := none, substCnt := Nat.min 255 (t.substCnt + 1) }
      let r := t1.role o.spare
      let t2 := t1.mapEnd (fun u => u.setRole o.spare { r with st := .active })
      let t3 := (t2.forward).offer { code := 0x76, pslab := o.spare, lslab := o.logical }
      let t4 := (t3.log 3 false [o.logical, o.old, o.spare, b2n o.path]).persistNow
      .next (cs.foldl (fun u i => u.fetchNext (32 * o.spare + i)) t4.pumpCredits.pumpAnswers)

/-- A core halted by `code` is not replayed (R410, R411): a lost granule, or a stop of a REMOTE transfer. DEDUCED: log 68. -/
def noReplay (r : CoreRun) (code : Nat) : Bool :=
  [0x29, 0x60, 0x61, 0x62, 0x64, 0x65, 0x66, 0x69, 0x6A].contains code || (r.fq ++ r.eq).any (fun x => x.dead && x.tgt == 2)

/-- A core halted under R409 replays on firmware's command: it recovers by the sequence of R406, which begins with the drain. -/
def State.replayHalted (s : State) (c : Nat) : State :=
  let r := (s.core c).run
  match r.halt with
  | none => s
  | some code =>
    if noReplay r code then s
    else ((s.noteReplay c).beginRecovery c).updRun c (fun x => { x with halt := none })

/-- SUBCMD_REPLAY (R409, OP 0 with REPLAY). -/
def execSubcmdReplay (req : Requester) (logical : BitVec 6) (s : State) : Host.Outcome State Fault Refusal :=
  if !s.byMgmt req then .next s
  else if s.subst.isSome then .next { s with substResult := 1 }
  else match s.phys logical.toNat with
    | none => .next { s with substResult := 3 }
    | some p => .next ((List.range 32).foldl (fun t i => t.replayHalted (32 * p + i)) { s with substResult := 0 })

/-! ### The spine (R414) -/

/-- SPINE_FAILURE (R414): every partition stops and LOADED clears. -/
def execSpineFailure (s : State) : Host.Outcome State Fault Refusal :=
  if s.boot.init || s.boot.cold then .next s
  else
    let t := s.offer { code := 0x78, act := 5, esc := true, unit := 14 }
    let u := (List.range 8).foldl State.stopPart t
    .next ({ u with cast := { u.cast with loaded := false } } : State).forward

/-- SUBCMD_SPINE_RESTART (R414, OP 3): every slab and hub is reset; the always-on domain, the OTP shadow and the management core keep
running, and the fault queue with them. CAUSE reads 4 (Start-up). DEDUCED: log 69. -/
def execSubcmdSpineRestart (req : Requester) (s : State) : Host.Outcome State Fault Refusal :=
  if !s.byMgmt req then .next s
  else if s.subst.isSome then .next { s with substResult := 1 }
  else
    let t := s.blockReset 4
    let mgmtRegs := s.regs.filter (fun x => decide (0x00100000 ≤ x.1) && decide (x.1 < 0x00800000))
    let u : State := { t with
      regs := mgmtRegs, mgmt := s.mgmt, fq := s.fq, irqs := s.irqs, mgmtIrqs := s.mgmtIrqs, pwr := s.pwr,
      recovCnt := s.recovCnt, substCnt := s.substCnt,
      boot := { t.boot with init := false, initRun := false } }
    .next (((u.mapSlabs).loadTaps).loadBypass).forward

end Sys2Proof.Machine
end

