-- ==== Sys2Proof/Machine/Frame.lean ====
section
/-! DEFINITION. Machine/Frame.lean: Ethernet frames and Hervasel packets as bytes: headers, checksums, guard bits, OB8 on the wire (R351
to R356, R372, R386). -/

namespace Sys2Proof.Machine

/-! ### Network byte order and checksums -/

def bytesBe (n v : Nat) : List Byte := (beBytes n v).map (BitVec.ofNat 8)
def natBe (l : List Byte) : Nat := beNat (l.map (·.toNat))

/-- The big-endian number of `n` bytes at offset `o`. -/
def netAt (l : List Byte) (o n : Nat) : Nat := natBe ((l.drop o).take n)

/-- The sum of the 16-bit words of a list. -/
def sum16 : List Byte → Nat
  | a :: b :: l => 256 * a.toNat + b.toNat + sum16 l
  | [a] => 256 * a.toNat
  | [] => 0

/-- One's-complement folding to 16 bits. -/
def fold16 (v : Nat) : Nat := let a := v / 65536 + v % 65536; let b := a / 65536 + a % 65536; b / 65536 + b % 65536

/-- The Internet checksum of a sum of words. -/
def checksum (v : Nat) : Nat := 65535 - fold16 v

/-! ### Sending a frame (R352, R353) -/

/-- UDP header and payload with its checksum: 0 on IPv4, over the pseudo-header on IPv6. -/
def udp (v6 : Bool) (sip dip : List Byte) (sport dport : Nat) (body : List Byte) : List Byte :=
  let n := 8 + body.length
  let head := bytesBe 2 sport ++ bytesBe 2 dport ++ bytesBe 2 n
  let c := checksum (sum16 sip + sum16 dip + n + 17 + sum16 (head ++ [0, 0] ++ body))
  head ++ bytesBe 2 (if v6 then (if c = 0 then 65535 else c) else 0) ++ body

/-- The frame of a packet: the path entry's 64 bytes, the peer's DSCP and ECT, the packet's PSN and the Hervasel packet. -/
def frameOf (path : List Byte) (dscp : Nat) (ect : Bool) (psn : Nat) (body : List Byte) : List Byte :=
  let w (o : Nat) : Nat := bytesAt path o 4
  let mode := fld (w 0) 1 0
  let tag := if bitOf (w 0) 2 then bytesBe 2 0x8100 ++ bytesBe 2 (fld (w 0) 5 3 * 2 ^ 13 + fld (w 0) 19 8) else []
  let eth (ty : Nat) : List Byte := (path.drop 8).take 12 ++ tag ++ bytesBe 2 ty
  let tc := 4 * dscp + (if ect then 2 else 0)
  let sp0 := fld (w 0x14) 15 0
  let sport := if bitOf (w 0) 6 then sp0 / 16 * 16 + psn % 16 else sp0
  let dport := fld (w 0x14) 31 16
  let ttl := fld (w 4) 7 0
  if mode = 0 then eth 0x88B5 ++ body
  else if mode = 1 then
    let sip := (path.drop 0x18).take 4
    let dip := (path.drop 0x28).take 4
    let h1 := bytesBe 1 0x45 ++ bytesBe 1 tc ++ bytesBe 2 (28 + body.length) ++ [0, 0, 0x40, 0] ++ bytesBe 1 ttl ++ [17]
    eth 0x0800 ++ h1 ++ bytesBe 2 (checksum (sum16 (h1 ++ [0, 0] ++ sip ++ dip))) ++ sip ++ dip ++ udp false sip dip sport dport body
  else
    let sip := (path.drop 0x18).take 16
    let dip := (path.drop 0x28).take 16
    eth 0x86DD ++ bytesBe 4 (6 * 2 ^ 28 + tc * 2 ^ 20 + fld (w 4) 27 8) ++ bytesBe 2 (8 + body.length) ++ [17] ++ bytesBe 1 ttl
      ++ sip ++ dip ++ udp true sip dip sport dport body

/-! ### Receiving a frame (R354) -/

/-- The Hervasel packet has VER 1, a TYPE of 0 or 1, and a length that its fields give. -/
def hervaselOk (b : List Byte) : Bool :=
  let ty := fld (bytesAt b 0 1) 7 4
  let tag := if bitOf (bytesAt b 1 1) 0 then 16 else 0
  decide (64 ≤ b.length) && fld (bytesAt b 0 1) 3 0 == 1
    && ((ty == 0 && b.length == 64 + 34 * (bytesAt b 0x0C 1 + 1) + tag) || (ty == 1 && b.length == 64 + tag))

/-- The payload of a UDP datagram for `port`, its checksum valid. -/
def udpBody (v6 : Bool) (sip dip : List Byte) (port : Nat) (d : List Byte) : Option (List Byte) :=
  let c := netAt d 6 2
  let ok := fold16 (sum16 sip + sum16 dip + d.length + 17 + sum16 d) == 65535
  if decide (8 ≤ d.length) && netAt d 2 2 == port && netAt d 4 2 == d.length && (if c = 0 then !v6 else ok) then some (d.drop 8)
  else none

/-- The Hervasel packet of a frame that passes every check, and whether its ECN field reads CE. -/
def frameBody (rxport : Nat) (f : List Byte) : Option (List Byte × Bool) :=
  let r := if netAt f 12 2 = 0x8100 then f.drop 16 else f.drop 12
  let ty := netAt r 0 2
  let ip := r.drop 2
  let body : Option (List Byte × Bool) :=
    if ty = 0x88B5 then some (ip, false)
    else if ty = 0x0800 then
      let h := ip.take 20
      if netAt h 0 1 == 0x45 && netAt h 6 2 % 2 ^ 14 == 0 && fold16 (sum16 h) == 65535 && netAt h 9 1 == 17 && netAt h 2 2 == ip.length then
        (udpBody false ((h.drop 12).take 4) (h.drop 16) rxport (ip.drop 20)).map (fun b => (b, netAt h 1 1 % 4 == 3))
      else none
    else if ty = 0x86DD then
      if netAt ip 0 1 / 16 == 6 && netAt ip 6 1 == 17 && netAt ip 4 2 + 40 == ip.length then
        (udpBody true ((ip.drop 8).take 16) ((ip.drop 24).take 16) rxport (ip.drop 40)).map
          (fun b => (b, netAt ip 0 2 / 16 % 4 == 3))
      else none
    else none
  match body with
  | some (b, ce) => if hervaselOk b then some (b, ce) else none
  | none => none

/-! ### Hervasel header (Table 2) -/

/-- The fields of a header to send. -/
structure HvHead where
  ack : Bool
  enc : Bool
  kep : Bool
  ece : Bool := false
  retx : Bool := false
  dpeer : Nat
  snode : Nat
  psn : Nat
  ngran : Nat := 1
  op : Nat := 0
  session : Nat
  txc : Nat
  msgid : Nat := 0
  off : Nat := 0
  total : Nat := 0
  /-- target record words, or for an ACK the 256-bit MAP -/
  target : List Nat := []
  map : Nat := 0
  deriving DecidableEq, Repr

/-- The 64 bytes of a header. -/
def HvHead.bytes (h : HvHead) : List Byte :=
  natBytes 4 (1 + 16 * b2n h.ack + 2 ^ 8 * b2n h.enc + 2 ^ 9 * b2n h.kep + 2 ^ 10 * b2n h.ece + 2 ^ 11 * b2n h.retx + 2 ^ 16 * h.dpeer)
    ++ natBytes 4 h.snode ++ natBytes 4 h.psn ++ natBytes 4 (h.ngran - 1 + 2 ^ 8 * h.op + 2 ^ 16 * h.session) ++ natBytes 8 h.txc
    ++ (if h.ack then natBytes 32 h.map ++ natBytes 8 0
        else natBytes 8 h.msgid ++ natBytes 4 h.off ++ natBytes 4 h.total
          ++ (List.range 6).flatMap (fun i => natBytes 4 (nthD h.target i 0)))

/-- Fields of a packet received. -/
def hvAck (b : List Byte) : Bool := fld (bytesAt b 0 1) 7 4 == 1
def hvEnc (b : List Byte) : Bool := bitOf (bytesAt b 0 4) 8
def hvKep (b : List Byte) : Bool := bitOf (bytesAt b 0 4) 9
def hvEce (b : List Byte) : Bool := bitOf (bytesAt b 0 4) 10
def hvDpeer (b : List Byte) : Nat := fld (bytesAt b 0 4) 29 16
def hvSnode (b : List Byte) : Nat := bytesAt b 4 4
def hvPsn (b : List Byte) : Nat := bytesAt b 8 4
def hvNgran (b : List Byte) : Nat := bytesAt b 0x0C 1 + 1
def hvOp (b : List Byte) : Nat := bytesAt b 0x0D 1 % 16
def hvSession (b : List Byte) : Nat := bytesAt b 0x0E 2
def hvMsgid (b : List Byte) : Nat := bytesAt b 0x18 8
def hvOff (b : List Byte) : Nat := bytesAt b 0x20 4 % 2 ^ 21
def hvTotal (b : List Byte) : Nat := bytesAt b 0x24 4 % 2 ^ 22
def hvTarget (b : List Byte) (w : Nat) : Nat := bytesAt b (0x28 + 4 * w) 4
def hvMap (b : List Byte) : Nat := bytesAt b 0x18 32

/-! ### Payloads (R356, R372) -/

/-- A granule on the wire: 32 data bytes and its guard bits. -/
def wireGran (g : Granule) : List Byte := natBytes 32 g.toNat ++ natBytes 2 (guardBits g).toNat

/-- The granules of a clear payload, none where a guard check fails. -/
def wireGrans (b : List Byte) (n : Nat) : Option (List Granule) :=
  let one (i : Nat) : Nat := bytesAt b (34 * i) 34
  if (List.range n).all (fun i => guard16 256 (one i % 2 ^ 256) == one i / 2 ^ 256) then
    some ((List.range n).map (fun i => BitVec.ofNat 256 (one i)))
  else none

/-- The IV of R372: SNODE and TXC. -/
def hvIv (snode txc : Nat) : List Nat := leBytes 4 snode ++ leBytes 8 txc

/-- Header, payload and tag as transmitted, `key` being the key of KSLOT. -/
def sealPacket (h : HvHead) (key : Nat) (payload : List Byte) : List Byte :=
  let head := h.bytes
  if h.enc then
    let r := gcmSeal key (hvIv h.snode h.txc) (head.map (·.toNat)) (payload.map (·.toNat))
    head ++ (r.1 ++ r.2).map (BitVec.ofNat 8)
  else head ++ payload

/-- The payload of a packet received with ENC 1, none where authentication fails. -/
def openPacket (key : Nat) (b : List Byte) : Option (List Byte) :=
  let head := b.take 64
  let rest := b.drop 64
  let n := rest.length - 16
  (gcmOpen key (hvIv (hvSnode b) (bytesAt b 0x10 8)) (head.map (·.toNat)) ((rest.take n).map (·.toNat))
    ((rest.drop n).map (·.toNat))).map (fun l => l.map (BitVec.ofNat 8))

/-! ### OB8 on the wire (R386) -/

/-- RNE(x / 2^k) for a natural number. -/
def rneShift (x k : Nat) : Nat := rndInt .rne false x (-(k : Int))

/-- E and the 32 elements of a block of 32 words. -/
def ob8Encode (ws : List Int) : Nat × List Int :=
  let m := ws.foldl (fun (a : Nat) w => Nat.max a w.natAbs) 0
  if m = 0 then (0, ws.map (fun _ => 0))
  else
    let k0 := Nat.log2 m - 6
    let k := if 127 < rneShift m k0 then k0 + 1 else k0
    (k + 127, ws.map (fun w => if w < 0 then -(rneShift w.natAbs k : Int) else (rneShift w.natAbs k : Int)))

/-- The word of an element (R386): q x 2^(E - 127), clamped to 2^31 - 1. A value that is no integer, or is below -2^31, comes from no encoder
of R386: the word is then the free value numbered `fr` (DEDUCED, log 45). -/
def ob8Word (fr e : Nat) (q : Int) : Nat :=
  let d : Int := 2 ^ (127 - e)
  let v : Int := q * 2 ^ (e - 127) / d
  if q % d ≠ 0 ∨ v < -(2 ^ 31) then Config.freeNat fr % 2 ^ 32
  else wrap 32 (if 2 ^ 31 ≤ v then 2 ^ 31 - 1 else v)

/-- Word `i` of a granule as a signed integer. -/
def granWord (g : Granule) (i : Nat) : Int := (g.extractLsb' (32 * i) 32).toInt

/-- Blocks that a payload of `n` granules carries. -/
def ob8Blocks (n : Nat) : Nat := n - cdiv n 33

/-- The largest number of blocks of a payload of at most `maxg` granules. -/
def ob8Max (maxg : Nat) : Nat := ob8Blocks maxg

/-- The payload granules of blocks: `grans` are the message granules from the first block on. -/
def ob8Payload (grans : List Granule) (blocks : Nat) : List Granule :=
  let blk (b : Nat) : Nat × List Int :=
    ob8Encode ((List.range 32).map (fun i => granWord (nthD grans (4 * b + i / 8) 0#256) (i % 8)))
  (List.range (cdiv blocks 32)).flatMap (fun s =>
    let bs := ((List.range 32).filter (fun j => decide (32 * s + j < blocks))).map (fun j => blk (32 * s + j))
    BitVec.ofNat 256 (bytesNat ((bs.map (fun b => BitVec.ofNat 8 b.1))))
      :: bs.map (fun b => BitVec.ofNat 256 (bytesNat (b.2.map (fun q => BitVec.ofInt 8 q)))))

/-- The message granules of a payload of OB8 segments; free values count from `fr`. -/
def ob8Granules (fr : Nat) (pay : List Granule) : List Granule :=
  (List.range (ob8Blocks pay.length)).flatMap (fun b =>
    let s := b / 32
    let ex := ((nthD pay (33 * s) 0#256).extractLsb' (8 * (b % 32)) 8).toNat
    let el := nthD pay (33 * s + 1 + b % 32) 0#256
    (List.range 4).map (fun j =>
      (List.range 8).foldl (fun (g : Granule) i =>
        g ||| (BitVec.ofNat 256 (ob8Word (fr + 32 * b + 8 * j + i) ex (el.extractLsb' (8 * (8 * j + i)) 8).toInt) <<< (32 * i))) 0#256))

end Sys2Proof.Machine
end

