-- ==== Sys2Proof/Machine/Link.lean ====
section
/-! DEFINITION. Machine/Link.lean: link engines and the transport of the link hub: peers, packets, acknowledgements, timers, keys (R351 to
R376). -/

namespace Sys2Proof.Machine

/-! ### Peers and links -/

/-- Word `i` of a peer's registration (Table 4). -/
def Peer.w (p : Peer) (i : Nat) : Nat := nthD p.reg i 0
def Peer.enc (p : Peer) : Bool := bitOf (p.w 0) 1
def Peer.ect (p : Peer) : Bool := bitOf (p.w 0) 2
def Peer.owner (p : Peer) : Nat := fld (p.w 0) 7 4
def Peer.mask (p : Peer) : Nat := fld (p.w 0) 19 8
def Peer.rnode (p : Peer) : Nat := p.w 1
def Peer.rpeer (p : Peer) : Nat := fld (p.w 2) 13 0
def Peer.session (p : Peer) : Nat := fld (p.w 2) 31 16
def Peer.kslot (p : Peer) : Nat := fld (p.w 3) 7 0
def Peer.kslotp (p : Peer) : Nat := fld (p.w 3) 15 8
def Peer.kpv (p : Peer) : Bool := bitOf (p.w 3) 16
def Peer.kep (p : Peer) : Bool := bitOf (p.w 3) 17
def Peer.path (p : Peer) : Nat := fld (p.w 3) 27 18
def Peer.dscp (p : Peer) : Nat := fld (p.w 4) 5 0
def Peer.maxg (p : Peer) : Nat := fld (p.w 4) 15 8 + 1

/-- Transport parameters (Tables 11 to 13). -/
def State.rtoInit (s : State) : Nat := Nat.max 1 (s.regN (oXp 0) % 65536)
def State.ackDly (s : State) : Nat := s.regN (oXp 0) / 65536
def State.rtoMax (s : State) : Nat := s.regN (oXp 1) % 65536
def State.retryMax (s : State) : Nat := Nat.max 1 (fld (s.regN (oXp 1)) 19 16)
def State.cwMin (s : State) : Nat := fld (s.regN (oXp 1)) 27 20 + 1
def State.cwInit (s : State) : Nat := Nat.max s.cwMin (fld (s.regN (oXp 2)) 7 0 + 1)
def State.rxPort (s : State) : Nat := fld (s.regN (oXp 2)) 31 16
def State.node (s : State) : Nat := s.regN oNode

/-- PSN arithmetic is modulo 2^32 (R362). -/
def psnSub (x b : Nat) : Nat := (x + 2 ^ 32 - b % 2 ^ 32) % 2 ^ 32
def psnBelow (x b : Nat) : Bool := decide (2 ^ 31 ≤ psnSub x b)

/-- Word `w` of path entry `i` of link `n`. -/
def State.pathWord (s : State) (n i w : Nat) : W32 := Sp.get 0#32 s.link.paths (n * 16384 + i * 16 + w)
def State.pathBytes (s : State) (n i : Nat) : List Byte := (List.range 16).flatMap (fun w => natBytes 4 (s.pathWord n i w).toNat)

/-- A path entry that is VALID and of a defined MODE. -/
def State.pathOk (s : State) (n i : Nat) : Bool :=
  let w := (s.pathWord n i 0).toNat
  bitOf w 7 && fld w 1 0 != 3

/-- A resource of a class is owned by `o` or unowned. -/
def State.mayUse (s : State) (cls i o : Nat) : Bool :=
  match s.ownerOf cls i with
  | some x => x == o
  | none => true

/-- Links of the peer's LINKMASK that ownership allows, and the usable ones (R363). -/
def State.ownLinks (s : State) (p : Peer) : List Nat := (List.range 12).filter (fun n => p.mask.testBit n && s.mayUse 2 n p.owner)
def State.usable (s : State) (p : Peer) : List Nat :=
  (s.ownLinks p).filter (fun n => bitOf (s.regN (oLnkCtrl n)) 0 && s.link.up.contains n)

/-- The next usable link after the one that carried the peer's previous packet. -/
def State.nextLink (s : State) (p : Peer) : Option Nat :=
  let l := s.usable p
  match l.find? (fun n => decide (p.lastLink < n)) with
  | some n => some n
  | none => l.head?

/-- The peer is this block itself (R385). -/
def State.isLocal (s : State) (p : Peer) : Bool := p.rnode == s.node

def State.keySlot (s : State) (k : Nat) : KeySlot := Sp.get {} s.link.keys k
def State.setKey (s : State) (k : Nat) (v : KeySlot) : State := { s with link := { s.link with keys := Sp.set {} s.link.keys k v } }

/-! ### Frames in and out -/

/-- A received frame (R351, R354): what passes waits for the link hub. -/
def State.receive (s : State) (n : Nat) (bytes : List Byte) : State :=
  match frameBody s.rxPort bytes with
  | none => s.count (oLnkCnt n 2)
  | some (b, ce) =>
    let t := s.count (oLnkCnt n 1)
    let u := if ce then t.count (oLnkCnt n 4) else t
    { u with link := { u.link with rx := u.link.rx ++ [{ bytes := b, link := some n, ce := ce }] } }

/-- The clock of frame port `n` is marked lost (R59). -/
def State.frameLost (s : State) (n : Nat) : Bool :=
  s.lost.any (fun p => match p with
    | .frame l => l.val == n
    | _ => false)

/-- A frame comes from the MAC: one marked bad is dropped; a disabled engine takes none. DEDUCED: log 137. -/
def State.frameIn (s : State) (n : Nat) (bytes : List Byte) (bad : Bool) : State :=
  if bad || !s.running || !bitOf (s.regN (oLnkCtrl n)) 0 then s else s.receive n bytes

/-- FRAME_RECEIVE (R351, R354): while the port's clock is marked lost the frame stays in the bridge (R59). -/
def execFrameReceive (l : LinkNo) (bytes : List Byte) (bad : Bool) (s : State) : Host.Outcome State Fault Refusal :=
  if s.frameLost l.val then .next { s with strand := s.strand ++ [.frame l bytes bad] } else .next (s.frameIn l.val bytes bad)

/-- LINK_UP (R363): UP of a link engine. -/
def execLinkUp (l : LinkNo) (up : Bool) (s : State) : Host.Outcome State Fault Refusal :=
  let rest := s.link.up.filter (· ≠ l.val)
  .next { s with link := { s.link with up := if up then rest ++ [l.val] else rest } }

/-- A frame is presented to the MAC, and counted as sent. -/
def State.present (s : State) (n : Nat) (f : List Byte) : State :=
  let t := s.count (oLnkCnt n 0)
  { t with link := { t.link with tx := t.link.tx ++ [(n, f)] } }

/-- The frames that wait for a port's clock are presented (R59). -/
def State.framesOut (s : State) (n : Nat) : State :=
  (s.link.txWait.filter (fun x => x.1 == n)).foldl (fun (t : State) x => t.present n x.2)
    { s with link := { s.link with txWait := s.link.txWait.filter (fun x => x.1 != n) } }

/-- A packet leaves on a link, or passes to this block's receive side; a frame waits for the port's clock (R59). -/
def State.emit (s : State) (p : Peer) (link : Option Nat) (psn : Nat) (pkt : List Byte) : State :=
  match link with
  | none => { s with link := { s.link with rx := s.link.rx ++ [{ bytes := pkt, link := none, ce := false }] } }
  | some n =>
    let f := frameOf (s.pathBytes n p.path) p.dscp p.ect psn pkt
    if bitOf (s.regN (oLnkCtrl n)) 1 then (s.count (oLnkCnt n 0)).receive n f
    else if s.frameLost n then { s with link := { s.link with txWait := s.link.txWait ++ [(n, f)] } }
    else s.present n f

/-- Where the peer's next packet can go: `some none` for the local block. -/
def State.route (s : State) (p : Peer) : Option (Option Nat) :=
  if s.isLocal p then some none else (s.nextLink p).map some

/-- The peer's key can protect another packet; `some none` without ENC (R372). DEDUCED: log 127. -/
def State.txKey (s : State) (p : Peer) : Option (Option KeySlot) :=
  if p.enc then
    let k := s.keySlot p.kslot
    if k.valid && decide (k.ctr < 2 ^ 64 - 1) then some (some k) else none
  else some none

/-- Protect and send a packet: the key slot's counter counts every transmission (R372). -/
def State.transmit (s : State) (p : Peer) (link : Option Nat) (key : Option KeySlot) (h : HvHead) (payload : List Byte) : State :=
  let pkt := match key with
    | some k => sealPacket { h with enc := true, txc := k.ctr } k.key payload
    | none => sealPacket h 0 payload
  let t := match key with
    | some k => s.setKey p.kslot { k with ctr := k.ctr + 1 }
    | none => s
  (t.setPeer { p with lastLink := link.getD p.lastLink }).emit p link h.psn pkt

/-- The fields of a header that a peer gives. -/
def State.headFor (s : State) (p : Peer) (ack : Bool) (psn : Nat) : HvHead :=
  { ack := ack, enc := false, kep := p.kep && p.enc, dpeer := p.rpeer, snode := s.node, psn := psn, session := p.session, txc := 0 }

/-! ### Acknowledgements (R366, R369) -/

/-- Send an ACK over the visible packets; it stays due where no link or key can carry it (R363). -/
def State.sendAck (s : State) (i : Nat) : State :=
  match s.peer i with
  | none => s
  | some p =>
    match s.route p, s.txKey p with
    | some l, some k =>
      s.transmit { p with ce := false, ackN := 0, ackSince := none, ackDue := false } l k
        { s.headFor p true p.viExp with ece := p.ce, map := p.viMap } []
    | _, _ => s.setPeer { p with ackDue := true }

/-- ACK_DELAY_EXPIRY (R366). DEDUCED: log 126. -/
def execAckDelayExpiry (peer : BitVec 14) (s : State) : Host.Outcome State Fault Refusal :=
  match s.peer peer.toNat with
  | none => .next s
  | some p =>
    match p.ackSince with
    | none => .next s
    | some t => if s.running && s.due (t + s.ns s.ackDly) then .next (s.sendAck peer.toNat) else .next s

/-! ### Checks common to DATA and ACK (R365 steps 1 to 3, R370, R374) -/

/-- Count an authentication failure (R374). -/
def State.authFail (s : State) (p : Peer) : State :=
  let t := (s.setPeer { p with arec := true, afail := Nat.min (2 ^ 32 - 1) (p.afail + 1) }).count (oHubCnt 1)
  if p.arec then t else t.offer { code := 0x63, unit := 10, hub := 1 }

/-- A packet for a peer that is not cached parks (R370). -/
def State.park (s : State) (k : Pkt) : State :=
  let t := if 64 ≤ s.link.miss.length then s.count (oHubCnt 0) else { s with link := { s.link with miss := s.link.miss ++ [k] } }
  t.wantPeer (hvDpeer k.bytes)

/-- Steps 1 to 3 of R365: the peer and the clear payload, or the state after the packet was parked or dropped. -/
def State.openPkt (s : State) (k : Pkt) : Except State (Peer × List Byte) :=
  let b := k.bytes
  match s.peer (hvDpeer b) with
  | none => .error (s.park k)
  | some p =>
    if p.dead || hvSnode b != p.rnode || hvSession b != p.session then .error (s.count (oHubCnt 2))
    else if hvEnc b != p.enc then .error (s.authFail p)
    else if !p.enc then .ok (p, b.drop 64)
    else
      let slot := if hvKep b = p.kep then some p.kslot else if p.kpv then some p.kslotp else none
      match slot.bind (fun i => let q := s.keySlot i; if q.valid then openPacket q.key b else none) with
      | some l => .ok (p, l)
      | none => .error (s.authFail p)

/-- Take packet `k` of those received, of the given TYPE; packets for one peer are processed in the order of their arrival (R370). -/
def State.takeRx (s : State) (k : Nat) (ack : Bool) : Option (Pkt × State) :=
  match s.link.rx[k]? with
  | none => none
  | some x =>
    if s.running && hvAck x.bytes == ack && !(s.link.rx.take k).any (fun y => hvDpeer y.bytes == hvDpeer x.bytes) then some (x, { s with link := { s.link with rx := s.link.rx.eraseIdx k } }) else none

/-! ### Receiving an ACK (R366, R367, R369) -/

/-- Mark what an ACK acknowledges. -/
def markAcked (ackpsn map : Nat) (x : TxPkt) : TxPkt :=
  let d := psnSub x.psn ackpsn
  if psnBelow x.psn ackpsn || (decide (d < 256) && map.testBit d) then { x with acked := true } else x

/-- Fast retransmission: three higher PSNs are acknowledged. -/
def fastResend (l : List TxPkt) (x : TxPkt) : TxPkt :=
  if !x.acked && !x.fast && decide (3 ≤ (l.filter (fun y => y.acked && psnBelow x.psn y.psn)).length) then
    { x with resend := true, fast := true }
  else x

/-- TXBASE past every leading acknowledged PSN. -/
def leadAcked : List TxPkt → Nat → Nat
  | [], b => b
  | x :: l, b =>
    if psnBelow x.psn b then leadAcked l b else if x.acked && x.psn == b then leadAcked l ((b + 1) % 2 ^ 32) else b

/-- The peer's transport state after an ACK, and whether TXBASE advanced; of an ACK that acknowledges nothing new only ECE counts. DEDUCED: log 128. -/
def State.ackPeer (s : State) (p : Peer) (b : List Byte) : Peer × Bool :=
  let tx := p.tx.map (markAcked (hvPsn b) (hvMap b))
  let base := leadAcked tx p.txBase
  let adv := base != p.txBase
  let news := p.tx.any (fun x => !x.acked && (markAcked (hvPsn b) (hvMap b) x).acked)
  let left := (tx.filter (fun x => x.resend || !psnBelow x.psn base)).map (fun x => if news then fastResend tx x else x)
  let p1 : Peer := { p with tx := left, txBase := base }
  let p2 : Peer := if adv then
      { p1 with retries := 0, rto := s.rtoInit,
                timer := if left.all (·.acked) then none else some (s.aon.tb + s.us s.rtoInit) }
    else p1
  let past := adv && decide (0 < psnSub p2.txBase p2.mark) && !psnBelow p2.txBase p2.mark
  let p3 : Peer := if past then
      { p2 with mark := p2.txPsn, eceSeen := false, cwnd := if p2.eceSeen then p2.cwnd else Nat.min 256 (p2.cwnd + 1) }
    else p2
  let p4 : Peer := if hvEce b && !p3.eceSeen then
      { p3 with cwnd := Nat.max (p3.cwnd / 2) s.cwMin, mark := p3.txPsn, eceSeen := true }
    else p3
  (p4, adv)

/-- Every packet of a message has been transmitted and acknowledged. -/
def sendDone (p : Peer) (x : Send) : Bool :=
  !x.fin && x.peer == p.idx && decide (x.avail ≤ x.next) && !p.tx.any (fun y => y.send == x.id && !y.acked)

/-- A message is complete; it stays while a copy of one of its packets is scheduled (Table 7). What stops its transfer's list is then
recorded (R259). -/
def State.completeSend (s : State) (p : Peer) (x : Send) : State :=
  let t := match x.src with
    | .core c e q => (s.finishSend x).stopNow c e q
    | _ => s.finishSend x
  if p.tx.any (fun y => y.send == x.id && y.resend) then
    { t with link := { t.link with sends := t.link.sends ++ [{ x with fin := true }] } }
  else t

/-- ACK_RECEIVE (R366). -/
def execAckReceive (k : Nat) (s : State) : Host.Outcome State Fault Refusal :=
  match s.takeRx k true with
  | none => .next s
  | some (x, t) =>
    match t.openPkt x with
    | .error u => .next u
    | .ok (p, _) =>
      let q := (t.ackPeer p x.bytes).1
      let u := t.setPeer q
      .next ((u.link.sends.filter (sendDone q)).foldl (fun (v : State) y => v.completeSend q y) u)

/-! ### Sending (R362 to R364, R367) -/

/-- Granules, or OB8 blocks, of the packet that begins at granule `off` of a message. -/
def Send.cut (x : Send) (maxg : Nat) (off : Nat) : Nat :=
  if x.op = 2 then Nat.min (ob8Max maxg) (cdiv (x.avail - off) 4) else Nat.min maxg (x.avail - off)

/-- The payload granules of a packet, read from the message's source (R364). -/
def State.payload (s : State) (x : Send) (off n : Nat) : List Granule :=
  let gs (k : Nat) : List Granule := ((List.range k).map (off + ·)).map (s.sendGran x.data)
  if x.op = 2 then ob8Payload (gs (Nat.min (4 * n) (x.avail - off))) n else gs n

/-- The source of a packet's granules can be read (R59). -/
def State.sourceUp (s : State) (x : Send) (off n : Nat) : Bool :=
  match x.data with
  | .image a => s.rangeUp true (a + 32 * off) (32 * n)
  | _ => true

/-- Send, or send again, a packet of a message. -/
def State.sendData (s : State) (p : Peer) (x : Send) (k : TxPkt) (retx : Bool) (link : Option Nat) (key : Option KeySlot) : State :=
  let pay := s.payload x k.off k.n
  let h : HvHead := { s.headFor p false k.psn with
    retx := retx, ngran := pay.length, op := x.op, msgid := x.msgid, off := k.off, total := x.total, target := x.target }
  let q : Peer := { p with timer := match p.timer with
    | some t => some t
    | none => if k.acked then none else some (s.aon.tb + s.us p.rto) }
  let t := s.transmit q link key h (pay.flatMap wireGran)
  let due := let w := t.regN oRdTmo; if w = 0 then none else some (t.aon.tb + t.us w)
  if x.op = 3 then
    { t with link := { t.link with reads := t.link.reads.map (fun (r : RdOut) =>
        if r.send = x.id ∧ r.deadline = none then { r with deadline := due } else r) } }
  else t

/-- Every message to a peer stops. -/
def State.failSends (s : State) (i code : Nat) : State :=
  (s.link.sends.filter (fun x => x.peer == i && !x.fin)).foldl (fun (t : State) x => t.failSend x code) s

/-- What the peer sends next: the oldest packet to send again, else the next packet of the oldest message with granules left, inside the
window. DESIGN CHOICE: log 125. -/
def State.nextPacket (s : State) (p : Peer) : Option (Send × TxPkt × Bool) :=
  match p.tx.find? (fun x => x.resend && s.link.sends.any (fun y => y.id = x.send)) with
  | some x => (s.link.sends.find? (fun y => y.id = x.send)).map (fun y => (y, x, true))
  | none =>
    if p.cwnd ≤ psnSub p.txPsn p.txBase then none
    else (s.link.sends.find? (fun y => y.peer == p.idx && decide (y.next < y.avail))).map (fun y =>
      (y, { psn := p.txPsn, send := y.id, off := y.next, n := y.cut p.maxg y.next }, false))

/-- A peer has a packet ready to leave. -/
def State.dataReady (s : State) (p : Peer) : Bool :=
  match s.nextPacket p with
  | some (y, x, _) => s.sourceUp y x.off x.n
  | none => false

/-- Link `l` serves peer `p` next (R363): ACKs go before DATA, and peers with packets ready are served in turn. -/
def State.serves (s : State) (p : Peer) (l : Option Nat) : Bool :=
  let dist (q : Peer) : Nat := (q.idx + 16384 - Sp.get 0 s.link.turn (l.getD 12)) % 16384
  !s.link.peers.any (fun q => q.idx != p.idx && !q.dead && decide (s.route q = some l) && (s.txKey q).isSome
    && (if p.ackDue || q.ackDue then q.ackDue && (!p.ackDue || decide (dist q < dist p))
      else s.dataReady q && decide (dist q < dist p)))

/-- The turn of link `l` goes on after peer `i`. -/
def State.turnPast (s : State) (l : Option Nat) (i : Nat) : State :=
  { s with link := { s.link with turn := Sp.set 0 s.link.turn (l.getD 12) ((i + 1) % 16384) } }

/-- The packets of a peer once packet `x` has been transmitted again: a copy that an expiry scheduled lets it be retransmitted fast again
(R367), and one that is acknowledged is forgotten. -/
def resent (p : Peer) (x : TxPkt) : List TxPkt :=
  (p.tx.map (fun (z : TxPkt) =>
    if z.psn = x.psn then { z with resend := false, byExpiry := false, fast := z.fast && !z.byExpiry } else z)).filter
      (fun z => !z.acked || z.resend || !psnBelow z.psn p.txBase)

/-- PACKET_TRANSMIT (R362, R363): the link hub transmits the next packet of a peer, or the ACK that is due to it, on the peer's next link, which
serves its peers in turn. -/
def execPacketTransmit (peer : BitVec 14) (s : State) : Host.Outcome State Fault Refusal :=
  match s.peer peer.toNat with
  | none => .next s
  | some p =>
    if !s.running || p.dead then .next s
    else match s.route p, s.txKey p, p.ackDue with
      | some l, some _, true => if s.serves p l then .next ((s.sendAck p.idx).turnPast l p.idx) else .next s
      | route, key, _ => match s.nextPacket p with
        | none => .next s
        | some (y, x, again) =>
          if !s.isLocal p && (s.ownLinks p).isEmpty then .next (s.failSends p.idx 0x66)
          else match route, key with
            | none, _ => .next s
            | some _, none => if (s.keySlot p.kslot).valid then .next (s.failSends p.idx 0x64) else .next s
            | some l, some key =>
              if !s.serves p l || !s.sourceUp y x.off x.n then .next s
              else
                let q : Peer := if again then { p with tx := resent p x }
                  else { p with txPsn := (p.txPsn + 1) % 2 ^ 32, tx := p.tx ++ [x] }
                let t := (s.sendData q y x again l key).turnPast l p.idx
                let step := if y.op = 2 then 4 * x.n else x.n
                if again then
                  .next (if y.fin && !q.tx.any (fun z => z.send == y.id && z.resend) then
                    { t with link := { t.link with sends := t.link.sends.filter (fun z => z.id ≠ y.id) } } else t)
                else .next { t with link := { t.link with sends := t.link.sends.map (fun (z : Send) =>
                  if z.id = y.id then { z with next := z.next + step } else z) } }

/-- RETRANSMIT_EXPIRY (R367, R369). -/
def execRetransmitExpiry (peer : BitVec 14) (s : State) : Host.Outcome State Fault Refusal :=
  match s.peer peer.toNat with
  | none => .next s
  | some p =>
    match p.timer with
    | none => .next s
    | some d =>
      if !s.running || !s.due d then .next s
      else
        let t := s.count (oHubCnt 3)
        let n := p.retries + 1
        if s.retryMax ≤ n then
          let u := t.setPeer { p with retries := n, dead := true, deadCode := 0x62, timer := none, cwnd := s.cwMin, tx := [] }
          .next ((u.offer { code := 0x62, unit := 10, hub := 1 }).failSends p.idx 0x62)
        else
          let rto := Nat.min s.rtoMax (2 * p.rto)
          .next (t.setPeer { p with
            retries := n, rto := rto, timer := some (s.aon.tb + s.us rto), cwnd := s.cwMin,
            tx := p.tx.map (fun (x : TxPkt) => if x.acked then x else { x with resend := true, byExpiry := true }) })

/-! ### The peer-context cache (R360, R370, R371) -/

/-- Free lines of the cache (FREE). -/
def State.freeLines (s : State) : Nat := 1024 - s.link.peers.length - s.link.evicting.length - s.link.fetch.length

/-- Level of the peer-low interrupt to the management core (R370): fewer free lines than LOWAT. -/
def State.peerLowIrq (s : State) : Bool := decide (s.freeLines < fld (s.regN (oXp 2)) 15 8)

/-- Words 16 and 17 and later of a context: its transport state (Table 5). -/
def Peer.words (p : Peer) : List Nat :=
  (List.range 16).map p.w ++ [p.txPsn, p.txBase, p.rxExp,
    p.cwnd % 512 + 2 ^ 9 * (p.retries % 16) + 2 ^ 13 * b2n p.dead + 2 ^ 14 * b2n p.arec]
    ++ (List.range 8).map (fun i => p.rxMap / 2 ^ (32 * i) % 2 ^ 32) ++ [p.afail % 2 ^ 32] ++ List.replicate 35 0

/-- Host address of a context. -/
def State.peerAddr (s : State) (i : Nat) : Nat := s.pair oPeerTbl / 256 * 256 + 256 * i

/-- A context as cached: registration and transport state; CWND 0 is a new registration. DEDUCED: log 130. -/
def State.peerOf (s : State) (i : Nat) (data : List Byte) : Peer :=
  let w (k : Nat) : Nat := bytesAt data (4 * k) 4
  let cw := fld (w 19) 8 0
  { idx := i, reg := (List.range 16).map w, txPsn := w 16, txBase := w 17, rxExp := w 18, rxMap := bytesAt data 0x50 32,
    viExp := w 18, viMap := bytesAt data 0x50 32, cwnd := if cw = 0 then s.cwInit else cw, retries := fld (w 19) 12 9,
    dead := bitOf (w 19) 13, arec := bitOf (w 19) 14, afail := w 28, rto := s.rtoInit, mark := w 16 }

/-- Why a context is rejected (R360). -/
def State.peerBad (s : State) (p : Peer) : Option Nat :=
  let links := (List.range 12).filter (fun n => p.mask.testBit n)
  if !bitOf (p.w 0) 0 then some 0x60
  else if (decide (8 ≤ p.owner) && p.owner != 9) || links.isEmpty || !links.all (fun n => s.pathOk n p.path)
    || (p.enc && (!s.mayUse 3 p.kslot p.owner || (p.kpv && !s.mayUse 3 p.kslotp p.owner))) then some 0x65
  else none

/-- Packets parked for a peer. -/
def State.parkedFor (s : State) (i : Nat) : List Pkt := s.link.miss.filter (fun k => hvDpeer k.bytes == i)
def State.unpark (s : State) (i : Nat) : State :=
  { s with link := { s.link with miss := s.link.miss.filter (fun k => hvDpeer k.bytes != i) } }

/-- PEER_FETCH_COMPLETE (R360, R370): the context's 256 bytes come from host memory; a fetch without a free line waits, and one of a peer
whose write-back waits. -/
def execPeerFetchComplete (peer : BitVec 14) (err : Bool) (data : List Byte) (s : State) : Host.Outcome State Fault Refusal :=
  let i := peer.toNat
  if !s.running || !s.link.fetch.contains i || !s.hostUp || decide (1024 ≤ s.link.peers.length + s.link.evicting.length)
      || s.link.evicting.any (fun x => x.idx = i) || data.length != 256 then .next s
  else
    let parked := s.parkedFor i
    let t := (({ s with link := { s.link with
      fetch := s.link.fetch.erase i, peerDone := s.link.peerDone || s.link.peerCmd == i } } : State).unpark i)
    if err then .next (t.failSends i 0x61)
    else
      let p := s.peerOf i data
      let fresh : Sp Nat := if fld (bytesAt data 0x4C 4) 8 0 = 0 then Sp.set 0 t.link.dedup i 0 else t.link.dedup
      match s.peerBad p with
      | some code =>
        let q : Peer := { p with dead := true, deadCode := code }
        let u := parked.foldl (fun (v : State) _ => v.count (oHubCnt 2)) t
        .next (({ u with link := { u.link with peers := u.link.peers ++ [q], dedup := fresh } } : State).failSends i code)
      | none =>
        let u : State := { t with link := { t.link with
          peers := t.link.peers ++ [p], rx := parked.map (fun x => { x with parked := true }) ++ t.link.rx, dedup := fresh } }
        .next (if p.dead then u.failSends i p.deadCode else u)

/-- The peer has work that refuses an eviction or a reset (R371): a parked packet counts until it is processed. -/
def State.peerBusy (s : State) (p : Peer) : Bool :=
  p.tx.any (fun x => !x.acked) || p.ackN != 0 || s.link.pend.any (fun x => x.peer == p.idx) || !(s.parkedFor p.idx).isEmpty
    || s.link.rx.any (fun x => x.parked && hvDpeer x.bytes == p.idx)
    || s.link.sends.any (fun x => x.peer == p.idx && !x.fin)

def State.peerEnd (s : State) (r : Nat) : State := { s with link := { s.link with peerResult := r } }
def State.peerAccept (s : State) (i : Nat) (done : Bool) : State :=
  { s with link := { s.link with peerResult := 0, peerDone := done, peerCmd := i } }

/-- An eviction or a fetch of the peer is in progress. -/
def State.peerMoving (s : State) (i : Nat) : Bool := s.link.fetch.contains i || s.link.evicting.any (fun x => x.idx = i)

/-- Contexts that wait for the host port are written back, and a command that waited is DONE (R59, R371). -/
def State.evictOut (s : State) : State :=
  s.link.evicting.foldl (fun (t : State) p =>
    { t with hostOut := (p.words.zipIdx).foldl (fun m w => Memory.setNat m (t.peerAddr p.idx + 4 * w.2) 4 w.1) t.hostOut,
             link := { t.link with peerDone := t.link.peerDone || t.link.peerCmd == p.idx } })
    { s with link := { s.link with evicting := [] } }

/-- PEERCMD_EVICT (R371): the write-back waits for the host port's clock (R59). DEDUCED: log 129. -/
def execPeercmdEvict (_req : Requester) (peer : BitVec 14) (s : State) : Host.Outcome State Fault Refusal :=
  let i := peer.toNat
  if !s.answers then .next s
  else if s.peerMoving i then .next (s.peerEnd 3)
  else match s.peer i with
    | none => .next (s.peerEnd 1)
    | some p =>
      if s.peerBusy p then .next (s.peerEnd 2)
      else
        let t := ({ s with link := { s.link with
          peers := s.link.peers.filter (fun x => x.idx ≠ i), evicting := s.link.evicting ++ [p] } } : State).peerAccept i false
        .next (if s.hostUp then t.evictOut else t)

/-- PEERCMD_FETCH (R371). -/
def execPeercmdFetch (_req : Requester) (peer : BitVec 14) (s : State) : Host.Outcome State Fault Refusal :=
  let i := peer.toNat
  if !s.answers then .next s
  else if s.peerMoving i then .next (s.peerEnd 3)
  else if (s.peer i).isSome then .next (s.peerAccept i true)
  else if s.freeLines = 0 then .next (s.peerEnd 4)
  else .next ((s.peerAccept i false).wantPeer i)

/-- PEERCMD_RESET (R371, R374, R378): the state of a new registration; refused on what refuses an eviction. -/
def execPeercmdReset (_req : Requester) (peer : BitVec 14) (s : State) : Host.Outcome State Fault Refusal :=
  let i := peer.toNat
  if !s.answers then .next s
  else match s.peer i with
    | none => .next (s.peerEnd 2)
    | some p =>
      if s.peerBusy p then .next (s.peerEnd 2)
      else
        let q : Peer := { idx := i, reg := p.reg, cwnd := s.cwInit, rto := s.rtoInit, lastLink := p.lastLink }
        let t := s.setPeer q
        .next (({ t with link := { t.link with
          dedup := Sp.set 0 t.link.dedup i 0, reasm := t.link.reasm.filter (fun r => r.peer ≠ i),
          firsts := t.link.firsts.filter (fun r => r.peer ≠ i) } } : State).peerAccept i true)

/-! ### Key slots (R372) -/

/-- The 256 bits in eight data registers, which then read zero. -/
def State.takeData (s : State) (o : Nat → Nat) : Nat × State :=
  (((List.range 8).map (fun k => s.regN (o k) * 2 ^ (32 * k))).sum, (List.range 8).foldl (fun (t : State) k => t.setRegN (o k) 0) s)

/-- The key in HUB_KEYDATA0 to HUB_KEYDATA7 (R372). -/
def State.keyWords (s : State) : Nat := ((List.range 8).map (fun k => (Sp.get 0#32 s.link.keyData k).toNat * 2 ^ (32 * k))).sum

/-- KEYCMD_LOAD (R372): the data registers then hold zero. -/
def execKeycmdLoad (req : Requester) (slot : BitVec 8) (s : State) : Host.Outcome State Fault Refusal :=
  if !s.byHost req then .next s
  else
    .next (({ s with link := { s.link with keyData := [] } } : State).setKey slot.toNat { valid := true, key := s.keyWords, ctr := 0 })

/-- KEYCMD_ERASE (R372). -/
def execKeycmdErase (req : Requester) (slot : BitVec 8) (s : State) : Host.Outcome State Fault Refusal :=
  if s.byHost req then .next (s.setKey slot.toNat {}) else .next s

end Sys2Proof.Machine
end

