-- ==== Sys2Proof/Machine/Region.lean ====
section
/-! DEFINITION. Machine/Region.lean: remote regions, reassembly, deduplication, remote reads and sealed rounds at the receiver (R378 to
R397). -/

namespace Sys2Proof.Machine

/-! ### Region entries (R379, Table 2) -/

/-- Fields of a region entry's words. -/
structure RegEnt where
  valid : Bool
  ext : Bool
  wr : Bool
  rd : Bool
  add : Bool
  sealed : Bool
  arren : Bool
  arrmsg : Bool
  part : Nat
  tenant : Nat
  key : Nat
  start : Nat
  len : Nat
  mlen : Nat
  arr : Nat
  arrcore : Nat
  deriving DecidableEq, Repr

def regEnt (w : List Nat) : RegEnt :=
  let g (i : Nat) : Nat := nthD w i 0
  { valid := bitOf (g 0) 0, ext := bitOf (g 0) 1, wr := bitOf (g 0) 2, rd := bitOf (g 0) 3, add := bitOf (g 0) 4, sealed := bitOf (g 0) 5,
    arren := bitOf (g 0) 6, arrmsg := bitOf (g 0) 7, part := fld (g 0) 10 8, tenant := fld (g 0) 23 16, key := g 1,
    start := g 2 + 2 ^ 32 * g 3, len := g 4, mlen := g 5, arr := fld (g 6) 5 0, arrcore := fld (g 6) 16 6 }

/-- TYPE 0: first granule and core. -/
def RegEnt.first (e : RegEnt) : Nat := fld e.start 12 0
def RegEnt.core (e : RegEnt) : Nat := fld e.start 23 13

/-- TYPE 1: byte address of region granule `g` in the partition's address space. -/
def RegEnt.addr (e : RegEnt) (g : Nat) : Nat := fld e.start 46 0 / 32 * 32 + 32 * g

/-- Address of the region table. -/
def State.regTable (s : State) : Nat := s.regN (oRegTbl 0) / 32 * 32 + 2 ^ 32 * (s.regN (oRegTbl 1) % 256)

/-- The words of entry `r`, from the cache or from the table. -/
def State.regWords (s : State) (r : Nat) : List Nat :=
  match s.link.rcache.find? (fun x => x.1 = r) with
  | some x => x.2
  | none => (List.range 8).map (fun i => Memory.nat s.tierA (s.regTable + 32 * r + 4 * i) 4)

/-- Cache entry `r`: 512 lines, the oldest leaves. -/
def State.cacheReg (s : State) (r : Nat) : State :=
  if s.link.rcache.any (fun x => x.1 = r) then s
  else
    let l := if 512 ≤ s.link.rcache.length then s.link.rcache.drop 1 else s.link.rcache
    { s with link := { s.link with rcache := l ++ [(r, s.regWords r)] } }

/-- The page-table entry of page `g` of partition `p` (R261), 0 beyond the table. -/
def State.pte (s : State) (p g : Nat) : Nat :=
  if s.regN (oPt p 2) % 2 ^ 26 ≤ g then 0
  else Memory.nat s.tierA (s.pteAddr p g) 8

/-- Tier and physical address of partition address `pa` under an entry. -/
def physAddr (pte pa : Nat) : Bool × Nat := (bitOf pte 2, fld pte 44 21 * 2 ^ 21 + pa % 2 ^ 21)

/-- The ports that hold the page-table entries of `n` region granules from `g` answer, and where `d` those that hold the granules (R59). -/
def State.extUp (s : State) (e : RegEnt) (g n : Nat) (d : Bool) : Bool :=
  (List.range n).all (fun i =>
    let pa := e.addr (g + i)
    let a := physAddr (s.pte e.part (pa / 2 ^ 21)) pa
    s.portUp false (s.pteAddr e.part (pa / 2 ^ 21)) && (!d || s.portUp a.1 a.2))

/-- The pages of `n` region granules from `g` are present, and writable where `w`. -/
def State.pagesOk (s : State) (e : RegEnt) (g n : Nat) (w : Bool) : Bool :=
  let lo := e.addr g / 2 ^ 21
  let hi := e.addr (g + n - 1) / 2 ^ 21
  n == 0 || (List.range (hi + 1 - lo)).all (fun i =>
    let t := s.pte e.part (lo + i)
    bitOf t 0 && (!w || bitOf t 1) && !frameBad t)

/-! ### Checks (R381, Table 3) -/

/-- A packet after R365: its fields and its granules. -/
structure InPkt where
  op : Nat
  msgid : Nat
  off : Nat
  total : Nat
  tg : List Nat
  grans : List Granule
  deriving DecidableEq, Repr

def InPkt.region (k : InPkt) : Nat := nthD k.tg 2 0 % 65536
/-- Region granule of message granule 0, and the granules a READ asks for. -/
def InPkt.base (k : InPkt) : Nat := nthD k.tg 3 0
def InPkt.nread (k : InPkt) : Nat := ((nthD k.grans 0 0#256).extractLsb' 0 32).toNat

/-- Message granules of a packet: those at TOTAL and above, which only fill up its last OB8 block, are not written (R386). -/
def InPkt.parts (k : InPkt) : List (Nat × Granule) :=
  ((k.grans.zipIdx).map (fun g => (k.off + g.2, g.1))).filter (fun g => decide (g.1 < k.total))

def opPermitted (e : RegEnt) (op : Nat) : Bool :=
  match op with
  | 0 => e.wr
  | 1 => e.add
  | 2 => e.add
  | 3 => e.rd
  | 5 => e.sealed
  | _ => false

/-- The aggregator's slot of a sealed round, by its ROUND (R395): the armed one, else one that is DONE or FAILED. -/
def State.sealSlot (s : State) (round : Nat) : Option Nat :=
  let mine (k : Nat) : Bool := let r := s.round k; r.agg && r.round == round
  match (List.range 8).find? (fun k => (s.round k).st == 1 && mine k) with
  | some k => some k
  | none => (List.range 8).find? (fun k => (s.round k).st != 0 && mine k)

/-- Code with which a packet is rejected. -/
def State.regReject (s : State) (p : Peer) (k : InPkt) : Option Nat :=
  let e := regEnt (s.regWords k.region)
  let w0 := nthD k.tg 0 0
  if (k.op = 4 || 5 < k.op) || s.regN oRegN % 2 ^ 17 ≤ k.region || !e.valid then some 0x67
  else if e.key ≠ nthD k.tg 1 0 ∨ e.key = 0 ∨ e.tenant ≠ fld w0 31 24 then some 0x67
  else if p.owner ≠ e.part ∧ p.owner ≠ 9 then some 0x67
  else if !opPermitted e k.op || (k.op == 5 && (s.sealSlot (nthD k.tg 4 0)).isNone) then some 0x67
  else if e.len < k.base + (if k.op = 3 then k.nread else k.total) then some 0x67
  else if e.mlen ≠ 0 ∧ e.mlen ≠ k.total then some 0x37
  else if e.ext && !(if k.op = 3 then s.pagesOk e k.base k.nread false else s.pagesOk e (k.base + k.off) k.parts.length true) then some 0x67
  else none

/-- Count a rejection (R381). -/
def State.noteReject (s : State) (region code : Nat) : State :=
  let t := { s with link := { s.link with regRej := Nat.min 0x7FFF (s.link.regRej + 1) } }
  if s.link.regLatch then t
  else ({ t with link := { t.link with regLatch := true, regLast := region } } : State).offer { code := code, unit := 10, hub := 1 }

/-! ### Deduplication (R389) -/

def State.ringAddr (s : State) (peer i : Nat) : Nat :=
  s.regN (oDedup 0) / 2 ^ 15 * 2 ^ 15 + 2 ^ 32 * (s.regN (oDedup 1) % 256) + 32768 * peer + 8 * (i % 4096)

/-- The id is in its peer's ring. -/
def State.inRing (s : State) (peer msgid : Nat) : Bool :=
  (List.range (Nat.min 4096 (Sp.get 0 s.link.dedup peer))).any (fun i => Memory.nat s.tierA (s.ringAddr peer i) 8 == msgid)

/-- The id enters the ring, and the id it replaces leaves. DESIGN CHOICE: log 131. -/
def State.toRing (s : State) (peer msgid : Nat) : State :=
  let n := Sp.get 0 s.link.dedup peer
  let gone : Option Nat := if 4096 ≤ n then some (Memory.nat s.tierA (s.ringAddr peer n) 8) else none
  { s with tierA := Memory.setNat s.tierA (s.ringAddr peer n) 8 msgid,
           link := { s.link with
             dedup := Sp.set 0 s.link.dedup peer (if 8192 ≤ n + 1 then 4096 else n + 1),
             firsts := s.link.firsts.filter (fun x => !(x.peer = peer && gone == some x.msgid)) } }

/-- Granules of a replayed WRITE with the contents its first copy brought (R391). -/
def State.asFirst (s : State) (peer msgid : Nat) (l : List (Nat × Granule)) : List (Nat × Granule) :=
  l.map (fun g => (g.1, ((s.link.firsts.find? (fun x => x.peer = peer && x.msgid = msgid && x.off = g.1)).map (·.data)).getD g.2))

/-- The first contents of a WRITE's granules are noted (R391). -/
def State.noteFirsts (s : State) (peer msgid : Nat) (l : List (Nat × Granule)) : State :=
  { s with link := { s.link with firsts := s.link.firsts ++ l.map (fun g => { peer := peer, msgid := msgid, off := g.1, data := g.2 }) } }

/-! ### Receiving a DATA packet (R365, R381, R388) -/

/-- A message in progress. -/
def State.reasmOf (s : State) (peer msgid : Nat) : Option Reasm := s.link.reasm.find? (fun r => r.peer = peer && r.msgid = msgid)

/-- Set a PSN's bit in a window and advance its base past every leading set bit. -/
def advance : Nat → Nat → Nat → Nat × Nat
  | 0, base, map => (base, map)
  | n + 1, base, map => if map.testBit 0 then advance n ((base + 1) % 2 ^ 32) (map / 2) else (base, map)

def markPsn (base map psn : Nat) : Nat × Nat :=
  let d := psnSub psn base
  if d < 256 then advance 257 base (map ||| 2 ^ d) else (base, map)

/-- Step 6 of R365. -/
def State.gotPsn (s : State) (p : Peer) (psn : Nat) (ce : Bool) : State :=
  let w := markPsn p.rxExp p.rxMap psn
  s.setPeer { p with rxExp := w.1, rxMap := w.2, ce := p.ce || (ce && p.ect) }

/-- The requests to memory of a packet's granules (R380, R384). -/
def State.extWrites (s : State) (e : RegEnt) (peer psn base : Nat) (add : Bool) (l : List (Nat × Granule)) : State :=
  l.foldl (fun (t : State) x =>
    let pa := e.addr (base + x.1)
    let a := physAddr (t.pte e.part (pa / 2 ^ 21)) pa
    t.reqMem { tierB := a.1, addr := a.2, op := if add then .add else .write, slot := toSlot x.2, owner := .region e.part peer psn,
               part := e.part, page := pa / 2 ^ 21, serial := t.memSerial }) s

/-- The ports that a packet's handling reads from answer (R59): of its region entry, its ring of ids and its page-table entries. -/
def State.passUp (s : State) (peer : Nat) (k : InPkt) : Bool :=
  let e := regEnt (s.regWords k.region)
  k.op = 4 || ((s.link.rcache.any (fun x => x.1 = k.region) || s.portUp false (s.regTable + 32 * k.region))
    && ((s.reasmOf peer k.msgid).isSome || s.rangeUp false (s.ringAddr peer 0) 32768)
    && (!e.ext || s.extUp e (if k.op = 3 then k.base else k.base + k.off) (if k.op = 3 then k.nread else k.parts.length) false))

/-- Pass a packet to its target; it waits there to become visible. DEDUCED: log 133. -/
def State.passPkt (s : State) (p : Peer) (psn : Nat) (ce : Bool) (k : InPkt) : State :=
  let ws := s.regWords k.region
  let e := regEnt ws
  let msg : Bool := k.op != 3 && k.op != 4
  let known := (s.reasmOf p.idx k.msgid).isSome
  let bad := if k.op = 4 then none else s.regReject p k
  let replay := msg && bad.isNone && !known && s.inRing p.idx k.msgid
  let stale := k.op == 5 && (match s.sealSlot (nthD k.tg 4 0) with | some i => (s.round i).st != 1 | none => true)
  let fresh := msg && bad.isNone && !known && !replay && !stale
  if fresh && decide (4096 ≤ s.link.reasm.length) then
    { s with link := { s.link with reasmDrops := Nat.min 0xFFFF (s.link.reasmDrops + 1) } }
  else
    let t := s.gotPsn p psn ce
    let t1 := match bad with
      | some code => t.noteReject k.region code
      | none => if k.op = 4 then t else t.cacheReg k.region
    let void := bad.isSome || stale || (replay && k.op != 0)
    let t2 := if fresh then
        { t1 with link := { t1.link with
          reasm := t1.link.reasm ++ [{ peer := p.idx, msgid := k.msgid, total := k.total, count := 0, part := e.part }] } }
      else t1
    let grans := if replay then s.asFirst p.idx k.msgid k.parts else k.parts
    let t3 := if k.op = 0 && !replay && !void then t2.noteFirsts p.idx k.msgid grans else t2
    let r : RxPkt := { peer := p.idx, psn := psn, msgid := k.msgid, op := k.op, total := k.total, region := k.region, ent := ws,
                       off := k.base, grans := grans, count := msg && !replay && !void, void := void,
                       round := nthD k.tg 4 0 }
    let t4 := { t3 with link := { t3.link with pend := t3.link.pend ++ [r] } }
    if !void && msg && e.ext then t4.extWrites e p.idx psn k.base (k.op != 0) grans else t4

/-- DATA_PACKET_RECEIVE (R365): a packet whose handling reads memory through a port without its clock waits (R59). -/
def execDataPacketReceive (k : Nat) (s : State) : Host.Outcome State Fault Refusal :=
  match s.takeRx k false with
  | none => .next s
  | some (x, t) =>
    match t.openPkt x with
    | .error u => .next u
    | .ok (p, pay) =>
      match wireGrans pay (hvNgran x.bytes) with
      | none => .next (match x.link with | some n => t.count (oLnkCnt n 3) | none => t)
      | some gs =>
        let psn := hvPsn x.bytes
        let d := psnSub psn p.rxExp
        if psnBelow psn p.rxExp || (decide (d < 256) && p.rxMap.testBit d) then .next (t.sendAck p.idx)
        else if 256 ≤ d then .next t
        else
          let op := hvOp x.bytes
          let data := if op = 2 then ob8Granules t.fc gs else gs
          let u := if op = 2 then { t with fc := t.fc + 8 * data.length } else t
          let q : InPkt :=
            { op := op, msgid := hvMsgid x.bytes, off := hvOff x.bytes, total := hvTotal x.bytes,
              tg := (List.range 6).map (hvTarget x.bytes), grans := data }
          .next (if t.passUp p.idx q then u.passPkt p psn x.ce q else s)

/-! ### Visibility (R366, R387, R388, R395) -/

/-- The packet's granules take effect in a local store; with it, how many of them the store accepted (R250). -/
def State.localGrans (s : State) (d : Nat) (e : RegEnt) (base : Nat) (add : Bool) (l : List (Nat × Granule)) : State × Nat :=
  l.foldl (fun (t : State × Nat) x =>
    let g := e.first + base + x.1
    let old := Memory.granule (t.1.core d).st.ls (32 * g)
    let r := t.1.inbound d g (if add then addWords old x.2 else x.2)
    (r.1, t.2 + b2n r.2)) (s, 0)

/-- Arrivals reach a counter one after the other (R247). -/
def State.arriveEach (s : State) (d ctr n : Nat) : State := (List.range n).foldl (fun (t : State) _ => t.arrive d ctr 1) s

/-- A round ends (R395): VEC is raised, and a failure is recorded. -/
def State.endRound (s : State) (k : Nat) (r : Round) (done : Bool) : State :=
  let t := (s.setRound k { r with st := if done then 2 else 3 }).irq r.vec
  if done then t else t.offer { code := 0x68, unit := 10, hub := 1 }

/-- Count the granules of a sealed packet. -/
def State.countRound (s : State) (round n : Nat) : State :=
  match s.sealSlot round with
  | none => s
  | some k =>
    let r := s.round k
    if r.st ≠ 1 then s
    else
      let c := r.count + n
      let r1 : Round := { r with count := Nat.min (2 ^ 32 - 1) c }
      if c = r.npart * r.len then s.endRound k r1 true
      else if r.npart * r.len < c then s.endRound k r1 false
      else s.setRound k r1

/-- Count `n` granules of a packet: the arrival counter, and the message's record (R388). -/
def State.countPkt (s : State) (x : RxPkt) (e : RegEnt) (n : Nat) : State :=
  match s.reasmOf x.peer x.msgid with
  | none => s
  | some r =>
    let c := r.count + n
    let full := decide (r.total ≤ c)
    let d := s.coreAt e.part (if e.ext then e.arrcore else e.core)
    let inc := if e.arrmsg then b2n full else n
    let t := match d with
      | some d => if e.arren then s.arriveEach d e.arr inc else s
      | none => s
    if full then
      let u := ({ t with link := { t.link with
        reasm := t.link.reasm.filter (fun y => y.peer ≠ x.peer || y.msgid ≠ x.msgid) } } : State).toRing x.peer x.msgid
      if 2 ^ 63 ≤ x.msgid then u.reportImage x.region x.off x.total else u
    else
      let l := t.link.reasm.map (fun (y : Reasm) => if y.peer = x.peer ∧ y.msgid = x.msgid then { y with count := c } else y)
      { t with link := { t.link with reasm := l } }

/-- The granules a READ asks for. DESIGN CHOICE: log 135. -/
def State.readRegion (s : State) (e : RegEnt) (base n : Nat) : List Granule :=
  (List.range n).map (fun i =>
    if e.ext then
      let pa := e.addr (base + i)
      let a := physAddr (s.pte e.part (pa / 2 ^ 21)) pa
      s.gran a.1 a.2
    else match s.coreAt e.part e.core with
      | some d => Memory.granule (s.core d).st.ls (32 * (e.first + base + i))
      | none => 0#256)

/-- The response to a READ goes to the requesting peer. -/
def State.answerRead (s : State) (x : RxPkt) (e : RegEnt) : State :=
  let n := ((nthD x.grans 0 (0, 0#256)).2.extractLsb' 0 32).toNat
  if n = 0 then s
  else s.addSend { id := 0, src := .reply, peer := x.peer, msgid := x.msgid, op := 4, total := n, target := [],
                   data := .held (s.readRegion e x.off n) }

/-- Granules of a response reach the local store of the core that asked (R387); one that would write a kept granule stops the transfer before it
(R250), and a stopped transfer writes no more. -/
def State.takeReply (s : State) (x : RxPkt) : State :=
  match s.link.reads.find? (fun r => r.peer = x.peer && r.msgid = x.msgid) with
  | none => s
  | some r =>
    let gs := x.grans.filter (fun g => decide (g.1 < r.nread))
    let t := gs.foldl (fun (t : State) g =>
      let d := nthD r.dst g.1 0
      if !((t.xfer r.core r.exec r.seq).any (fun y => !y.dead)) then t
      else if inKept (t.core r.core).cur.kept d then t.stopXfer r.core r.exec r.seq 0x24
      else t.updSt r.core (fun st => { st with
        ls := Memory.setGranule st.ls (32 * d) g.2, landing := st.landing.erase d })) s
    let got := r.got + gs.length
    let rds := if r.nread ≤ got then t.link.reads.filter (fun y => y.send ≠ r.send)
      else t.link.reads.map (fun (y : RdOut) => if y.send = r.send then { y with got := got } else y)
    ({ t with link := { t.link with reads := rds } } : State).answered r.core r.exec r.seq gs.length

/-- The packet's effect at its target, and how many granules of it count. -/
def State.applyPkt (s : State) (x : RxPkt) : State × Nat :=
  let e := regEnt x.ent
  if x.void then (s, 0)
  else if x.op = 4 then (s.takeReply x, 0)
  else if x.op = 3 then (s.answerRead x e, 0)
  else
    let t := if e.ext then (s, x.grans.length) else match s.coreAt e.part e.core with
      | some d => s.localGrans d e x.off (x.op != 0) x.grans
      | none => (s, x.grans.length)
    if x.count then (t.1.countPkt x e t.2, t.2) else (t.1, 0)

/-- The packet's granules can be visible: memory has acknowledged them, or the slab of the core they go to takes traffic (R31); and the ports
that making them visible reaches answer (R59). -/
def State.canShow (s : State) (x : RxPkt) : Bool :=
  let e := regEnt x.ent
  if x.void then true
  else if x.op = 4 then (match s.link.reads.find? (fun r => r.peer = x.peer && r.msgid = x.msgid) with
    | some r => s.takes r.core
    | none => true)
  else
    (!x.count || (s.portUp false (s.ringAddr x.peer (Sp.get 0 s.link.dedup x.peer))
      && (decide (x.msgid < 2 ^ 63) || s.tableUp)))
    && (if e.ext then
        (if x.op = 3 then s.extUp e x.off ((nthD x.grans 0 (0, 0#256)).2.extractLsb' 0 32).toNat true
        else !s.memq.any (fun r => match r.owner with
          | .region _ p q => p == x.peer && q == x.psn
          | _ => false))
      else match s.coreAt e.part e.core with
        | some d => s.takes d
        | none => false)

/-- A visible packet is due an ACK (R366). -/
def State.showPsn (s : State) (x : RxPkt) : State :=
  match s.peer x.peer with
  | none => s
  | some p =>
    let w := markPsn p.viExp p.viMap x.psn
    let q : Peer := { p with
      viExp := w.1, viMap := w.2, ackN := p.ackN + 1,
      ackSince := match p.ackSince with | some t => some t | none => some s.aon.tb }
    let t := s.setPeer q
    if 8 ≤ q.ackN ∨ psnBelow p.rxExp x.psn then t.sendAck x.peer else t

/-- `n` granules of a sealed packet count in its round (R395). -/
def State.sealRound (s : State) (x : RxPkt) (n : Nat) : State :=
  if x.op = 5 && x.count then s.countRound x.round n else s

/-- PACKET_VISIBLE (R366): packet `k` of those passed to their targets. DEDUCED: log 134. -/
def execPacketVisible (k : Nat) (s : State) : Host.Outcome State Fault Refusal :=
  match s.link.pend[k]? with
  | none => .next s
  | some x =>
    if !s.running || !s.canShow x then .next s
    else
      let t := { s with link := { s.link with pend := s.link.pend.eraseIdx k } }
      let a := t.applyPkt x
      .next ((a.1.sealRound x a.2).showPsn x)

/-- REMOTE_READ_TIMEOUT (R387): read `k` of those outstanding. -/
def execRemoteReadTimeout (k : Nat) (s : State) : Host.Outcome State Fault Refusal :=
  match s.link.reads[k]? with
  | none => .next s
  | some r =>
    match r.deadline with
    | none => .next s
    | some d =>
      if !s.running || !s.due d then .next s
      else
        let t := { s with link := { s.link with reads := s.link.reads.eraseIdx k } }
        if ((t.core r.core).run.fq ++ (t.core r.core).run.eq).any (fun y => y.seq = r.seq) then .next (t.stopXfer r.core r.exec r.seq 0x6A)
        else .next ((t.dropLog r.core).haltCore r.core { code := 0x6A, unit := 7 })

/-! ### Waits for a stretch pair (R226) -/

/-- Counter `ctr` of core `c` counts the arrivals of a region registered for messages of one length, as a stretch pair's is. DESIGN CHOICE:
log 152. -/
def State.pairWait (s : State) (c ctr : Nat) : Bool :=
  (List.range (s.regN oRegN % 2 ^ 17)).any (fun r =>
    let e := regEnt (s.regWords r)
    e.valid && e.arren && e.mlen != 0 && e.arr == ctr && s.partOf c == some e.part && s.pidx c == (if e.ext then e.arrcore else e.core))

/-- AWAIT_TIMEOUT (R226, R247): the timeout of an arrival wait expires and the wait returns a timeout status; that of a wait for a stretch pair
records 0x36 and halts the core's issue. -/
def execAwaitTimeout (c : CoreNo) (s : State) : Host.Outcome State Fault Refusal :=
  if s.aon.refLost then .next s
  else match s.onCoreFree c.val awaitTimeout with
    | .next t => (match (s.core c.val).run.wait, (t.core c.val).run.wait with
      | some (.arrive ctr _ _ _), none =>
        .next (if s.pairWait c.val ctr then t.haltCore c.val { code := 0x36, unit := 0, tag := (s.core c.val).run.lastTag } else t)
      | _, _ => .next t)
    | x => x

/-! ### Registers of regions, seeds and rounds (R379, R392, R393, R397) -/

/-- REGCMD_INVAL (R379): the packets that hold the entry may still use it. -/
def execRegcmdInval (req : Requester) (region : W16) (all : Bool) (s : State) : Host.Outcome State Fault Refusal :=
  if !s.byHost req then .next s
  else .next { s with link := { s.link with
    regDone := false, rcache := if all then [] else s.link.rcache.filter (fun x => x.1 ≠ region.toNat),
    pend := s.link.pend.map (fun x => { x with old := x.old || all || x.region == region.toNat }) } }

/-- REGCMD_DONE (R379): no packet holds an entry read before the invalidation, and later accesses use the table. -/
def execRegcmdDone (s : State) : Host.Outcome State Fault Refusal :=
  if s.running && !s.link.pend.any (·.old) then .next { s with link := { s.link with regDone := true } } else .next s

def State.setSeed (s : State) (k : Nat) (v : Option Nat) : State :=
  { s with link := { s.link with seeds := Sp.set none s.link.seeds k v } }

/-- SEEDCMD_LOAD (R392). -/
def execSeedcmdLoad (req : Requester) (slot : BitVec 7) (s : State) : Host.Outcome State Fault Refusal :=
  if !s.byHost req then .next s
  else
    let r := s.takeData oSeedData
    .next (r.2.setSeed slot.toNat (some r.1))

/-- SEEDCMD_ERASE (R392). -/
def execSeedcmdErase (req : Requester) (slot : BitVec 7) (s : State) : Host.Outcome State Fault Refusal :=
  if s.byHost req then .next (s.setSeed slot.toNat none) else .next s

/-- SEALCMD_LOAD (R393): the 128 bytes are the round record read from host memory. -/
def execSealcmdLoad (req : Requester) (slot : BitVec 3) (data : List Byte) (s : State) : Host.Outcome State Fault Refusal :=
  if !s.byHost req || data.length != 128 || !s.hostUp then .next s
  else
    let k := slot.toNat
    let w1 := bytesAt data 4 4
    let round := bytesAt data 0 4
    let npart := fld w1 6 0
    let self := fld w1 13 8
    let seeds := (List.range npart).map (fun j => bytesAt data (0x40 + j) 1 % 128)
    let armed (i : Nat) : Bool := (s.round i).st == 1
    let bad := decide (npart < 3) || decide (64 < npart) || decide (npart ≤ self) || round == 0
      || (List.range 8).any (fun i => i != k && armed i && (s.round i).round == round)
      || (seeds.zipIdx).any (fun x => x.2 != self && (Sp.get none s.link.seeds x.1).isNone) || armed k
    let t := { s with link := { s.link with sealResult := bad } }
    if bad then .next t
    else
      let dl := bytesAt data 0x0C 4
      .next (t.setRound k
        { st := 1, round := round, npart := npart, agg := bitOf w1 7, self := self, vec := fld w1 19 14, len := bytesAt data 8 4,
          deadline := if dl = 0 ∨ !bitOf w1 7 then none else some (s.aon.tb + s.us dl), seeds := seeds })

/-- SEALCMD_CLEAR (R393). -/
def execSealcmdClear (req : Requester) (slot : BitVec 3) (s : State) : Host.Outcome State Fault Refusal :=
  if s.byHost req then .next (({ s with link := { s.link with sealResult := false } } : State).setRound slot.toNat {}) else .next s

/-- SEAL_DEADLINE (R395). -/
def execSealDeadline (slot : BitVec 3) (s : State) : Host.Outcome State Fault Refusal :=
  let r := s.round slot.toNat
  match r.deadline with
  | some d => if r.st = 1 && r.agg && s.running && s.due d then .next (s.endRound slot.toNat r false) else .next s
  | none => .next s

end Sys2Proof.Machine
end

