-- ==== Sys2Proof/Machine/Update.lean ====
section
/-! DEFINITION. Machine/Update.lean: the update engine (R338 to R350). -/

namespace Sys2Proof.Machine

/-! ### One parameter (R343) -/

/-- Square root, exact for every rounding to at most `p` bits; of a negative number a NaN. -/
def FV.sqrt (p : Nat) : FV → FV
  | .nan => .nan
  | .inf n => if n then .nan else .inf false
  | .fin n m e =>
    if m = 0 then .fin n 0 0
    else if n then .nan
    else
      let s := 2 * (p + 3) + (if (e : Int) % 2 = 0 then 0 else 1)
      let x := m <<< s
      let q := Nat.sqrt x
      .fin false (2 * q + (if q * q = x then 0 else 1)) ((e - (s : Int)) / 2 - 1)

/-- One RNE rounding to FP32. -/
def r32 (x : FV) : FV := (FFmt.fp32.round .rne x).1

/-- The rule's constants and the step's. -/
structure RuleK where
  sgdm : Bool
  lr : FV
  b1 : FV
  c1 : FV
  b2 : FV
  c2 : FV
  eps : FV
  wd : FV
  k1 : FV
  k2 : FV
  /-- F + LS -/
  sh : Int
  deriving DecidableEq, Repr

/-- The update of one parameter from the accumulated gradient `a`, the master, and the moments: the new three. -/
def updParam (k : RuleK) (a : Int) (w m v : FV) : FV × FV × FV :=
  let plus := FV.add .rne
  let g := r32 ((FV.ofInt a).scale (-k.sh))
  let m1 := if k.sgdm then r32 (plus (FV.mul k.b1 m) g) else r32 (plus (FV.mul k.b1 m) (FV.mul k.c1 g))
  let v1 := if k.sgdm then v else r32 (plus (FV.mul k.b2 v) (FV.mul k.c2 (r32 (FV.mul g g))))
  let e := r32 (plus (r32 (FV.sqrt 24 (r32 (FV.mul v1 k.k2)))) k.eps)
  let u := if k.sgdm then m1 else r32 (FV.div 24 (r32 (FV.mul m1 k.k1)) e)
  (r32 (FV.sub .rne w (FV.mul k.lr (r32 (plus u (FV.mul k.wd w))))), m1, v1)

/-- 48-bit accumulation, modulo 2^48. -/
def accAdd (acc led : Nat) : Nat := wrap 48 (sext 48 acc + sext 32 led)

/-! ### A page -/

/-- Where page `p` of the shard lies in tier B (R339), and its ledger slot in tier A (R342). -/
def State.ledgerSlot (s : State) (p : Nat) : Nat := if s.nslotL = 0 then 0 else p % s.nslotL
def State.slotAddr (s : State) (p : Nat) : Nat := s.lbase + s.ledgerSlot p * slotBytes

def ruleOf (u : Upd) (l : Layer) : RuleK :=
  let c (i : Nat) : FV := (FFmt.fp32.read (nthD l.k i 0#32).toNat).1
  { sgdm := l.sgdm, lr := c 0, b1 := c 1, c1 := c 2, b2 := c 3, c2 := c 4, eps := c 5, wd := c 6,
    k1 := (FFmt.fp32.read u.k1.toNat).1, k2 := (FFmt.fp32.read u.k2.toNat).1, sh := u.f + u.ls }

/-- Update parameter `i` of page `p` in tier B, `led` being its ledger value. -/
def paramStep (u : Upd) (k : RuleK) (p led i : Nat) (m : Memory) : Memory :=
  let am := u.mbase + p * 2 ^ 21 + 4 * i
  let a1 := u.m1base + p * 2 ^ 20 + 2 * i
  let a2 := u.m2base + p * 2 ^ 20 + 2 * i
  let aa := u.abase + p * (3 * 2 ^ 20) + 6 * i
  let a := accAdd (Memory.nat m aa 6) led
  if u.apply then
    let r := updParam k (sext 48 a) (FFmt.fp32.read (Memory.nat m am 4)).1 (FFmt.bf16.read (Memory.nat m a1 2)).1
      (FFmt.bf16.read (Memory.nat m a2 2)).1
    let m1 := Memory.setNat m am 4 (FFmt.fp32.write .rne r.1).1
    let m2 := Memory.setNat m1 a1 2 (FFmt.bf16.write .rne r.2.1).1
    let m3 := Memory.setNat m2 a2 2 (FFmt.bf16.write .rne r.2.2).1
    Memory.setNat m3 aa 6 0
  else Memory.setNat m aa 6 a

/-- The working image of page `p` from its master (R344): elements, then exponents. -/
def pageImage (u : Upd) (l : Layer) (m : Memory) (p : Nat) : List Byte :=
  let w (i : Nat) : FV := (FFmt.fp32.read (Memory.nat m (u.mbase + p * 2 ^ 21 + 4 * i) 4)).1
  if l.wfmt = 1 then (List.range pageParams).flatMap (fun i => natBytes 2 (FFmt.bf16.write .rne (w i)).1)
  else if l.wfmt = 2 then (List.range pageParams).flatMap (fun i => natBytes 2 (FFmt.fp16.write .rne (w i)).1)
  else
    let k : ObKind := { four := l.wfmt == 5, uns := l.sgn, blk32 := l.blk }
    let n := k.block
    let bs := (List.range (pageParams / n)).map (fun b => k.encodeBlock ((List.range n).map (fun i => w (n * b + i))))
    let es := bs.flatMap (fun b => b.2.1.map k.bits)
    let plane := if k.four then (List.range (pageParams / 2)).map (fun i => BitVec.ofNat 8 (nthD es (2 * i) 0 + 16 * nthD es (2 * i + 1) 0))
      else es.map (BitVec.ofNat 8)
    plane ++ bs.map (fun b => BitVec.ofNat 8 b.1)

/-- Send the image of page `j` of a layer to every chip, from its shard image (R344). -/
def State.sendImage (s : State) (l : Layer) (j : Nat) : State :=
  let u := s.upd
  let n := l.imgBytes / 32
  u.chips.foldl (fun (t : State) c =>
    let id := 2 ^ 63 + t.upd.seq % 2 ^ 63
    ({ t with upd := { t.upd with seq := (t.upd.seq + 1) % 2 ^ 63 } } : State).addSend
      { id := 0, src := .update, peer := c.peer, msgid := id, op := 0, total := n,
        target := [2 ^ 24 * c.tenant, c.key, c.region, l.woff + (u.chip * l.npages + j) * n, 0, 0],
        data := .image (l.sibase + j * l.imgBytes) }) s

/-- A step ends before its next layer with a code (R341, R342). -/
def State.updEndWith (s : State) (code : Nat) (info : Option Nat := none) : State :=
  ({ s with upd := { s.upd with result := code } } : State).offer { code := code, unit := 10, hub := 3, info0 := info }

/-- Drain the slot of page `p` of a layer, and its arrival word; one that holds more than its contributions records 0x1E, and the step ends before
the next layer (R342). -/
def State.drainSlot (s : State) (l : Layer) (p : Nat) : State :=
  let excess := decide (l.expect * contribution < s.arrivedOf (s.ledgerSlot p))
  let t : State := { s with tierA := Sp.clear (Sp.clear s.tierA (s.slotAddr p) slotBytes) (s.arrAddr (s.ledgerSlot p)) 4 }
  if excess then t.updEndWith 0x1E else t

/-- An audited page is compared with its shard image (R348). -/
def State.auditPage (s : State) (l : Layer) (j : Nat) : State :=
  let u := s.upd
  let period := s.regN oAudit % 65536
  let n := u.audit + 1
  if period = 0 then s
  else if n < period then { s with upd := { u with audit := n } }
  else
    let t := { s with upd := { u with audit := 0 } }
    let img := pageImage u l s.tierB (l.first + j)
    if lsBytesAt s.tierB (l.sibase + j * l.imgBytes) l.imgBytes = img then t
    else ({ t with upd := { t.upd with mismatch := Nat.min 0xFFFF (u.mismatch + 1) } } : State).offer
      { code := 0x1D, unit := 10, hub := 3, info0 := some (l.first + j) }

/-- Page `j` of a layer (R343, R344). -/
def State.updPage (s : State) (l : Layer) (j : Nat) : State :=
  let u := s.upd
  let p := l.first + j
  let t := if u.apply then s.auditPage l j else s
  let a := t.slotAddr p + 0x1000
  let m := (List.range pageParams).foldl (fun m i => paramStep u (ruleOf u l) p (Memory.nat t.tierA (a + 4 * i) 4) i m) t.tierB
  if u.apply then
    let img := pageImage u l m p
    (({ t with tierB := lsPut m (l.sibase + j * l.imgBytes) img } : State).sendImage l j).drainSlot l p
  else ({ t with tierB := m } : State).drainSlot l p

/-! ### Commands -/

/-- The engine reads the table, and a bad one ends the step before any page (R341). -/
def State.readStep (s : State) : State :=
  let u := s.upd.readTable s.tierA s.updBase
  let t : State := { s with upd := { u with reading := false } }
  if s.nslotL = 0 || tableBad s.tierA s.updBase u then t.updEndWith 0x1F else t

/-- The table is read once the clocks of tier A's ports run (R59). -/
def State.readWhenUp (s : State) : State := if s.upd.reading && s.tierUp false then s.readStep else s

/-- UPDCMD_START (R341, R350): the engine reads its table. -/
def execUpdcmdStart (req : Requester) (apply : Bool) (s : State) : Host.Outcome State Fault Refusal :=
  if !s.byHost req || s.upd.busy then .next s
  else .next ({ s with upd := { s.upd with
    busy := true, reading := true, apply := apply, skipped := false, result := 0, next := 0, layers := [],
    ls := sext 8 (s.regN oLoss % 256) } } : State).readWhenUp

/-- A layer's pages are ready: each arrival word has reached its value (R342). -/
def State.layerReady (s : State) (l : Layer) : Bool :=
  (List.range l.npages).all (fun j => decide (l.expect * contribution ≤ s.arrivedOf (s.ledgerSlot (l.first + j))))

/-- The sum of ANY over a layer's pages (R345). -/
def State.layerAny (s : State) (l : Layer) : Nat :=
  ((List.range l.npages).map (fun j => Memory.nat s.tierA (s.slotAddr (l.first + j)) 4)).sum % 2 ^ 32

/-- A skipped layer (R345): accumulators zero, slots drained; without APPLY its SKIP is set in the table. -/
def State.skipLayer (s : State) (l : Layer) (i : Nat) : State :=
  let u := s.upd
  let t := (List.range l.npages).foldl (fun (t : State) j => t.drainSlot l (l.first + j)) s
  let a := s.updBase + layerOff u.nchip i + 48
  { t with
    tierB := Sp.clear t.tierB (u.abase + l.first * (3 * 2 ^ 20)) (l.npages * (3 * 2 ^ 20)),
    tierA := if u.apply then t.tierA else Memory.setNat t.tierA a 4 (Memory.nat t.tierA a 4 / 2 * 2 + 1),
    upd := { t.upd with skipped := true, drained := t.upd.drained ++ [i] } }

/-- UPDATE_LAYER_START (R342 to R345): the next layer, every page of it ready, is processed; paced work (R53, R55), whose accesses wait for the
ports' clocks (R59). -/
def execUpdateLayerStart (s : State) : Host.Outcome State Fault Refusal :=
  let u := s.upd
  match u.layers[u.next]? with
  | none => .next s
  | some l =>
    if !s.running || s.pwr.hold || !u.busy || u.reading || u.result != 0 || !s.tierUp false || !s.tierUp true || !s.layerReady l then .next s
    else
      let skip := u.skipped || s.layerAny l != 0 || (u.apply && l.skip)
      let t : State := { s with upd := { u with next := u.next + 1, layer := u.next } }
      .next (if skip then t.skipLayer l u.next else (List.range l.npages).foldl (fun (t : State) j => t.updPage l j) t)

/-- Granules of a layer's images on a chip (R346). -/
def layerTotal (u : Upd) (l : Layer) : Nat := u.nchip * l.npages * (l.imgBytes / 32)

/-- Post 1 to SEM on every core of PART (R272, R346). -/
def State.postLayer (s : State) (l : Layer) : State :=
  let n := s.upd.nposts
  let ps := (List.range (32 * ((s.partEnt l.part).map (·.size)).getD 0)).map (fun i =>
    ({ src := 65536, tag := 0, region := n, ordinal := i, part := l.part, dst := i, sp := 71, dp := s.slabAt l.part i, sem := l.sem, cnt := 1 } : PostMsg))
  { s with posts := s.posts ++ ps, upd := { s.upd with nposts := n + 1 } }

/-- LAYER_UPDATE_COMPLETE (R346): the layer's images have arrived, or it was skipped and its slots are drained. -/
def execLayerUpdateComplete (layer : W16) (s : State) : Host.Outcome State Fault Refusal :=
  let i := layer.toNat
  let u := s.table
  match u.layers[i]? with
  | none => .next s
  | some l =>
    let n := layerTotal u l
    let a := Sp.get 0 s.upd.arrived i
    if !s.running || !s.tableUp then .next s
    else if s.upd.drained.contains i then .next (({ s with upd := { s.upd with drained := s.upd.drained.erase i } } : State).postLayer l)
    else if n ≠ 0 ∧ n ≤ a then .next (({ s with upd := { s.upd with arrived := Sp.set 0 s.upd.arrived i (a - n) } } : State).postLayer l)
    else .next s

/-- LS and CLEAN at the end of a step (R347). -/
def State.lossEnd (s : State) : State :=
  let v := s.regN oLoss
  let ls := sext 8 (v % 256)
  let lsmax := sext 8 (fld v 15 8)
  let grow := fld v 31 16
  let put (t : State) (x : Int) : State := t.setRegN oLoss (v / 256 * 256 + wrap 8 x)
  if s.upd.skipped then (put s (if ls - 1 < -126 then -126 else ls - 1)).setRegN oLossRun 0
  else
    let n := (s.regN oLossRun + 1) % 2 ^ 32
    if grow ≠ 0 ∧ grow ≤ n then (put s (if lsmax < ls + 1 then lsmax else ls + 1)).setRegN oLossRun 0
    else s.setRegN oLossRun n

/-- An APPLY step clears SKIP in every record (R345). -/
def State.clearSkip (s : State) : State :=
  (List.range s.upd.layers.length).foldl (fun (t : State) i =>
    let a := s.updBase + layerOff s.upd.nchip i + 48
    { t with tierA := Memory.setNat t.tierA a 4 (Memory.nat t.tierA a 4 / 2 * 2) }) s

/-- UPDATE_STEP_END (R345, R347): every layer is processed, or a code ended the step. -/
def execUpdateStepEnd (s : State) : Host.Outcome State Fault Refusal :=
  let u := s.upd
  if !s.running || !u.busy || u.reading || !s.tierUp false || (u.result == 0 && decide (u.next < u.layers.length)) then .next s
  else
    let t := (if u.apply then s.clearSkip else s).lossEnd
    .next { t with upd := { t.upd with busy := false } }

end Sys2Proof.Machine
end

