-- ==== Sys2Proof/Machine/RegRead.lean ====
section
/-! DEFINITION. Machine/RegRead.lean: what a read of control space returns: every register of the Register map (R509 to R511) in the
layout of its own chapter. -/

namespace Sys2Proof.Machine

/-- A word from its fields: value and lowest bit of each. -/
def packed (l : List (Nat × Nat)) : Nat := (l.map (fun x => x.1 * 2 ^ x.2)).sum

/-- A word-indexed table of registers: the index of offset `o` in `n` entries of `stride` bytes from `base`, and the offset in the
entry. -/
def slotOf (base stride n o : Nat) : Option (Nat × Nat) :=
  if base ≤ o ∧ o < base + stride * n then some ((o - base) / stride, (o - base) % stride) else none

/-! ### Global region (Table 2 of Register map) -/

/-- GLB_FEAT0 to GLB_FEAT7 (R294). -/
def State.featWord (s : State) (k : Nat) : Nat :=
  let mapped := (List.range 64).filterMap s.phys
  match k with
  | 0 => packed [(1, 0), (b2n s.v64, 8), (b2n s.otp.sh.o2, 9), (mapped.length, 16),
      (((List.range 68).filter (fun p => (s.role p).st == .spare)).length, 24)]
  | 1 => packed [(8, 0), (0x400, 4), (0x10, 16), (0x10, 21)]
  | 2 => packed [(0x1000, 0), (0x10000, 13)]
  | 3 => packed [(0x400, 0), (0x8000, 16)]
  | 4 => packed [(0xC, 0), (0x4000, 4), (0x100, 19)]
  | 5 => packed [(0x80, 0), (0x400, 8), (0x1000, 19)]
  | 6 => packed [((mapped.map (fun p => ((List.range 32).map (fun i =>
      let x := (s.core (32 * p + i)).st
      b2n (x.bypA.getLsbD 3) + b2n (x.bypB.getLsbD 3))).sum)).sum, 0), (8, 13), (0x10, 17)]
  | _ => packed [(0x40, 0), (2, 8)]

/-- GLB_LSLABk (Table 6 of Block organisation). -/
def State.lslabWord (s : State) (k : Nat) : Nat :=
  packed ((List.range 4).map (fun i => ((s.phys (4 * k + i)).getD 0xFF, 8 * i)))

/-- GLB_SQp and GLB_CQp (Tables 7 and 8 of Programming model): word `w` of the eight. -/
def Ring.word (r : Ring) (w : Nat) : Nat :=
  match w with
  | 0 => r.sqBase % 2 ^ 32
  | 1 => r.sqBase / 2 ^ 32 % 2 ^ 32
  | 2 => packed [(r.sqSize, 0), (b2n r.sqErr, 4)]
  | 3 => packed [(r.sqTail, 0), (r.sqHead, 16)]
  | 4 => r.cqBase % 2 ^ 32
  | 5 => r.cqBase / 2 ^ 32 % 2 ^ 32
  | 6 => packed [(r.cqSize, 0), (b2n r.cqErr, 4)]
  | _ => packed [(r.cqHead, 0), (r.cqTail, 16)]

/-- GLB_PLSLOTk (Table 17 of Castings and platings). -/
def State.plslotWord (s : State) (k : Nat) : Nat :=
  match Sp.get none s.cast.slots k with
  | none => 0
  | some i => packed [(1, 0), (b2n ((List.range 8).any (fun p => Sp.get 0 s.cast.act p = k + 1)), 1), (i.scope, 8), (i.id % 65536, 16)]

/-- GLB_SUBSTAT (Table 13 of Faults and recovery): a slab whose map has changed is being extracted and installed. DEDUCED: log 63. -/
def State.substWord (s : State) : Nat :=
  packed [(b2n s.subst.isSome, 0), (s.substResult, 1), (match s.subst with | none => 0 | some o => if o.moved then 3 else 1, 4)]

/-- The global region. -/
def State.readGlobal (s : State) (o : Nat) : Nat :=
  if o = 0 then packed [(0x0A5E, 16), (3, 8), (1, 0)]
  else match slotOf 0x100 4 8 o with
  | some (k, _) => s.featWord k
  | none => match slotOf 0x400 4 16 o with
  | some (k, _) => s.lslabWord k
  | none => match slotOf 0x600 0x20 8 o with
  | some (p, w) => (s.ring p).word (w / 4)
  | none => match slotOf 0x820 4 8 o with
  | some (k, _) => s.plslotWord k
  | none => match slotOf 0xA20 4 3 o with
  | some (k, _) => packed ((s.boot.stFail.filter (fun p => p / 32 = k)).map (fun p => (1, p % 32)))
  | none => match o with
  | 0x440 => s.mapgen % 2 ^ 32
  | 0x580 => packed [(b2n s.ptinv.isEmpty, 31)]
  | 0x814 => packed [(b2n s.cast.busy.isSome, 0), (b2n s.cast.loaded, 1), (b2n s.cast.clamp, 2), (s.cast.result, 8), (s.cast.sect, 16)]
  | 0x818 => if s.cast.loaded then s.cast.img.id else 0
  | 0x840 => packed [(b2n s.cast.sw.isSome, 16), (s.cast.swResult, 24)]
  | 0x844 => packed ((List.range 8).map (fun p => (Sp.get 0 s.cast.act p, 4 * p)))
  | 0x900 => packed [(s.recovCnt, 0), (s.substCnt, 24)]
  | 0x914 => s.substWord
  | 0xA00 => packed [(b2n s.boot.init, 0), (s.boot.cause, 1)]
  | 0xA14 => packed [(b2n s.boot.stActive, 0), (b2n s.boot.stDone, 1), (s.boot.stResult, 2), (s.boot.stPhase, 5), (s.boot.stNfail, 8)]
  | _ => s.regN o

/-! ### Always-on domain, OTP, power, management -/

/-- AON_DLk (Tables 6 and 7 of Always-on domain). -/
def Dl.word (d : Dl) (w : Nat) : Nat :=
  match w with
  | 0 => d.cmp % 2 ^ 32
  | 1 => d.cmp / 2 ^ 32 % 2 ^ 32
  | 2 => packed [(b2n d.arm, 0), (b2n d.wake, 1), (b2n d.irq, 2), (b2n d.fired, 3), (d.owner, 4), (d.vec, 8)]
  | _ => 0

/-- AON_SCk (Table 8): a written ARM reads as 1 from the write on (R447). DEDUCED: log 61. -/
def Sc.word (d : Sc) (w : Nat) : Nat :=
  match w with
  | 0 => packed [(b2n (d.arm || d.held), 0), (b2n d.wake, 1), (b2n d.irq, 2), (b2n d.fired, 3), (b2n d.dir, 4), (d.owner, 5), (d.vec, 9)]
  | 1 => packed [(d.thresh.toNat, 0), (d.hyst, 16)]
  | _ => 0

/-- AON_WAKE (Table 9). -/
def Aon.wakeWord (a : Aon) : Nat :=
  packed [(b2n a.wDl, 0), (b2n a.wSc, 1), (b2n a.wHost, 2), (b2n a.wLink, 3), (b2n a.linkWake, 4), (b2n a.vecEn, 5), (a.vec, 6)]

/-- The always-on region, but for AON_TBLO. -/
def State.readAon (s : State) (req : Requester) (o : Nat) : Nat :=
  match slotOf 0x00100100 0x10 16 o with
  | some (k, w) => (s.dlNow k).word (w / 4)
  | none => match slotOf 0x00100200 0x10 4 o with
  | some (k, w) => (s.sc k).word (w / 4)
  | none => match o with
  | 0x00100004 => (match req with | .host => s.aon.capHost | .mgmt => s.aon.capMgmt).toNat
  | 0x0010000C => packed [(b2n s.aon.refLost, 0), (b2n s.aon.venv, 1)]
  | 0x00100300 => s.aon.wakeWord
  | _ => s.regN o

/-- The OTP shadow region (R464). -/
def State.readOtp (s : State) (o : Nat) : Nat :=
  match slotOf 0x00201000 4 1024 o with
  | some (k, _) => Memory.nat s.otp.raw (4 * k) 4
  | none => match o with
  | 0x00200000 => packed ([(b2n s.otp.loaded, 0), (b2n s.otp.sh.locked, 15)] ++ s.otp.sh.fail.map (fun f => (1, f + 1))
      ++ s.otp.sh.skip.map (fun f => (1, f + 8)) ++ (s.otp.sh.gens.zipIdx).map (fun x => (x.1.getD 0, 2 * x.2 + 16)))
  | 0x00200004 => s.otp.sh.serial % 2 ^ 32
  | 0x00200008 => s.otp.sh.serial / 2 ^ 32 % 2 ^ 32
  | 0x00200014 => packed [(b2n s.otp.pgm.isSome, 0), (s.otp.result, 1), (s.otp.gen, 4)]
  | _ => 0

/-- The power and ageing region. DEDUCED: log 62. -/
def State.readPwr (s : State) (o : Nat) : Nat :=
  let p := s.pwr
  match slotOf 0x00300300 4 9 o with
  | some (k, _) => let x := s.sensor k; packed [(x.val.toNat, 0), (b2n x.seen, 16), (b2n x.stale, 17)]
  | none => match o with
  | 0x00300000 => packed [(p.req, 0), (p.fwd, 16), (b2n (decide (p.req < p.fwd)), 26), (b2n (decide (s.vmaxEff < p.req) && decide (p.fwd < p.req)), 27)]
  | 0x00300004 => packed [(s.floor, 0), (s.vmaxEff, 16)]
  | 0x0030000C => packed [(s.otp.sh.vmax, 0), (s.otp.sh.ttrip, 10), (s.otp.sh.pceil, 18)]
  | 0x00300010 => p.ceilReq
  | 0x00300020 => packed [(wrap 11 p.temp, 0), (b2n p.quench, 11), (b2n p.cool, 12), (b2n p.inval, 13), (p.trips, 16)]
  | 0x00300044 => packed [(b2n s.temper.busy, 0), (s.temper.result, 1), (s.temper.last, 4), (s.temper.newOff, 11), (s.temper.newFloor, 16)]
  | 0x00300100 => packed [(p.level, 0), (b2n (decide (p.level ≠ 0)), 4), (b2n p.hold, 5), (s.ceiling, 8)]
  | 0x00300104 => p.est.toNat
  | 0x00300108 => p.windows.toNat
  | 0x00300204 => packed [(p.ps, 0), (b2n (decide (p.step ≠ .none_)), 2), (p.psResult, 3)]
  | _ => s.regN o

/-- The management region. -/
def State.readMgt (s : State) (o : Nat) : Nat :=
  let m := s.mgmt
  match slotOf 0x00410000 0x20 512 o with
  | some (i, w) => (Sp.get 0#32 s.fq.words (8 * i + w / 4)).toNat
  | none => match o with
  | 0x00400000 => packed [(b2n m.run, 0), (m.cause, 1)]
  | 0x00400014 => packed [(m.ldResult, 2), (b2n m.load.isSome, 4)]
  | 0x00400020 => m.ifver.toNat
  | 0x00400034 => m.cmdArg.toNat
  | 0x00400038 => packed [(b2n m.cmdBusy, 0), (m.cmdResult, 1)]
  | 0x00400048 => packed [(s.regN o, 0), (m.logDrop, 16)]
  | 0x0040004C => packed [(m.logHead, 0), (m.logTail, 16)]
  | 0x00400100 => packed [(s.fq.count, 0), (b2n s.fq.ovf, 10), (s.fq.lost, 16)]
  | 0x00400104 => packed [(s.fq.head, 0), ((s.fq.head + s.fq.count) % 512, 16)]
  | 0x00400110 => packed [(b2n m.endResult, 11)]
  | _ => s.regN o

/-! ### Links and hubs (Table 3 of Register map) -/

/-- SLB_PATINA and SLB_TEMPER, or those of a hub (Tables 10 and 11 of Ageing and hard limits). -/
def UnitAge.patina (a : UnitAge) : Nat := packed [(wrap 11 a.drift, 0), (b2n a.cfail, 11), (a.auto, 12), (a.rcount.toNat, 16)]
def UnitAge.temperWord (a : UnitAge) : Nat :=
  packed [(a.offset, 0), (a.floor, 5), (wrap 11 a.tdrift, 15), (a.pend, 26), (b2n (a.heldOff.isSome || a.heldFloor.isSome), 31)]

/-- Path entry word `k` that LNK_PATHIDX of link `n` selects (R361, Table 18 of Chip link transport). -/
def State.pathKey (s : State) (n k : Nat) : Nat := n * 16384 + s.regN (oPathIdx n) % 1024 * 16 + k

/-- A link engine's window. -/
def State.readLink (s : State) (n o : Nat) : Nat :=
  match slotOf 0x40 4 16 o with
  | some (k, _) => (Sp.get 0#32 s.link.paths (s.pathKey n k)).toNat
  | none => if o = 0 then packed [(s.regN (oLnkCtrl n) % 4, 0), (b2n (s.link.up.contains n), 2)] else s.regN (linkBase n + o)

/-- HUB_STRGEOp (Tables 10 to 12 of Streams and stretches). -/
def State.geoWord (s : State) (p w : Nat) : Nat :=
  match s.geo p with
  | none => 0
  | some g => match w with
    | 0 => packed [(g.entBase, 0), (g.entCount, 12)]
    | 1 => packed [(g.regBase / 32, 0), (g.slots, 10), (g.nslot / 32, 21)]
    | 2 => packed [(g.idFirst, 0), (g.idLast, 16)]
    | _ => g.reswait

/-- Hub 0's window. -/
def State.readHub0 (s : State) (o : Nat) : Nat :=
  match slotOf 0x8100 0x10 8 o with
  | some (p, w) => s.geoWord p (w / 4)
  | none => match slotOf 0x10000 0x20 4096 o with
  | some (e, w) => nthD (s.entWords (s.ent e)) (w / 4) 0
  | none => match o with
  | 0x8014 => packed [(s.str.result, 0), (b2n s.str.done, 3), (s.str.lastId, 16)]
  | 0x8018 => packed [(s.str.miss.length, 0), (s.str.miss.headD 0, 16)]
  | 0xC004 => packed [(b2n (s.lost.contains .host), 0), (s.regN oTerr / 65536, 16)]
  | _ => s.regN (hubBase 0 + o)

/-- Hub 1's window. Key and seed data are write only (R372, R392); a read at an offset that HUB_KEYDATA4 to HUB_KEYDATA7 share with the
counters of Table 17 returns the counter. DEDUCED: log 140. -/
def State.readHub1 (s : State) (o : Nat) : Nat :=
  let l := s.link
  match slotOf 0xA040 4 4 o with
  | some _ => 0
  | none => match slotOf 0xB040 4 8 o with
  | some _ => 0
  | none => match slotOf 0xB080 4 8 o with
  | some (k, _) => packed [((s.round k).st, 0), (b2n (s.round k).agg, 2)]
  | none => match slotOf 0xB0A0 4 8 o with
  | some (k, _) => (s.round k).count
  | none => match o with
  | 0xA024 => packed [(l.peerResult, 0), (b2n l.peerDone, 3), (s.freeLines, 4), (l.miss.length, 16)]
  | 0xB00C => packed [(b2n l.regDone, 31)]
  | 0xB01C => packed [(l.reasm.length, 0), (l.reasmDrops, 16)]
  | 0xB020 => packed [(l.regRej, 0), (b2n l.regLatch, 15), (l.regLast, 16)]
  | 0xB068 => packed [(b2n l.sealResult, 8)]
  | _ => s.regN (hubBase 1 + o)

/-- HUB_MPSTAT (Table 7 of Ports and integration). -/
def State.mpstat (s : State) (tierB : Bool) : Nat :=
  packed ((List.range 16).map (fun n => (b2n (s.lost.contains (memPort tierB n)), n)) ++ [(b2n (s.tierOn tierB), 16)])

/-- A hub's window. -/
def State.readHub (s : State) (h o : Nat) : Nat :=
  if o = 0x100 then (s.age (68 + h)).patina
  else if o = 0x104 then (s.age (68 + h)).temperWord
  else match h with
  | 0 => s.readHub0 o
  | 1 => s.readHub1 o
  | _ =>
    if o = 0xC004 then s.mpstat (h == 3)
    else if h = 3 ∧ o = 0x9014 then packed [(b2n s.upd.busy, 0), (b2n s.upd.skipped, 1), (s.upd.result, 8), (s.upd.layer, 16)]
    else if h = 3 ∧ o = 0x9020 then packed [(s.regN oAudit % 65536, 0), (s.upd.mismatch, 16)]
    else s.regN (hubBase h + o)

/-! ### Slabs and cores (Table 4 of Register map) -/

/-- The first words of a slab's window; PART is valid for a partition of the loaded casting (R28). -/
def State.readSlab (s : State) (l o : Nat) : Nat :=
  match o with
  | 0x0 => let p := slabPlace l; packed [(p.1, 0), (p.2, 4), (l, 8)]
  | 0x10 =>
    let r := s.role l
    let p := r.part.filter (fun p => (s.partEnt p).isSome)
    packed [(r.logical.getD 0x7F, 0), (r.st.code, 8), (p.getD 0, 16), (b2n p.isSome, 19)]
  | 0x100 => if s.slabAnswers l then (s.age l).patina else 0
  | 0x104 => if s.slabAnswers l then (s.age l).temperWord else 0
  | _ => 0

/-- Columns of the open batch of an array (R105). -/
def batchCols (r : CoreRun) (arr : Bool) : Nat :=
  match r.batch arr with
  | none => 0
  | some (g, _) => (r.entries.filter (fun e => decide (e.eng = .arr arr) && decide (e.group = some g))).length

/-- An array's register block (Tables 5 to 8 of Matrix arrays, Table 4 of Accumulation). -/
def Core.readArr (k : Core) (arr : Bool) (o : Nat) : Nat :=
  let ctr (x : Nat) : Nat := (Sp.get 0#32 k.st.perf (arrOff arr + x)).toNat
  match o with
  | 0x00 => packed [(k.st.units arr, 0), (0xF, 4), (0x18, 8), (0x40, 16), (1, 23), (1, 24)]
  | 0x04 => packed [((k.st.byp arr).toNat % 32, 0), (b2n (k.st.hold arr).isSome, 5)]
  | 0x10 => ctr 0x10
  | 0x14 => ctr 0x14
  | 0x18 => ctr 0x18
  | 0x20 => packed [(batchCols k.run arr, 0), (b2n (k.run.batch arr).isSome, 7), (ctr 0x20 % 65536, 16)]
  | 0x24 => ctr 0x24 % 65536
  | _ => 0

/-- Issued, uncompleted special-function instructions bound to a bank: those that read it (R166); SMAXI and evaluations of the compatibility
image are bound to none. -/
def sfHold (r : CoreRun) (b : Nat) : Nat := (r.entries.filter (fun e => decide (e.eng = .sfu) && e.rd.contains (.bank b))).length % 256

/-- SFU_BANK (Table 11 of Special functions): LOADING is 1 while a started table-load writes or validates. -/
def Core.sfuBank (k : Core) : Nat :=
  let ld := k.run.entries.find? (fun e => decide (e.eng = .tload) && e.prog == 1)
  packed [(issueBank k.seen, 0), (b2n k.cur.bank0.valid, 1), (b2n k.cur.bank1.valid, 2), (b2n ld.isSome, 3),
    (match ld with | some e => e.bank | none => 0, 4), (sfHold k.run 0, 8), (sfHold k.run 1, 16)]

/-- LST_KEEPk (Tables 8 and 9 of Local store). -/
def Core.keepWord (k : Core) (i w : Nat) : Nat :=
  let cur := k.cur.kept.find? (fun x => x.1 == i)
  let e := match cur with | some x => x.2 | none => {}
  match w with
  | 0 => packed [(e.first, 0), (e.count % 8192, 13), (b2n e.tierB, 26), (b2n cur.isSome, 27), (b2n (k.rp.kept.any (fun x => x.1 == i)), 28)]
  | 1 => e.back / 32 % 2 ^ 32
  | 2 => e.back / 32 / 2 ^ 32 % 256
  | _ => 0

/-- Transfers of a queue not completed, and outstanding (Table 6 of Data movement). -/
def CoreRun.dmq (r : CoreRun) : Nat :=
  packed [(r.fq.length, 0), ((r.fq.filter (·.started)).length, 5), (r.eq.length, 8), ((r.eq.filter (·.started)).length, 13),
    (b2n r.fHalt, 16), (b2n r.eHalt, 17)]

/-- The rest of a core's window: the registers that no table of entries holds. -/
def Core.readWord (k : Core) (v64 o2 : Bool) (o : Nat) : Nat :=
  let ctr (x : Nat) : Nat := (Sp.get 0#32 k.st.perf x).toNat
  let curve := if k.cur.curveAct then k.cur.curve1 else k.cur.curve0
  match o with
  | 0x0200 => (k.st.fmt).toNat
  | 0x0210 => k.st.nantrap.toNat
  | 0x0214 => k.st.nanpos.toNat
  | 0x0220 => k.cur.region % 2 ^ 32
  | 0x0224 => k.cur.region / 2 ^ 32 % 65536
  | 0x0230 => packed [(k.run.recov, 0), (b2n k.run.halt.isSome, 2), (k.run.recovCnt, 16)]
  | 0x2000 => packed [(if v64 then 0x40 else 0x20, 0), (0x10, 8), (0x20, 16), (8, 24), (4, 28)]
  | 0x2004 => packed [(k.cur.finA.length, 0), (k.cur.finB.length, 4)]
  | 0x2010 => ctr 0x2010
  | 0x2014 => ctr 0x2014
  | 0x3000 => packed [(if v64 then 0x10 else 8, 0), (4, 8), (0x10, 16), (b2n o2, 24), (1, 25)]
  | 0x3004 => k.sfuBank
  | 0x3008 => if k.cur.bank0.valid then k.cur.bank0.id.toNat else 0
  | 0x300C => if k.cur.bank1.valid then k.cur.bank1.id.toNat else 0
  | 0x3010 => ctr 0x3010
  | 0x3014 => b2n k.st.o2en
  | 0x4000 => packed [(0x100, 0), (0x20, 16), (8, 22), (4, 26), (b2n o2, 29)]
  | 0x4010 => ctr 0x4010
  | 0x4014 => ctr 0x4014
  | 0x4020 => k.st.xchk0.toNat
  | 0x4024 => k.st.xchk1.toNat
  | 0x4030 => b2n k.st.o2en
  | 0x4034 => packed [(Memory.nat curve 6 2, 0), (Memory.nat curve 166 2, 16)]
  | 0x5000 => packed [(0xC0, 0), (0x10, 8), (4, 16), (0x40, 20), (0x10, 27)]
  | 0x5038 => k.st.lstGerr.toNat
  | 0x6000 => packed [(6, 0), (0x10, 8), (0x20, 16)]
  | 0x6004 => k.run.dmq
  | 0x6010 => (nthD k.st.dmpf 0 0#32).toNat
  | 0x6014 => (nthD k.st.dmpf 1 0#32).toNat
  | 0x6018 => (nthD k.st.dmpf 2 0#32).toNat
  | 0x601C => (nthD k.st.dmpf 3 0#32).toNat
  | _ => 0

/-- A core's window, but for the registers that count beats. -/
def Core.readReg (k : Core) (v64 o2 : Bool) (o : Nat) : Nat :=
  match slotOf 0x1400 0x100 2 o with
  | some (a, t) => (Sp.get 0#32 k.cur.tflag (64 * a + t / 4)).toNat
  | none => match slotOf 0x1000 0x100 2 o with
  | some (a, x) => k.readArr (a == 1) x
  | none => match slotOf 0x2100 4 32 o with
  | some (i, _) => winBase (if v64 then 64 else 32) k.cur.win i
  | none => match slotOf 0x5100 0x10 16 o with
  | some (i, w) => k.keepWord i (w / 4)
  | none => match slotOf 0x5200 4 64 o with
  | some (i, _) => (Sp.get 0#32 k.cur.arr i).toNat
  | none => match slotOf 0x6100 4 32 o with
  | some (i, _) => Sp.get 0 k.cur.sem i % 65536
  | none => k.readWord v64 o2 o

/-- The fields that say what a beat does: BUSY and OPWAIT of CAR_STATUS, idle while no carry instruction is issued (DESIGN CHOICE, log 20). -/
def Core.openBits (k : Core) (o : Nat) : Option (Nat × Nat) :=
  if o = 0x4004 ∧ k.run.entries.any (fun e => decide (e.eng = .carry)) then some (2, 0)
  else none

/-- The local store of the core has been used since reset, so that its counters may have grown by what no event shows. -/
def Core.lsTouched (k : Core) : Bool := k.run.ranSince || Sp.get 0#32 k.st.perf oSlots != 0

/-- A counter of the local store as a read finds it (R253): the slots and beats of its own engines since the last read, which the model does not
count, are a free value (DESIGN CHOICE, log 20). -/
def State.readLst (s : State) (c o w : Nat) : Nat × State :=
  let k := s.core c
  let v := (Sp.get 0#32 k.st.perf o).toNat
  if !k.lsTouched then (v % 2 ^ w, s)
  else
    let f := s.free w
    let n := (v + f.1) % 2 ^ w
    (n, f.2.updSt c (fun x => { x with perf := Sp.set 0#32 x.perf o (BitVec.ofNat 32 n) }))

/-- A read of a core's window: open fields are free values. -/
def State.readCore (s : State) (c o : Nat) : W32 × State :=
  let k := s.core c
  if o = oFull then let r := s.readLst c o 24; (BitVec.ofNat 32 (k.run.lsUsed + 256 * r.1), r.2)
  else if oConfl 0 ≤ o ∧ o ≤ oSlots then let r := s.readLst c o 32; (BitVec.ofNat 32 r.1, r.2)
  else
    let base := if o = 0x4004 then 4 * b2n k.cur.curveAct else k.readReg s.v64 s.otp.sh.o2 o
    match k.openBits o with
    | some (w, sh) => let f := s.free w; (BitVec.ofNat 32 (base + f.1 * 2 ^ sh), f.2)
    | none => (BitVec.ofNat 32 base, s)

/-! ### A control read -/

/-- Read the register at offset `o` (R509 to R511). An offset that no register occupies reads zero; a read of AON_TBLO captures
(R442). -/
def State.ctrlRead (s : State) (req : Requester) (o : Nat) : W32 × State :=
  let plain (n : Nat) : W32 × State := (BitVec.ofNat 32 n, s)
  if o < 0x00100000 then plain (s.readGlobal o)
  else if o = 0x00100000 then (BitVec.ofNat 32 s.aon.tb, s.captureTb req)
  else if o < 0x00200000 then plain (s.readAon req o)
  else if o < 0x00300000 then plain (s.readOtp o)
  else if o < 0x00400000 then plain (s.readPwr o)
  else if o < 0x00800000 then plain (s.readMgt o)
  else match slotOf 0x00800000 0x10000 12 o with
  | some (n, x) => plain (s.readLink n x)
  | none => match slotOf 0x00C00000 0x40000 4 o with
  | some (h, x) => plain (s.readHub h x)
  | none => match slotOf 0x01000000 0x200000 68 o with
  | none => plain 0
  | some (l, x) =>
    match slotOf 0x10000 0x8000 32 x with
    | some (i, y) => if s.slabAnswers l then s.readCore (32 * l + i) y else plain 0
    | none => plain (s.readSlab l x)

end Sys2Proof.Machine
end

