-- ==== Sys2Proof/Machine/Tick.lean ====
section
/-! DEFINITION. Machine/Tick.lean: what the block does when no command waits: one edge of the reference input (R440). -/

namespace Sys2Proof.Machine

/-- The reference edge: the timebase counts unless VAON is away, cold reset is asserted or the reference is lost (R440, R443). -/
def tickTime (s : State) : State :=
  if s.boot.cold || s.aon.refLost then s else { s with aon := { s.aon with tb := s.aon.tb + 1 } }

/-- The oldest raise is presented on the IRQ channel of a host port whose clock runs (R59, R500). -/
def tickIrq (s : State) : State := if s.running && s.hostUp then { s with irqs := s.irqs.drop 1 } else s

/-- Step 4 of R452: with the memory ports idle and no OTP program running (R463), VCORE is requested off. -/
def tickEntry (s : State) : State :=
  match s.pwr.step with
  | .entering =>
    if s.otp.pgm.isSome || !s.memq.isEmpty then s
    else { s with pwr := { s.pwr with step := .offWait false, on := false, ps := s.pwr.target, offAt := s.aon.tb } }
  | _ => s

/-- Firmware writes a persistent record at least once per powered hour (R474; DESIGN CHOICE, log 77). -/
def tickHour (s : State) : State := if s.persistDue then s.persist else s

/-- One idle step. -/
def idle (s : State) : State := tickHour (tickEntry (tickIrq (tickTime s)))

end Sys2Proof.Machine
end

