-- ==== Sys2Proof/Machine/Regs.lean ====
section
/-! DEFINITION. Machine/Regs.lean: writes of control space (R509 to R513) and the host's target requests (R496 to R498). -/

namespace Sys2Proof.Machine

/-- Go on from a next state. -/
def andThen (o : Host.Outcome State Fault Refusal) (f : State → Host.Outcome State Fault Refusal) :
    Host.Outcome State Fault Refusal :=
  match o with
  | .next t => f t
  | .fault e => .fault e
  | .refused e => .refused e

/-! ### Registers that hold a plain value -/

/-- The writable bits of a plain register of hub 1, driver only (R376, R397); those of the peer table, the region table and the
transport settings only while no peer is cached. -/
def hub1Mask (s : State) (o : Nat) : Nat :=
  let free := s.link.peers.isEmpty && s.link.evicting.isEmpty
  if o = oPeerTbl 0 then (if free then 0xFFFFFF00 else 0)
  else if o = oPeerTbl 1 ∨ o = oNode ∨ o = oXp 0 ∨ o = oXp 2 then (if free then 0xFFFFFFFF else 0)
  else if o = oXp 1 then (if free then 0x0FFFFFFF else 0)
  else if o = oRegTbl 0 then (if free then 0xFFFFFFE0 else 0)
  else if o = oRegTbl 1 ∨ o = oDedup 1 then (if free then 0xFF else 0)
  else if o = oRegN then (if free then 0x1FFFF else 0)
  else if o = oDedup 0 then (if free then 0xFFFF8000 else 0)
  else if o = oRdTmo ∨ o = oSealSrc 1 then 0xFFFFFFFF
  else if o = oSealSrc 0 then 0xFFFFFFE0
  else if (slotOf (oSeedData 0) 4 8 o).isSome then 0xFFFFFFFF
  else 0

/-- The writable bits of a plain register of memory hub B's update engine, driver only (R350): the layer table and the ledger only while
no step is in progress. -/
def updMask (s : State) (o : Nat) : Nat :=
  if o = oUpdTbl 0 then (if s.upd.busy then 0 else 0xFFFFFFE0)
  else if o = oUpdTbl 1 then (if s.upd.busy then 0 else 0xFF)
  else if o = oLedger then (if s.upd.busy then 0 else 0xFFFF)
  else if o = oLoss then 0xFFFFFFFF
  else if o = oAudit then 0xFFFF
  else 0

/-- The bits of the plain register at `o` that the driver may write now: R337 castings, R441 the reference frequency, R470 and R477 the
management registers, R508 the ports. -/
def hostMask (s : State) (o : Nat) : Nat :=
  if o = oCastSrc 0 ∨ o = oLoadSrc 0 ∨ o = oPersist 0 then 0xFFFFFFE0
  else if o = oCastSrc 1 ∨ o = oCastLen ∨ o = oRefFreq ∨ o = oLoadSrc 1 ∨ o = oPersist 1 then 0xFFFFFFFF
  else if o = oCastStg then 0x7FFFF
  else if o = oLoadLen then 0xFFFFF
  else if o = oMpCfg 2 ∨ o = oMpCfg 3 then 0xFFFF
  else hub1Mask s o ||| updMask s o

/-- The bits that either requester may write, the chapter naming no writer or both (R277, R512). DEDUCED: log 54. -/
def bothMask (o : Nat) : Nat :=
  if o = oLog 0 then 0xFFFFFFC0
  else if o = oLog 1 then 0xFFFFFFFF
  else if o = oLogCfg then 0x3FF
  else if o = oWdt then 0xFF
  else if o = oStrDir 0 then 0xFFFFFFE0
  else if o = oStrDir 1 then 0xFF
  else match slotOf 0x500 0x10 8 o with
  | some (_, w) => nthD [0xFFFFFFE0, 0xFF, 0x3FFFFFF] (w / 4) 0
  | none => match slotOf 0x00800000 0x10000 12 o with
  | some (_, x) => if x = 0 then 3 else if x = 0x10 then 0x3FF else 0
  | none => 0

/-- The bits of the plain register at `o` that a requester may write now (R438: the drift threshold is firmware's). -/
def writeMask (s : State) (req : Requester) (o : Nat) : Nat :=
  bothMask o ||| (match req with | .host => hostMask s o | .mgmt => if o = oDriftTh then 0x3FF else 0)

/-- Write the permitted bits of a plain register; reserved bits read zero (R13). -/
def State.writePlain (s : State) (req : Requester) (o : Nat) (v : W32) : State :=
  let m := BitVec.ofNat 32 (writeMask s req o)
  s.setReg o ((s.reg o &&& ~~~m) ||| (v &&& m))

/-! ### Registers of each region -/

/-- A word of a partition's rings (R278, R295): the driver's; BASE and SIZE only while no stream of the partition is bound. DEDUCED: log 56. -/
def State.writeRing (s : State) (p w : Nat) (v : W32) : State :=
  let r := s.ring p
  let n := v.toNat
  let free := !s.subs.any (fun u => u.part == p)
  match w with
  | 0 => if free then s.setRing p { r with sqBase := r.sqBase / 2 ^ 32 * 2 ^ 32 + n } else s
  | 1 => if free then s.setRing p { r with sqBase := r.sqBase % 2 ^ 32 + 2 ^ 32 * n } else s
  | 2 => s.setRing p { r with sqSize := if free then n % 16 else r.sqSize, sqErr := r.sqErr && !v.getLsbD 4 }
  | 4 => if free then s.setRing p { r with cqBase := r.cqBase / 2 ^ 32 * 2 ^ 32 + n } else s
  | 5 => if free then s.setRing p { r with cqBase := r.cqBase % 2 ^ 32 + 2 ^ 32 * n } else s
  | 6 => s.setRing p { r with cqSize := if free then n % 16 else r.cqSize, cqErr := r.cqErr && !v.getLsbD 4 }
  | _ => s

/-- GLB_CASTCMD (Table 14 of Castings and platings). -/
def writeCastcmd (req : Requester) (v : W32) (s : State) : Host.Outcome State Fault Refusal :=
  let slot : BitVec 3 := v.extractLsb' 2 3
  match v.toNat % 4 with
  | 1 => execCastcmdLoadCasting req s
  | 2 => execCastcmdLoadPlating req slot s
  | 3 => execCastcmdEvict req slot s
  | _ => .next s

/-- GLB_SUBCMD (Table 13 of Faults and recovery). -/
def writeSubcmd (req : Requester) (v : W32) (s : State) : Host.Outcome State Fault Refusal :=
  let l : BitVec 6 := v.extractLsb' 3 6
  let sp : BitVec 7 := v.extractLsb' 9 7
  match v.toNat % 4 with
  | 1 => execSubcmdSubstitute req (v.getLsbD 2) l sp s
  | 2 => execSubcmdMigrate req (v.getLsbD 2) l sp s
  | 3 => execSubcmdSpineRestart req s
  | _ => if v.getLsbD 16 then execSubcmdReplay req l s else .next s

/-- The global region. -/
def writeGlobal (req : Requester) (o : Nat) (v : W32) (s : State) : Host.Outcome State Fault Refusal :=
  match slotOf 0x600 0x20 8 o with
  | some (p, w) =>
    if w = 0x0C then execSqtailWrite req (BitVec.ofNat 3 p) v s
    else if w = 0x1C then execCqheadWrite req (BitVec.ofNat 3 p) v s
    else .next (if s.byHost req then s.writeRing p (w / 4) v else s)
  | none => match o with
  | 0x580 => execPtinvWrite req v s
  | 0x810 => writeCastcmd req v s
  | 0x840 => if v.getLsbD 3 then execPlswOff req (v.extractLsb' 8 8) s else execPlswSwitch req (v.extractLsb' 0 3) s
  | 0x910 => writeSubcmd req v s
  | 0xA10 => (match v.toNat % 4 with
    | 1 => execStcmdStart req s
    | 2 => execStcmdAbort req s
    | _ => .next s)
  | _ => .next (s.writePlain req o v)

/-- AON_WAKE (Table 9 of Always-on domain). -/
def State.writeWake (s : State) (v : W32) : State :=
  let a := s.aon
  { s with aon := { a with
      wDl := a.wDl && !v.getLsbD 0, wSc := a.wSc && !v.getLsbD 1, wHost := a.wHost && !v.getLsbD 2, wLink := a.wLink && !v.getLsbD 3,
      linkWake := v.getLsbD 4, vecEn := v.getLsbD 5, vec := fld v.toNat 11 6 } }

/-- The always-on region. -/
def writeAon (req : Requester) (o : Nat) (v : W32) (s : State) : Host.Outcome State Fault Refusal :=
  match slotOf 0x00100100 0x10 16 o with
  | some (k, w) => execDeadlineWrite req (BitVec.ofNat 4 k) (BitVec.ofNat 2 (w / 4)) v s
  | none => match slotOf 0x00100200 0x10 4 o with
  | some (k, w) => .next (if w < 8 then s.writeSc req k (w / 4) v else s)
  | none => if o = 0x00100300 then .next (s.writeWake v) else .next (s.writePlain req o v)

/-- The OTP region (R464): OTP_PGMDATAk and OTP_PGMCMD, firmware's. -/
def writeOtp (req : Requester) (o : Nat) (v : W32) (s : State) : Host.Outcome State Fault Refusal :=
  match slotOf 0x00200100 4 47 o with
  | some (k, _) => .next (if s.byMgmt req then { s with otp := { s.otp with data := Sp.set 0#32 s.otp.data k v } } else s)
  | none => if o = 0x00200010 ∧ v.getLsbD 3 then execOtpPgmcmdGo req (v.extractLsb' 0 3) s else .next s

/-- The power and ageing region. -/
def writePwr (req : Requester) (o : Nat) (v : W32) (s : State) : Host.Outcome State Fault Refusal :=
  match o with
  | 0x00300000 => execVreqWrite req v s
  | 0x00300010 => execCeilreqWrite req v s
  | 0x00300024 => if v.getLsbD 0 then execQcmdResume req s else .next s
  | 0x00300040 =>
    let u : BitVec 7 := v.extractLsb' 2 7
    (match v.toNat % 4 with
    | 1 => execTmpcmdMeasure req u s
    | 2 => execTmpcmdCommit req u s
    | 3 => execTmpcmdAbort req u s
    | _ => .next s)
  | 0x00300200 => (match v.toNat % 4 with
    | 0 => execPscmdActive req s
    | 1 => execPscmdIdle req s
    | 2 => execPscmdRetention req s
    | _ => execPscmdDeepSleep req s)
  | _ => .next (s.writePlain req o v)

/-- MGT_CMD (Table 2 of Management firmware): the argument is MGT_CMDARG. What firmware answers to another OP is open. DESIGN CHOICE: log 58. -/
def writeCmd (req : Requester) (v : W32) (s : State) : Host.Outcome State Fault Refusal :=
  let a := s.mgmt.cmdArg
  match v.toNat % 8 with
  | 1 => execCmdAck req a s
  | 2 => execCmdEnd req a s
  | 3 => execCmdUpdate req a s
  | 4 => execCmdPolicy req a s
  | 5 => execCmdSave req a s
  | op => .next (s.command req op a (fun t => let f := t.free 2; (f.2, f.1)))

/-- The management region. DEDUCED: log 59. DEDUCED: log 60. -/
def writeMgt (req : Requester) (o : Nat) (v : W32) (s : State) : Host.Outcome State Fault Refusal :=
  match o with
  | 0x00400014 => (match v.toNat % 4 with
    | 1 => execLdcmdColdLoad req s
    | 2 => execLdcmdHandoffLoad req s
    | _ => .next s)
  | 0x00400020 => execIfverWrite req v s
  | 0x00400030 => writeCmd req v s
  | 0x00400034 => .next (if s.byHost req then { s with mgmt := { s.mgmt with cmdArg := v } } else s)
  | 0x00400038 =>
    .next (if s.byMgmt req then
      { s with mgmt := { s.mgmt with cmdBusy := s.mgmt.cmdBusy && v.getLsbD 0, cmdResult := fld v.toNat 2 1 } } else s)
  | 0x0040004C =>
    .next (if s.byHost req then
      let t : State := { s with mgmt := { s.mgmt with logHead := v.toNat % 2 ^ 14 } }
      if t.mgmt.run then t.logFlush 256 else t
    else s)
  | 0x00400054 => if v.getLsbD 0 then execWdkick req s else .next s
  | 0x00400100 => .next { s with fq := { s.fq with ovf := s.fq.ovf && !v.getLsbD 10 } }
  | 0x00400104 => execFqheadWrite req v s
  | 0x00400110 => execEndcmd req (v.extractLsb' 0 6) (v.extractLsb' 6 5) s
  | _ => .next (s.writePlain req o v)

/-- A link engine's window: the selected path entry (Table 18 of Chip link transport), and the plain registers. -/
def writeLink (req : Requester) (n x : Nat) (v : W32) (s : State) : Host.Outcome State Fault Refusal :=
  match slotOf 0x40 4 16 x with
  | some (k, _) => .next { s with link := { s.link with paths := Sp.set 0#32 s.link.paths (s.pathKey n k) v } }
  | none => .next (s.writePlain req (linkBase n + x) v)

/-- HUB_STRCMD (Table 7 of Streams and stretches). -/
def writeStrcmd (req : Requester) (v : W32) (s : State) : Host.Outcome State Fault Refusal :=
  match v.toNat % 4 with
  | 1 => execStrcmdSwapOut req (v.extractLsb' 2 12) s
  | 2 => execStrcmdSwapIn req (v.extractLsb' 16 16) s
  | _ => .next s

/-- HUB_PEERCMD (Table 14 of Chip link transport). -/
def writePeercmd (req : Requester) (v : W32) (s : State) : Host.Outcome State Fault Refusal :=
  let p : BitVec 14 := v.extractLsb' 2 14
  match v.toNat % 4 with
  | 1 => execPeercmdEvict req p s
  | 2 => execPeercmdFetch req p s
  | 3 => execPeercmdReset req p s
  | _ => .next s

/-- HUB_SEALCMD (Table 15 of Remote regions). The round record a LOAD reads lies in host memory, which the model does not hold: its bytes
are free values. DESIGN CHOICE: log 57. -/
def writeSealcmd (req : Requester) (v : W32) (s : State) : Host.Outcome State Fault Refusal :=
  let k : BitVec 3 := v.extractLsb' 0 3
  match fld v.toNat 4 3 with
  | 1 => let f := s.free 1024; execSealcmdLoad req k (natBytes 128 f.1) f.2
  | 2 => execSealcmdClear req k s
  | _ => .next s

/-- Hub 1's window. A write at an offset that HUB_KEYDATA4 to HUB_KEYDATA7 share with the counters of Table 17 writes the key data.
DEDUCED: log 140. -/
def writeHub1 (req : Requester) (x : Nat) (v : W32) (s : State) : Host.Outcome State Fault Refusal :=
  match slotOf 0xA040 4 8 x with
  | some (k, _) =>
    .next (if s.byHost req then { s with link := { s.link with keyData := Sp.set 0#32 s.link.keyData k v } } else s)
  | none => match x with
  | 0xA020 => writePeercmd req v s
  | 0xA030 => (match fld v.toNat 9 8 with
    | 1 => execKeycmdLoad req (v.extractLsb' 0 8) s
    | 2 => execKeycmdErase req (v.extractLsb' 0 8) s
    | _ => .next s)
  | 0xB00C => if v.getLsbD 17 then execRegcmdInval req (v.extractLsb' 0 16) (v.getLsbD 16) s else .next s
  | 0xB020 => .next (if s.byHost req then { s with link := { s.link with regLatch := s.link.regLatch && !v.getLsbD 15 } } else s)
  | 0xB024 => (match fld v.toNat 9 8 with
    | 1 => execSeedcmdLoad req (v.extractLsb' 0 7) s
    | 2 => execSeedcmdErase req (v.extractLsb' 0 7) s
    | _ => .next s)
  | 0xB068 => writeSealcmd req v s
  | _ => .next (s.writePlain req (hubBase 1 + x) v)

/-- A hub's window. -/
def writeHub (req : Requester) (h x : Nat) (v : W32) (s : State) : Host.Outcome State Fault Refusal :=
  if x = 0x104 then (if u : 68 + h < 72 then execTemperWrite req ⟨68 + h, u⟩ v s else .next s)
  else if h = 0 ∧ x = 0x8010 then writeStrcmd req v s
  else if h = 1 then writeHub1 req x v s
  else if h = 3 ∧ x = 0x9010 then (if v.getLsbD 0 then execUpdcmdStart req (v.getLsbD 1) s else .next s)
  else .next (s.writePlain req (hubBase h + x) v)

/-- MAT_BYPASS, COR_NANTRAP, COR_DMRESUME and COR_FMTFLAGS of a core; its other registers are read only. -/
def writeCore (req : Requester) (c : CoreNo) (x : Nat) (v : W32) (s : State) : Host.Outcome State Fault Refusal :=
  match x with
  | 0x0200 => .next (s.updSt c.val (fun k => { k with fmt := k.fmt &&& ~~~(v.setWidth 6) }))
  | 0x0210 => .next (s.updSt c.val (nantrapWrite v))
  | 0x1004 => execMatBypassWrite req c false (v.extractLsb' 0 3) (v.getLsbD 3) s
  | 0x1104 => execMatBypassWrite req c true (v.extractLsb' 0 3) (v.getLsbD 3) s
  | 0x6020 =>
    andThen (if v.getLsbD 0 then execDmresumeFetch req c s else .next s) (fun t =>
      if v.getLsbD 1 then execDmresumeExec req c t else .next t)
  | _ => .next s

/-- A slab's region (R510): a retired slab's registers behave as reserved. -/
def writeSlab (req : Requester) (l x : Nat) (v : W32) (s : State) : Host.Outcome State Fault Refusal :=
  if !s.slabAnswers l then .next s
  else match slotOf 0x10000 0x8000 32 x with
  | some (i, y) => if h : 32 * l + i < 2176 then writeCore req ⟨32 * l + i, h⟩ y v s else .next s
  | none => if x = 0x104 then (if h : l < 72 then execTemperWrite req ⟨l, h⟩ v s else .next s) else .next s

/-- A control write of the 32-bit word at offset `o` (R511, R512): it does what the register's own chapter says; an offset that no
writable register occupies is ignored. -/
def State.ctrlWrite (s : State) (req : Requester) (o : Nat) (v : W32) : Host.Outcome State Fault Refusal :=
  if !s.answers then .next s
  else if o < 0x00100000 then writeGlobal req o v s
  else if o < 0x00200000 then writeAon req o v s
  else if o < 0x00300000 then writeOtp req o v s
  else if o < 0x00400000 then writePwr req o v s
  else if o < 0x00800000 then writeMgt req o v s
  else match slotOf 0x00800000 0x10000 12 o with
  | some (n, x) => writeLink req n x v s
  | none => match slotOf 0x00C00000 0x40000 4 o with
  | some (h, x) => writeHub req h x v s
  | none => match slotOf 0x01000000 0x200000 68 o with
  | some (l, x) => writeSlab req l x v s
  | none => .next s

/-- REGISTER_WRITE (R511, R512): an access that is not naturally aligned has no effect. DEDUCED: log 55. -/
def execRegisterWrite (req : Requester) (off : BitVec 28) (v : W32) (s : State) : Host.Outcome State Fault Refusal :=
  if off.toNat % 4 = 0 then s.ctrlWrite req off.toNat v else .next s

/-! ### Target requests (R496 to R498) -/

/-- What a target access reaches (Table 4 of Ports and integration): control space, a byte of an aperture, or nothing. -/
inductive Target where
  | control (off : Nat)
  | aperture (tierB : Bool) (addr : Nat)
  | outside
  deriving DecidableEq, Repr

/-- The target of an address, before its size is looked at. -/
def targetOf (ta : Nat) : Target :=
  if ta < 2 ^ 28 then .control ta
  else if 2 ^ 40 ≤ ta ∧ ta < 2 ^ 41 then .aperture false (ta - 2 ^ 40)
  else if 2 ^ 45 ≤ ta then .aperture true (ta - 2 ^ 45)
  else .outside

/-- Every byte of a write is enabled. DEDUCED: log 51. -/
def wholeReq (r : TReq) : Bool := !r.wr || (List.range r.len.toNat).all (fun i => r.be.getLsbD i)

/-- A control-space access of 4 or 8 naturally aligned bytes; one of 8 is two of 32 bits in ascending address (R497). -/
def State.control (s : State) (r : TReq) (o : Nat) : Host.Outcome State Fault Refusal :=
  let n := r.len.toNat
  let lo : W32 := r.data.extractLsb' 0 32
  let hi : W32 := r.data.extractLsb' 32 32
  if !((n == 4 || n == 8) && o % n == 0 && wholeReq r) then .next (s.answer r.tag true 0)
  else if r.wr then
    andThen (s.ctrlWrite .host o lo) (fun t =>
      andThen (if n = 8 then t.ctrlWrite .host (o + 4) hi else .next t) (fun u => .next (u.answer r.tag false 0)))
  else
    let a := s.ctrlRead .host o
    if n = 4 then .next (a.2.answer r.tag false a.1.toNat)
    else let b := a.2.ctrlRead .host (o + 4); .next (b.2.answer r.tag false (a.1.toNat + 2 ^ 32 * b.1.toNat))

/-- Start an aperture access of 1 to 64 bytes within one 64-byte block of an enabled tier (R497): a read of each granule, a write of
each whole granule, and a merge read of each partly written one. -/
def State.apStart (s : State) (r : TReq) (b : Bool) (a : Nat) : State :=
  let ks := (List.range ((a % 32 + r.len.toNat + 31) / 32)).filter (fun k => !r.wr || targetSome r k)
  if ks.isEmpty then ({ s with treqs := s.treqs.drop 1 } : State).answer r.tag false 0
  else ks.foldl (fun (t : State) k =>
    t.askMem (apReq b a k (if r.wr && targetWhole r k then .write else .read) (mergeTarget r k 0)))
    { s with tap := some { left := ks.length } }

/-- Perform the accepted target requests in order, up to one that must wait (R498): an access to control space while the block does
not answer, one to an aperture while the memory ports are not active, or one behind an aperture access in progress. -/
def State.pumpTarget : Nat → State → Host.Outcome State Fault Refusal
  | 0, s => .next s
  | n + 1, s =>
    match s.treqs, s.tap with
    | r :: rest, none =>
      match targetOf r.ta.toNat with
      | .control o => if s.answers then andThen (({ s with treqs := rest } : State).control r o) (State.pumpTarget n) else .next s
      | .outside => State.pumpTarget n (({ s with treqs := rest } : State).answer r.tag true 0)
      | .aperture b a =>
        if r.len.toNat = 0 ∨ 64 < a % 64 + r.len.toNat ∨ !s.tierOn b then
          State.pumpTarget n (({ s with treqs := rest } : State).answer r.tag true 0)
        else if s.running then State.pumpTarget n (s.apStart r b a)
        else .next s
    | _, _ => .next s

/-- TARGET_REQUEST (R496 to R498): requests take effect in their order of acceptance; while the port's clock is marked lost one stays in the
bridge (R59). While the block does not answer, the request waits outside it. DEDUCED: log 52. -/
def execTargetRequest (f : TReq) (s : State) : Host.Outcome State Fault Refusal :=
  if !s.answers then .next s
  else if !s.hostUp then .next { s with strand := s.strand ++ [.target f] }
  else State.pumpTarget (s.treqs.length + 1) { s with treqs := s.treqs ++ [f] }

/-- The idle step: a reference edge, after which accepted target requests that can go on do so. -/
def idleStep (s : State) : Host.Outcome State Fault Refusal :=
  let t := idle s
  State.pumpTarget t.treqs.length t

end Sys2Proof.Machine
end

