-- ==== Sys2Proof/Machine/Ports.lean ====
section
/-! DEFINITION. Machine/Ports.lean: port clocks that are lost and come back (R59). -/

namespace Sys2Proof.Machine

/-- The port's group is enabled: a memory port by its tier's strap (R491). The spec names no enable of the host port or of a frame port (EN of
LNK_CTRL enables the engine behind it), so these count as always enabled. DESIGN CHOICE: log 148. -/
def State.portOn (s : State) (p : PortId) : Bool :=
  match p with
  | .memA _ => s.boot.ea
  | .memB _ => s.boot.eb
  | _ => true

/-- The record of a port's lost clock (R59, code 0x2F): HUB and LINK of Table 1 of Faults and recovery name what the port belongs to, and
INFO1 holds the port's number there. DEDUCED: log 143. -/
def lostRec (p : PortId) : FRec :=
  match p with
  | .host => { code := 0x2F, unit := 10, hub := 0, info1 := some 0 }
  | .memA n => { code := 0x2F, unit := 10, hub := 2, info1 := some n.toNat }
  | .memB n => { code := 0x2F, unit := 10, hub := 3, info1 := some n.toNat }
  | .frame l => { code := 0x2F, unit := 11, hub := l.val % 8, link := l.val, info1 := some l.val }

/-- PORT_CLOCK_LOST (R59): 1,024 reference cycles without an edge mark the port. -/
def execPortClockLost (p : PortId) (s : State) : Host.Outcome State Fault Refusal :=
  if s.boot.cold || s.lost.contains p || !s.portOn p then .next s
  else .next (({ s with lost := s.lost ++ [p] } : State).offer (lostRec p))

/-- A stranded beat is delivered: it acts as one that comes through the port then. -/
def State.deliverBeat (s : State) (b : Beat) : Host.Outcome State Fault Refusal :=
  match b with
  | .mem tb p i e => .next (s.memAnswer tb p i e)
  | .host t e d => .next (s.hostAnswer t e d)
  | .frame l bs bad => .next (s.frameIn l.val bs bad)
  | .target f => execTargetRequest f s

/-- Stranded beats are delivered in order. -/
def deliverBeats : List Beat → State → Host.Outcome State Fault Refusal
  | [], s => .next s
  | b :: l, s => andThen (s.deliverBeat b) (deliverBeats l)

/-- Traffic toward a port whose clock is back goes on (R39, R59): requests to memory, the update engine's reading of
its table, frames, and at the host port its answers, the contexts to
write back, log entries and reads of stream granules. -/
def State.portGo (s : State) (p : PortId) : State :=
  match p with
  | .memA _ => s.pumpMem.readWhenUp
  | .memB _ => s.pumpMem
  | .frame l => s.framesOut l.val
  | .host =>
    let t := s.trspWait.foldl (fun (t : State) b => { t with trsp := some b }) { s with trspWait := [] }
    let u := t.evictOut
    let v := if u.mgmt.run then u.logFlush 256 else u
    v.cores.foldl (fun x c => x.fetchNext c.1) v

/-- PORT_CLOCK_RESUMED (R59): the mark is cleared, the stranded beats are delivered in order, and the waiting traffic goes on. -/
def execPortClockResumed (p : PortId) (s : State) : Host.Outcome State Fault Refusal :=
  if s.lost.contains p then
    let bs := s.strand.filter (fun b => b.port == p)
    andThen (deliverBeats bs { s with lost := s.lost.erase p, strand := s.strand.filter (fun b => b.port != p) })
      (fun t => .next (t.portGo p))
  else .next s

end Sys2Proof.Machine
end

