-- ==== Sys2Proof/Machine/Dispatch.lean ====
section
/-! DEFINITION. Machine/Dispatch.lean: which meaning each command has. -/

namespace Sys2Proof.Machine

def exec (i : Instr) (s : State) : Host.Outcome State Fault Refusal :=
  match i with
  | .longWordIssue c => Sys2Proof.Machine.execLongWordIssue c s
  | .commitPoint c => Sys2Proof.Machine.execCommitPoint c s
  | .deferredEntryAck slab k => Sys2Proof.Machine.execDeferredEntryAck slab k s
  | .streamStart c => Sys2Proof.Machine.execStreamStart c s
  | .streamReadError c => Sys2Proof.Machine.execStreamReadError c s
  | .add c rd ra rb => Sys2Proof.Machine.execAdd c rd ra rb s
  | .sub c rd ra rb => Sys2Proof.Machine.execSub c rd ra rb s
  | .and c rd ra rb => Sys2Proof.Machine.execAnd c rd ra rb s
  | .or c rd ra rb => Sys2Proof.Machine.execOr c rd ra rb s
  | .xor c rd ra rb => Sys2Proof.Machine.execXor c rd ra rb s
  | .shl c rd ra rb => Sys2Proof.Machine.execShl c rd ra rb s
  | .shr c rd ra rb => Sys2Proof.Machine.execShr c rd ra rb s
  | .sar c rd ra rb => Sys2Proof.Machine.execSar c rd ra rb s
  | .mul c rd ra rb => Sys2Proof.Machine.execMul c rd ra rb s
  | .slt c rd ra rb => Sys2Proof.Machine.execSlt c rd ra rb s
  | .sltu c rd ra rb => Sys2Proof.Machine.execSltu c rd ra rb s
  | .seq c rd ra rb => Sys2Proof.Machine.execSeq c rd ra rb s
  | .addi c rd ra imm => Sys2Proof.Machine.execAddi c rd ra imm s
  | .subi c rd ra imm => Sys2Proof.Machine.execSubi c rd ra imm s
  | .andi c rd ra imm => Sys2Proof.Machine.execAndi c rd ra imm s
  | .ori c rd ra imm => Sys2Proof.Machine.execOri c rd ra imm s
  | .xori c rd ra imm => Sys2Proof.Machine.execXori c rd ra imm s
  | .shli c rd ra imm => Sys2Proof.Machine.execShli c rd ra imm s
  | .shri c rd ra imm => Sys2Proof.Machine.execShri c rd ra imm s
  | .sari c rd ra imm => Sys2Proof.Machine.execSari c rd ra imm s
  | .muli c rd ra imm => Sys2Proof.Machine.execMuli c rd ra imm s
  | .slti c rd ra imm => Sys2Proof.Machine.execSlti c rd ra imm s
  | .sltui c rd ra imm => Sys2Proof.Machine.execSltui c rd ra imm s
  | .seqi c rd ra imm => Sys2Proof.Machine.execSeqi c rd ra imm s
  | .movsm c rd sm => Sys2Proof.Machine.execMovsm c rd sm s
  | .tbr c rd => Sys2Proof.Machine.execTbr c rd s
  | .dbase c ra imm => Sys2Proof.Machine.execDbase c ra imm s
  | .dset c h w ra => Sys2Proof.Machine.execDset c h w ra s
  | .li c rd imm => Sys2Proof.Machine.execLi c rd imm s
  | .lih c rd imm => Sys2Proof.Machine.execLih c rd imm s
  | .br c cond ra rb target => Sys2Proof.Machine.execBr c cond ra rb target s
  | .fadd c vd va vb vm rm => Sys2Proof.Machine.execFadd c vd va vb vm rm s
  | .fsub c vd va vb vm rm => Sys2Proof.Machine.execFsub c vd va vb vm rm s
  | .fmul c vd va vb vm rm => Sys2Proof.Machine.execFmul c vd va vb vm rm s
  | .ffma c vd va vb vc vm rm => Sys2Proof.Machine.execFfma c vd va vb vc vm rm s
  | .fabs c vd va vm => Sys2Proof.Machine.execFabs c vd va vm s
  | .fneg c vd va vm => Sys2Proof.Machine.execFneg c vd va vm s
  | .fmin c vd va vb vm => Sys2Proof.Machine.execFmin c vd va vb vm s
  | .fmax c vd va vb vm => Sys2Proof.Machine.execFmax c vd va vb vm s
  | .fsel c vd va vb vm => Sys2Proof.Machine.execFsel c vd va vb vm s
  | .fceq c md va vb vm => Sys2Proof.Machine.execFceq c md va vb vm s
  | .fclt c md va vb vm => Sys2Proof.Machine.execFclt c md va vb vm s
  | .fcle c md va vb vm => Sys2Proof.Machine.execFcle c md va vb vm s
  | .fcne c md va vb vm => Sys2Proof.Machine.execFcne c md va vb vm s
  | .iadd c vd va vb vm => Sys2Proof.Machine.execIadd c vd va vb vm s
  | .isub c vd va vb vm => Sys2Proof.Machine.execIsub c vd va vb vm s
  | .imul c vd va vb vm => Sys2Proof.Machine.execImul c vd va vb vm s
  | .imin c vd va vb vm => Sys2Proof.Machine.execImin c vd va vb vm s
  | .imax c vd va vb vm => Sys2Proof.Machine.execImax c vd va vb vm s
  | .iand c vd va vb vm => Sys2Proof.Machine.execIand c vd va vb vm s
  | .ior c vd va vb vm => Sys2Proof.Machine.execIor c vd va vb vm s
  | .ixor c vd va vb vm => Sys2Proof.Machine.execIxor c vd va vb vm s
  | .ishl c vd va vb vm => Sys2Proof.Machine.execIshl c vd va vb vm s
  | .ishr c vd va vb vm => Sys2Proof.Machine.execIshr c vd va vb vm s
  | .isar c vd va vb vm => Sys2Proof.Machine.execIsar c vd va vb vm s
  | .cvtfi c vd va vm rm => Sys2Proof.Machine.execCvtfi c vd va vm rm s
  | .cvtif c vd va vm rm => Sys2Proof.Machine.execCvtif c vd va vm rm s
  | .bcsm c vd sm vm => Sys2Proof.Machine.execBcsm c vd sm vm s
  | .bcsr c vd ra vm => Sys2Proof.Machine.execBcsr c vd ra vm s
  | .lsh c vd va count dir rot => Sys2Proof.Machine.execLsh c vd va count dir rot s
  | .lgath c vd va vb vm => Sys2Proof.Machine.execLgath c vd va vb vm s
  | .vext c sm va lane => Sys2Proof.Machine.execVext c sm va lane s
  | .msum c sm mask kind => Sys2Proof.Machine.execMsum c sm mask kind s
  | .wset c vd base rs => Sys2Proof.Machine.execWset c vd base rs s
  | .wstep c vd count => Sys2Proof.Machine.execWstep c vd count s
  | .tpop c arr g sm => Sys2Proof.Machine.execTpop c arr g sm s
  | .vld c f => Sys2Proof.Machine.execVld c f s
  | .vst c f => Sys2Proof.Machine.execVst c f s
  | .rinit c ctx kind carry va => Sys2Proof.Machine.execRinit c ctx kind carry va s
  | .rfeed c ctx va mask => Sys2Proof.Machine.execRfeed c ctx va mask s
  | .rfeedm c ctx addr rn => Sys2Proof.Machine.execRfeedm c ctx addr rn s
  | .rread c ctx tov vd sm comp => Sys2Proof.Machine.execRread c ctx tov vd sm comp s
  | .mac c arr f => Sys2Proof.Machine.execMac c arr f s
  | .sqd c arr f => Sys2Proof.Machine.execSqd c arr f s
  | .abd c arr f => Sys2Proof.Machine.execAbd c arr f s
  | .minp c arr f => Sys2Proof.Machine.execMinp c arr f s
  | .maxp c arr f => Sys2Proof.Machine.execMaxp c arr f s
  | .wout c arr f => Sys2Proof.Machine.execWout c arr f s
  | .woutg c arr f => Sys2Proof.Machine.execWoutg c arr f s
  | .matrixExecute c arr => Sys2Proof.Machine.execMatrixExecute c arr s
  | .fillDeadlineExpiry c arr => Sys2Proof.Machine.execFillDeadlineExpiry c arr s
  | .tileEnqueue c arr => Sys2Proof.Machine.execTileEnqueue c arr s
  | .nantrapArm req c => Sys2Proof.Machine.execNantrapArm req c s
  | .nantrapClearFired req c => Sys2Proof.Machine.execNantrapClearFired req c s
  | .matBypassWrite req c arr unit valid => Sys2Proof.Machine.execMatBypassWrite req c arr unit valid s
  | .bypassHeldApply c arr => Sys2Proof.Machine.execBypassHeldApply c arr s
  | .sfev c f => Sys2Proof.Machine.execSfev c f s
  | .gact c f => Sys2Proof.Machine.execGact c f s
  | .smaxi c ctx => Sys2Proof.Machine.execSmaxi c ctx s
  | .smaxt c f => Sys2Proof.Machine.execSmaxt c f s
  | .smaxr c ctx smm sms smr => Sys2Proof.Machine.execSmaxr c ctx smm sms smr s
  | .rmsf c ctx entry rn sm eps => Sys2Proof.Machine.execRmsf c ctx entry rn sm eps s
  | .tload c g => Sys2Proof.Machine.execTload c g s
  | .tloadComplete c => Sys2Proof.Machine.execTloadComplete c s
  | .tswitch c => Sys2Proof.Machine.execTswitch c s
  | .cstep c f => Sys2Proof.Machine.execCstep c f s
  | .cadj c f => Sys2Proof.Machine.execCadj c f s
  | .ckgen c blk rt => Sys2Proof.Machine.execCkgen c blk rt s
  | .cset c f => Sys2Proof.Machine.execCset c f s
  | .cget c f => Sys2Proof.Machine.execCget c f s
  | .ccmp c f => Sys2Proof.Machine.execCcmp c f s
  | .cwait c => Sys2Proof.Machine.execCwait c s
  | .creset c id => Sys2Proof.Machine.execCreset c id s
  | .xfer c f => Sys2Proof.Machine.execXfer c f s
  | .gath c f => Sys2Proof.Machine.execGath c f s
  | .transferStart c exec => Sys2Proof.Machine.execTransferStart c exec s
  | .transferComplete c exec k => Sys2Proof.Machine.execTransferComplete c exec k s
  | .pageWalkComplete c exec k => Sys2Proof.Machine.execPageWalkComplete c exec k s
  | .fence c fq eq => Sys2Proof.Machine.execFence c fq eq s
  | .await c ctr rt rd timeout => Sys2Proof.Machine.execAwait c ctr rt rd timeout s
  | .awaitTimeout c => Sys2Proof.Machine.execAwaitTimeout c s
  | .arrset c ctr ra => Sys2Proof.Machine.execArrset c ctr ra s
  | .arrsetSubtract c ctr ra => Sys2Proof.Machine.execArrsetSubtract c ctr ra s
  | .semwait c sem rd timeout => Sys2Proof.Machine.execSemwait c sem rd timeout s
  | .semwaitTimeout c => Sys2Proof.Machine.execSemwaitTimeout c s
  | .sempost c f => Sys2Proof.Machine.execSempost c f s
  | .semset c sem ra => Sys2Proof.Machine.execSemset c sem ra s
  | .semrd c sem rd => Sys2Proof.Machine.execSemrd c sem rd s
  | .keep c k first rb count1 => Sys2Proof.Machine.execKeep c k first rb count1 s
  | .keepClear c k => Sys2Proof.Machine.execKeepClear c k s
  | .meshGranuleArrival k => Sys2Proof.Machine.execMeshGranuleArrival k s
  | .semaphorePostArrival k => Sys2Proof.Machine.execSemaphorePostArrival k s
  | .queueItemArrive k => Sys2Proof.Machine.execQueueItemArrive k s
  | .queueWaitTimeout c => Sys2Proof.Machine.execQueueWaitTimeout c s
  | .guardFailure g => Sys2Proof.Machine.execGuardFailure g s
  | .recoveryDrainComplete c => Sys2Proof.Machine.execRecoveryDrainComplete c s
  | .faultRecordPlace k => Sys2Proof.Machine.execFaultRecordPlace k s
  | .fqheadWrite req v => Sys2Proof.Machine.execFqheadWrite req v s
  | .qcountIncrement c id => Sys2Proof.Machine.execQcountIncrement c id s
  | .qcountDecrement c id => Sys2Proof.Machine.execQcountDecrement c id s
  | .strcmdSwapOut req ent => Sys2Proof.Machine.execStrcmdSwapOut req ent s
  | .strcmdSwapIn req id => Sys2Proof.Machine.execStrcmdSwapIn req id s
  | .swapInStart => Sys2Proof.Machine.execSwapInStart s
  | .swapStateAcknowledged ent => Sys2Proof.Machine.execSwapStateAcknowledged ent s
  | .swapMemoryDone ent err => Sys2Proof.Machine.execSwapMemoryDone ent err s
  | .reswaitExpiry c => Sys2Proof.Machine.execReswaitExpiry c s
  | .sqtailWrite req p v => Sys2Proof.Machine.execSqtailWrite req p v s
  | .submissionEntryRead p words => Sys2Proof.Machine.execSubmissionEntryRead p words s
  | .cqheadWrite req p v => Sys2Proof.Machine.execCqheadWrite req p v s
  | .streamComplete k => Sys2Proof.Machine.execStreamComplete k s
  | .completionEntryWrite p => Sys2Proof.Machine.execCompletionEntryWrite p s
  | .ptinvWrite req v => Sys2Proof.Machine.execPtinvWrite req v s
  | .ptinvDone => Sys2Proof.Machine.execPtinvDone s
  | .dmresumeFetch req c => Sys2Proof.Machine.execDmresumeFetch req c s
  | .dmresumeExec req c => Sys2Proof.Machine.execDmresumeExec req c s
  | .memResponse tierB port id err => Sys2Proof.Machine.execMemResponse tierB port id err s
  | .memRequestExpiry tierB port id => Sys2Proof.Machine.execMemRequestExpiry tierB port id s
  | .portClockLost p => Sys2Proof.Machine.execPortClockLost p s
  | .portClockResumed p => Sys2Proof.Machine.execPortClockResumed p s
  | .targetRequest f => Sys2Proof.Machine.execTargetRequest f s
  | .hostMasterResponse tag err data => Sys2Proof.Machine.execHostMasterResponse tag err data s
  | .registerWrite req off v => Sys2Proof.Machine.execRegisterWrite req off v s
  | .castcmdLoadCasting req => Sys2Proof.Machine.execCastcmdLoadCasting req s
  | .castingLoadComplete img => Sys2Proof.Machine.execCastingLoadComplete img s
  | .castcmdLoadPlating req slot => Sys2Proof.Machine.execCastcmdLoadPlating req slot s
  | .platingLoadComplete img => Sys2Proof.Machine.execPlatingLoadComplete img s
  | .castcmdEvict req slot => Sys2Proof.Machine.execCastcmdEvict req slot s
  | .plswSwitch req slot => Sys2Proof.Machine.execPlswSwitch req slot s
  | .plswOff req parts => Sys2Proof.Machine.execPlswOff req parts s
  | .platingSwitchApply => Sys2Proof.Machine.execPlatingSwitchApply s
  | .subcmdSubstitute req path logical spare => Sys2Proof.Machine.execSubcmdSubstitute req path logical spare s
  | .subcmdMigrate req path logical spare => Sys2Proof.Machine.execSubcmdMigrate req path logical spare s
  | .subcmdSpineRestart req => Sys2Proof.Machine.execSubcmdSpineRestart req s
  | .subcmdReplay req logical => Sys2Proof.Machine.execSubcmdReplay req logical s
  | .substitutionResume => Sys2Proof.Machine.execSubstitutionResume s
  | .spineFailure => Sys2Proof.Machine.execSpineFailure s
  | .paceWindowEnd beats want => Sys2Proof.Machine.execPaceWindowEnd beats want s
  | .paceCheck beats want => Sys2Proof.Machine.execPaceCheck beats want s
  | .vreqWrite req v => Sys2Proof.Machine.execVreqWrite req v s
  | .ceilreqWrite req v => Sys2Proof.Machine.execCeilreqWrite req v s
  | .temperWrite req u v => Sys2Proof.Machine.execTemperWrite req u v s
  | .heldShorteningApply u => Sys2Proof.Machine.execHeldShorteningApply u s
  | .thermalTrip => Sys2Proof.Machine.execThermalTrip s
  | .sensorReading src v => Sys2Proof.Machine.execSensorReading src v s
  | .sensorStale src => Sys2Proof.Machine.execSensorStale src s
  | .coolCondition => Sys2Proof.Machine.execCoolCondition s
  | .qcmdResume req => Sys2Proof.Machine.execQcmdResume req s
  | .patinaMeasurement u rcount temp canary => Sys2Proof.Machine.execPatinaMeasurement u rcount temp canary s
  | .tmpcmdMeasure req u => Sys2Proof.Machine.execTmpcmdMeasure req u s
  | .marginSearchComplete minoff => Sys2Proof.Machine.execMarginSearchComplete minoff s
  | .tmpcmdCommit req u => Sys2Proof.Machine.execTmpcmdCommit req u s
  | .tmpcmdAbort req u => Sys2Proof.Machine.execTmpcmdAbort req u s
  | .deadlineWrite req k word v => Sys2Proof.Machine.execDeadlineWrite req k word v s
  | .deadlineFire k => Sys2Proof.Machine.execDeadlineFire k s
  | .sensorComparatorFire k => Sys2Proof.Machine.execSensorComparatorFire k s
  | .vcoreEnvelopeExcursion => Sys2Proof.Machine.execVcoreEnvelopeExcursion s
  | .referenceLost => Sys2Proof.Machine.execReferenceLost s
  | .referenceResumed => Sys2Proof.Machine.execReferenceResumed s
  | .tbloRead req => Sys2Proof.Machine.execTbloRead req s
  | .pscmdActive req => Sys2Proof.Machine.execPscmdActive req s
  | .pscmdIdle req => Sys2Proof.Machine.execPscmdIdle req s
  | .pscmdRetention req => Sys2Proof.Machine.execPscmdRetention req s
  | .pscmdDeepSleep req => Sys2Proof.Machine.execPscmdDeepSleep req s
  | .wake => Sys2Proof.Machine.execWake s
  | .hostWake => Sys2Proof.Machine.execHostWake s
  | .linkActivity => Sys2Proof.Machine.execLinkActivity s
  | .powerGood => Sys2Proof.Machine.execPowerGood s
  | .coldResetAssert testmode => Sys2Proof.Machine.execColdResetAssert testmode s
  | .coldResetRelease tierA tierB => Sys2Proof.Machine.execColdResetRelease tierA tierB s
  | .blockResetAssert => Sys2Proof.Machine.execBlockResetAssert s
  | .blockResetRelease => Sys2Proof.Machine.execBlockResetRelease s
  | .initComplete => Sys2Proof.Machine.execInitComplete s
  | .otpPgmcmdGo req field => Sys2Proof.Machine.execOtpPgmcmdGo req field s
  | .otpTestProgram field data => Sys2Proof.Machine.execOtpTestProgram field data s
  | .otpProgramComplete ok => Sys2Proof.Machine.execOtpProgramComplete ok s
  | .ldcmdColdLoad req => Sys2Proof.Machine.execLdcmdColdLoad req s
  | .ldcmdHandoffLoad req => Sys2Proof.Machine.execLdcmdHandoffLoad req s
  | .firmwareLoadComplete img accepts => Sys2Proof.Machine.execFirmwareLoadComplete img accepts s
  | .ifverWrite req v => Sys2Proof.Machine.execIfverWrite req v s
  | .cmdAck req v => Sys2Proof.Machine.execCmdAck req v s
  | .cmdEnd req v => Sys2Proof.Machine.execCmdEnd req v s
  | .cmdUpdate req v => Sys2Proof.Machine.execCmdUpdate req v s
  | .cmdPolicy req v => Sys2Proof.Machine.execCmdPolicy req v s
  | .cmdSave req v => Sys2Proof.Machine.execCmdSave req v s
  | .endcmd req lslab core => Sys2Proof.Machine.execEndcmd req lslab core s
  | .wdkick req => Sys2Proof.Machine.execWdkick req s
  | .watchdogExpiry imageBad => Sys2Proof.Machine.execWatchdogExpiry imageBad s
  | .stcmdStart req => Sys2Proof.Machine.execStcmdStart req s
  | .stcmdAbort req => Sys2Proof.Machine.execStcmdAbort req s
  | .selfTestComplete slabs cross hubs => Sys2Proof.Machine.execSelfTestComplete slabs cross hubs s
  | .updcmdStart req apply => Sys2Proof.Machine.execUpdcmdStart req apply s
  | .updateLayerStart => Sys2Proof.Machine.execUpdateLayerStart s
  | .layerUpdateComplete layer => Sys2Proof.Machine.execLayerUpdateComplete layer s
  | .updateStepEnd => Sys2Proof.Machine.execUpdateStepEnd s
  | .frameReceive l bytes bad => Sys2Proof.Machine.execFrameReceive l bytes bad s
  | .dataPacketReceive k => Sys2Proof.Machine.execDataPacketReceive k s
  | .ackReceive k => Sys2Proof.Machine.execAckReceive k s
  | .ackDelayExpiry peer => Sys2Proof.Machine.execAckDelayExpiry peer s
  | .packetVisible k => Sys2Proof.Machine.execPacketVisible k s
  | .packetTransmit peer => Sys2Proof.Machine.execPacketTransmit peer s
  | .retransmitExpiry peer => Sys2Proof.Machine.execRetransmitExpiry peer s
  | .remoteReadTimeout k => Sys2Proof.Machine.execRemoteReadTimeout k s
  | .linkUp l up => Sys2Proof.Machine.execLinkUp l up s
  | .peercmdEvict req peer => Sys2Proof.Machine.execPeercmdEvict req peer s
  | .peercmdFetch req peer => Sys2Proof.Machine.execPeercmdFetch req peer s
  | .peercmdReset req peer => Sys2Proof.Machine.execPeercmdReset req peer s
  | .peerFetchComplete peer err data => Sys2Proof.Machine.execPeerFetchComplete peer err data s
  | .keycmdLoad req slot => Sys2Proof.Machine.execKeycmdLoad req slot s
  | .keycmdErase req slot => Sys2Proof.Machine.execKeycmdErase req slot s
  | .seedcmdLoad req slot => Sys2Proof.Machine.execSeedcmdLoad req slot s
  | .seedcmdErase req slot => Sys2Proof.Machine.execSeedcmdErase req slot s
  | .sealcmdLoad req slot data => Sys2Proof.Machine.execSealcmdLoad req slot data s
  | .sealcmdClear req slot => Sys2Proof.Machine.execSealcmdClear req slot s
  | .sealDeadline slot => Sys2Proof.Machine.execSealDeadline slot s
  | .regcmdInval req region all => Sys2Proof.Machine.execRegcmdInval req region all s
  | .regcmdDone => Sys2Proof.Machine.execRegcmdDone s
  | .powerGoodDeassert => Sys2Proof.Machine.execPowerGoodDeassert s
  | .vaonLoss => Sys2Proof.Machine.execVaonLoss s

end Sys2Proof.Machine
end

