-- ==== Sys2Proof/Safety.lean ====
section
/-! DEFINITION. Safety.lean: what counts as a sound state and a safe run, and the words the statements use: when a core issues, what a
command leaves alone. -/

namespace Sys2Proof.Machine

/-! ### Sound states -/

/-- Every memory of the block is in its canonical form. -/
def State.memWf (s : State) : Prop :=
  Memory.wf s.tierA = true ∧ Memory.wf s.tierB = true ∧ Memory.wf s.hostOut = true ∧ Memory.wf s.mgmt.sram = true

/-- GEN of the map is odd exactly while a map change is in progress (R30). -/
def State.mapSound (s : State) : Prop :=
  s.mapgen % 2 = (match s.subst with | some o => if o.moved then 1 else 0 | none => 0)

/-- Core `c` is not halted. -/
def State.unhalted (s : State) (c : Nat) : Prop := (s.core c).run.halt = none

/-! ### Cores -/

/-- Lanes of the build (R133). -/
def State.lanes (s : State) : Nat := if s.v64 then 64 else 32

/-- Every commit point that core `c` has marked has taken effect, and every effect of an issued instruction that acts in its issue beat
has taken place (R249, R290). -/
abbrev CoreRun.current (r : CoreRun) : Prop := r.marks = [] ∧ r.late = []

/-- Core `c` issues a long word of its own: it works (R39, R55), nothing holds its issue (Table 3 of Programming model), its scoreboard is
not over-full (R242), and no effect waits for a commit point (R290). -/
def State.issues (s : State) (c : Nat) : Prop :=
  s.livePaced c = true ∧ issueHeld (s.core c) = false ∧ (s.core c).run.lsUsed ≤ 64 ∧ (s.core c).run.current

/-- Core `c` issues, no instruction or transfer of it is unfinished, no batch is open, and its region has room for a message (R377). -/
def State.fresh (s : State) (c : Nat) : Prop :=
  s.livePaced c = true ∧ issueHeld (s.core c) = false ∧ (s.core c).run.entries = [] ∧ (s.core c).run.fq = []
    ∧ (s.core c).run.eq = [] ∧ (s.core c).run.batchA = none ∧ (s.core c).run.batchB = none ∧ (s.core c).run.ordinal < maxMsgs
    ∧ (s.core c).run.current

/-- The sequencer's registers of a core after a long word of `n` sequence numbers with TAG 0 and no mark has issued. -/
def CoreRun.issued (r : CoreRun) (n : Nat) : CoreRun :=
  { r with fence := none, cwait := none, lastTag := 0#16, seq := r.seq + n, resSince := none, ranSince := true }

/-- Core `c` after a scalar instruction that writes `v` to SR[`rd`] (R303, R305): nothing else of the block changes. -/
def State.wroteSr (s : State) (c : Nat) (rd : BitVec 5) (v : W64) : State :=
  s.updCore c (fun k => { k with cur := k.cur.setSreg rd.toNat v, run := k.run.issued 1 })

/-- Core `c` after an instruction of another slot that acts at issue: `f` on the architectural state, `g` on the sequencer. -/
def State.actedAt (s : State) (c : Nat) (f : CoreArch → CoreArch) (g : CoreRun → CoreRun := id) : State :=
  s.updCore c (fun k => { k with cur := f k.cur, run := g (k.run.issued 2) })

/-- Nothing of the block changes but core `c` and the count of free values taken. -/
def onlyCore (s t : State) (c : Nat) : Prop := t = { s with cores := t.cores, fc := t.fc } ∧ ∀ d, d ≠ c → t.core d = s.core d

/-- The core after an engine's instruction has issued and run: of the architectural state only what `f` writes, of the rest the
sticky flags, which gain `fl` (R72), and the event counters at the offsets listed (R146). -/
def ranOn (k k' : Core) (fl : Fl) (counters : List Nat) (f : CoreArch → CoreArch) : Prop :=
  k' = { k with cur := f k.cur, run := k.run.issued 2, st := { k.st with fmt := k.st.fmt ||| fl, perf := k'.st.perf } }
    ∧ ∀ o, o ∉ counters → Sp.get 0#32 k'.st.perf o = Sp.get 0#32 k.st.perf o

/-- VEC_BUSY and VEC_WAIT (Table 8 of Vector engine). -/
def vecCounters : List Nat := [0x2010, 0x2014]

/-- A lane operation of core `c` into V`vd` under VM`vm` (R134, R141): every active lane holds its result, every other word of the
operand cache is as before, COR_FMTFLAGS gains the flags of the active lanes, and nothing else of the core's architectural state, and
nothing of the block, changes. -/
def laneResult (s t : State) (c vd vm : Nat) (f : Nat → W32 × Fl) : Prop :=
  let k := s.core c
  let k' := t.core c
  onlyCore s t c
    ∧ ranOn k k' (flAll ((k.cur.active s.lanes vm).map (fun i => (f i).2))) vecCounters (fun a => { a with cache := k'.cur.cache })
    ∧ (∀ i, i < s.lanes →
        k'.cur.lane s.lanes k.cur.win vd i = if k.cur.mbit vm i then (f i).1 else k.cur.lane s.lanes k.cur.win vd i)
    ∧ (∀ w, (∀ i, i < s.lanes → w ≠ laneWord s.lanes k.cur.win vd i) → Sp.get 0#32 k'.cur.cache w = Sp.get 0#32 k.cur.cache w)

/-- A compare of core `c` into VM`md` under VM`vm` (R70, R141): active lanes write their bits, the other bits and masks stay, and VM0
discards the write. -/
def maskResult (s t : State) (c md vm : Nat) (f : Nat → Bool × Fl) : Prop :=
  let k := s.core c
  let k' := t.core c
  onlyCore s t c
    ∧ ranOn k k' (flAll ((k.cur.active s.lanes vm).map (fun i => (f i).2))) vecCounters (fun a => { a with masks := k'.cur.masks })
    ∧ (∀ i, i < s.lanes → md ≠ 0 → k'.cur.mbit md i = if k.cur.mbit vm i then (f i).1 else k.cur.mbit md i)
    ∧ (∀ m, m ≠ md ∨ m = 0 → ∀ i, k'.cur.mbit m i = k.cur.mbit m i)

/-- An engine's instruction that leaves the architectural state `f` gives, with no flags, and nothing else of the block. -/
def archResult (s t : State) (c : Nat) (fl : Fl) (counters : List Nat) (f : CoreArch → CoreArch) : Prop :=
  onlyCore s t c ∧ ranOn (s.core c) (t.core c) fl counters f

/-! ### An engine's instruction in a core with nothing unfinished -/

/-- The local-store ranges an instruction holds on the scoreboard (R242). -/
def Plan.ranges (p : Plan) : Nat :=
  ((p.rd ++ readRanges p.accs).filter isLs).length + ((p.wr ++ writeRanges p.accs).filter isLs).length

/-- The block admits engine instruction `i` of core `c` with plan `p`: its fields and operands pass the checks of issue (R302), the
scoreboard has room (R242), its streams are resident (R221) and their QCOUNT increments admitted (R215), its messages fit (R377). -/
def State.admits (s : State) (c : Nat) (i : Instr) (p : Plan) : Prop :=
  planEng (s.cenv c) (s.core c) (s.core c).st.ls i = some (.go p) ∧ p.ranges ≤ 64 ∧ notResident (s.cenv c) [i] = []
    ∧ admitted (s.core c).run.qadm (streamIds i) = true ∧ (s.core c).run.ordinal + p.msgs ≤ maxMsgs

/-- The entry of instruction `i` with what it captured at issue (R286, R301). -/
def Plan.head (p : Plan) (e : CEnv) (i : Instr) (k : Core) : Entry :=
  { p.entry (k.run.seq + 2) 0#16 i (winAfter e.L i p.sr k.cur.win) with ord := k.run.ordinal }

/-- The core once `i` has entered its engine's queue. -/
def Plan.entered (p : Plan) (e : CEnv) (i : Instr) (r : CRes) : CRes :=
  r.run (fun x => { x.issued 2 with
    entries := [p.head e i r.k], ordinal := x.ordinal + p.msgs, qadm := takeIds x.qadm (streamIds i) })

/-- The block once `i` has entered its engine's queue and run. -/
def State.ran (s : State) (c : Nat) (i : Instr) (p : Plan) (run : ExecF) : State :=
  s.runCore c (fun e r => run e (p.head e i r.k) (p.entered e i r))

/-- The instruction waits for nothing: neither a queue end nor a tile (R143, R288). -/
def State.readyNow (s : State) (c : Nat) (i : Instr) (p : Plan) (ready : ReadyF) : Prop :=
  ready (s.cenv c) (p.head (s.cenv c) i (s.core c)) (p.entered (s.cenv c) i (CRes.of (s.core c) s.fc)).k = true

/-- Multiply `f` of entry `h` has run on array `arr` of core `c` (R92, R104, R111, R117, R120): every covered element is the sum of its
runs, or the combination of its terms, from the held value with ADD or from +0, at the tile's scale; a tile that a sum overflows at
scale 1 ends at 2^-64 with its held values scaled. Every tile not covered, the other array, the local store and the registers stay. -/
def multiplied (s t : State) (c : Nat) (arr : Bool) (op : MOp) (f : MMul) (h : Entry) : Prop :=
  let k := s.core c
  let x := entryRead k f h []
  let tiles := tileCount f.M f.N
  onlyCore s t c
    ∧ (t.core c).st.ls = k.st.ls
    ∧ (t.core c).cur = { k.cur with acc := (t.core c).cur.acc, tflag := (t.core c).cur.tflag, qpop := (t.core c).cur.qpop }
    ∧ (∀ arr' tile, arr' ≠ arr ∨ tile < f.base.toNat ∨ f.base.toNat + tiles ≤ tile → tile < 64 →
        (∀ pos, pos < 256 → (t.core c).cur.accAt arr' tile pos = k.cur.accAt arr' tile pos)
        ∧ (t.core c).cur.tfAt arr' tile = k.cur.tfAt arr' tile)
    ∧ (∀ m n, m < f.M → n < f.N →
        let tile := tileOf f.base.toNat f.N m n
        let sc := (t.core c).cur.tfAt arr tile &&& tfSc != 0#32
        let old := k.cur.accAt arr tile (posOf m n)
        let sc0 := (f.add || decide ((covered f.base.toNat f.M f.N tile).length ≠ 256)) && (k.cur.tfAt arr tile &&& tfSc != 0#32)
        let start := if sc && !sc0 then (scaleHeld old).1 else old
        (t.core c).cur.accAt arr tile (posOf m n)
          = (if op.isCmp then cmpElem x op k.st.ls h.depth m n sc (if f.add then some start else none)
             else sumElem x op k.st.ls h.depth (mmR f.fmt.toNat) m n sc (if f.add then start else 0#32)).t)

/-- Issue of core `c` halts with a fault record of `code` (ACT 2), and nothing of the long word takes effect (R302). -/
def faultsAt (s t : State) (c code : Nat) : Prop :=
  (t.core c).cur = (s.core c).cur ∧ (t.core c).st = (s.core c).st ∧ (t.core c).rp = (s.core c).rp
    ∧ (t.core c).run = { (s.core c).run with halt := some code }
    ∧ (∃ f : FRec, f.code = code ∧ f.act = 2 ∧ f.pslab = c / 32 ∧ f.core = c % 32 ∧ t.fq.offered = s.fq.offered ++ [f])
    ∧ (∀ d, d ≠ c → t.core d = s.core d) ∧ t.tierA = s.tierA ∧ t.tierB = s.tierB ∧ t.regs = s.regs

end Sys2Proof.Machine
end

