-- ==== Sys2Proof/Certificates/Slice0/Obligations.lean ====
section
/-! DEFINITION. Certificates/Slice0/Obligations.lean: the statements for the provers. -/

open Sys2Proof Sys2Proof.Machine

/-! ### The step -/

/-- A step runs the command at the front of the queue on the state with the queue's rest. -/
def Obligations.StepRunsFrontCommand : Prop :=
  ∀ (c : Instr) (q : List Instr) (s : State), step { s with pending := c :: q } = exec c { s with pending := q }

/-- With no command and no target request waiting, one reference edge passes (R440, R443; the idle step is the model's choice, log 50). Firmware's
hourly persistent record (R474) alone writes host memory then. -/
def Obligations.IdleStepCountsTheTimebase : Prop :=
  ∀ s : State, s.pending = [] → s.treqs = [] →
    ∃ t, step s = .next t
      ∧ t = { s with
              aon := { s.aon with tb := if s.boot.cold || s.aon.refLost then s.aon.tb else s.aon.tb + 1 },
              irqs := t.irqs, pwr := t.pwr, fc := t.fc, hostOut := t.hostOut, mgmt := t.mgmt }
      ∧ (s.mgmt.run = false ∨ t.aon.tb < s.mgmt.persistAt + s.us 3600000000 → t.fc = s.fc ∧ t.hostOut = s.hostOut ∧ t.mgmt = s.mgmt)

/-! ### The scalar slot -/

/-- R305, Table 5 of Instruction reference: the register forms of the scalar slot. -/
def Obligations.ScalarRegisterForms : Prop :=
  ∀ (s : State) (c : CoreNo) (rd ra rb : BitVec 5), s.issues c →
    let a := (s.core c).cur.sreg ra.toNat
    let b := (s.core c).cur.sreg rb.toNat
    exec (.add c rd ra rb) s = .next (s.wroteSr c rd (a + b))
    ∧ exec (.sub c rd ra rb) s = .next (s.wroteSr c rd (a - b))
    ∧ exec (.and c rd ra rb) s = .next (s.wroteSr c rd (a &&& b))
    ∧ exec (.or c rd ra rb) s = .next (s.wroteSr c rd (a ||| b))
    ∧ exec (.xor c rd ra rb) s = .next (s.wroteSr c rd (a ^^^ b))
    ∧ exec (.shl c rd ra rb) s = .next (s.wroteSr c rd (a <<< (b.toNat % 64)))
    ∧ exec (.shr c rd ra rb) s = .next (s.wroteSr c rd (a >>> (b.toNat % 64)))
    ∧ exec (.sar c rd ra rb) s = .next (s.wroteSr c rd (a.sshiftRight (b.toNat % 64)))
    ∧ exec (.mul c rd ra rb) s = .next (s.wroteSr c rd (a * b))
    ∧ exec (.slt c rd ra rb) s = .next (s.wroteSr c rd (if a.toInt < b.toInt then 1#64 else 0#64))
    ∧ exec (.sltu c rd ra rb) s = .next (s.wroteSr c rd (if a.toNat < b.toNat then 1#64 else 0#64))
    ∧ exec (.seq c rd ra rb) s = .next (s.wroteSr c rd (if a = b then 1#64 else 0#64))

/-- R305: the immediate forms; IMM is sign-extended to 64 bits (Table 4 of Instruction reference). -/
def Obligations.ScalarImmediateForms : Prop :=
  ∀ (s : State) (c : CoreNo) (rd ra : BitVec 5) (imm : W16), s.issues c →
    let a := (s.core c).cur.sreg ra.toNat
    let b := imm.signExtend 64
    exec (.addi c rd ra imm) s = .next (s.wroteSr c rd (a + b))
    ∧ exec (.subi c rd ra imm) s = .next (s.wroteSr c rd (a - b))
    ∧ exec (.andi c rd ra imm) s = .next (s.wroteSr c rd (a &&& b))
    ∧ exec (.ori c rd ra imm) s = .next (s.wroteSr c rd (a ||| b))
    ∧ exec (.xori c rd ra imm) s = .next (s.wroteSr c rd (a ^^^ b))
    ∧ exec (.shli c rd ra imm) s = .next (s.wroteSr c rd (a <<< (b.toNat % 64)))
    ∧ exec (.shri c rd ra imm) s = .next (s.wroteSr c rd (a >>> (b.toNat % 64)))
    ∧ exec (.sari c rd ra imm) s = .next (s.wroteSr c rd (a.sshiftRight (b.toNat % 64)))
    ∧ exec (.muli c rd ra imm) s = .next (s.wroteSr c rd (a * b))
    ∧ exec (.slti c rd ra imm) s = .next (s.wroteSr c rd (if a.toInt < b.toInt then 1#64 else 0#64))
    ∧ exec (.sltui c rd ra imm) s = .next (s.wroteSr c rd (if a.toNat < b.toNat then 1#64 else 0#64))
    ∧ exec (.seqi c rd ra imm) s = .next (s.wroteSr c rd (if a = b then 1#64 else 0#64))

/-- R303: SR0 reads as zero and discards writes; a write of another register is read back there alone, and changes nothing else. -/
def Obligations.ScalarRegisterFile : Prop :=
  ∀ (s : State) (c : Nat) (rd : BitVec 5) (v : W64) (j : Nat),
    ((s.wroteSr c rd v).core c).cur.sreg j = (if j = 0 then 0#64 else if j = rd.toNat then v else (s.core c).cur.sreg j)
    ∧ onlyCore s (s.wroteSr c rd v) c
    ∧ ((s.wroteSr c rd v).core c).cur = { (s.core c).cur with sr := ((s.wroteSr c rd v).core c).cur.sr }
    ∧ ((s.wroteSr c rd v).core c).st = (s.core c).st

/-- R286, R305, R151: the scalar slot's other forms. MOVSM reads a summary register that is not pending; TBR the timebase; DBASE and
DSET run in partitions of descriptor handles (R34). -/
def Obligations.ScalarMovesAndDescriptors : Prop :=
  ∀ (s : State) (c : CoreNo) (rd ra : BitVec 5) (imm : W32), s.issues c →
    let k := s.core c
    let a := k.cur.sreg ra.toNat
    exec (.li c rd imm) s = .next (s.wroteSr c rd (imm.signExtend 64))
    ∧ exec (.lih c rd imm) s = .next (s.wroteSr c rd (imm ++ (k.cur.sreg rd.toNat).setWidth 32))
    ∧ exec (.tbr c rd) s = .next (s.wroteSr c rd (BitVec.ofNat 64 s.aon.tb))
    ∧ (∀ sm : BitVec 3, k.run.smPending sm.toNat = false →
        exec (.movsm c rd sm) s = .next (s.wroteSr c rd ((k.cur.smreg sm.toNat).setWidth 64)))
    ∧ (∀ w : W16, (s.cenv c).qends = false →
        exec (.dbase c ra w) s = .next (s.updCore c (fun k =>
          { k with cur := { k.cur with dbase := (a + w.signExtend 64).toNat }, run := k.run.issued 1 })))
    ∧ (∀ (h : BitVec 10) (w : BitVec 3), (s.cenv c).qends = false → k.run.entries = [] → k.run.fq = [] → k.run.eq = [] →
        descAddr k h.toNat + 32 ≤ 196608 → inKept k.cur.kept ((descAddr k h.toNat + 4 * w.toNat) / 32) = false →
        exec (.dset c h w ra) s = .next (s.updCore c (fun k =>
          { k with st := { k.st with
                     ls := Memory.setW32 k.st.ls (descAddr k h.toNat + 4 * w.toNat) (a.setWidth 32),
                     landing := k.st.landing.erase ((descAddr k h.toNat + 4 * w.toNat) / 32) },
                   run := k.run.issued 1 })))

/-- R285, R302, R306: a branch whose condition holds discards what was fetched and goes on at its target (the streams that the discarded
long words name are not queued any more, R215); one whose condition fails only
issues. A reserved condition, a misaligned target, or a taken target at or beyond LEN faults at issue. -/
def Obligations.Branches : Prop :=
  ∀ (s : State) (c : CoreNo) (cond : BitVec 3) (ra rb : BitVec 5) (target : W32), s.issues c →
    let a := (s.core c).cur.sreg ra.toNat
    let b := (s.core c).cur.sreg rb.toNat
    let holds : Prop := (cond = 0#3) ∨ (cond = 1#3 ∧ a = b) ∨ (cond = 2#3 ∧ a ≠ b) ∨ (cond = 3#3 ∧ a.toInt < b.toInt)
      ∨ (cond = 4#3 ∧ b.toInt ≤ a.toInt) ∨ (cond = 5#3 ∧ a.toNat < b.toNat) ∨ (cond = 6#3 ∧ b.toNat ≤ a.toNat)
    (cond ≠ 7#3 → target.toNat % 4 = 0 →
      (holds → target.toNat < streamLen (s.core c) →
        exec (.br c cond ra rb target) s = .next (s.updCore c (fun k =>
          { k with run := { k.run.issued 1 with
              qdec := k.run.qdec ++ queuedIds s.v64 k.run.iq 512 ++ k.run.qadm, qadm := [], iq := [], pre := [], fetch := none,
              iqOff := target.toNat, branch := some target.toNat } })))
      ∧ (¬ holds → exec (.br c cond ra rb target) s = .next (s.updCore c (fun k => { k with run := k.run.issued 1 })))
      ∧ (holds → streamLen (s.core c) ≤ target.toNat → ∃ t, exec (.br c cond ra rb target) s = .next t ∧ faultsAt s t c 0x4D))
    ∧ (cond = 7#3 → ∃ t, exec (.br c cond ra rb target) s = .next t ∧ faultsAt s t c 0x10)
    ∧ (cond ≠ 7#3 → target.toNat % 4 ≠ 0 → ∃ t, exec (.br c cond ra rb target) s = .next t ∧ faultsAt s t c 0x4E)

/-! ### The vector slot -/

/-- R134, R135, R141, R71, R72, R307: the FP32 lane instructions. Every active lane holds its result, read under R65 and rounded once
under RM; inactive lanes, every other word of the operand cache and everything else stay; the active lanes' flags are sticky. -/
def Obligations.VectorFloatLanes : Prop :=
  ∀ (s : State) (c : CoreNo) (vd va vb vc : BitVec 5) (vm : BitVec 3) (rm : BitVec 2), s.fresh c →
    let k := (s.core c).cur
    let x (v : BitVec 5) (i : Nat) : W32 := k.lane s.lanes k.win v.toNat i
    let m := RM.ofCode rm.toNat
    let holds (i : Instr) (f : Nat → W32 × Fl) : Prop := ∃ t, exec i s = .next t ∧ laneResult s t c vd.toNat vm.toNat f
    holds (.fadd c vd va vb vm rm) (fun i => fp32Op2 m (FV.add m) (x va i) (x vb i))
    ∧ holds (.fsub c vd va vb vm rm) (fun i => fp32Op2 m (FV.sub m) (x va i) (x vb i))
    ∧ holds (.fmul c vd va vb vm rm) (fun i => fp32Op2 m FV.mul (x va i) (x vb i))
    ∧ holds (.ffma c vd va vb vc vm rm) (fun i => fp32Fma m (x va i) (x vb i) (x vc i))
    ∧ holds (.fabs c vd va vm) (fun i => fp32Un FV.abs (x va i))
    ∧ holds (.fneg c vd va vm) (fun i => fp32Un FV.neg (x va i))
    ∧ holds (.fmin c vd va vb vm) (fun i => fp32Op2 .rne FV.min (x va i) (x vb i))
    ∧ holds (.fmax c vd va vb vm) (fun i => fp32Op2 .rne FV.max (x va i) (x vb i))
    ∧ holds (.cvtfi c vd va vm rm) (fun i => cvtFI m (x va i))
    ∧ holds (.cvtif c vd va vm rm) (fun i => cvtIF m (x va i))

/-- R135, R134, R141: the integer lane instructions on 32 bits; they set no flag. -/
def Obligations.VectorIntegerLanes : Prop :=
  ∀ (s : State) (c : CoreNo) (vd va vb : BitVec 5) (vm : BitVec 3), s.fresh c →
    let k := (s.core c).cur
    let a (i : Nat) : W32 := k.lane s.lanes k.win va.toNat i
    let b (i : Nat) : W32 := k.lane s.lanes k.win vb.toNat i
    let holds (i : Instr) (f : Nat → W32) : Prop :=
      ∃ t, exec i s = .next t ∧ laneResult s t c vd.toNat vm.toNat (fun i => (f i, 0#6))
    holds (.iadd c vd va vb vm) (fun i => a i + b i)
    ∧ holds (.isub c vd va vb vm) (fun i => a i - b i)
    ∧ holds (.imul c vd va vb vm) (fun i => a i * b i)
    ∧ holds (.imin c vd va vb vm) (fun i => if (a i).toInt < (b i).toInt then a i else b i)
    ∧ holds (.imax c vd va vb vm) (fun i => if (a i).toInt < (b i).toInt then b i else a i)
    ∧ holds (.iand c vd va vb vm) (fun i => a i &&& b i)
    ∧ holds (.ior c vd va vb vm) (fun i => a i ||| b i)
    ∧ holds (.ixor c vd va vb vm) (fun i => a i ^^^ b i)
    ∧ holds (.ishl c vd va vb vm) (fun i => a i <<< ((b i).toNat % 32))
    ∧ holds (.ishr c vd va vb vm) (fun i => a i >>> ((b i).toNat % 32))
    ∧ holds (.isar c vd va vb vm) (fun i => (a i).sshiftRight ((b i).toNat % 32))

/-- R70, R141: compares write the active lanes' bits of VM[MD]; a NaN compares false, but for FCNE, which is the complement of FCEQ. -/
def Obligations.VectorCompares : Prop :=
  ∀ (s : State) (c : CoreNo) (md vm : BitVec 3) (va vb : BitVec 5), s.fresh c →
    let k := (s.core c).cur
    let a (i : Nat) : FV × Fl := FFmt.fp32.read (k.lane s.lanes k.win va.toNat i).toNat
    let b (i : Nat) : FV × Fl := FFmt.fp32.read (k.lane s.lanes k.win vb.toNat i).toNat
    let holds (i : Instr) (f : FV → FV → Bool) : Prop :=
      ∃ t, exec i s = .next t ∧ maskResult s t c md.toNat vm.toNat (fun i => (f (a i).1 (b i).1, (a i).2 ||| (b i).2))
    holds (.fceq c md va vb vm) (fun x y => !x.isNan && !y.isNan && FV.cmp x y == .eq)
    ∧ holds (.fclt c md va vb vm) (fun x y => !x.isNan && !y.isNan && FV.cmp x y == .lt)
    ∧ holds (.fcle c md va vb vm) (fun x y => !x.isNan && !y.isNan && (FV.cmp x y != .gt))
    ∧ holds (.fcne c md va vb vm) (fun x y => x.isNan || y.isNan || FV.cmp x y != .eq)

/-- R307, R141: selections, broadcasts, gathers and shifts of whole lanes, without flags. FSEL and LSH write every lane; LGATH takes lane
b mod L of VA; LSH fills with +0, or rotates. -/
def Obligations.VectorMoves : Prop :=
  ∀ (s : State) (c : CoreNo) (vd va vb : BitVec 5) (vm : BitVec 3), s.fresh c →
    let k := (s.core c).cur
    let L := s.lanes
    let a (i : Nat) : W32 := k.lane L k.win va.toNat i
    let b (i : Nat) : W32 := k.lane L k.win vb.toNat i
    let holds (i : Instr) (m : Nat) (f : Nat → W32) : Prop :=
      ∃ t, exec i s = .next t ∧ laneResult s t c vd.toNat m (fun i => (f i, 0#6))
    holds (.fsel c vd va vb vm) 0 (fun i => if k.mbit vm.toNat i then a i else b i)
    ∧ (∀ sm : BitVec 3, holds (.bcsm c vd sm vm) vm.toNat (fun _ => k.smreg sm.toNat))
    ∧ (∀ ra : BitVec 5, holds (.bcsr c vd ra vm) vm.toNat (fun _ => (k.sreg ra.toNat).setWidth 32))
    ∧ holds (.lgath c vd va vb vm) vm.toNat (fun i => a ((b i).toNat % L))
    ∧ (∀ (n : BitVec 6) (dir rot : Bool), 0 < n.toNat → n.toNat < L →
        holds (.lsh c vd va n dir rot) 0 (fun i =>
          if dir then (if i + n.toNat < L then a (i + n.toNat) else if rot then a (i + n.toNat - L) else 0#32)
          else (if n.toNat ≤ i then a (i - n.toNat) else if rot then a (i + L - n.toNat) else 0#32)))

/-- R150, R137, Table 4 of Vector engine: VEXT and MSUM write their summary register; WSET and WSTEP move the window base of V[VD] alone,
modulo 512 granules. Nothing else changes. -/
def Obligations.VectorSummariesAndWindows : Prop :=
  ∀ (s : State) (c : CoreNo), s.fresh c →
    let k := (s.core c).cur
    let L := s.lanes
    (∀ (sm : BitVec 3) (va : BitVec 5) (l : BitVec 6), l.toNat < L →
      ∃ t, exec (.vext c sm va l) s = .next t
        ∧ archResult s t c 0#6 vecCounters (fun a => a.setSm sm.toNat (k.lane L k.win va.toNat l.toNat)))
    ∧ (∀ (sm mask : BitVec 3) (kind : BitVec 2),
      let on := (List.range L).filter (fun i => k.mbit mask.toNat i)
      let v : W32 := match kind.toNat with
        | 0 => if on = [] then 0#32 else 1#32
        | 1 => if on.length = L then 1#32 else 0#32
        | 2 => BitVec.ofNat 32 on.length
        | _ => match on with
          | i :: _ => BitVec.ofNat 32 i
          | [] => 0xFFFFFFFF#32
      ∃ t, exec (.msum c sm mask kind) s = .next t ∧ archResult s t c 0#6 vecCounters (fun a => a.setSm sm.toNat v))
    ∧ (∀ (vd rs : BitVec 5) (b : BitVec 9),
      ∃ t, exec (.wset c vd b rs) s = .next t ∧ archResult s t c 0#6 vecCounters (fun a => { a with win := (t.core c).cur.win })
        ∧ winBase L (t.core c).cur.win vd.toNat = (b.toNat + (k.sreg rs.toNat).toNat) % 512
        ∧ ∀ v, v ≠ vd.toNat → winBase L (t.core c).cur.win v = winBase L k.win v)
    ∧ (∀ (vd : BitVec 5) (n : BitVec 10),
      ∃ t, exec (.wstep c vd n) s = .next t ∧ archResult s t c 0#6 vecCounters (fun a => { a with win := (t.core c).cur.win })
        ∧ (winBase L (t.core c).cur.win vd.toNat : Int) = ((winBase L k.win vd.toNat : Int) + n.toInt) % 512
        ∧ ∀ v, v ≠ vd.toNat → winBase L (t.core c).cur.win v = winBase L k.win v)

/-- R308, R147 to R149, R144, R288: a load, a store, a reduction or a TPOP that issue admits runs at once where it waits for neither a
queue end nor a tile. -/
def Obligations.VectorMemoryRuns : Prop :=
  ∀ (s : State) (c : CoreNo), s.fresh c →
    let runs (i : Instr) (ready : ReadyF) (run : ExecF) : Prop :=
      ∀ p, s.admits c i p → s.readyNow c i p ready → exec i s = .next (s.ran c i p run)
    (∀ f, runs (.vld c f) popReady (vldRun f))
    ∧ (∀ f, runs (.vst c f) always (vstRun f))
    ∧ (∀ ctx kind carry va, runs (.rinit c ctx kind carry va) always (rinitRun ctx.toNat kind.toNat carry va.toNat))
    ∧ (∀ ctx va m, runs (.rfeed c ctx va m) always (rfeedRun ctx.toNat va.toNat m.toNat))
    ∧ (∀ ctx a rn, runs (.rfeedm c ctx a rn) always (rfeedmRun ctx.toNat a.toNat))
    ∧ (∀ ctx tov vd sm comp, runs (.rread c ctx tov vd sm comp) always (rreadRun ctx.toNat tov vd.toNat sm.toNat comp.toNat))
    ∧ (∀ arr g sm, runs (.tpop c arr g sm) (tpopReady arr) (tpopRun arr g.toNat sm.toNat))

/-- R308, R234, R231: contiguous loads and FP32 stores of the local store. A load reads L elements of the format's width from byte
4 x (ADDR + SR) on; a store writes exactly its 4 x L bytes. -/
def Obligations.VectorContiguousMemory : Prop :=
  ∀ (s : State) (c : CoreNo) (f : VMem), s.fresh c → f.d = false → f.mode = 0#2 →
    let k := s.core c
    let L := s.lanes
    let a := 4 * (f.w1.toNat % 65536 + (k.cur.sreg f.ra.toNat).toNat % 65536)
    let w := fmtBits f.fmt.toNat / 8
    (f.fmt.toNat ≤ 3 → a + L * w ≤ 196608 →
      ∃ t, exec (.vld c f) s = .next t
        ∧ laneResult s t c f.v.toNat 0 (fun i =>
            loadFp32 f.fmt.toNat (RM.ofCode (f.modx.toNat % 4)) 0 (Memory.nat k.st.ls (a + i * w) w)))
    ∧ (f.fmt = 0#3 → a + 4 * L ≤ 196608 → (∀ g, a / 32 ≤ g → g ≤ (a + 4 * L - 1) / 32 → inKept k.cur.kept g = false) →
      ∃ t, exec (.vst c f) s = .next t ∧ onlyCore s t c
        ∧ t.core c = { k with run := k.run.issued 2, st := { k.st with
            ls := (t.core c).st.ls, perf := (t.core c).st.perf, landing := (t.core c).st.landing } }
        ∧ (∀ i, i < L → Memory.w32 (t.core c).st.ls (a + 4 * i) = k.cur.lane L k.cur.win f.v.toNat i)
        ∧ (∀ b, b < a ∨ a + 4 * L ≤ b → Memory.byte (t.core c).st.ls b = Memory.byte k.st.ls b))

/-- R147, R148, R149: reduction contexts. RINIT without a carry empties the context; RFEED feeds the active lanes in ascending order;
RREAD delivers the components from lane 0, or one of them to a summary register. -/
def Obligations.ReductionContexts : Prop :=
  ∀ (s : State) (c : CoreNo) (ctx : BitVec 2) (va : BitVec 5), s.fresh c →
    let k := (s.core c).cur
    let cx := nthD k.rctx ctx.toNat {}
    (∀ kind : BitVec 3, kind ≠ 7#3 →
      ∃ t, exec (.rinit c ctx kind false va) s = .next t
        ∧ archResult s t c 0#6 vecCounters (fun a => a.setRctx ctx.toNat { kind := kind.toNat }))
    ∧ (∀ vm : BitVec 3,
      let xs := (k.active s.lanes vm.toNat).map (fun i => k.lane s.lanes k.win va.toNat i)
      let r := feedAll cx xs
      (cx.kind = 0 → r = (let f := xs.foldl (fun (p : W32 × Fl) x =>
          let q := fp32Op2 .rne (FV.add .rne) p.1 x
          (q.1, p.2 ||| q.2)) (cx.a, 0#6)
        ({ cx with a := f.1 }, f.2, false)))
      ∧ (r.2.2 = false → ∃ t, exec (.rfeed c ctx va vm) s = .next t
          ∧ archResult s t c r.2.1 vecCounters (fun a => a.setRctx ctx.toNat r.1)))
    ∧ (∀ (vd : BitVec 5) (sm comp : BitVec 3),
      let cs := rctxComps cx
      (∃ t, exec (.rread c ctx true vd sm comp) s = .next t ∧ onlyCore s t c
        ∧ (∀ i, i < s.lanes → (t.core c).cur.lane s.lanes k.win vd.toNat i = (nthD cs i (0#32, 0#6)).1)
        ∧ (t.core c).cur.rctx = k.rctx ∧ (t.core c).st.ls = (s.core c).st.ls)
      ∧ (comp.toNat < kindComps cx.kind → ∃ t, exec (.rread c ctx false vd sm comp) s = .next t
        ∧ archResult s t c (nthD cs comp.toNat (0#32, 0#6)).2 vecCounters
            (fun a => a.setSm sm.toNat (nthD cs comp.toNat (0#32, 0#6)).1)))
    ∧ (∀ (arr : Bool) (g : BitVec 9) (sm : BitVec 3),
      (∀ tile rest, k.fin arr = tile :: rest → ∃ t, exec (.tpop c arr g sm) s = .next t
        ∧ archResult s t c 0#6 vecCounters (fun a =>
            ((a.setFin arr rest).setCache g.toNat
              (if tile.fmt = 0 then tile.elems.map (BitVec.ofNat 32) else pack16 tile.elems)).setSm sm.toNat tile.flag))
      ∧ (k.fin arr = [] → ∃ t, exec (.tpop c arr g sm) s = .next t ∧ (t.core c).cur = k
        ∧ (t.core c).run.entries.map (·.instr) = [.tpop c arr g sm]))

/-- R302: an engine's instruction that fails a check of issue halts issue with its code, and nothing of it takes effect. -/
def Obligations.EngineFaultsAtIssue : Prop :=
  ∀ (s : State) (c : CoreNo) (code : Nat), s.livePaced c = true → issueHeld (s.core c) = false → (s.core c).run.entries = [] →
    (s.core c).run.current →
    let refuses (i : Instr) : Prop :=
      planEng (s.cenv c) (s.core c) (s.core c).st.ls i = some (.fault code) → ∃ t, exec i s = .next t ∧ faultsAt s t c code
    (∀ f, refuses (.vld c f)) ∧ (∀ f, refuses (.vst c f)) ∧ (∀ a b d, refuses (.vext c a b d))
    ∧ (∀ a b d e f, refuses (.lsh c a b d e f)) ∧ (∀ a b d e, refuses (.rinit c a b d e)) ∧ (∀ a b d, refuses (.rfeedm c a b d))
    ∧ (∀ arr f, refuses (.mac c arr f)) ∧ (∀ arr f, refuses (.sqd c arr f)) ∧ (∀ arr f, refuses (.abd c arr f))
    ∧ (∀ arr f, refuses (.minp c arr f)) ∧ (∀ arr f, refuses (.maxp c arr f))
    ∧ (∀ arr f, refuses (.wout c arr f)) ∧ (∀ arr f, refuses (.woutg c arr f))
    ∧ (∀ f, refuses (.sfev c f)) ∧ (∀ f, refuses (.gact c f)) ∧ (∀ f, refuses (.smaxt c f)) ∧ (∀ g, refuses (.tload c g))
    ∧ (∀ a b d e f, refuses (.rmsf c a b d e f))
    ∧ (∀ f, refuses (.cstep c f)) ∧ (∀ f, refuses (.cadj c f))
    ∧ (∀ b r, refuses (.ckgen c b r)) ∧ (∀ f, refuses (.cset c f)) ∧ (∀ f, refuses (.cget c f))
    ∧ (∀ f, refuses (.ccmp c f)) ∧ (∀ id, refuses (.creset c id))

/-! ### The matrix slots -/

/-- R92, R105, R107, R118, R203, R143: a matrix instruction that issue admits and that waits for no queue end runs at once; a BATCH one
opens a batch with its fill deadline where none is open. -/
def Obligations.MatrixRuns : Prop :=
  ∀ (s : State) (c : CoreNo) (arr : Bool) (f : MMul) (g : WOut) (p : Plan), s.fresh c →
    let multiplies (i : Instr) (op : MOp) : Prop := s.admits c i p →
      (f.batch = false → s.readyNow c i p popReady → exec i s = .next (s.ran c i p (mmulRun arr op f)))
      ∧ (f.batch = true → (s.cenv c).fillDl ≠ 0 → exec i s = .next (s.updCore c (fun k =>
          let r := (p.entered (s.cenv c) i (CRes.of k s.fc)).k.run
          let col := { p.head (s.cenv c) i k with group := some r.nextGroup }
          let deadline := s.aon.tb + (s.cenv c).ticks (s.cenv c).fillDl
          { k with run := ({ r with nextGroup := r.nextGroup + 1, entries := [col] } : CoreRun).setBatch arr
                            (some (r.nextGroup, deadline)) })))
    multiplies (.mac c arr f) .mac ∧ multiplies (.sqd c arr f) .sqd ∧ multiplies (.abd c arr f) .abd
    ∧ multiplies (.minp c arr f) .minp ∧ multiplies (.maxp c arr f) .maxp
    ∧ (s.admits c (.wout c arr g) p → s.readyNow c (.wout c arr g) p popReady →
        exec (.wout c arr g) s = .next (s.ran c (.wout c arr g) p (woutRun false arr g)))
    ∧ (s.admits c (.woutg c arr g) p → s.readyNow c (.woutg c arr g) p popReady →
        exec (.woutg c arr g) s = .next (s.ran c (.woutg c arr g) p (woutRun true arr g)))

/-- R111, R117, R120, R125, R89, R104: what a matrix multiply leaves in the accumulator. Every covered element is the sum of its runs, or of
MINP and MAXP the combination of its terms, from the held value with ADD or from +0, at the tile's scale; a tile whose sums overflow at
scale 1 ends at 2^-64 with its held values scaled. Every tile not covered, the other array, the local store and the registers stay. -/
def Obligations.MatrixAccumulators : Prop :=
  ∀ (s : State) (c : CoreNo) (arr : Bool) (f : MMul) (p : Plan), s.fresh c → f.batch = false →
    (s.core c).st.nantrap.getLsbD 0 = false →
    let leaves (i : Instr) (op : MOp) : Prop := s.admits c i p → s.readyNow c i p popReady →
      ∃ t, exec i s = .next t ∧ multiplied s t c arr op f (p.head (s.cenv c) i (s.core c))
    leaves (.mac c arr f) .mac ∧ leaves (.sqd c arr f) .sqd ∧ leaves (.abd c arr f) .abd
    ∧ leaves (.minp c arr f) .minp ∧ leaves (.maxp c arr f) .maxp

/-- R92, R106, R107, R143: the arrays' own events. MATRIX_EXECUTE runs the multiply at the head of its queue once the items it pops have
arrived, and leaves it waiting until then; the fill deadline closes the open batch and counts it, and changes nothing before it passes;
TILE_ENQUEUE enters as many of a waiting write-out's tiles, in order, as the finished-tile queue has room for, and the write-out is
finished with its last. -/
def Obligations.MatrixEvents : Prop :=
  ∀ (s : State) (c : CoreNo) (arr : Bool), s.livePaced c = true → (s.core c).run.current →
    let k := s.core c
    (∀ (h : Entry) (op : MOp) (f : MMul), k.run.entries = [h] → h.eng = .arr arr → h.group = none → h.dead = false → h.pushes = [] →
      k.run.fq = [] → k.run.eq = [] → k.run.batch arr = none → asMMul h.instr = some (arr, op, f) → f.batch = false →
      f.base.toNat + tileCount f.M f.N ≤ 64 →
      (popsReady k h.pops = true → k.st.nantrap.getLsbD 0 = false → ∃ t, exec (.matrixExecute c arr) s = .next t
        ∧ multiplied s t c arr op f h ∧ (t.core c).run.entries = [])
      ∧ (popsReady k h.pops = false → ∃ t, exec (.matrixExecute c arr) s = .next t ∧ onlyCore s t c
        ∧ t.core c = { k with run := { k.run with entries := [{ h with deadline := waitDeadline (s.cenv c) h.deadline }] } }))
    ∧ (∀ (g dl : Nat), k.run.batch arr = some (g, dl) → s.aon.refLost = false →
      (dl ≤ s.aon.tb → ∃ t, exec (.fillDeadlineExpiry c arr) s = .next t ∧ (t.core c).run.batch arr = none
        ∧ (t.core c).run.batch (!arr) = k.run.batch (!arr)
        ∧ Sp.get 0#32 (t.core c).st.perf (arrOff arr + 0x20) = Sp.get 0#32 k.st.perf (arrOff arr + 0x20) + 1#32
        ∧ t = s.runCore c (fun e r => runGroup e arr (closeBatch arr (r.bump (arrOff arr + 0x20) 1))))
      ∧ (s.aon.tb < dl → ∃ t, exec (.fillDeadlineExpiry c arr) s = .next t ∧ t.core c = k ∧ onlyCore s t c))
    ∧ (∀ (h : Entry) (f : WOut), headEntry (.wq arr) k.run.entries = some h → h.instr = .wout c arr f → f.wide = false →
        h.prog < tileCount f.M f.N →
        let fm := (fmtFloat f.dfmt.toNat).getD .fp32
        let n := Nat.min (4 - (k.cur.fin arr).length) (tileCount f.M f.N - h.prog)
        let elems (i : Nat) : List Nat := (List.range 256).map (fun pos =>
          (fm.write (RM.ofCode f.rm.toNat) (tileValue k.cur arr (f.base.toNat + h.prog + i) pos FV.one)).1)
        ∃ t new, exec (.tileEnqueue c arr) s = .next t ∧ onlyCore s t c ∧ (t.core c).cur.acc = k.cur.acc
          ∧ (t.core c).cur.fin arr = k.cur.fin arr ++ new ∧ (t.core c).cur.fin (!arr) = k.cur.fin (!arr)
          ∧ new.map FinTile.fmt = List.replicate n f.dfmt.toNat ∧ new.map FinTile.elems = (List.range n).map elems
          ∧ (h.prog + n = tileCount f.M f.N → (t.core c).run.entries = k.run.entries.filter (fun e => e.seq ≠ h.seq))
          ∧ (h.prog + n < tileCount f.M f.N → (∃ e ∈ (t.core c).run.entries, e.seq = h.seq ∧ e.prog = h.prog + n)
              ∧ (t.core c).run.entries.map (·.seq) = k.run.entries.map (·.seq)))

/-- R118, R119, R66: a plain write-out of FP32 tiles to a descriptor stores, for every covered element, the held value at the tile's
scale, rounded once under RM, and stores nowhere else; the accumulator elements stay. -/
def Obligations.WriteOutStores : Prop :=
  ∀ (s : State) (c : CoreNo) (arr : Bool) (f : WOut) (p : Plan) (d : Opnd), s.fresh c → s.admits c (.wout c arr f) p →
    f.dq = false → f.wide = false → p.ops = [d] → d.qend = none → d.fmt = 0 → 4 * f.N ≤ d.pitch →
    let k := s.core c
    let at_ (m n : Nat) : Nat := d.eb + d.pitch * m + 4 * n
    let value (m n : Nat) : FV :=
      let tile := tileOf f.base.toNat f.N m n
      let v := (FFmt.fp32.read (k.cur.accAt arr tile (posOf m n)).toNat).1
      FV.mul (v.scale (if k.cur.tfAt arr tile &&& tfSc != 0#32 then 64 else 0)) FV.one
    ∃ t, exec (.wout c arr f) s = .next t ∧ onlyCore s t c ∧ (t.core c).cur.acc = k.cur.acc
      ∧ (∀ m n, m < f.M → n < f.N →
          Memory.nat (t.core c).st.ls (at_ m n) 4 = (FFmt.fp32.write (RM.ofCode f.rm.toNat) (value m n)).1 % 2 ^ 32)
      ∧ (∀ b, (∀ m n, m < f.M → n < f.N → b < at_ m n ∨ at_ m n + 4 ≤ b) →
          Memory.byte (t.core c).st.ls b = Memory.byte k.st.ls b)

/-- R127, R13, R110: the arrays' control registers. ARM arms the trap and keeps FIRED; writing 1 to FIRED clears it alone. MAT_BYPASS
takes effect at once in a core in reset or halted for recovery, else is held, and a unit once bypassed stays (R110); a held write
takes effect when the core halts for recovery. -/
def Obligations.MatrixRegisters : Prop :=
  ∀ (s : State) (req : Requester) (c : CoreNo) (arr : Bool) (u : BitVec 3), s.slabAnswers (c.val / 32) = true →
    let k := s.core c
    exec (.nantrapArm req c) s = .next (s.updSt c (fun x => { x with nantrap := x.nantrap ||| 1#32 }))
    ∧ exec (.nantrapClearFired req c) s = .next (s.updSt c (fun x => { x with nantrap := x.nantrap &&& ~~~2#32 }))
    ∧ ((k.st.byp arr).getLsbD 3 = false → k.st.hold arr = none →
        (bypassNow k.run = true → ∃ t, exec (.matBypassWrite .mgmt c arr u true) s = .next t
          ∧ (t.core c).st.byp arr = BitVec.ofNat 32 (u.toNat + 24) ∧ onlyCore s t c)
        ∧ (bypassNow k.run = false → ∃ t, exec (.matBypassWrite .mgmt c arr u true) s = .next t
          ∧ (t.core c).st.byp arr = k.st.byp arr ∧ (t.core c).st.hold arr = some u.toNat ∧ onlyCore s t c))
    ∧ ((k.st.byp arr).getLsbD 3 = true → exec (.matBypassWrite .mgmt c arr u true) s = .next s)
    ∧ (∀ v : Nat, k.st.hold arr = some v → bypassNow k.run = true → ∃ t, exec (.bypassHeldApply c arr) s = .next t
        ∧ (t.core c).st.byp arr = BitVec.ofNat 32 (v + 24) ∧ (t.core c).st.hold arr = none ∧ onlyCore s t c)

/-! ### The special-function slot -/

/-- R156, R157, R160 to R174, R312: a special-function instruction that issue admits runs at once; TLOAD marks its bank invalid while the
image is written, and once complete the bank holds the 201 granules and is valid exactly where the image passes validation. -/
def Obligations.SpecialFunctionRuns : Prop :=
  ∀ (s : State) (c : CoreNo) (p : Plan), s.fresh c →
    let runs (i : Instr) (run : ExecF) : Prop := s.admits c i p → exec i s = .next (s.ran c i p run)
    (∀ f, runs (.sfev c f) (sfevRun f)) ∧ (∀ f, runs (.gact c f) (gactRun f)) ∧ (∀ f, runs (.smaxt c f) (smaxtRun f))
    ∧ (∀ ctx a b d, runs (.smaxr c ctx a b d) (smaxrRun ctx.toNat a.toNat b.toNat d.toNat))
    ∧ (∀ ctx en rn sm eps, runs (.rmsf c ctx en rn sm eps) (rmsfRun ctx.toNat en.toNat sm.toNat eps))
    ∧ (∀ ctx : BitVec 2, ∃ t, exec (.smaxi c ctx) s = .next t ∧ archResult s t c 0#6 [0x2014]
        (fun a => a.setSmctx ctx.toNat { m := 0xFF800000#32, s := 0#32 }))
    ∧ exec (.tswitch c) s = .next (s.actedAt c (fun a => { a with bankAct := !a.bankAct }))
    ∧ (∀ g, s.admits c (.tload c g) p → ∃ t, exec (.tload c g) s = .next t ∧ onlyCore s t c
        ∧ ((t.core c).cur.bankOf p.bank).valid = false
        ∧ (t.core c).cur = (s.core c).cur.setBank p.bank ((t.core c).cur.bankOf p.bank)
        ∧ (t.core c).st = (s.core c).st)

/-- R157, R167: TLOAD_COMPLETE, for a started table load at the head of the load path. -/
def Obligations.TableLoadCompletes : Prop :=
  ∀ (s : State) (c : CoreNo) (h : Entry) (g : BitVec 13), s.livePaced c = true → (s.core c).run.current →
    headEntry .tload (s.core c).run.entries = some h → h.instr = .tload c g → h.prog = 1 →
    let k := s.core c
    let img := lsPut [] 0 (lsBytesAt k.st.ls (32 * g.toNat) 6432)
    let ok := imageValid (fun a n => Memory.nat img a n)
    ∃ t, exec (.tloadComplete c) s = .next t
      ∧ (t.core c).cur = k.cur.setBank h.bank { img := img, valid := ok, id := if ok then Memory.w32 img 4 else 0#32 }
      ∧ (t.core c).run.entries = k.run.entries.filter (fun e => e.seq ≠ h.seq)
      ∧ (t.core c).st = { k.st with landing := (t.core c).st.landing }
      ∧ (ok = true → t.fq = s.fq)
      ∧ (ok = false → ∃ r : FRec, r.code = 0x1A ∧ r.act = 0 ∧ t.fq.offered = s.fq.offered ++ [r])

/-- R158, R159, R171 to R173: what SMAXT, SMAXR and RMSF deliver, with a valid bank whose entries they name. -/
def Obligations.SoftMaximumAndRms : Prop :=
  ∀ (s : State) (c : CoreNo), s.fresh c →
    let k := (s.core c).cur
    let b := k.bankOf (issueBank (s.core c))
    b.valid = true →
    (∀ (ctx : BitVec 2) (sm ss sr : BitVec 3), (dirEnt b.reader 4).func ≠ 0 → sm ≠ ss → ss ≠ sr → sm ≠ sr →
      let x := nthD k.smctx ctx.toNat {}
      ∃ t, exec (.smaxr c ctx sm ss sr) s = .next t ∧ onlyCore s t c
        ∧ (t.core c).cur.smreg sm.toNat = x.m ∧ (t.core c).cur.smreg ss.toNat = x.s
        ∧ (∀ o : SfOut, o = sfEval b.reader false (dirEnt b.reader 4) .fp32 .rne true s.fc (argFp32 x.s.toNat) none →
            (t.core c).cur.smreg sr.toNat = BitVec.ofNat 32 o.bits)
        ∧ (∀ j, j ≠ sm.toNat → j ≠ ss.toNat → j ≠ sr.toNat → (t.core c).cur.smreg j = k.smreg j)
        ∧ (t.core c).cur.smctx = k.smctx)
    ∧ (∀ (ctx : BitVec 2) (en : BitVec 4) (rn : BitVec 5) (sm : BitVec 3) (eps : W32), (dirEnt b.reader en.toNat).func ≠ 0 →
      (nthD k.rctx ctx.toNat {}).kind = 1 →
      let n := (k.sreg rn.toNat).toNat % 2 ^ 32
      ∃ t, exec (.rmsf c ctx en rn sm eps) s = .next t ∧ onlyCore s t c
        ∧ (n = 0 → (t.core c).cur.smreg sm.toNat = 0x7FC00000#32)
        ∧ (0 < n →
            let q := divCount (nthD k.rctx ctx.toNat {}).a n
            let y := fp32Op2 .rne (FV.add .rne) q.1 eps
            (t.core c).cur.smreg sm.toNat = BitVec.ofNat 32
              (sfEval b.reader false (dirEnt b.reader en.toNat) .fp32 .rne true s.fc (argFp32 y.1.toNat) none).bits)
        ∧ (∀ j, j ≠ sm.toNat → (t.core c).cur.smreg j = k.smreg j) ∧ (t.core c).cur.rctx = k.rctx)

/-! ### The carry slot -/

/-- R189 to R208, R313, R219: a carry instruction that issue admits runs at once; CRESET sets the core's reset flag of the stream and
nothing else of the architectural state; CWAIT holds issue from then on. -/
def Obligations.CarryRuns : Prop :=
  ∀ (s : State) (c : CoreNo) (p : Plan), s.fresh c →
    let runs (i : Instr) (run : ExecF) : Prop := s.admits c i p → exec i s = .next (s.ran c i p run)
    (∀ f, runs (.cstep c f) (cstepRun f)) ∧ (∀ f, runs (.cadj c f) (cadjRun f)) ∧ (∀ b rt, runs (.ckgen c b rt) ckgenRun)
    ∧ (∀ f, runs (.cset c f) (csetRun f)) ∧ (∀ f, runs (.cget c f) (cgetRun f)) ∧ (∀ f, runs (.ccmp c f) (ccmpRun f))
    ∧ (∀ id : W16, s.admits c (.creset c id) p → ∃ t, exec (.creset c id) s = .next t ∧ onlyCore s t c
        ∧ (t.core c).cur = (s.core c).cur.setView id.toNat { (s.core c).cur.view id.toNat with flag := true }
        ∧ (t.core c).run.qdec = (s.core c).run.qdec ++ [id.toNat] ∧ (t.core c).run.entries = [])
    ∧ exec (.cwait c) s = .next (s.actedAt c id (fun r => { r with cwait := some r.seq }))

/-- R180, R184, R189, R219: one position of one stream without marks, D, readout or emission. Every state becomes a * h + b with one
rounding to OS40 (b alone where the reset flag marks the position); the position advances by one, the reset flag clears, and the state
store outside the slice stays. -/
def Obligations.CarryStepOnePosition : Prop :=
  ∀ (s : State) (c : CoreNo) (f : CStepF) (p : Plan), s.fresh c → s.admits c (.cstep c f) p → f.ns1 = 0#2 →
    (((s.core c).cur.sreg f.rt.toNat).toNat % 2 ^ 32 = 1) →
    let k := (s.core c).cur
    let ls := (s.core c).st.ls
    let b := stepBlk p.blk
    let id := f.id.toNat
    let base := p.slots.headD 0
    let curves := if k.curveAct then k.curve1 else k.curve0
    b.finish = false → b.den = false → b.rden = false → b.emen = false → b.mken = false →
    ∃ t, exec (.cstep c f) s = .next t ∧ onlyCore s t c ∧ (t.core c).st.ls = ls
      ∧ (∀ i, i < b.size →
          let bb := (b.b.val curves k.store ls b.n i 0).1
          let v := if (k.view id).flag then bb
            else (stepFma (b.a.val curves k.store ls b.n i 0).1 (storeAt k.store (base + i)).1 bb).1
          Sp.get 0#40 (t.core c).cur.store (base + i) = BitVec.ofNat 40 (FFmt.os40.write .rne v).1)
      ∧ (∀ j, j < base ∨ base + b.size ≤ j → Sp.get 0#40 (t.core c).cur.store j = Sp.get 0#40 k.store j)
      ∧ (t.core c).cur.view id = { flag := false, pos := ((k.view id).pos + 1) % 2 ^ 48, stepped := true }
      ∧ (t.core c).cur = { k with store := (t.core c).cur.store, strs := (t.core c).cur.strs }

/-- R206, R207: CSET and CGET of a state-store range, and CCMP of ranges without NaNs of one element. -/
def Obligations.CarryMovesAndCompare : Prop :=
  ∀ (s : State) (c : CoreNo) (p : Plan), s.fresh c →
    let k := s.core c
    (∀ f : CSetF, s.admits c (.cset c f) p → f.tgt = true → f.mode = 1#2 ∨ f.mode = 2#2 →
      let n := f.tail.toNat + 1
      let v : W40 := if f.mode = 1#2 then 0#40 else BitVec.ofNat 40 (FFmt.os40.write .rne FV.one).1
      ∃ t, exec (.cset c f) s = .next t ∧ onlyCore s t c
        ∧ (∀ j, Sp.get 0#40 (t.core c).cur.store j
            = if f.elem.toNat ≤ j ∧ j < f.elem.toNat + n then v else Sp.get 0#40 k.cur.store j)
        ∧ (t.core c).cur = { k.cur with store := (t.core c).cur.store } ∧ (t.core c).st.ls = k.st.ls)
    ∧ (∀ f : CGetF, s.admits c (.cget c f) p → f.tgt = true → f.fmt = true →
      let n := f.tail.toNat + 1
      let a := 4 * f.addr.toNat
      ∃ t, exec (.cget c f) s = .next t ∧ onlyCore s t c ∧ (t.core c).cur = k.cur
        ∧ (∀ i, i < n → Memory.nat (t.core c).st.ls (a + 5 * i) 5
            = (FFmt.os40.write (RM.ofCode f.rm.toNat) (storeAt k.cur.store (f.elem.toNat + i)).1).1 % 2 ^ 40)
        ∧ (∀ j, j < a ∨ a + 5 * n ≤ j → Memory.byte (t.core c).st.ls j = Memory.byte k.st.ls j))
    ∧ (∀ f : CCmpF, s.admits c (.ccmp c f) p → (k.cur.sreg f.rn.toNat).toNat % 2 ^ 32 = 1 →
      let fm := (fmtFloat f.fmt.toNat).getD .fp32
      let x := (fm.read (Memory.nat k.st.ls (4 * f.x.toNat) fm.bytes)).1
      let y := (fm.read (Memory.nat k.st.ls (4 * f.y.toNat) fm.bytes)).1
      x.isNan = false → y.isNan = false →
      let thr := (FFmt.fp32.round .rne ((FV.max FV.zero x.abs).scale (-(f.r.toNat : Int)))).1
      let bad := FV.lt thr (FFmt.fp32.round .rne (FV.sub .rne x y).abs).1
      ∃ t, exec (.ccmp c f) s = .next t
        ∧ (t.core c).cur = k.cur.setSm f.sm.toNat (if bad then 1#32 else 0#32)
        ∧ (t.core c).st.xchk0 = (if bad then 0#32 else 0xFFFFFFFF#32) ∧ (t.core c).st.ls = k.st.ls
        ∧ (bad = false ∨ f.trap = false → t.fq = s.fq)
        ∧ (bad = true → f.trap = true → ∃ r : FRec, r.code = 0x1C ∧ t.fq.offered = s.fq.offered ++ [r]))

/-! ### The data-movement slot -/

/-- R246, R270: ARRSET, ARRSET_SUBTRACT, SEMSET and SEMRD act at issue on the one counter, semaphore or register they name. -/
def Obligations.CounterAndSemaphoreMoves : Prop :=
  ∀ (s : State) (c : CoreNo) (ctr : BitVec 6) (sem ra : BitVec 5), s.issues c →
    let k := (s.core c).cur
    let a := k.sreg ra.toNat
    exec (.arrset c ctr ra) s = .next (s.actedAt c (fun x => { x with arr := Sp.set 0#32 x.arr ctr.toNat (a.setWidth 32) }))
    ∧ exec (.arrsetSubtract c ctr ra) s = .next (s.actedAt c (fun x =>
        { x with arr := Sp.set 0#32 x.arr ctr.toNat (Sp.get 0#32 x.arr ctr.toNat - a.setWidth 32) }))
    ∧ exec (.semset c sem ra) s = .next (s.actedAt c (fun x => { x with sem := Sp.set 0 x.sem sem.toNat (a.toNat % 65536) }))
    ∧ exec (.semrd c sem ra) s = .next (s.actedAt c (fun x => x.setSreg ra.toNat (BitVec.ofNat 64 (Sp.get 0 x.sem sem.toNat))))

/-- R247, R271, R443: timed waits. A wait already satisfied returns at once with status 0 (SEMWAIT takes 1 from the count); another holds
issue, with a deadline unless the timeout is 0; at its deadline it returns status 1, and a semaphore keeps its count. The expiry of a wait
for a stretch pair records 0x36 and halts issue as well (R226). -/
def Obligations.TimedWaits : Prop :=
  ∀ (s : State) (c : CoreNo) (ctr : BitVec 6) (sem rt rd : BitVec 5) (ns : W32),
    let k := (s.core c).cur
    let thr := (k.sreg rt.toNat).toNat % 2 ^ 32
    let v := Sp.get 0#32 k.arr ctr.toNat
    let n := Sp.get 0 k.sem sem.toNat
    let dl : Option Nat := if ns = 0#32 then none else some (s.aon.tb + cdiv (ns.toNat * s.fref) 1000000000)
    (s.issues c →
      exec (.await c ctr rt rd ns) s = .next (if thr ≤ v.toNat then s.actedAt c (fun x => x.setSreg rd.toNat (v.setWidth 64))
        else s.actedAt c id (fun r => { r with wait := some (.arrive ctr.toNat thr rd.toNat dl) }))
      ∧ exec (.semwait c sem rd ns) s = .next (if 1 ≤ n then
          s.actedAt c (fun x => ({ x with sem := Sp.set 0 x.sem sem.toNat (n - 1) } : CoreArch).setSreg rd.toNat 0#64)
        else s.actedAt c id (fun r => { r with wait := some (.sema sem.toNat rd.toNat dl) })))
    ∧ (∀ d, s.live c = true → (s.core c).run.current → s.aon.refLost = false → d ≤ s.aon.tb →
      ((s.core c).run.wait = some (.arrive ctr.toNat thr rd.toNat (some d)) →
        (s.pairWait c ctr.toNat = false → exec (.awaitTimeout c) s = .next (s.updCore c (fun k =>
          { k with cur := k.cur.setSreg rd.toNat (1#32 ++ v), run := { k.run with wait := none } })))
        ∧ (s.pairWait c ctr.toNat = true → (s.core c).run.halt = none → ∃ t, exec (.awaitTimeout c) s = .next t
          ∧ (t.core c).cur = k.setSreg rd.toNat (1#32 ++ v) ∧ (t.core c).run = { (s.core c).run with wait := none, halt := some 0x36 }
          ∧ ∃ r : FRec, r.code = 0x36 ∧ r.act = 2 ∧ t.fq.offered = s.fq.offered ++ [r]))
      ∧ ((s.core c).run.wait = some (.sema sem.toNat rd.toNat (some d)) →
        exec (.semwaitTimeout c) s = .next (s.updCore c (fun k =>
          { k with cur := k.cur.setSreg rd.toNat (1#32 ++ 0#32), run := { k.run with wait := none } }))))

/-- R254, R255, R272, R377, R241: SEMPOST. A post whose range no unfinished access writes or reads takes place at once: one to the core's
own semaphore adds CNT and stays at 65,535, halting with 0x46 past it; one to another core of the partition leaves as a message and takes
an ordinal. Another waits in the execute queue. A core outside the partition faults with 0x4A, a range outside the store with 0x25. -/
def Obligations.SemaphorePosts : Prop :=
  ∀ (s : State) (c : CoreNo) (f : SemPostF), s.issues c → (s.core c).run.eq = [] → (s.core c).run.eHalt = false →
    (s.core c).run.lsUsed + 1 ≤ 64 →
    let k := s.core c
    let e := s.cenv c
    let a := f.first.toNat
    let m := f.gcnt1.toNat + 1
    let wr : List Res := if f.rng then [.ls a (a + m)] else []
    let clear : Prop := mustWait k.run.holds (k.run.seq + 2) [] wr = false
    let n := Sp.get 0 k.cur.sem f.sem.toNat + (f.cnt1.toNat + 1)
    let inPart : Prop := e.part ≠ none ∧ f.tcore.toNat < e.ncores
    let own : Prop := f.self = true ∨ (f.tcore.toNat = e.pidx ∧ inPart)
    let far : Prop := f.self = false ∧ f.tcore.toNat ≠ e.pidx ∧ inPart ∧ k.run.ordinal < maxMsgs
    let counts (r : CoreRun) : CoreRun := { r with xord := r.xord + 1 }
    (f.rng = true → 6144 < a + m → (own ∨ far) → ∃ t, exec (.sempost c f) s = .next t ∧ faultsAt s t c 0x25)
    ∧ ((f.rng = true → a + m ≤ 6144) →
      (own → clear → n ≤ 65535 →
        exec (.sempost c f) s = .next (s.actedAt c (fun x => { x with sem := Sp.set 0 x.sem f.sem.toNat n }) counts))
      ∧ (own → clear → 65535 < n → ∃ t, exec (.sempost c f) s = .next t ∧ Sp.get 0 (t.core c).cur.sem f.sem.toNat = 65535
          ∧ (t.core c).run = { counts (k.run.issued 2) with halt := some 0x46 })
      ∧ (far → clear → ∃ t p, exec (.sempost c f) s = .next t ∧ e.part = some p
          ∧ t.posts = s.posts ++ [{
              src := s.lcore c, seq := some (k.run.seq + 2), tag := 0#16, region := k.cur.region, ordinal := k.run.ordinal, part := p,
              dst := f.tcore.toNat, sp := c / 32, dp := s.slabAt p f.tcore.toNat, sem := f.sem.toNat, cnt := f.cnt1.toNat + 1 }]
          ∧ (t.core c).cur = k.cur
          ∧ (∃ x : Xfer, x.seq = k.run.seq + 2 ∧ x.started = true ∧ x.open_ = 1 ∧ x.wr = []
              ∧ (t.core c).run = { counts (k.run.issued 2) with
                  ordinal := k.run.ordinal + 1, eq := [x] }))
      ∧ ((own ∨ far) → ¬ clear → ∃ t x, exec (.sempost c f) s = .next t ∧ t.posts = s.posts ∧ (t.core c).cur = k.cur
          ∧ (t.core c).run.eq = [x] ∧ x.seq = k.run.seq + 2 ∧ x.started = false ∧ x.wr = wr))
    ∧ (f.self = false → ¬ inPart → ∃ t, exec (.sempost c f) s = .next t ∧ faultsAt s t c 0x4A)

/-- R249, R250, R256, R321: FENCE names at least one queue and holds issue; KEEP_CLEAR and KEEP write one entry of the kept-range table,
KEEP with the backing address its page translates to. -/
def Obligations.FencesAndKeptRanges : Prop :=
  ∀ (s : State) (c : CoreNo), s.issues c →
    let e := s.cenv c
    (∀ fq eq, fq = true ∨ eq = true →
      exec (.fence c fq eq) s = .next (s.actedAt c id (fun r => { r with fence := some (fq, eq, r.seq) })))
    ∧ (∃ t, exec (.fence c false false) s = .next t ∧ faultsAt s t c 0x4F)
    ∧ (∀ n : BitVec 4, exec (.keepClear c n) s = .next (s.actedAt c (fun x => { x with kept := Sp.set {} x.kept n.toNat {} })))
    ∧ (∀ (n : BitVec 4) (first count1 : BitVec 13) (rb : BitVec 5), (s.core c).run.entries = [] → (s.core c).run.fq = [] →
      (s.core c).run.eq = [] →
      let cnt := count1.toNat + 1
      let a := ((s.core c).cur.sreg rb.toNat).toNat
      let pte := ptEntry e (a / 2 ^ 21)
      first.toNat + cnt ≤ 6144 →
      (∀ x ∈ (s.core c).cur.kept, x.1 = n.toNat ∨ x.2.first + x.2.count ≤ first.toNat ∨ first.toNat + cnt ≤ x.2.first) →
      a / 2 ^ 21 < e.ptLen → bitOf pte 0 = true → frameBad pte = false →
      let ent : Kept :=
        { first := first.toNat, count := cnt, tierB := bitOf pte 2, back := fld pte 44 21 * 2 ^ 21 + a % 2 ^ 21 / 32 * 32 }
      exec (.keep c n first rb count1) s = .next (s.actedAt c (fun x => { x with kept := Sp.set {} x.kept n.toNat ent })))

/-- R254, R255, R257, R317, R319, R377: XFER and GATH enter the queue that DIR names behind what it holds, while it holds fewer than 16,
with the local range they hold against other accesses; nothing has moved yet. A transfer whose header names a completion post to another
core takes an ordinal for it (log 26). -/
def Obligations.TransfersEnterTheirQueue : Prop :=
  ∀ (s : State) (c : CoreNo), s.issues c → (s.core c).run.lsUsed + 3 ≤ 64 →
    let k := s.core c
    let entersAs (i : Instr) (dir : Bool) (msgs : Nat) (good : Xfer → Prop) : Prop :=
      ∃ t x, exec i s = .next t ∧ onlyCore s t c ∧ good x ∧ x.seq = k.run.seq + 2 ∧ x.started = false ∧ x.ordinal = k.run.ordinal
        ∧ t.core c = { k with run := { k.run.issued 2 with
            fq := if dir then k.run.fq else k.run.fq ++ [x], eq := if dir then k.run.eq ++ [x] else k.run.eq,
            ordinal := k.run.ordinal + msgs, xord := k.run.xord + 1 } }
    let room (dir : Bool) : Prop := (if dir then k.run.eq else k.run.fq).length < 16
    (∀ f : XferF,
      let w (i : Nat) : Nat := Memory.nat k.st.ls (32 * f.list.toNat + 4 * i) 4
      let far := f.hdr && !bitOf (w 0) 18 && bitOf (w 1) 0 && fld (w 1) 11 1 != s.pidx c
      let msgs := (if f.tgt = 0#2 then 0 else 1) + (if far then 1 else 0)
      f.tgt ≠ 3#2 → (f.add = true → f.dir = true ∧ f.tgt ≠ 1#2) → (f.hdr = true ∨ f.tgt = 0#2) →
      32 * f.list.toNat + (if f.hdr then 32 else 0) + 16 * (f.nent1.toNat + 1) ≤ 196608 → f.lfirst.toNat + f.lcnt1.toNat + 1 ≤ 6144 →
      k.run.ordinal + msgs ≤ maxMsgs → (s.cenv c).logUsed + (if f.add then 32 * (f.lcnt1.toNat + 1) else 0) ≤ 65536 →
      room f.dir →
      entersAs (.xfer c f) f.dir msgs (fun x => x.gath = false ∧ x.tgt = f.tgt.toNat ∧ x.add = f.add ∧ x.hdr = f.hdr
        ∧ x.nent = f.nent1.toNat + 1 ∧ x.list = f.list.toNat ∧ x.lfirst = f.lfirst.toNat ∧ x.lcnt = f.lcnt1.toNat + 1))
    ∧ (∀ f : GathF, f.tgt.toNat < 2 →
      let ix := 4 * (Memory.nat k.st.ls (32 * f.gr.toNat + 0x10) 4 % 65536)
      32 * f.gr.toNat + 32 ≤ 196608 → ix + 4 * Memory.nat k.st.ls (32 * f.gr.toNat + 0x14) 4 ≤ 196608 → f.lfirst.toNat + f.lcnt1.toNat + 1 ≤ 6144 →
      (f.tgt = 0#2 ∨ k.run.ordinal < maxMsgs) → (s.cenv c).logUsed ≤ 65536 → room f.dir →
      entersAs (.gath c f) f.dir (if f.tgt = 1#2 then 1 else 0) (fun x => x.gath = true ∧ x.tgt = f.tgt.toNat ∧ x.list = f.gr.toNat
        ∧ x.lfirst = f.lfirst.toNat ∧ x.lcnt = f.lcnt1.toNat + 1))
    ∧ (∀ f : XferF, f.tgt = 3#2 → ∃ t, exec (.xfer c f) s = .next t ∧ faultsAt s t c 0x4F)

/-- R256, R261, R264, R265: a transfer's progress. It starts once nothing earlier stands in its way, a commit point before it included; a
walk that returns a valid entry caches it and the requests go on; an entry that is not valid is a page fault, taken once what was requested
before is delivered: code 0x40 (ACT 0), the queue halts and COR_DMPF names the position; a page beyond the table stops the transfer
with 0x42. DMRESUME makes the halted transfer walk again. A transfer that has made
every request and had every answer leaves its queue. -/
def Obligations.TransferProgress : Prop :=
  ∀ (s : State) (c : CoreNo) (ex : Bool),
    (∀ x, nextXfer (s.xfers c ex) = some x → s.livePaced c = true → s.qHalt c ex = false →
      (x.post = none →
        let x' : Xfer := if ex then { x with
          wr := ({ x with head := headWords (s.core c).st.ls x } : Xfer).selfWrites (s.core c).st.ls (s.pidx c) } else x
        x'.free (s.core c) = true → exec (.transferStart c ex) s = .next (s.startXfer c ex x'))
      ∧ (x.post.isSome → x.free (s.core c) = true →
          exec (.transferStart c ex) s = .next (s.runCore c (fun _ r => postNext r))))
    ∧ (∀ n x page, (s.xfers c ex)[n]? = some x → s.xfer c ex x.seq = some x → x.walk = some page → s.livePaced c = true →
      s.portUp false (s.pteAddr ((s.partOf c).getD 0) page) = true →
      let pte := ptEntry (s.cenv c) page
      ((s.cenv c).ptLen ≤ page → exec (.pageWalkComplete c ex n) s = .next (s.stopAt c ex x.seq 0x42))
      ∧ (page < (s.cenv c).ptLen → bitOf pte 0 = true → frameBad pte = false →
          exec (.pageWalkComplete c ex n) s
            = .next (((s.addTlb { slab := c.val / 32, part := (s.partOf c).getD 0, page := page, pte := pte }).updXfer c ex x.seq
                (fun y => { y with walk := none })).runXfer c ex x.seq x.steps))
      ∧ (page < (s.cenv c).ptLen → bitOf pte 0 = false → x.open_ ≠ 0 → exec (.pageWalkComplete c ex n) s
          = .next (s.updXfer c ex x.seq (fun y => { y with stop := some 0x40, walk := none })))
      ∧ (page < (s.cenv c).ptLen → bitOf pte 0 = false → x.open_ = 0 → x.dead = false → x.halted = false →
          ∃ t, exec (.pageWalkComplete c ex n) s = .next t ∧ t.qHalt c ex = true ∧ (∀ y ∈ t.xfers c ex, y.seq = x.seq → y.halted = true
            ∧ y.walk = none)
          ∧ nthD (t.core c).st.dmpf 0 0#32 = BitVec.ofNat 32 (posAddr (s.core c).st.ls x)
          ∧ (∃ r : FRec, r.code = 0x40 ∧ r.act = 0 ∧ t.fq.offered = s.fq.offered ++ [r]) ∧ t.tlb = s.tlb))
    ∧ (∀ req, s.slabAnswers (c.val / 32) = true →
      let cmd : Instr := if ex then .dmresumeExec req c else .dmresumeFetch req c
      (s.qHalt c ex = true → ∃ t, exec cmd s = .next t ∧ t.qHalt c ex = false
        ∧ t.xfers c ex = (s.xfers c ex).map (fun x =>
            if x.halted then { x with halted := false, walk := some (posAddr (s.core c).st.ls x / 2 ^ 21) } else x))
      ∧ (s.qHalt c ex = false → exec cmd s = .next s))
    ∧ (∀ n x, (s.xfers c ex)[n]? = some x → s.live c = true → (s.core c).run.late = [] → x.started = true → x.allReq = true → x.dead = false →
      x.open_ = 0 →
      ∃ t, exec (.transferComplete c ex n) s = .next t ∧ t.xfers c ex = (s.xfers c ex).eraseIdx n
        ∧ (x.hdr = true → x.posten = true → fld (x.h 1) 11 1 ≠ s.pidx c → ∃ m : PostMsg, t.posts = s.posts ++ [m] ∧ m.dst = fld (x.h 1) 11 1
            ∧ m.sem = fld (x.h 1) 16 12 ∧ m.cnt = fld (x.h 1) 21 17 + 1))

/-- R20, R244, R245, R248, R250, R391, R415: a granule of a CORE message arrives, in order between its two positions: it is written at its
target with the contents it first brought, acknowledged to its sender, and counted once on the counter the message names; a replayed copy
is not counted; a kept granule is refused with 0x24 and not counted. -/
def Obligations.MeshArrivals : Prop :=
  ∀ (s : State) (n : Nat) (m : Msg) (data : Granule) (ctr : Option Nat) (d : Nat), s.mesh[n]? = some m → m.kind = .put data ctr →
    s.coreAt m.part m.dst = some d → s.takes d = true → firstOf s.mesh n (·.sp) (·.dp) = true →
    (s.mesh.take n).all (fun x => x.src != m.src || x.seq != m.seq) = true → (s.core d).run.late = [] →
    let k := s.core d
    let a := 32 * m.gran
    (inKept k.cur.kept m.gran = false → ∃ t, exec (.meshGranuleArrival n) s = .next t ∧ t.mesh = s.mesh.eraseIdx n
      ∧ Memory.granule (t.core d).st.ls a = (firstCopy k.st.msgs m.src m.region m.ordinal m.off).getD data
      ∧ (∀ b, b < a ∨ a + 32 ≤ b → Memory.byte (t.core d).st.ls b = Memory.byte k.st.ls b)
      ∧ (∀ j, Sp.get 0#32 (t.core d).cur.arr j = Sp.get 0#32 k.cur.arr j
          + (if ctr = some j ∧ counted k.st.msgs m.src m.region m.ordinal = m.off then 1#32 else 0#32))
      ∧ t.posts = s.posts ∧ t.items = s.items ∧ t.tierA = s.tierA ∧ t.tierB = s.tierB)
    ∧ (inKept k.cur.kept m.gran = true → k.run.halt = none → ∃ t, exec (.meshGranuleArrival n) s = .next t
      ∧ (t.core d).st.ls = k.st.ls ∧ (t.core d).run.halt = some 0x24 ∧ (t.core d).cur.arr = k.cur.arr)

/-- R272, R273, R287, R288: a post raises its semaphore once (a replayed copy is discarded, and one past 65,535 halts its sender with
0x46); an item goes to its ring slot and counts as arrived, in push order; an instruction that has waited for a queue end past the
partition's limit halts its core with 0x4C. -/
def Obligations.PostAndItemArrivals : Prop :=
  ∀ (s : State) (n d : Nat),
    (∀ m : PostMsg, s.posts[n]? = some m → s.coreAt m.part m.dst = some d → s.takes d = true → firstOf s.posts n (·.sp) (·.dp) = true →
      (s.core d).run.wait = none → (s.core d).run.late = [] →
      let k := s.core d
      let v := Sp.get 0 k.cur.sem m.sem + m.cnt
      (counted k.st.posts m.src m.region m.ordinal ≠ 0 → ∃ t, exec (.semaphorePostArrival n) s = .next t
        ∧ t.posts = s.posts.eraseIdx n ∧ ∀ c, (t.core c).cur = (s.core c).cur)
      ∧ (counted k.st.posts m.src m.region m.ordinal = 0 → ∃ t, exec (.semaphorePostArrival n) s = .next t
        ∧ t.posts = s.posts.eraseIdx n ∧ (t.core d).cur = { k.cur with sem := Sp.set 0 k.cur.sem m.sem (Nat.min v 65535) }
        ∧ (∀ c, s.pcore m.src = some c → 65535 < v → (t.core c).run.halt.isSome)))
    ∧ (∀ m : ItemMsg, s.items[n]? = some m → s.coreAt m.part m.dst = some d → s.takes d = true → s.itemBehind n m = false →
      let k := s.core d
      let size := m.bytes.length / 32
      let g := m.ring + m.idx % m.nitems * size
      m.idx = Sp.get 0 k.st.qarr m.dend → (∀ i, i < size → inKept k.cur.kept (g + i) = false) →
      ∃ t, exec (.queueItemArrive n) s = .next t ∧ t.items = s.items.eraseIdx n
        ∧ Sp.get 0 (t.core d).st.qarr m.dend = m.idx + 1
        ∧ (∀ i b, m.bytes[i]? = some b → Memory.byte (t.core d).st.ls (32 * g + i) = b)
        ∧ (∀ j, j < 32 * g ∨ 32 * g + m.bytes.length ≤ j → Memory.byte (t.core d).st.ls j = Memory.byte k.st.ls j)
        ∧ (t.core d).cur = k.cur)
    ∧ (∀ (c : CoreNo) (h : Entry), (s.core c).run.halt = none →
      (s.core c).run.entries.find? (fun h => h.deadline ≠ 0 && s.due h.deadline && !h.dead && queueWaits (s.cenv c) h (s.core c)) = some h →
      ∃ t, exec (.queueWaitTimeout c) s = .next t ∧ (t.core c).run.halt = some 0x4C ∧ (t.core c).cur = (s.core c).cur
        ∧ ∃ r : FRec, r.code = 0x4C ∧ r.act = 2 ∧ t.fq.offered = s.fq.offered ++ [r])

/-! ### Streams, submissions and commit points -/

/-- R278, R279, R280, R283: rings and submissions. A doorbell inside the ring sets SQTAIL, one outside it sets SQERR; an entry that passes
R279 is bound to each of its cores behind what they hold; a refused one is completed with STATUS 2; a stream whose cores have all passed
its stop or halted is completed with STATUS 0, or 1 where one has halted, or 3 where its partition was stopped; a completion goes to CQTAIL with
the phase and raises its vector. -/
def Obligations.SubmissionsAndCompletions : Prop :=
  ∀ (s : State) (p : BitVec 3) (v : W32) (ws : List W32) (n : Nat),
    let r := s.ring p.toNat
    let e := subEntry ws
    (s.answers = true → s.boot.stActive = false → s.pwr.ps = 0 → exec (.sqtailWrite .host p v) s
      = .next (s.setRing p.toNat (if v.toNat % 65536 < 2 ^ r.sqSize then { r with sqTail := v.toNat % 65536 } else { r with sqErr := true })))
    ∧ (s.answers = true → exec (.cqheadWrite .host p v) s
      = .next (s.setRing p.toNat (if v.toNat % 65536 < 2 ^ r.cqSize then { r with cqHead := v.toNat % 65536 } else { r with cqErr := true })))
    ∧ (s.running = true → s.lost.contains .host = false → r.sqHead ≠ r.sqTail → r.waiting = [] →
      (e.refused (s.partEnt p.toNat) = false → s.cast.stopped.contains p.toNat = false →
        ∃ t, exec (.submissionEntryRead p ws) s = .next t ∧ (t.ring p.toNat).sqHead = (r.sqHead + 1) % 2 ^ r.sqSize
          ∧ t.subs = s.subs ++ [{ num := s.nextSub, part := p.toNat, cores := e.bound, vec := e.vec, irq := e.irq, usertag := e.usertag }]
          ∧ (∀ i ∈ e.bound, ∀ c, s.coreAt p.toNat i = some c →
              ∃ l, (t.core c).run.list = l ++ [{ sub := s.nextSub, addr := e.addr, len := e.len }])
          ∧ (∀ c, (∀ i ∈ e.bound, s.coreAt p.toNat i ≠ some c) → t.core c = s.core c))
      ∧ (e.refused (s.partEnt p.toNat) = true → ∃ t, exec (.submissionEntryRead p ws) s = .next t ∧ t.subs = s.subs ∧ t.cores = s.cores
          ∧ t = (s.setRing p.toNat { r with sqHead := (r.sqHead + 1) % 2 ^ r.sqSize }).complete p.toNat
              ([e.usertag, 2, 0], if e.irq then some e.vec else none)))
    ∧ (∀ u, s.subs[n]? = some u → s.running = true →
        (u.stopped = true ∨ u.cores.all (fun i => u.passed.contains i || u.halted.contains i) = true) →
        (s.ring u.part).waiting.length < 64 →
        let status := if u.stopped then 3 else if u.halted = [] then 0 else 1
        exec (.streamComplete n) s = .next (({ s with subs := s.subs.eraseIdx n } : State).complete u.part
          ([u.usertag, status + 256 * ((u.first.getD (0, 0)).1 % 256) + 65536 * ((u.first.getD (0, 0)).2 % 65536), u.passed.length],
            if u.irq then some u.vec else none)))
    ∧ (∀ (x : List Nat × Option Nat) (rest : List (List Nat × Option Nat)), r.waiting = x :: rest → x.1.length = 3 → s.running = true →
        s.lost.contains .host = false → r.full = false → 0 < r.cqSize →
        let a := r.cqBase / 16 * 16 + 16 * r.cqTail
        ∃ t, exec (.completionEntryWrite p) s = .next t ∧ (t.ring p.toNat).waiting = rest
          ∧ (t.ring p.toNat).cqTail = (r.cqTail + 1) % 2 ^ r.cqSize
          ∧ (∀ i w, (x.1 ++ [b2n r.phase])[i]? = some w → Memory.nat t.hostOut (a + 4 * i) 4 = w % 2 ^ 32)
          ∧ (∀ b, b < a ∨ a + 16 ≤ b → Memory.byte t.hostOut b = Memory.byte s.hostOut b)
          ∧ (∀ q, x.2 = some q → q ∈ t.irqs))

/-- R280, R281, R282: streams and their fetching. A core starts the next stream of its list at its first byte; an answered granule enters
the fetched bytes of every core that waits for it; a read that ends in error halts them with 0x2C; an answer to no request breaks R16. -/
def Obligations.StreamFetching : Prop :=
  ∀ (s : State) (c : CoreNo), (s.cores.map (·.1)).Nodup →
    let r := (s.core c).run
    (∀ b rest, r.run = none → r.list = b :: rest → s.live c = true → r.held = false → r.halt = none → r.recov = 0 →
      s.switching c = false → 0 < b.len → s.hostReqs = [] → s.lost = [] →
      (∀ m, s.subBuf b.sub = some m → m.find? (fun g => g.1 = 0) = none) →
      ∃ t, exec (.streamStart c) s = .next t ∧ (t.core c).run.run = some b ∧ (t.core c).run.list = rest ∧ (t.core c).run.iq = []
        ∧ (t.core c).run.iqOff = 0 ∧ (t.core c).run.fetch = some 0 ∧ (t.core c).run.pre = []
        ∧ t.hostReqs = [{ tag := 0, addr := b.addr, sub := b.sub, off := 0, own := if (s.subBuf b.sub).isNone then some c.val else none }]
        ∧ (t.core c).cur = (s.core c).cur ∧ ∀ d, d ≠ c.val → t.core d = s.core d)
    ∧ (∀ tag data q, s.hostReqs.find? (fun q => q.tag = BitVec.toNat tag) = some q → c.val ∈ s.waiters q → s.tagAnswered tag = false →
      s.lost.contains .host = false →
      (∃ t rest, exec (.hostMasterResponse tag false data) s = .next t
        ∧ (t.core c).run.iq ++ (t.core c).run.pre = r.iq ++ r.pre
            ++ (natBytes 32 (BitVec.toNat data)).drop ((r.iqOff + r.iq.length + r.pre.length) % 32) ++ rest
        ∧ (t.core c).run.iqOff = r.iqOff ∧ (t.core c).cur = (s.core c).cur)
      ∧ (r.halt = none → ∃ t, exec (.hostMasterResponse tag true data) s = .next t ∧ (t.core c).run.halt = some 0x2C
        ∧ (t.core c).run.iq = r.iq ∧ (t.core c).run.pre = r.pre ∧ (t.core c).cur = (s.core c).cur))
    ∧ (∀ q ∈ s.hostReqs, c.val ∈ s.waiters q → r.halt = none → s.lost.contains .host = false →
        ∃ t, exec (.streamReadError c) s = .next t
        ∧ (t.core c).run.halt = some 0x2C ∧ (t.core c).run.fetch = none ∧ (t.core c).cur = (s.core c).cur)
    ∧ (∀ tag err data, s.hostReqs.find? (fun q => q.tag = BitVec.toNat tag) = none →
        exec (.hostMasterResponse tag err data) s = .fault (.breach 499))

/-- R284, R301, R302, R285: a long word issues whole or not at all. Where a slot faults or waits, the core's architectural state, its local
store, its queues and its place in the stream stay; where the long word issues, the issue queue loses exactly its bytes, or, with a taken
branch, goes on at the target. A COMMIT or STOP long word leaves a mark, and message ordinals start again behind it (R289, R290). -/
def Obligations.LongWordsIssueWhole : Prop :=
  ∀ (s : State) (c : CoreNo), s.livePaced c = true → (s.core c).run.late = [] →
    let k := s.core c
    let fetched (t : State) (old : List Byte) : Prop := ∃ more, (t.core c).run.iq ++ (t.core c).run.pre = old ++ more
    let same (t : State) : Prop :=
      let k' := t.core c
      k'.cur = k.cur ∧ k'.rp = k.rp ∧ k'.st = k.st ∧ k'.run.entries = k.run.entries ∧ k'.run.fq = k.run.fq ∧ k'.run.eq = k.run.eq
        ∧ k'.run.seq = k.run.seq ∧ fetched t (k.run.iq ++ k.run.pre) ∧ k'.run.iqOff = k.run.iqOff ∧ k'.run.marks = k.run.marks
    (∃ t, exec (.longWordIssue c) s = .next t
      ∧ (same t ∨ ∃ lw, decodeLongWord s.v64 c k.run.iq = .word lw
          ∧ (t.core c).run.lastTag = lw.tag ∧ k.run.seq < (t.core c).run.seq
          ∧ ((fetched t (k.run.iq.drop lw.size ++ k.run.pre) ∧ (t.core c).run.iqOff = k.run.iqOff + lw.size)
              ∨ (t.core c).run.branch = some (t.core c).run.iqOff)))
    ∧ (∀ code tag, issueHeld k = false → k.run.run.isSome → decodeLongWord s.v64 c k.run.iq = .fault code tag →
        ∃ t, exec (.longWordIssue c) s = .next t ∧ same t ∧ (t.core c).run.halt = some code)
    ∧ (∀ lw rd ra rb, issueHeld k = false → k.run.run.isSome → decodeLongWord s.v64 c k.run.iq = .word lw →
        lw.slots = [.add c rd ra rb] → k.run.lsUsed ≤ 64 → k.run.marks = [] →
        ∃ t, exec (.longWordIssue c) s = .next t
          ∧ (t.core c).cur = k.cur.setSreg rd.toNat (k.cur.sreg ra.toNat + k.cur.sreg rb.toNat)
          ∧ fetched t (k.run.iq.drop lw.size ++ k.run.pre) ∧ (t.core c).run.iqOff = k.run.iqOff + lw.size
          ∧ ((t.core c).run.marks ≠ [] ↔ lw.commit = true ∨ lw.stop = true)
          ∧ (lw.commit = true ∨ lw.stop = true → (t.core c).run.ordinal = 0))

/-- R290, Table 5 of Programming model: the oldest commit point takes effect once every instruction up to its mark has completed; then the
working state becomes the restore point with the next region number and the mark is gone. Until then nothing of the restore point changes. -/
def Obligations.CommitPoints : Prop :=
  ∀ (s : State) (c : CoreNo) (m : Mark) (ms : List Mark), s.live c = true → (s.core c).run.marks = m :: ms →
    (s.core c).run.late = [] → (s.core c).run.wait = none → (s.core c).run.batchA = none → (s.core c).run.batchB = none →
    let k := s.core c
    (allDone k.run m.seq = true → (∀ d ∈ s.dlog, d.core ≠ c.val) → s.subst = none → k.run.wrote = [] → k.cur.qpop = [] →
      let a := { k.cur with region := (k.cur.region + 1) % 2 ^ 48 }
      (a.region ≠ k.cur.region) →
      ∃ t, exec (.commitPoint c) s = .next t ∧ (t.core c).cur = a ∧ (t.core c).rp = a ∧ (t.core c).run.marks = ms
        ∧ (t.core c).run.rpOff = m.next ∧ (t.core c).st.ls = k.st.ls
        ∧ (m.stop = true → (t.core c).run.run = none) ∧ (m.stop = false → (t.core c).run.run = k.run.run)
        ∧ (∀ d, d ≠ c.val → (t.core d).cur = (s.core d).cur ∧ (t.core d).rp = (s.core d).rp))
    ∧ (allDone k.run m.seq = false → ∃ t, exec (.commitPoint c) s = .next t ∧ t.core c = k ∧ onlyCore s t c)

/-- R215 to R222, R291: the stream table. An increment raises its stream's QCOUNT by the number of cores its long word goes to, and a
decrement lowers it by one; a stream that is out when it is named joins the miss list, one that finds no free entry is held; SWAP_OUT is
refused with 1, 2 or 3 where the stream is not resident, counted or dirty, and waits where a change of RES is not yet acknowledged; a swap
goes on, or ends, when every slab shows its RES; a residency wait past RESWAIT halts its core with 0x34; an acknowledged log entry frees its space. -/
def Obligations.StreamTable : Prop :=
  ∀ (s : State) (c : CoreNo) (id : W16) (i : Nat) (ent : BitVec 12),
    let e := s.ent i
    let x := s.ent ent.toNat
    let r := (s.core c).run
    (∀ g, (s.partOf c).bind s.geo = some g → g.idFirst ≤ id.toNat → id.toNat ≤ g.idLast → s.live c = true →
      s.multicast c id.toNat ≠ [] →
      let n := (s.multicast c id.toNat).length
      (s.entOf id.toNat = some i → s.entLocked i = false → ∃ t, exec (.qcountIncrement c id) s = .next t
        ∧ t.ent i = { e with qcount := e.qcount + n }
        ∧ (e.res = .out ∨ e.res = .swappingOut → id.toNat ∈ t.str.miss) ∧ (e.res = .resident → t.str.miss = s.str.miss))
      ∧ (s.entOf id.toNat = some i → s.entLocked i = true → exec (.qcountIncrement c id) s = .next s)
      ∧ (s.entOf id.toNat = none → s.takeEnt g = some i → ∃ t, exec (.qcountIncrement c id) s = .next t
        ∧ t.ent i = { id := id.toNat, valid := true, qcount := n, part := g.part } ∧ id.toNat ∈ t.str.miss)
      ∧ (s.entOf id.toNat = none → s.takeEnt g = none → exec (.qcountIncrement c id) s = .next s))
    ∧ (s.running = true → r.qdec.contains id.toNat = true → s.entOf id.toNat = some i → s.entLocked i = false →
      ∃ t, exec (.qcountDecrement c id) s = .next t ∧ t.ent i = { e with qcount := e.qcount - 1 }
        ∧ (t.core c).run.qdec = r.qdec.erase id.toNat)
    ∧ (s.answers = true → s.entLocked ent.toNat = false →
      (x.valid = false ∨ x.res ≠ .resident → exec (.strcmdSwapOut .mgmt ent) s = .next (s.strResult 1 x.id))
      ∧ (x.valid = true → x.res = .resident → x.qcount ≠ 0 → exec (.strcmdSwapOut .mgmt ent) s = .next (s.strResult 2 x.id))
      ∧ (x.valid = true → x.res = .resident → x.qcount = 0 → s.dirty x.part x.id = true →
          exec (.strcmdSwapOut .mgmt ent) s = .next (s.strResult 3 x.id))
      ∧ (x.valid = true → x.res = .resident → x.qcount = 0 → s.dirty x.part x.id = false → (∀ b ∈ flagsOf s x.part x.id, b = false) →
          ∃ t, exec (.strcmdSwapOut .mgmt ent) s = .next t ∧ (t.ent ent.toNat).res = .swappingOut ∧ t.str.result = 0 ∧ t.str.done = false
            ∧ t.str.swaps = s.str.swaps ++ [{ ent := ent.toNat, inn := false, phase := 0 }]))
    ∧ (s.answers = true → s.entLocked ent.toNat = true → exec (.strcmdSwapOut .mgmt ent) s = .next (s.strWait { inn := false, n := ent.toNat }))
    ∧ (s.answers = true → s.strReady { inn := true, n := id.toNat } = false →
        exec (.strcmdSwapIn .mgmt id) s = .next (s.strWait { inn := true, n := id.toNat }))
    ∧ (s.answers = true → s.strReady { inn := true, n := id.toNat } = true → s.geoOfId id.toNat = none →
      exec (.strcmdSwapIn .mgmt id) s = .next (s.strResult 5 id.toNat))
    ∧ (∀ g, s.answers = true → s.geoOfId id.toNat = some g → s.entOf id.toNat = some i → s.entLocked i = false → e.res = .out →
      s.freeSlots g ≠ [] → ∃ t slot, exec (.strcmdSwapIn .mgmt id) s = .next t ∧ (t.ent i).res = .swappingIn
        ∧ (t.ent i).slot = some slot ∧ slot ∈ s.freeSlots g ∧ t.str.done = false
        ∧ t.str.swaps = s.str.swaps ++ [{ ent := i, inn := true, phase := 0 }])
    ∧ (∀ g n rest, s.running = true → s.str.miss = n :: rest → s.startable n = some (i, g) → s.freeSlots g ≠ [] →
      ∃ t slot, exec .swapInStart s = .next t ∧ (t.ent i).res = .swappingIn ∧ (t.ent i).slot = some slot ∧ slot ∈ s.freeSlots g)
    ∧ (∀ w, s.running = true → s.str.swaps.find? (fun w => w.ent = ent.toNat) = some w → s.str.waits = [] →
      (w.phase = 0 → exec (.swapStateAcknowledged ent) s = .next ((s.ackScore w.ent).swapPhase w.ent 1))
      ∧ (w.phase = 1 → exec (.swapStateAcknowledged ent) s = .next s)
      ∧ (w.phase = 2 → exec (.swapStateAcknowledged ent) s = .next ((s.ackScore w.ent).dropSwap w.ent)))
    ∧ (∀ t0 g, r.resSince = some t0 → (s.partOf c).bind s.geo = some g → g.reswait ≠ 0 → r.halt = none →
      s.waitsRes c = true → s.due (t0 + s.us g.reswait) = true → ∃ t, exec (.reswaitExpiry c) s = .next t ∧ (t.core c).run.halt = some 0x34
        ∧ (t.core c).cur = (s.core c).cur)
    ∧ (∀ (slab : SlabNo) n d, ((s.dlog.zipIdx).filter (fun d => d.1.core / 32 = slab.val))[n]? = some d → d.1.acked = true →
      exec (.deferredEntryAck slab n) s = .next { s with dlog := s.dlog.eraseIdx d.2 })

/-- R214, R217, R218: a swap's memory accesses end. A swap-out that ends without error leaves the stream out, its slot free, its image
and its directory record written; with an error it stays resident and 0x27 is recorded. A swap-in whose record is not valid, whose trailer does
not match, or whose accesses fail ends out with 0x31, 0x32 or 0x27; a good one makes the stream resident, zeroed where GEN is 0. -/
def Obligations.Swaps : Prop :=
  ∀ (s : State) (ent : BitVec 12) (w : Swap) (g : Geo), s.running = true →
    s.str.swaps.find? (fun w => w.ent = ent.toNat && w.phase = 1) = some w → s.geo (s.ent ent.toNat).part = some g →
    s.swapUp ent.toNat w.inn g = true →
    let e := s.ent ent.toNat
    let rw (n : Nat) : Nat := Memory.nat s.tierA (s.dirAddr e.id + 4 * n) 4
    let back := rw 5 / 32 * 32 + 2 ^ 32 * (rw 6 % 256)
    let trailer := Memory.nat s.tierA (back + s.ncoresOf g.part * (5 * g.nslot)) 32
    let ends (err : Bool) (code : Nat) : Prop := ∃ t r, exec (.swapMemoryDone ent err) s = .next t ∧ t.fq.offered = s.fq.offered ++ [r]
      ∧ FRec.code r = code ∧ (t.ent ent.toNat).res = (if w.inn then .out else .resident)
    (w.inn = false → ends true 0x27
      ∧ ∃ t, exec (.swapMemoryDone ent false) s = .next t ∧ t.ent ent.toNat = { e with res := .out, slot := none }
        ∧ t.tierA = (s.writeImage e g).tierA
        ∧ t.str.swaps = s.str.swaps.map (fun w => if w.ent = ent.toNat then { w with phase := 2 } else w) ∧ t.fq = s.fq)
    ∧ (w.inn = true → ends true 0x27 ∧ (bitOf (rw 0) 20 = false → ends false 0x31)
      ∧ (bitOf (rw 0) 20 = true → rw 4 ≠ 0 → trailer % 2 ^ 32 ≠ rw 4 → ends false 0x32)
      ∧ (bitOf (rw 0) 20 = true → rw 4 = 0 → ∃ t, exec (.swapMemoryDone ent false) s = .next t
          ∧ (t.ent ent.toNat).res = .resident ∧ (t.ent ent.toNat).back = back ∧ t.fq = s.fq
          ∧ ∀ c ∈ s.coresOf g.part, ∀ j, j < g.nslot →
              Sp.get 0#40 (t.core c).rp.store (g.regBase + (e.slot.getD 0) * g.nslot + j) = 0#40))

/-! ### Memory ports, control space and the host's requests -/

/-- R59, R399, R400, R493 to R495: an answer to no outstanding request breaks R16; while its port's clock is marked lost an answer stays in
the bridge; a read's answer whose guard bits match brings its granule to the local store of the transfer's core; an error counts and
makes that core recover with 0x27, a slot that fails its check with 0x23; a late answer frees its id and does nothing else. A request
outstanding for TMO expires and keeps its id. A lost port clock is recorded with 0x2F; when its edges resume the mark is cleared, the
stranded beats are delivered and the waiting traffic goes on. -/
def Obligations.MemoryPortAnswers : Prop :=
  ∀ (s : State) (b : Bool) (port : BitVec 4) (id : BitVec 8),
    (s.reqOf b port.toNat id.toNat = none ∨ s.idAnswered b port id = true →
      ∀ err, exec (.memResponse b port id err) s = .fault (.breach 493))
    ∧ (∀ r, s.reqOf b port.toNat id.toNat = some r → s.idAnswered b port id = false →
      (∀ err, s.lost.contains (memPort b port.toNat) = true →
        exec (.memResponse b port id err) s = .next { s with strand := s.strand ++ [.mem b port id err] })
      ∧ (s.lost.contains (memPort b port.toNat) = false → s.answerHeld r = false → (∀ x ∈ s.memq, x.id.isSome = true) →
        (∀ err, r.expired = true → exec (.memResponse b port id err) s = .next (s.dropReq r))
        ∧ (∀ c e q x, r.expired = false → r.owner = .xfer c e q → s.xfer c e q = some x → r.op = .read →
            let k := s.core c
            let recovers (t : State) (code : Nat) : Prop :=
              (t.core c).run.recov = 1 ∧ (t.core c).cur = k.cur ∧ (t.core c).st.ls = k.st.ls
                ∧ ∃ f : FRec, f.code = code ∧ f.act = 1 ∧ t.fq.offered = s.fq.offered ++ [f]
            (r.slot.good = true → x.stop = none → ∃ t, exec (.memResponse b port id false) s = .next t
              ∧ t.memq = s.memq.filter (fun y => y.serial ≠ r.serial)
              ∧ (t.core c).st = { k.st with
                  ls := Memory.setGranule k.st.ls (32 * r.lgran) r.slot.granule, landing := k.st.landing.erase r.lgran }
              ∧ (t.core c).cur = k.cur ∧ (∀ d, d ≠ c → t.core d = s.core d)
              ∧ t.xfers c e = (s.xfers c e).map (fun y => if y.seq = q then { y with open_ := y.open_ - 1 } else y))
            ∧ (k.run.halt = none → s.slabFaulty (c / 32) = false →
                (∃ t, exec (.memResponse b port id true) s = .next t ∧ recovers t 0x27
                  ∧ t.regN (oMpErr (if b then 3 else 2) port.toNat) % 65536
                    = Nat.min 65535 (s.regN (oMpErr (if b then 3 else 2) port.toNat) % 65536 + 1))
                ∧ (r.slot.good = false → ∃ t, exec (.memResponse b port id false) s = .next t ∧ recovers t 0x23)))))
    ∧ (∀ r, s.reqOf b port.toNat id.toNat = some r →
        let tmo := s.regN (oMpCfg (if b then 3 else 2)) % 65536
        ((r.expired = true ∨ tmo = 0 ∨ s.due (r.time + s.us tmo) = false) → exec (.memRequestExpiry b port id) s = .next s)
        ∧ (∀ c e q, r.expired = false → tmo ≠ 0 → s.due (r.time + s.us tmo) = true → r.owner = .xfer c e q → r.op = .read →
            (s.core c).run.halt = none → s.slabFaulty (c / 32) = false → (∃ x, s.xfer c e q = some x) →
            ∃ t, exec (.memRequestExpiry b port id) s = .next t ∧ (t.core c).run.recov = 1
              ∧ t.memq = s.memq.map (fun y => if y.serial = r.serial then { y with expired := true } else y)
              ∧ ∃ f : FRec, f.code = 0x27 ∧ f.act = 1 ∧ t.fq.offered = s.fq.offered ++ [f]))
    ∧ (∀ p, s.boot.cold = false → s.lost.contains p = false → s.portOn p = true →
        ∃ t f, exec (.portClockLost p) s = .next t ∧ t = { s with lost := s.lost ++ [p], fq := t.fq } ∧ FRec.code f = 0x2F
          ∧ FRec.info1 f = (lostRec p).info1 ∧ t.fq = { s.fq with offered := s.fq.offered ++ [f] })
    ∧ (∀ p, s.lost.contains p = false → exec (.portClockResumed p) s = .next s)
    ∧ (∀ p t, s.lost.contains p = true →
        deliverBeats (s.strand.filter (fun b => b.port == p))
          { s with lost := s.lost.erase p, strand := s.strand.filter (fun b => b.port != p) } = .next t →
        exec (.portClockResumed p) s = .next (t.portGo p))
    ∧ (∀ n, s.lost.contains (.memB n) = true → (∀ x ∈ s.memq, x.id.isSome = true) → (∀ x ∈ s.strand, x.port ≠ .memB n) →
        exec (.portClockResumed (.memB n)) s = .next { s with lost := s.lost.erase (.memB n) })

/-- R262, R442, R496 to R498, R511: control space. A host request of 4 aligned bytes is answered with the register's value; a request outside
the block's ranges, or of another size, answers ERR and changes no register; an aligned write to an offset of plain registers changes
only the bits its requester may write; the page-table invalidation removes the translations it names and is done when no access under them is
open. -/
def Obligations.ControlSpaceAccesses : Prop :=
  ∀ (s : State) (f : TReq), s.answers = true → s.treqs = [] → s.tap = none → s.lost.contains .host = false →
    (∀ o, targetOf f.ta.toNat = .control o → f.wr = false → f.len.toNat = 4 → o % 4 = 0 →
      exec (.targetRequest f) s = .next ((s.ctrlRead .host o).2.answer f.tag false (s.ctrlRead .host o).1.toNat))
    ∧ (∀ o, targetOf f.ta.toNat = .control o → f.wr = false → f.len.toNat = 8 → o % 8 = 0 →
      let a := s.ctrlRead .host o
      let b := a.2.ctrlRead .host (o + 4)
      exec (.targetRequest f) s = .next (b.2.answer f.tag false (a.1.toNat + 2 ^ 32 * b.1.toNat)))
    ∧ (∀ o t, targetOf f.ta.toNat = .control o → f.wr = true → f.len.toNat = 4 → o % 4 = 0 → wholeReq f = true →
      s.ctrlWrite .host o (f.data.extractLsb' 0 32) = .next t → exec (.targetRequest f) s = .next (t.answer f.tag false 0))
    ∧ (∀ o, targetOf f.ta.toNat = .control o → ((f.len.toNat ≠ 4 ∧ f.len.toNat ≠ 8) ∨ o % f.len.toNat ≠ 0) →
      exec (.targetRequest f) s = .next (s.answer f.tag true 0))
    ∧ (targetOf f.ta.toNat = .outside → exec (.targetRequest f) s = .next (s.answer f.tag true 0))
    ∧ (∀ b a, targetOf f.ta.toNat = .aperture b a → s.tierOn b = false → exec (.targetRequest f) s = .next (s.answer f.tag true 0))
    ∧ (∀ (req : Requester) (off : BitVec 28) (v : W32),
      let o := off.toNat
      (o % 4 ≠ 0 → exec (.registerWrite req off v) s = .next s)
      ∧ ((o = oCastLen ∨ o = oCastSrc 1) → exec (.registerWrite .host off v) s = .next (s.setReg o v)
          ∧ ∃ t, exec (.registerWrite .mgmt off v) s = .next t ∧ ∀ a, t.reg a = s.reg a)
      ∧ (o = oCastStg → exec (.registerWrite .host off v) s
          = .next (s.setReg o ((s.reg o &&& ~~~0x7FFFF#32) ||| (v &&& 0x7FFFF#32))))
      ∧ (o = oDriftTh → exec (.registerWrite .mgmt off v) s = .next (s.setReg o ((s.reg o &&& ~~~0x3FF#32) ||| (v &&& 0x3FF#32)))
          ∧ ∃ t, exec (.registerWrite .host off v) s = .next t ∧ ∀ a, t.reg a = s.reg a))
    ∧ (∀ (req : Requester) (v : W32), ∃ t, exec (.ptinvWrite req v) s = .next t
      ∧ t = { s with tlb := t.tlb, ptinv := t.ptinv, memSerial := t.memSerial }
        ∧ (∀ x, x ∈ t.tlb ↔ x ∈ s.tlb ∧ ¬ (x.part = v.toNat % 8 ∧ (v.getLsbD 3 = true ∨ x.page = v.toNat / 16 % 2 ^ 26)))
        ∧ t.ptinv ≠ [])
    ∧ (s.ptinv.all s.ptinvClear = true → exec .ptinvDone s = .next { s with ptinv := [] })
    ∧ (s.ptinv.all s.ptinvClear = false → exec .ptinvDone s = .next s)

/-! ### Castings and platings -/

/-- R322 to R337: castings and platings. A load waits for its bytes (BUSY), which are checked whole (Table 10): a refused image changes
nothing but RESULT and SECT and the staging area; a casting that passes becomes the one loaded, every core leaves its halt, its streams
and its open region, and gets its tables, its local store staying; a plating that passes fills its slot. A switch begins only where
no active plating crosses its scope and no claim meets another's, and takes effect when every core of its scope is quiet. -/
def Obligations.CastingsAndPlatings : Prop :=
  ∀ (s : State) (slot : BitVec 3) (parts : BitVec 8) (img : List Byte), s.answers = true →
    let k := slot.toNat
    let i := parseImage img
    let blocked := s.cast.sw.isSome || s.cast.busy.isSome
    (s.anyBound = true ∨ blocked = true ∨ s.boot.stActive = true → exec (.castcmdLoadCasting .host) s = .next (s.castRefuse 0x5E))
    ∧ (s.anyBound = false → blocked = false → s.boot.stActive = false → exec (.castcmdLoadCasting .host) s
        = .next { s with cast := { s.cast with busy := some .casting }, boot := { s.boot with castBegun := true } })
    ∧ (s.cast.busy = some .casting → img.length = s.regN oCastLen → s.lost = [] →
        (∀ code sect, s.refusal 1 img i = some (code, sect) →
          exec (.castingLoadComplete img) s = .next ((s.stageBytes 0 (img.take 25165824)).castEnd code sect))
        ∧ (s.refusal 1 img i = none → ∃ t, exec (.castingLoadComplete img) s = .next t ∧ t.cast.loaded = true ∧ t.cast.img = i
            ∧ t.cast.slots = [] ∧ t.cast.act = [] ∧ t.cast.stopped = [] ∧ t.cast.busy = none ∧ t.cast.result = 0 ∧ t.cast.sect = 0xFF
            ∧ t.tlb = [] ∧ t.str.ents = [] ∧ t.link.rcache = []
            ∧ (∀ c, (t.core c).run.halt = none ∧ (t.core c).run.held = false ∧ (t.core c).run.run = none ∧ (t.core c).run.list = []
                ∧ (t.core c).run.entries = [] ∧ (t.core c).st.ls = (s.core c).st.ls ∧ (t.core c).cur.region = (s.core c).cur.region)
            ∧ (∀ p c m, p < i.parts.length → c ∈ t.coresOf p → (∀ q, q ≠ p → c ∉ t.coresOf q) →
                item15 i.images (i.pick p (t.pidx c)).1 = some m →
                (t.core c).cur.bank0 = bankOfImage m ∧ (t.core c).rp.bank0 = bankOfImage m)))
    ∧ (blocked = false → s.slotActive k = false → exec (.castcmdLoadPlating .host slot) s
        = .next { s with cast := { s.cast with busy := some (.plating k) } })
    ∧ (s.cast.busy.isSome = true → exec (.castcmdLoadPlating .host slot) s = .next (s.castRefuse 0x5E)
        ∧ exec (.castcmdEvict .host slot) s = .next (s.castRefuse 0x5E))
    ∧ (s.cast.busy = none → s.slotActive k = true → exec (.castcmdLoadPlating .host slot) s = .next (s.castRefuse 0x5D)
        ∧ exec (.castcmdEvict .host slot) s = .next (s.castRefuse 0x5D))
    ∧ (s.cast.busy = none → s.slotActive k = false → ∃ t, exec (.castcmdEvict .host slot) s = .next t
        ∧ (∀ j, Sp.get none t.cast.slots j = if j = k then none else Sp.get none s.cast.slots j) ∧ t.cast.act = s.cast.act
        ∧ t.cast.result = 0 ∧ t.cores = s.cores)
    ∧ (∀ j, s.cast.busy = some (.plating j) → img.length = s.regN oCastLen → s.lost = [] →
        (∀ code sect, s.refusal 2 img i = some (code, sect) → exec (.platingLoadComplete img) s = .next (s.castEnd code sect))
        ∧ (s.refusal 2 img i = none → ∃ t, exec (.platingLoadComplete img) s = .next t ∧ Sp.get none t.cast.slots j = some i
            ∧ (∀ m, m ≠ j → Sp.get none t.cast.slots m = Sp.get none s.cast.slots m) ∧ t.cast.act = s.cast.act ∧ t.cast.result = 0
            ∧ t.cast.busy = none ∧ t.cores = s.cores ∧ t.tierB = s.tierB))
    ∧ (∀ pl, blocked = false → Sp.get none s.cast.slots k = some pl → s.crosses pl.scope = false →
        (s.claimed pl = true → exec (.plswSwitch .host slot) s = .next (s.swRefuse 0x5C))
        ∧ (s.claimed pl = false → ∃ t, exec (.plswSwitch .host slot) s = .next t ∧ t.cast.sw = some (some k, pl.scope)
            ∧ t.cast.act = s.cast.act))
    ∧ ((blocked = true ∨ Sp.get none s.cast.slots k = none) → exec (.plswSwitch .host slot) s = .next (s.swRefuse 0x5D))
    ∧ (blocked = false → s.crosses parts.toNat = false → ∃ t, exec (.plswOff .host parts) s = .next t
        ∧ t.cast.sw = some (none, parts.toNat) ∧ t.cast.act = s.cast.act)
    ∧ (∀ w scope, s.cast.sw = some (w, scope) →
        let ps := (List.range 8).filter (fun p => scope.testBit p)
        (ps.all (fun p => (s.coresOf p).all s.quiet) = false → exec .platingSwitchApply s = .next s)
        ∧ (ps.all (fun p => (s.coresOf p).all s.quiet) = true → ∃ t, exec .platingSwitchApply s = .next t ∧ t.cast.sw = none
            ∧ t.cast.swResult = 0 ∧ (∀ p, Sp.get 0 t.cast.act p = if p ∈ ps then w.elim 0 (· + 1) else Sp.get 0 s.cast.act p)
            ∧ t.cast.slots = s.cast.slots ∧ ∀ c, (t.core c).run = (s.core c).run ∧ (t.core c).st.ls = (s.core c).st.ls))

/-! ### Faults, recovery, substitution and the spine -/

/-- R401, R404 to R410, R465: a detected fault. The core it concerns recovers (ACT 1): its open region is abandoned and nothing of the
restore point changes; a second fault in its slab before the replay commits halts it with 0x2A; a halted core only gets the record. A
granule that fails in another core's store is rewritten where its owner keeps it and the reader recovers, and otherwise halts the reader with
0x29; a hub structure with a backing copy is fetched again, one without stops the partitions that use it. A failed read
of the management core's SRAM restarts that core, or leaves it held where the image is damaged; a second fault in a tempering slab ends its
search and retires it (R436). When the started messages are complete, the core's state is that of its last commit point, its failed granules are
zero and it replays; it halts with
0x29 or 0x46 instead where R410 or R273 says so. -/
def Obligations.GuardFailuresAndRecovery : Prop :=
  ∀ (s : State) (c : CoreNo), s.boot.init = false → s.boot.cold = false →
    let k := s.core c
    let recorded (t : State) (code act : Nat) : Prop := ∃ f : FRec, f.code = code ∧ f.act = act ∧ t.fq.offered = s.fq.offered ++ [f]
    (∀ unit, s.spareFault (c / 32) = none → k.run.halt = none →
      (s.slabFaulty (c / 32) = false → ∃ t, exec (.guardFailure (.engine c unit)) s = .next t ∧ recorded t 0x22 1
        ∧ (t.core c).run.recov = 1 ∧ (t.core c).run.entries = [] ∧ (t.core c).run.fq = [] ∧ (t.core c).run.eq = []
        ∧ (t.core c).run.iqOff = k.run.rpOff ∧ (t.core c).rp = k.rp ∧ (t.core c).st = k.st
        ∧ (∀ d ∈ t.dlog, d.core = c.val → d.released = true) ∧ ∀ d, d ≠ c.val → t.core d = s.core d)
      ∧ (s.slabFaulty (c / 32) = true → ∃ t, exec (.guardFailure (.engine c unit)) s = .next t ∧ recorded t 0x2A 2
        ∧ t.core c = { k with run := { k.run with halt := some 0x2A } } ∧ ∀ d, d ≠ c.val → t.core d = s.core d))
    ∧ (∀ unit code, s.spareFault (c / 32) = none → k.run.halt = some code →
        ∃ t, exec (.guardFailure (.engine c unit)) s = .next t ∧ recorded t 0x22 2 ∧ t = { s with fq := t.fq })
    ∧ (∀ n m g o, s.mesh[n]? = some m → m.kind = .get g → s.pcore m.src = some c.val → s.coreAt m.part m.dst = some o → k.run.halt = none →
        (inKept (s.core o).rp.kept m.gran = false →
          ∃ t, exec (.guardFailure (.other n)) s = .next t ∧ recorded t 0x29 2 ∧ (t.core c).run.halt = some 0x29 ∧ t.mesh = s.mesh.eraseIdx n)
        ∧ (inKept (s.core o).rp.kept m.gran = true → s.spareFault (c / 32) = none → s.slabFaulty (c / 32) = false →
          ∃ t, exec (.guardFailure (.other n)) s = .next t ∧ recorded t 0x21 1 ∧ (t.core c).run.recov = 1 ∧ t.mesh = s.mesh.eraseIdx n
            ∧ (t.core o).st.ls = ((s.refillGran o m.gran).core o).st.ls))
    ∧ (∀ o, ∃ t, exec (.guardFailure (.hubBacked o)) s = .next t ∧ recorded t 0x28 0
        ∧ t = { s with fq := t.fq, tlb := t.tlb, link := { s.link with rcache := t.link.rcache } }
        ∧ (∀ r, o = .region r → ∀ x ∈ t.link.rcache, x.1 ≠ r.toNat)
        ∧ (∀ p g, o = .page p g → ∀ x ∈ t.tlb, x.part ≠ p.toNat ∨ x.page ≠ g.toNat))
    ∧ (∀ o, ∃ t, exec (.guardFailure (.hubOwn o)) s = .next t ∧ recorded t 0x28 3
        ∧ ∀ p ∈ s.usersOf o, p ∈ t.cast.stopped ∧ ∀ d ∈ s.coresOf p, (t.core d).run.held = true ∧ (t.core d).run.run = none)
    ∧ (∀ g, s.mgmt.run = true → ∃ t, exec (.guardFailure (.sram g)) s = .next t ∧ recorded t 0x71 0
        ∧ (32 * BitVec.toNat g < s.mgmt.imgLen → t.mgmt.run = false ∧ t.mgmt.cause = 5)
        ∧ (s.mgmt.imgLen ≤ 32 * BitVec.toNat g → t.mgmt.run = true ∧ t.mgmt.cause = 3) ∧ t.mgmt.sram = s.mgmt.sram)
    ∧ (s.temper.busy = true → s.temper.unit < 68 →
        (s.temper.faults = 0 → exec (.guardFailure .tempering) s = .next { s with temper := { s.temper with faults := 1 } })
        ∧ (s.temper.faults ≠ 0 → ∃ t, exec (.guardFailure .tempering) s = .next t ∧ recorded t 0x75 0 ∧ t.temper.busy = false
            ∧ t.temper.result = 3 ∧ (t.role s.temper.unit).st = .retiredService))
    ∧ (s.draining c = true → exec (.recoveryDrainComplete c) s = .next s)
    ∧ (s.draining c = false → s.live c = true → k.run.recov = 1 → k.run.halt = none → ∃ t, exec (.recoveryDrainComplete c) s = .next t
        ∧ (t.core c).cur = (restored k).1 ∧ (t.core c).rp = k.rp ∧ (∀ d, d ≠ c.val → t.core d = s.core d)
        ∧ (∀ g, inKept k.rp.kept g = false → Memory.granule (t.core c).st.ls (32 * g)
            = if lostGranule k = none ∧ g ∈ k.run.failed then 0#256 else Memory.granule k.st.ls (32 * g))
        ∧ (lostGranule k = none → (restored k).2 = false → (t.core c).run.recov = 3 ∧ (t.core c).run.halt = none ∧ t.fq = s.fq)
        ∧ ((lostGranule k).isSome = true → (t.core c).run.halt = some 0x29 ∧ recorded t 0x29 2)
        ∧ (lostGranule k = none → (restored k).2 = true → (t.core c).run.halt = some 0x46 ∧ recorded t 0x46 2))

/-- R402, R403, R419: the fault queue. The record that the arbiter grants goes to TAIL with the next SEQ; in a full queue a record with ACT 0 and
ESC 0 is dropped and counted, and any other waits. Firmware alone advances HEAD. -/
def Obligations.FaultQueueOrder : Prop :=
  ∀ (s : State) (n : Nat) (f : FRec) (v : W32), s.fq.offered[n]? = some f →
    let q := s.fq
    let i := 8 * ((q.head + q.count) % 512)
    (q.count < 512 → ∃ t, exec (.faultRecordPlace n) s = .next t ∧ t = { s with fq := t.fq, fc := t.fc }
      ∧ t.fq.count = q.count + 1 ∧ t.fq.head = q.head ∧ t.fq.seq = (q.seq + 1) % 65536 ∧ t.fq.offered = q.offered.eraseIdx n
      ∧ t.fq.ovf = q.ovf ∧ t.fq.lost = q.lost
      ∧ Sp.get 0#32 t.fq.words i = BitVec.ofNat 32 (f.code % 256 + 256 * (f.act % 8) + 2048 * b2n f.esc + 65536 * f.tag.toNat)
      ∧ Sp.get 0#32 t.fq.words (i + 7) = BitVec.ofNat 32 (q.seq % 65536 + 65536 * (f.region % 65536))
      ∧ ∀ j, j < i ∨ i + 8 ≤ j → Sp.get 0#32 t.fq.words j = Sp.get 0#32 q.words j)
    ∧ (512 ≤ q.count → f.act = 0 → f.esc = false → exec (.faultRecordPlace n) s
        = .next { s with fq := { q with ovf := true, lost := Nat.min 65535 (q.lost + 1), offered := q.offered.eraseIdx n } })
    ∧ (512 ≤ q.count → (f.act ≠ 0 ∨ f.esc = true) → exec (.faultRecordPlace n) s = .next s)
    ∧ (exec (.fqheadWrite .host v) s = .next s)
    ∧ (∀ m, s.answers = true → q.head < 512 → m ≤ q.count → m < 512 → v.toNat % 512 = (q.head + m) % 512 →
        ∃ t, exec (.fqheadWrite .mgmt v) s = .next t ∧ t.fq = { q with head := (q.head + m) % 512, count := q.count - m }
          ∧ t.cores = s.cores)

/-- R30, R31, R409, R414, R416, R417: substitution, replay and the spine. An accepted substitution halts every core of the slab, makes GEN odd
and gives
the logical number to the spare, which reads migrating; the spare then holds every core's restore point, reads active, and GEN is even
again. A migration waits for the commit points of its cores. One operation runs at a time (RESULT 1). A replay
starts the recovery of each core halted under R409, not of one that R410 or R411 keeps halted. A spine failure stops every partition, and the
restart resets slabs and hubs but not the always-on domain, the OTP shadow and the management core. -/
def Obligations.SubstitutionAndSpine : Prop :=
  ∀ (s : State) (path : Bool) (l : BitVec 6) (sp : BitVec 7), s.answers = true →
    let place (p : Nat) : Prop := s.phys l.toNat = some p ∧ p ≠ sp.toNat ∧ sp.toNat < 68 ∧ (s.role sp.toNat).st = .spare
      ∧ (path = true ∨ s.fabric.contains p = false)
    (∀ p, s.subst = none → place p → ∃ t, exec (.subcmdSubstitute .mgmt path l sp) s = .next t ∧ t.substResult = 0
      ∧ t.mapgen = (s.mapgen + 1) % 2 ^ 32 ∧ t.phys l.toNat = some sp.toNat
      ∧ t.role sp.toNat = { logical := some l.toNat, st := .migrating, part := (s.role p).part } ∧ (t.role p).st = .retiredService
      ∧ (∀ i, i < 32 → (t.core (32 * p + i)).run.held = true) ∧ t.subst
          = some { migrate := false, path := path, logical := l.toNat, old := p, spare := sp.toNat, moved := true })
    ∧ (∀ p, s.subst = none → place p → s.allHeld p = false → exec (.subcmdMigrate .mgmt path l sp) s
        = .next { s with substResult := 0, subst := some { migrate := true, path := path, logical := l.toNat, old := p, spare := sp.toNat } })
    ∧ (∀ p, s.subst = none → place p → s.allHeld p = true → ∃ t, exec (.subcmdMigrate .mgmt path l sp) s = .next t
        ∧ t.mapgen = (s.mapgen + 1) % 2 ^ 32 ∧ (t.role p).st = .tempering ∧ t.phys l.toNat = some sp.toNat)
    ∧ (∀ o, s.subst = some o → o.failed = false →
        exec (.subcmdSubstitute .mgmt path l sp) s = .next { s with substResult := 1 }
        ∧ exec (.subcmdMigrate .mgmt path l sp) s = .next { s with substResult := 1 }
        ∧ exec (.subcmdReplay .mgmt l) s = .next { s with substResult := 1 }
        ∧ exec (.subcmdSpineRestart .mgmt) s = .next { s with substResult := 1 })
    ∧ (∀ o, s.subst = some o → o.moved = true → o.failed = false → s.running = true → o.old ≠ o.spare →
        s.credits = [] → s.strand = [] →
        ∃ t, exec .substitutionResume s = .next t ∧ t.subst = none ∧ t.mapgen = (s.mapgen + 1) % 2 ^ 32
          ∧ t.role o.spare = { s.role o.spare with st := .active } ∧ t.substCnt = Nat.min 255 (s.substCnt + 1)
          ∧ (∃ f : FRec, f.code = 0x76 ∧ t.fq.offered = s.fq.offered ++ [f])
          ∧ ∀ i, i < 32 → (t.core (32 * o.spare + i)).rp = (s.core (32 * o.old + i)).rp
              ∧ (t.core (32 * o.spare + i)).cur = (restored (s.core (32 * o.old + i))).1)
    ∧ (s.subst = none → s.phys l.toNat = none → exec (.subcmdReplay .mgmt l) s = .next { s with substResult := 3 })
    ∧ (∀ p, s.subst = none → s.phys l.toNat = some p → ∃ t, exec (.subcmdReplay .mgmt l) s = .next t ∧ t.substResult = 0
        ∧ ∀ i, i < 32 → let k := s.core (32 * p + i)
          let k' := t.core (32 * p + i)
          ((k.run.halt = none ∨ ∃ code, k.run.halt = some code ∧ noReplay k.run code = true) → k' = k)
          ∧ (∀ code, k.run.halt = some code → noReplay k.run code = false →
              k'.run.halt = none ∧ k'.run.recov = 1 ∧ k'.run.entries = [] ∧ k'.run.fq = [] ∧ k'.run.eq = [] ∧ k'.run.marks = []
                ∧ k'.run.iqOff = k.run.rpOff ∧ k'.cur = k.cur ∧ k'.rp = k.rp
                ∧ ∀ d ∈ t.dlog, d.core = 32 * p + i → d.released = true))
    ∧ (∃ t, exec .spineFailure s = .next t ∧ t.cast.loaded = false
        ∧ (∃ f : FRec, f.code = 0x78 ∧ f.act = 5 ∧ t.fq.offered = s.fq.offered ++ [f])
        ∧ ∀ p, p < 8 → p ∈ t.cast.stopped ∧ ∀ c ∈ s.coresOf p, (t.core c).run.held = true ∧ (t.core c).run.run = none)
    ∧ (s.subst = none → ∃ t, exec (.subcmdSpineRestart .mgmt) s = .next t ∧ t.aon.tb = s.aon.tb ∧ t.otp = s.otp ∧ t.mgmt = s.mgmt
        ∧ t.fq = s.fq ∧ t.boot.cause = 4 ∧ t.cast.loaded = false ∧ t.subs = []
        ∧ ∀ c, (t.core c).cur = ({} : Core).cur ∧ (t.core c).run = ({} : Core).run)

/-! ### Power, ageing and the always-on domain -/

/-- R422 to R426, R443, R503, R51 to R53: limits, pace and heat. FWD follows the request inside FLOOR and VMAXEFF; a request past a limit is
recorded with
0x7A. The pace level after a window of 1 µs is the lowest that keeps the projection at 95 % of the ceiling, at most one below the last; work
is held where no level does, or where a check found none. The checks run every 125 ns and raise the level at once; both count on the oscillator
while the reference is lost (R443). The projection over
levels is the model's reading of R53 (log 31). A reading at TTRIP quenches: FWD goes to FLOOR, 0x72 is recorded with ACT 4; RESUME works only
with COOL. -/
def Obligations.PowerPaceAndHeat : Prop :=
  ∀ (s : State) (v : W32), s.boot.init = false → s.boot.cold = false → s.boot.blk = false → s.pwr.ps = 0 →
    (∃ t, exec (.vreqWrite .mgmt v) s = .next t ∧ t.pwr.req = v.toNat % 1024
      ∧ (s.pwr.quench = false → t.pwr.fwd = Nat.max s.floor (Nat.min (v.toNat % 1024) s.vmaxEff))
      ∧ (s.pwr.quench = true → t.pwr.fwd = s.floor)
      ∧ (s.vmaxEff < v.toNat % 1024 → ∃ f : FRec, f.code = 0x7A ∧ t.fq.offered = s.fq.offered ++ [f])
      ∧ (v.toNat % 1024 ≤ s.vmaxEff → t.fq = s.fq))
    ∧ (v.toNat % 1024 ≤ s.ceilTop → exec (.ceilreqWrite .mgmt v) s = .next { s with pwr := { s.pwr with ceilReq := v.toNat % 1024 } })
    ∧ (∀ beats want : List W32, (s.paceDue (s.pwr.winAt + s.us 1) = false → exec (.paceWindowEnd beats want) s = .next s)
      ∧ (s.paceDue (s.pwr.winAt + s.us 1) = true →
        let demand := s.powerOf (want.map (·.toNat))
        ∃ t, exec (.paceWindowEnd beats want) s = .next t ∧ t = { s with pwr := t.pwr }
        ∧ t.pwr.est = BitVec.ofNat 16 (Nat.min 65535 (s.powerOf (beats.map (·.toNat)))) ∧ t.pwr.ceilWin = s.ceiling ∧ t.pwr.fwd = s.pwr.fwd
        ∧ t.pwr.winAt = s.aon.tb ∧ t.pwr.chkAt = s.aon.tb ∧ t.pwr.chkN = 0 ∧ t.pwr.holdNext = false
        ∧ (t.pwr.hold = false → meetsR52 s.ceiling demand t.pwr.level = true ∧ s.pwr.level - 1 ≤ t.pwr.level ∧ t.pwr.level < 16
            ∧ ∀ j, s.pwr.level - 1 ≤ j → j < t.pwr.level → meetsR52 s.ceiling demand j = false)
        ∧ (t.pwr.hold = true → t.pwr.level = 15
            ∧ (s.pwr.holdNext = true ∨ ∀ j, s.pwr.level - 1 ≤ j → j < 16 → meetsR52 s.ceiling demand j = false))
        ∧ (s.pwr.holdNext = true → t.pwr.hold = true)))
    ∧ (∀ beats want : List W32, (s.paceDue (s.pwr.chkAt + s.ns 125) = false → exec (.paceCheck beats want) s = .next s)
      ∧ (s.paceDue (s.pwr.chkAt + s.ns 125) = true →
        let after : Pwr := { s.pwr with chkAt := s.aon.tb, chkN := s.pwr.chkN + 1 }
        let demand := s.powerOf (s.toWindow want)
        (s.powerOf (s.toWindow beats) ≤ 8 * s.pwr.ceilWin →
          exec (.paceCheck beats want) s = .next { s with pwr := after })
        ∧ (8 * s.pwr.ceilWin < s.powerOf (s.toWindow beats) →
          (∃ n, s.pwr.level ≤ n ∧ n ≤ 15 ∧ meetsR52 s.pwr.ceilWin demand n = true
              ∧ (∀ j, s.pwr.level ≤ j → j < n → meetsR52 s.pwr.ceilWin demand j = false)
              ∧ exec (.paceCheck beats want) s = .next { s with pwr := { after with level := n } })
          ∨ ((∀ j, s.pwr.level ≤ j → j < 16 → meetsR52 s.pwr.ceilWin demand j = false)
              ∧ exec (.paceCheck beats want) s = .next { s with pwr := { after with level := 15, holdNext := true } }))))
    ∧ ((s.aon.refLost = true → ∀ n, s.paceDue n = true) ∧ (s.aon.refLost = false → ∀ n, s.paceDue n = decide (n ≤ s.aon.tb)))
    ∧ (∀ (src : BitVec 4) (x : W16),
      (8 < src.toNat → exec (.sensorReading src x) s = .refused (.noSuchSource src.toNat)
        ∧ exec (.sensorStale src) s = .refused (.noSuchSource src.toNat))
      ∧ (src.toNat ≤ 8 → (∃ t, exec (.sensorReading src x) s = .next t
          ∧ (t.sensor src.toNat).val = x ∧ (t.sensor src.toNat).seen = true ∧ (t.sensor src.toNat).stale = false
          ∧ (t.sensor src.toNat).time = s.aon.tb ∧ (∀ k, k ≠ src.toNat → t.sensor k = s.sensor k) ∧ t.cores = s.cores)
        ∧ ((s.sensor src.toNat).seen = true → (s.sensor src.toNat).stale = false →
            s.due ((s.sensor src.toNat).time + s.us 1000) = true →
            ∃ t, exec (.sensorStale src) s = .next t ∧ t.sensor src.toNat = { s.sensor src.toNat with stale := true })))
    ∧ (∀ h, s.pwr.quench = false → s.hottest = some h → 4 * (s.otp.sh.ttrip : Int) ≤ h → ∃ t, exec .thermalTrip s = .next t
        ∧ t.pwr.quench = true ∧ t.pwr.cool = false ∧ t.pwr.inval = false ∧ t.pwr.trips = Nat.min 65535 (s.pwr.trips + 1)
        ∧ t.pwr.fwd = t.floor ∧ t.running = false
        ∧ ∃ f : FRec, f.code = 0x72 ∧ f.act = 4 ∧ f.esc = true ∧ t.fq.offered = s.fq.offered ++ [f])
    ∧ (s.pwr.quench = true → exec .thermalTrip s = .next s)
    ∧ (∀ t0, s.pwr.coolSince = some t0 → s.coolNow = true → s.due (t0 + s.us 10000) = true →
        exec .coolCondition s = .next { s with pwr := { s.pwr with cool := true } })
    ∧ (s.pwr.quench = true → (s.pwr.cool = false → exec (.qcmdResume .mgmt) s = .next s)
        ∧ (s.pwr.cool = true → ∃ t, exec (.qcmdResume .mgmt) s = .next t ∧ t.pwr.quench = false
            ∧ t.pwr.fwd = Nat.max s.floor (Nat.min s.pwr.req s.vmaxEff)))

/-- R48, R49, R428 to R437: ageing. A raise of a unit's offset or floor takes effect at once; a shortening is held while the unit is in use. A canary
that fails raises the offset by one, and three such raises are recorded with 0x74; a unit is measured once a millisecond. A temper pass measures
a spare or a hub, sets the
offset and floor that the search gives, and returns the slab to spare; a failed search retires the slab with 0x75. -/
def Obligations.AgeingAndTempering : Prop :=
  ∀ (s : State) (u : UnitNo) (u7 : BitVec 7) (v : W32), s.answers = true → (u.val < 68 → s.slabAnswers u = true) → u7.toNat = u.val →
    let a := s.age u
    let mine := s.temper.busy = true ∧ s.temper.unit = u.val
    let recorded (t : State) (code : Nat) : Prop := ∃ f : FRec, f.code = code ∧ t.fq.offered = s.fq.offered ++ [f]
    (¬ mine → ∃ t, exec (.temperWrite .mgmt u v) s = .next t ∧ (∀ w, w ≠ u.val → t.age w = s.age w)
      ∧ (t.age u).tdrift = sext 11 (v.toNat / 2 ^ 15)
      ∧ (let off := v.toNat % 32
         (a.offset ≤ off → (t.age u).offset = off ∧ (t.age u).heldOff = none)
          ∧ (off < a.offset → s.mayShorten u = false → (t.age u).offset = a.offset ∧ (t.age u).heldOff = some off))
      ∧ (let fl := Nat.min (v.toNat / 32 % 1024) s.otp.sh.vfloorMax
         (a.floor ≤ fl → (t.age u).floor = fl ∧ (t.age u).heldFloor = none)
          ∧ (fl < a.floor → s.mayShorten u = false → (t.age u).floor = a.floor ∧ (t.age u).heldFloor = some fl))
      ∧ t.pwr.fwd = t.fwdNow)
    ∧ (mine → exec (.temperWrite .mgmt u v) s = .next s)
    ∧ (s.mayShorten u = false → exec (.heldShorteningApply u) s = .next s)
    ∧ (s.mayShorten u = true → ∃ t, exec (.heldShorteningApply u) s = .next t ∧ t.age u
        = { a with offset := a.heldOff.getD a.offset, floor := a.heldFloor.getD a.floor, heldOff := none, heldFloor := none })
    ∧ (∀ (rcount temp : W16),
      let due := s.due (a.meas + s.us 1000)
      (due = false → ∀ fails, exec (.patinaMeasurement u rcount temp fails) s = .next s)
      ∧ (due = true → ∃ t, exec (.patinaMeasurement u rcount temp false) s = .next t ∧ (t.age u).rcount = rcount ∧ (t.age u).offset = a.offset
        ∧ (t.age u).meas = s.aon.tb ∧ (s.otp.sh.base = none → (t.age u).drift = 0))
      ∧ (due = true → ¬ mine → s.codeFull u = false → ∃ t, exec (.patinaMeasurement u rcount temp true) s = .next t
          ∧ (t.age u).offset = Nat.min 31 (a.offset + 1) ∧ (t.age u).auto = Nat.min 15 (a.auto + 1) ∧ (t.age u).cfail = true
          ∧ (a.told = false → 2 ≤ a.auto → (t.age u).told = true ∧ recorded t 0x74)))
    ∧ (s.temper.busy = true → exec (.tmpcmdMeasure .mgmt u7) s = .next { s with temper := { s.temper with result := 2, last := u.val } })
    ∧ (s.temper.busy = false → u.val < 68 →
        ((s.role u).st = .spare ∨ (s.role u).st = .tempering → ∃ t, exec (.tmpcmdMeasure .mgmt u7) s = .next t ∧ t.temper.busy = true
          ∧ t.temper.unit = u.val ∧ t.temper.last = u.val ∧ t.role u = { s.role u with st := .tempering })
        ∧ ((s.role u).st ≠ .spare → (s.role u).st ≠ .tempering → ∃ t, exec (.tmpcmdMeasure .mgmt u7) s = .next t
          ∧ t.temper.result = 1 ∧ t.temper.last = u.val ∧ t.temper.busy = false ∧ t.roles = s.roles))
    ∧ (s.pwr.trans = true → ∀ m, exec (.marginSearchComplete m) s = .next s)
    ∧ (mine → s.pwr.trans = false → (∀ m : BitVec 5, let fl := s.otp.sh.vfloor0 + 5 * cdiv a.drift.toNat 10
          (fl ≤ s.otp.sh.vfloorMax → exec (.marginSearchComplete (some m)) s = .next { s with temper := { s.temper with
              busy := false, result := 0, newOff := Nat.min 31 (m.toNat + s.otp.sh.guard + (if u.val < 68 then 0 else 1)),
              newFloor := fl, drift := a.drift, ready := true } })
          ∧ (s.otp.sh.vfloorMax < fl → ∃ t, exec (.marginSearchComplete (some m)) s = .next t ∧ t.temper.result = 4 ∧ recorded t 0x75))
        ∧ (∃ t, exec (.marginSearchComplete none) s = .next t ∧ t.temper.result = 3 ∧ t.temper.busy = false ∧ recorded t 0x75
            ∧ (u.val < 68 → (t.role u).st = .retiredService ∧ (t.role u).logical = none) ∧ t.ages = s.ages))
    ∧ (mine → (∃ t, exec (.tmpcmdAbort .mgmt u7) s = .next t ∧ t.temper.busy = false ∧ t.temper.result = 5
            ∧ (u.val < 68 → (t.role u).st = .spare) ∧ t.ages = s.ages))
    ∧ (s.temper.ready = true → s.temper.result = 0 → s.temper.unit = u.val → ∃ t, exec (.tmpcmdCommit .mgmt u7) s = .next t
        ∧ t.temper.ready = false ∧ (t.age u).cfail = false ∧ (t.age u).auto = 0 ∧ (t.age u).tdrift = s.temper.drift
        ∧ (u.val < 68 → (t.age u).offset = s.temper.newOff ∧ (t.age u).floor = s.temper.newFloor ∧ (t.role u).st = .spare)
        ∧ (68 ≤ u.val → a.offset ≤ s.temper.newOff → (t.age u).offset = s.temper.newOff ∧ (t.age u).pend = 0)
        ∧ (68 ≤ u.val → s.temper.newOff < a.offset → (t.age u).offset = a.offset ∧ (t.age u).pend = s.temper.newOff))
    ∧ (s.temper.ready = false → exec (.tmpcmdCommit .mgmt u7) s = .next s)

/-- R325, R440 to R448: the always-on domain. A comparator takes writes from its owner alone; the one that a casting gives
a partition is armed for the earliest of the partition's waits (R325); when it fires, ARM clears, FIRED is set, and its interrupt goes
to its owner; a fired wake is latched while the block is in a low-power state. VCORE outside its tolerance for 10 µs is recorded with 0x73, a
lost reference with 0x7C, and the timebase then stands. A read of AON_TBLO captures the upper half for its requester, and that
requester's next read of AON_TBHI returns it. -/
def Obligations.AlwaysOnDomain : Prop :=
  ∀ (s : State) (k : BitVec 4) (v : W32), s.answers = true →
    let d := s.dl k.toNat
    let now := s.dlNow k.toNat
    (∀ req w, owns req d.owner = false → exec (.deadlineWrite req k w v) s = .next s)
    ∧ (∀ req, owns req d.owner = true → ∃ t, exec (.deadlineWrite req k 0#2 v) s = .next t
        ∧ t.dl k.toNat = { d with cmp := d.cmp / 2 ^ 32 * 2 ^ 32 + v.toNat } ∧ ∀ j, j ≠ k.toNat → t.dl j = s.dl j)
    ∧ (∀ req, owns req d.owner = true → ∃ t, exec (.deadlineWrite req k 2#2 v) s = .next t
        ∧ (t.dl k.toNat).arm = v.getLsbD 0 ∧ (t.dl k.toNat).cmp = d.cmp ∧ (t.dl k.toNat).fired = (d.fired && !v.getLsbD 3)
        ∧ ∀ j, j ≠ k.toNat → t.dl j = s.dl j)
    ∧ (∀ req, owns req d.owner = true → ∃ t, exec (.deadlineWrite req k 1#2 v) s = .next t
        ∧ t.dl k.toNat = { d with cmp := d.cmp % 2 ^ 32 + 2 ^ 32 * v.toNat } ∧ ∀ j, j ≠ k.toNat → t.dl j = s.dl j)
    ∧ (∀ req, exec (.deadlineWrite req k 3#2 v) s = .next s)
    ∧ (now.arm = true → s.due now.cmp = true → ∃ t, exec (.deadlineFire k) s = .next t
        ∧ t.dl k.toNat = { now with arm := false, fired := true }
        ∧ (d.irq = true → d.owner ≠ 8 → d.vec ∈ t.irqs) ∧ (d.irq = true → d.owner = 8 → k.toNat ∈ t.mgmtIrqs)
        ∧ (d.irq = false → t.irqs = s.irqs ∧ t.mgmtIrqs = s.mgmtIrqs)
        ∧ (d.wake = true → s.pwr.ps ≠ 0 → t.aon.wDl = true ∧ t.aon.wakeReq = true) ∧ (d.wake = false → t.aon.wDl = s.aon.wDl))
    ∧ ((now.arm = false ∨ s.due now.cmp = false) → exec (.deadlineFire k) s = .next s)
    ∧ ((s.cast.loaded = false ∨ s.cast.img.timers.contains (d.owner, k.toNat) = false) → now = d)
    ∧ (s.cast.loaded = true → s.cast.img.timers.contains (d.owner, k.toNat) = true →
        (now.arm = true ↔ s.waitTimes d.owner ≠ []) ∧ (∀ w ∈ s.waitTimes d.owner, now.cmp ≤ w)
          ∧ (now.arm = true → now.cmp ∈ s.waitTimes d.owner))
    ∧ (∀ (j : BitVec 2) r, s.scReading j.toNat = some r →
      let x := s.sc j.toNat
      (x.arm = true → x.hit r = true → ∃ t, exec (.sensorComparatorFire j) s = .next t
        ∧ t.sc j.toNat = { x with arm := false, fired := true }
        ∧ (x.irq = true → x.owner = 8 → 16 + j.toNat ∈ t.mgmtIrqs) ∧ (x.irq = true → x.owner ≠ 8 → x.vec ∈ t.irqs)
        ∧ (x.wake = true → s.pwr.ps ≠ 0 → t.aon.wSc = true ∧ t.aon.wakeReq = true))
      ∧ ((x.arm = false ∨ x.hit r = false) → exec (.sensorComparatorFire j) s = .next s))
    ∧ (∀ t0, s.aon.vOut = some t0 → s.aon.venv = false → s.pwr.on = true → s.pwr.trans = false → s.due (t0 + s.us 10) = true →
        ∃ t f, exec .vcoreEnvelopeExcursion s = .next t ∧ t.aon = { s.aon with venv := true }
          ∧ t.fq = { s.fq with offered := s.fq.offered ++ [f] } ∧ FRec.code f = 0x73 ∧ t.pwr = s.pwr)
    ∧ (s.aon.refLost = false → ∃ t f, exec .referenceLost s = .next t ∧ t.aon = { s.aon with refLost := true }
        ∧ t.fq = { s.fq with offered := s.fq.offered ++ [f] } ∧ FRec.code f = 0x7C ∧ f.esc = true ∧ ∀ n, t.due n = false)
    ∧ exec .referenceResumed s = .next { s with aon := { s.aon with refLost := false } }
    ∧ exec (.tbloRead .host) s = .next { s with aon := { s.aon with capHost := BitVec.ofNat 32 (s.aon.tb / 2 ^ 32) } }
    ∧ exec (.tbloRead .mgmt) s = .next { s with aon := { s.aon with capMgmt := BitVec.ofNat 32 (s.aon.tb / 2 ^ 32) } }
    ∧ (∀ req, ∃ t, exec (.tbloRead req) s = .next t ∧ (t.ctrlRead req 0x00100004).1 = BitVec.ofNat 32 (s.aon.tb / 2 ^ 32)
        ∧ (∀ r, r ≠ req → (t.ctrlRead r 0x00100004).1 = (s.ctrlRead r 0x00100004).1)
        ∧ (∀ r, (s.ctrlRead r 0x00100000) = (BitVec.ofNat 32 s.aon.tb, s.captureTb r)))

/-- R449 to R455, R504: the power states. A request while work is in progress is refused with RESULT 1; idle forwards FLOOR; retention and deep sleep
begin to enter, and an idle step with no memory request open requests VCORE off. A wake source is latched while the block sleeps; a wake
requests VCORE on; power-good then ends retention with the local stores and taps as they were and the watchdog's count where it stood (R475), or
begins the initialisation of a deep sleep. -/
def Obligations.PowerStates : Prop :=
  ∀ (s : State), s.boot.cold = false → s.boot.blk = false →
    (s.boot.init = false → s.pwr.ps < 2 → s.pwr.step = .none_ →
      (s.pwr.quench = true ∨ s.busyWork = true →
        let r : State := { s with pwr := { s.pwr with psResult := 1 } }
        exec (.pscmdActive .mgmt) s = .next r ∧ exec (.pscmdIdle .mgmt) s = .next r ∧ exec (.pscmdRetention .mgmt) s = .next r
          ∧ exec (.pscmdDeepSleep .mgmt) s = .next r)
      ∧ (s.pwr.quench = false → s.busyWork = false →
        (∃ t, exec (.pscmdActive .mgmt) s = .next t ∧ t.pwr.ps = 0 ∧ t.pwr.psResult = 0
            ∧ t.pwr.fwd = Nat.max s.floor (Nat.min s.pwr.req s.vmaxEff))
        ∧ (∃ t, exec (.pscmdIdle .mgmt) s = .next t ∧ t.pwr.ps = 1 ∧ t.pwr.psResult = 0 ∧ t.pwr.fwd = s.floor)
        ∧ (s.busyDeep = true → exec (.pscmdRetention .mgmt) s = .next { s with pwr := { s.pwr with psResult := 1 } }
            ∧ exec (.pscmdDeepSleep .mgmt) s = .next { s with pwr := { s.pwr with psResult := 1 } })
        ∧ (s.busyDeep = false →
          exec (.pscmdRetention .mgmt) s = .next { s with
            pwr := { s.pwr with psResult := 0, target := 2, step := .entering }, aon := { s.aon with wakeReq := false } }
          ∧ exec (.pscmdDeepSleep .mgmt) s = .next { s with
            pwr := { s.pwr with psResult := 0, target := 3, step := .entering }, aon := { s.aon with wakeReq := false } })))
    ∧ (s.pending = [] → s.treqs = [] → s.pwr.step = .entering → s.otp.pgm = none → s.memq = [] →
        ∃ t, step s = .next t ∧ t.pwr = { s.pwr with step := .offWait false, on := false, ps := s.pwr.target, offAt := t.aon.tb })
    ∧ (s.pwr.step = .offWait false → ∃ t, exec .powerGoodDeassert s = .next t ∧ t.boot.pgood = false
        ∧ t.pwr = { s.pwr with step := .off } ∧ t.cores = s.cores)
    ∧ (2 ≤ s.pwr.ps → exec .hostWake s = .next { s with aon := { s.aon with wHost := true, wakeReq := true } })
    ∧ (s.pwr.ps = 0 → s.pwr.step = .none_ → exec .hostWake s = .next s ∧ exec .linkActivity s = .next s)
    ∧ (s.aon.linkWake = true → s.pwr.ps ≠ 0 → exec .linkActivity s
        = .next { s with aon := { s.aon with wLink := true, wakeReq := true } })
    ∧ (s.aon.linkWake = false → exec .linkActivity s = .next s)
    ∧ (s.aon.wakeReq = false → exec .wake s = .next s)
    ∧ (s.aon.wakeReq = true → s.pwr.step = .off → s.pwr.target = 2 → ∃ t, exec .wake s = .next t ∧ t.pwr.on = true
        ∧ t.pwr.step = .waking ∧ t.pwr.ps = s.pwr.ps ∧ t.pwr.fwd = s.fwdActive ∧ t.cores = s.cores ∧ t.aon.wakeReq = false)
    ∧ (s.aon.wakeReq = true → s.pwr.step = .off → s.pwr.target = 3 → ∃ t, exec .wake s = .next t ∧ t.pwr.on = true
        ∧ t.pwr.step = .waking ∧ t.boot.init = true ∧ t.boot.cause = 3 ∧ t.otp.sh = otpShadow s.otp.arr ∧ t.cores = [])
    ∧ (s.aon.wakeReq = true → s.pwr.step = .none_ → s.pwr.ps = 1 → s.pwr.quench = false → ∃ t, exec .wake s = .next t ∧ t.pwr.ps = 0
        ∧ t.pwr.fwd = Nat.max s.floor (Nat.min s.pwr.req s.vmaxEff))
    ∧ (s.pwr.step = .waking → s.pwr.ps = 2 → s.boot.init = false → ∃ t, exec .powerGood s = .next t ∧ t.pwr.ps = 0 ∧ t.pwr.step = .none_
        ∧ (∀ c, (t.core c).st.ls = (s.core c).st.ls ∧ (t.core c).rp.store = (s.core c).rp.store
          ∧ (t.core c).run = { ranSince := (s.core c).run.ranSince })
        ∧ (∀ o, t.reg o = if 0x00100000 ≤ o ∧ o < 0x00800000 then s.reg o else regReset o) ∧ t.cast = s.cast ∧ t.roles = s.roles ∧ t.tlb = []
        ∧ (∀ u, (t.age u).offset = (s.age u).offset ∧ (t.age u).floor = (s.age u).floor ∧ (t.age u).tdrift = (s.age u).tdrift
            ∧ (t.age u).pend = (s.age u).pend ∧ (t.age u).drift = 0 ∧ (t.age u).auto = 0 ∧ (t.age u).heldOff = none)
        ∧ t.mgmt.wdKick = s.mgmt.wdKick + (s.aon.tb - s.pwr.offAt) ∧ t.mgmt.run = s.mgmt.run)
    ∧ (s.pwr.step = .waking → s.pwr.ps = 3 → ∃ t, exec .powerGood s = .next t ∧ t.pwr.ps = 0 ∧ t.boot.initRun = true
        ∧ t.boot.init = s.boot.init)

/-- R439, R454, R457 to R463, R478 to R480, R503, R506: resets and the OTP. Cold reset and the loss of VAON keep the OTP array and the tiers alone, an
interrupted generation staying programmed; the release of cold reset loads the shadow, starts the timebase at 0 and requests VCORE on;
block reset keeps the always-on domain and the OTP too, and its release, with power good, maps the slabs and starts the initialisation,
which ends when every source has reported. PGMCMD programs a blank REPAIR generation from the data registers, the tester any field
before LOCK; a generation programmed into blank bits reads back with its check, and one that fails in programming does not pass. -/
def Obligations.ResetsAndOtp : Prop :=
  ∀ (s : State) (b ta tb : Bool),
    let o := s.otp
    let kept := s.otpAbort.otp.arr
    (o.pgm = none → kept = o.arr)
    -- COLD_RESET_ASSERT
    ∧ (s.boot.cold = false → ∃ t, exec (.coldResetAssert b) s = .next t ∧ t.boot.cold = true ∧ t.boot.vaon = true ∧ t.boot.cause = 1
        ∧ t.otp = { arr := kept, testmode := b } ∧ t.cores = [] ∧ t.regs = [] ∧ t.fq = {} ∧ t.aon = {} ∧ t.mgmt = {} ∧ t.cast = {}
        ∧ t.tierA = s.tierA ∧ t.tierB = s.tierB ∧ t.hostOut = s.hostOut)
    ∧ (s.boot.cold = true → exec (.coldResetAssert b) s
        = .next { s with otp := { o with testmode := b }, boot := { s.boot with vaon := true } })
    -- VAON_LOSS
    ∧ (∃ t, exec .vaonLoss s = .next t ∧ t.boot.vaon = false ∧ t.boot.cold = true ∧ t.boot.cause = 0
        ∧ t.otp = { arr := kept } ∧ t.cores = [] ∧ t.regs = [] ∧ t.fq = {} ∧ t.aon = {} ∧ t.tierA = s.tierA ∧ t.tierB = s.tierB)
    -- COLD_RESET_RELEASE
    ∧ (s.boot.cold = true → s.boot.vaon = true → ∃ t fs, exec (.coldResetRelease ta tb) s = .next t ∧ t.boot.cold = false ∧ t.aon.tb = 0
        ∧ t.boot.ea = ta ∧ t.boot.eb = tb ∧ t.otp = { o with raw := o.arr, loaded := true, sh := otpShadow o.arr }
        ∧ t.pwr.on = true ∧ t.pwr.trans = true ∧ t.pwr.fwd = Nat.max t.floor (Nat.min s.pwr.req t.vmaxEff)
        ∧ (∀ u, u < 72 → (t.age u).floor = (otpShadow o.arr).rstFloor) ∧ t.cores = s.cores
        ∧ t.fq.offered = s.fq.offered ++ fs ∧ fs.length = (otpShadow o.arr).fail.length
        ∧ ∀ f ∈ fs, FRec.code f = 0x7B ∧ f.esc = true)
    ∧ ((s.boot.cold = false ∨ s.boot.vaon = false) → exec (.coldResetRelease ta tb) s = .next s)
    -- BLOCK_RESET_ASSERT
    ∧ (s.boot.cold = false → ∃ t, exec .blockResetAssert s = .next t ∧ t.boot.blk = true ∧ t.boot.init = true ∧ t.boot.initRun = false
        ∧ t.boot.cause = 2 ∧ t.cores = [] ∧ t.fq = {} ∧ t.mgmt = {} ∧ t.cast = {} ∧ t.subs = [] ∧ t.mesh = [] ∧ t.otp = o
        ∧ t.aon.tb = s.aon.tb ∧ t.aon.sens = s.aon.sens ∧ t.tierA = s.tierA ∧ t.tierB = s.tierB
        ∧ t.reg oRefFreq = s.reg oRefFreq ∧ ∀ x, x ≠ oRefFreq → t.reg x = regReset x)
    ∧ (s.boot.cold = true → exec .blockResetAssert s = .next { s with boot := { s.boot with blk := true } })
    -- BLOCK_RESET_RELEASE
    ∧ (s.boot.blk = true → s.boot.pgood = true → s.boot.cold = false → o.loaded = true → s.pwr.ps < 2 → ∃ t, exec .blockResetRelease s = .next t
        ∧ t.boot = { s.boot with blk := false, initRun := true } ∧ t.lmap = s.mapSlabs.lmap ∧ t.roles = s.mapSlabs.roles ∧ t.pwr = s.pwr)
    ∧ (s.boot.blk = true → s.boot.pgood = false → exec .blockResetRelease s = .next { s with boot := { s.boot with blk := false } })
    ∧ (s.boot.blk = false → exec .blockResetRelease s = .next s)
    -- INIT_COMPLETE
    ∧ (s.boot.initRun = true → s.boot.init = true → s.boot.blk = false → s.boot.cold = false →
        (∀ k, k < 9 → (s.sensor k).seen = true) → ∃ t, exec .initComplete s = .next t ∧ t.boot = { s.boot with init := false, initRun := false }
          ∧ (s.boot.cause = 3 → s.aon.vecEn = true → s.aon.vec ∈ t.irqs) ∧ (s.boot.cause ≠ 3 → t.irqs = s.irqs)
          ∧ t.pwr.fwd = s.fwdNow ∧ t.cores = s.cores ∧ t.roles = s.roles)
    ∧ ((∃ k, k < 9 ∧ (s.sensor k).seen = false) → exec .initComplete s = .next s)
    -- OTP_PGMCMD_GO
    ∧ (∀ f : BitVec 3,
      let data := (List.range 146).map (fun i => ((Sp.get 0#32 o.data (i / 4)).extractLsb' (8 * (i % 4)) 8))
      exec (.otpPgmcmdGo .host f) s = .next s
      ∧ (s.answers = true → o.pgm = none →
        (f ≠ 4#3 → exec (.otpPgmcmdGo .mgmt f) s = .next { s with otp := { o with result := 2 } })
        ∧ (otpNext o.arr 4 = none → exec (.otpPgmcmdGo .mgmt 4#3) s = .next { s with otp := { o with result := 1 } })
        ∧ (∀ g, otpNext o.arr 4 = some g →
          (repairOk s (bytesNat data) = true →
            exec (.otpPgmcmdGo .mgmt 4#3) s = .next { s with otp := { o with pgm := some { field := 4, gen := g, data := data } } })
          ∧ (repairOk s (bytesNat data) = false → exec (.otpPgmcmdGo .mgmt 4#3) s = .next { s with otp := { o with result := 3 } })))
      ∧ (o.pgm.isSome = true → exec (.otpPgmcmdGo .mgmt f) s = .next s))
    -- OTP_TEST_PROGRAM
    ∧ (∀ (f : BitVec 3) (data : List Byte),
      (o.testmode = false ∨ otpLocked o.arr = true → exec (.otpTestProgram f data) s = .next s)
      ∧ (∀ g, f.toNat ≤ 6 → s.boot.vaon = true → o.testmode = true → o.pgm = none → otpLocked o.arr = false →
          otpNext o.arr f.toNat = some g → exec (.otpTestProgram f data) s
            = .next { s with otp := { o with pgm := some { field := f.toNat, gen := g, data := data } } })
      ∧ (f.toNat ≤ 6 → s.boot.vaon = true → o.testmode = true → o.pgm = none → otpLocked o.arr = false →
          otpNext o.arr f.toNat = none → exec (.otpTestProgram f data) s = .next { s with otp := { o with result := 1 } }))
    -- OTP_PROGRAM_COMPLETE
    ∧ (∀ p, o.pgm = some p → p.field ≤ 6 → p.data.length = otpLen p.field →
        let lo := otpBase p.field + p.gen * otpSize p.field
        (∀ i, i < otpSize p.field → Memory.byte o.arr (lo + i) = 0#8) →
        let outside (t : State) : Prop := ∀ x, x < lo ∨ lo + otpSize p.field ≤ x → Memory.byte t.otp.arr x = Memory.byte o.arr x
        (∃ t, exec (.otpProgramComplete true) s = .next t ∧ t.otp.pgm = none ∧ t.otp.result = 0 ∧ t.otp.gen = p.gen
          ∧ otpPass t.otp.arr p.field p.gen = true ∧ otpData t.otp.arr p.field p.gen = bytesNat p.data ∧ t.otp.sh = o.sh ∧ outside t)
        ∧ (∃ t, exec (.otpProgramComplete false) s = .next t ∧ t.otp.pgm = none ∧ t.otp.result = 4 ∧ t.otp.gen = p.gen
          ∧ otpProg t.otp.arr p.field p.gen = true ∧ otpPass t.otp.arr p.field p.gen = false ∧ t.otp.sh = o.sh ∧ outside t))
    ∧ (o.pgm = none → ∀ ok, exec (.otpProgramComplete ok) s = .next s)

/-! ### Management, self-test and the update engine -/

/-- R466 to R477: the management core. A command is taken while BUSY is 0, waits for firmware, is answered with RESULT 1 during an update, and
otherwise has its effect: it acknowledges, ends a halted core's stream at its last commit point with the next region, sets the policy, asks for a
save or an update. A cold load starts the
image, a handoff keeps the upper SRAM, and a bad image leaves the core held; the watchdog restarts it with 0x70. -/
def Obligations.ManagementCore : Prop :=
  ∀ (s : State) (v : W32), s.answers = true →
    let m := s.mgmt
    let q := v.toNat % 65536
    let done (op r : Nat) (n : Mgmt) : State := { s with mgmt := { n with cmdArg := v, cmdOp := op, cmdBusy := false, cmdResult := r } }
    let ended (t : State) (c : Nat) : Prop := (t.core c).run.halt = none ∧ (t.core c).run.run = none
      ∧ (t.core c).cur = { (restored (s.core c)).1 with region := ((s.core c).rp.region + 1) % 2 ^ 48 }
      ∧ (t.core c).rp = { (s.core c).rp with region := ((s.core c).rp.region + 1) % 2 ^ 48 }
      ∧ (∀ d, d ≠ c → t.core d = s.core d) ∧ ∀ e ∈ t.dlog, e.core = c → e.released = true
    (m.cmdBusy = true → exec (.cmdAck .host v) s = .next s ∧ exec (.cmdEnd .host v) s = .next s ∧ exec (.cmdUpdate .host v) s = .next s
      ∧ exec (.cmdPolicy .host v) s = .next s ∧ exec (.cmdSave .host v) s = .next s)
    ∧ (m.cmdBusy = false → m.run = false →
        exec (.cmdPolicy .host v) s = .next { s with mgmt := { m with cmdArg := v, cmdOp := 4, cmdBusy := true } })
    ∧ (m.cmdBusy = false → m.run = true → m.updating = true →
        exec (.cmdEnd .host v) s = .next (done 2 1 m) ∧ exec (.cmdUpdate .host v) s = .next (done 3 1 m)
        ∧ exec (.cmdAck .host v) s = .next { s with mgmt := { m with
            cmdArg := v, cmdOp := 1, cmdBusy := true, ackLater := m.ackLater ++ [q] } })
    ∧ (m.cmdBusy = false → m.run = true → m.updating = false →
      exec (.cmdAck .host v) s = .next (if m.unack.contains q then done 1 0 { m with unack := m.unack.erase q } else done 1 3 m)
      ∧ exec (.cmdPolicy .host v) s = .next (if v.toNat < 4 then done 4 0 { m with policy := v } else done 4 2 m)
      ∧ exec (.cmdUpdate .host v) s = .next (if v = 0#32 then done 3 0 { m with updating := true } else done 3 2 m)
      ∧ (v = 0#32 → ∃ t, exec (.cmdSave .host v) s = .next t ∧ t.mgmt.cmdResult = 0 ∧ t.mgmt.cmdBusy = false
          ∧ t.mgmt.logSeq = m.logSeq + 1 ∧ t.cores = s.cores)
      ∧ (v.toNat / 2 ^ 11 = 0 → ∀ p, s.phys (v.toNat % 64) = some p →
          let c := 32 * p + v.toNat / 64
          ((s.core c).run.halt = none → exec (.cmdEnd .host v) s = .next (done 2 3 m))
          ∧ ((s.core c).run.halt.isSome = true → ∃ t, exec (.cmdEnd .host v) s = .next t ∧ ended t c ∧ t.mgmt.cmdResult = 0)))
    ∧ (∀ (l : BitVec 6) (i : BitVec 5) p, s.phys l.toNat = some p →
        let c := 32 * p + i.toNat
        ((s.core c).run.halt = none → exec (.endcmd .mgmt l i) s = .next { s with mgmt := { m with endResult := true } })
        ∧ ((s.core c).run.halt.isSome = true → ∃ t, exec (.endcmd .mgmt l i) s = .next t ∧ ended t c ∧ t.mgmt.endResult = false))
    ∧ (m.load = none → (m.run = true → exec (.ldcmdColdLoad .host) s = .next { s with mgmt := { m with ldResult := 1 } })
      ∧ (m.run = false → exec (.ldcmdColdLoad .host) s = .next { s with mgmt := { m with load := some 1 } })
      ∧ (m.run = true → exec (.ldcmdHandoffLoad .mgmt) s
          = .next { s with mgmt := { m with load := some 2, wdSusp := some s.aon.tb } }))
    ∧ (∀ op read ok, m.load = some op → s.lost.contains .host = false →
      let img := read.take (s.regN oLoadLen)
      (fwImageOk img = false → exec (.firmwareLoadComplete read ok) s
          = .next { s with mgmt := { m with load := none, ldResult := 2, run := false } })
      ∧ (fwImageOk img = true → ∃ t, exec (.firmwareLoadComplete read ok) s = .next t ∧ t.mgmt.run = true ∧ t.mgmt.load = none
          ∧ (∀ i x, i < t.mgmt.imgLen → img[i]? = some x → Memory.byte t.mgmt.sram i = x)
          ∧ (∀ i, t.mgmt.imgLen ≤ i → i < 0xFC000 → Memory.byte t.mgmt.sram i = 0#8)
          ∧ (op = 1 → (∀ i, t.mgmt.imgLen ≤ i → Memory.byte t.mgmt.sram i = 0#8) ∧ t.mgmt.cause = 1 ∧ t.mgmt.policy = 2 ∧ t.mgmt.unack = [])
          ∧ (op ≠ 1 → t.mgmt.cause = 4 ∧ (∀ a, 0xFC000 ≤ a → Memory.byte t.mgmt.sram a = Memory.byte m.sram a)
              ∧ (ok = true → t.mgmt.policy = m.policy ∧ t.fq = s.fq)
              ∧ (ok = false → ∃ f : FRec, f.code = 0x79 ∧ f.esc = true ∧ t.fq.offered = s.fq.offered ++ [f]))))
    ∧ exec (.ifverWrite .mgmt v) s = .next { s with mgmt := { m with ifver := BitVec.ofNat 32 (v.toNat % 2 ^ 17) } }
    ∧ exec (.wdkick .mgmt) s = .next { s with mgmt := { m with wdKick := s.aon.tb, wdSusp := none } }
    ∧ exec (.wdkick .host) s = .next s
    ∧ (∀ bad, (s.wdExpired = false → exec (.watchdogExpiry bad) s = .next s)
      ∧ (s.wdExpired = true → ∃ t, exec (.watchdogExpiry bad) s = .next t
          ∧ (∃ f : FRec, f.code = 0x70 ∧ f.esc = true ∧ t.fq.offered = s.fq.offered ++ [f]) ∧ t.mgmt.sram = m.sram
          ∧ t.mgmt.run = !bad ∧ t.mgmt.cause = (if bad then 5 else 2) ∧ t.cores = s.cores))

/-- R338 to R348, R484 to R488: self-test and the update engine. A self-test starts only without a casting and with a sound header; its failed
slabs are retired under
two increments of GEN. An update step reads the layer table (0x1F where it breaks R341); a layer whose contributions have all arrived is
processed: without APPLY the accumulators gain the ledger's values, with APPLY each parameter moves by R343 and the accumulators
end at zero, and the slot is drained; a layer that is skipped keeps its masters and zeroes its accumulators. -/
def Obligations.SelfTestAndUpdate : Prop :=
  ∀ (s : State), s.answers = true →
    let u := s.upd
    (s.boot.stActive = false → (s.cast.loaded = true ∨ s.cast.busy.isSome = true →
        exec (.stcmdStart .mgmt) s = .next { s with boot := { s.boot with stResult := 4 } })
      ∧ (s.cast.loaded = false → s.cast.busy = none → s.stHeaderOk = false →
        exec (.stcmdStart .mgmt) s = .next { s with boot := { s.boot with stResult := 2 } })
      ∧ (s.cast.loaded = false → s.cast.busy = none → s.stHeaderOk = true → exec (.stcmdStart .mgmt) s = .next { s with boot :=
          { s.boot with stActive := true, stDone := false, stPhase := 1, stFail := [], stNfail := 0 } }))
    ∧ (s.boot.stActive = true → exec (.stcmdAbort .mgmt) s
        = .next { s with boot := { s.boot with stActive := false, stResult := 3, stPhase := 0 } })
    ∧ (∀ slabs hubs, s.boot.stActive = true → ∃ t, exec (.selfTestComplete slabs [] hubs) s = .next t ∧ t.boot.stActive = false
        ∧ t.boot.stDone = true
        ∧ (∀ x ∈ slabs, (s.role (x : SlabNo).val).st.retired = false → (t.role x.val).st = .retiredService ∧ x.val ∈ t.boot.stFail
            ∧ t.mapgen = (s.mapgen + 2) % 2 ^ 32 ∧ t.boot.stResult = 1)
        ∧ (slabs = [] → hubs = [] → t.boot.stResult = 0 ∧ t.mapgen = s.mapgen ∧ t.roles = s.roles ∧ t.fq = s.fq))
    ∧ (u.busy = true → ∀ ap, exec (.updcmdStart .host ap) s = .next s)
    ∧ (∀ ap, u.busy = false → ∃ t, exec (.updcmdStart .host ap) s = .next t ∧ t.upd.busy = true ∧ t.upd.apply = ap ∧ t.upd.next = 0
        ∧ t.upd.ls = sext 8 (s.regN oLoss) ∧ t.upd.skipped = false ∧ t.upd.reading = !s.tierUp false
        ∧ (s.tierUp false = false → t.upd.result = 0 ∧ t.upd.layers = [] ∧ t.fq = s.fq)
        ∧ (s.tierUp false = true → t.upd.layers = (u.readTable s.tierA s.updBase).layers
          ∧ (s.nslotL = 0 ∨ tableBad s.tierA s.updBase (u.readTable s.tierA s.updBase) = true → t.upd.result = 0x1F
              ∧ ∃ f : FRec, f.code = 0x1F ∧ t.fq.offered = s.fq.offered ++ [f])
          ∧ (s.nslotL ≠ 0 → tableBad s.tierA s.updBase (u.readTable s.tierA s.updBase) = false → t.upd.result = 0 ∧ t.fq = s.fq)))
    ∧ (∀ l, u.layers[u.next]? = some l → s.running = true → s.pwr.hold = false → u.busy = true → u.reading = false → u.result = 0 →
        s.tierUp false = true → s.tierUp true = true →
      let skip := u.skipped || s.layerAny l != 0 || (u.apply && l.skip)
      let a := s.slotAddr l.first + 0x1000
      let led (i : Nat) : Nat := Memory.nat s.tierA (a + 4 * i) 4
      let acc (i : Nat) : Nat := u.abase + l.first * (3 * 2 ^ 20) + 6 * i
      let mas (i : Nat) : Nat := u.mbase + l.first * 2 ^ 21 + 4 * i
      let mom (b i : Nat) : Nat := b + l.first * 2 ^ 20 + 2 * i
      (s.layerReady l = false → exec .updateLayerStart s = .next s)
      ∧ (s.layerReady l = true → ∃ t, exec .updateLayerStart s = .next t ∧ t.upd.next = u.next + 1 ∧ t.upd.layer = u.next
          ∧ (l.npages = 1 → if l.expect * contribution < s.arrivedOf (s.ledgerSlot l.first)
              then t.upd.result = 0x1E ∧ ∃ f ∈ t.fq.offered, f.code = 0x1E else t.upd.result = 0)
          ∧ (skip = true → t.upd.skipped = true ∧ (∀ b, u.abase + l.first * (3 * 2 ^ 20) ≤ b →
              b < u.abase + (l.first + l.npages) * (3 * 2 ^ 20) → Memory.byte t.tierB b = 0#8)
              ∧ (u.apply = false → Memory.nat t.tierA (s.updBase + layerOff u.nchip u.next + 48) 4 % 2 = 1)
              ∧ (u.apply = true → t.link = s.link))
          ∧ (skip = false → l.npages = 1 → (∀ b, b < slotBytes → Memory.byte t.tierA (s.slotAddr l.first + b) = 0#8))
          ∧ (skip = false → l.npages = 1 → u.apply = false →
              (∀ i, i < pageParams → Memory.nat t.tierB (acc i) 6 = accAdd (Memory.nat s.tierB (acc i) 6) (led i))
              ∧ ∀ b, b < acc 0 ∨ acc pageParams ≤ b → Memory.byte t.tierB b = Memory.byte s.tierB b)
          ∧ (skip = false → l.npages = 1 → u.apply = true →
              allPairs (fun (x y : Nat × Nat) => apart x.1 x.2 y.1 y.2)
                [(mas 0, 2 ^ 21), (mom u.m1base 0, 2 ^ 20), (mom u.m2base 0, 2 ^ 20), (acc 0, 3 * 2 ^ 20), (l.sibase, l.imgBytes)] = true →
              ∀ i, i < pageParams →
                let r := updParam (ruleOf u l) (sext 48 (accAdd (Memory.nat s.tierB (acc i) 6) (led i)))
                  (FFmt.fp32.read (Memory.nat s.tierB (mas i) 4)).1 (FFmt.bf16.read (Memory.nat s.tierB (mom u.m1base i) 2)).1
                  (FFmt.bf16.read (Memory.nat s.tierB (mom u.m2base i) 2)).1
                Memory.nat t.tierB (mas i) 4 = (FFmt.fp32.write .rne r.1).1 % 2 ^ 32
                  ∧ Memory.nat t.tierB (mom u.m1base i) 2 = (FFmt.bf16.write .rne r.2.1).1 % 2 ^ 16
                  ∧ Memory.nat t.tierB (mom u.m2base i) 2 = (FFmt.bf16.write .rne r.2.2).1 % 2 ^ 16
                  ∧ Memory.nat t.tierB (acc i) 6 = 0)))
    ∧ (∀ (layer : W16) l, s.table.layers[layer.toNat]? = some l → s.running = true → s.tableUp = true → u.drained.contains layer.toNat = true →
        ∃ t ps, exec (.layerUpdateComplete layer) s = .next t ∧ t.posts = s.posts ++ ps
          ∧ List.length ps = 32 * ((s.partEnt l.part).map (·.size)).getD 0
          ∧ (∀ m ∈ ps, PostMsg.sem m = l.sem ∧ m.cnt = 1 ∧ m.part = l.part) ∧ t.upd.drained = u.drained.erase layer.toNat)
    ∧ (s.running = true → u.busy = true → u.reading = false → s.tierUp false = true → (u.result ≠ 0 ∨ u.layers.length ≤ u.next) →
        ∃ t, exec .updateStepEnd s = .next t ∧ t.upd = { u with busy := false }
        ∧ (∀ i, i < u.layers.length → u.apply = true → Memory.nat t.tierA (s.updBase + layerOff u.nchip i + 48) 4 % 2 = 0)
        ∧ (let v := s.regN oLoss
           let ls := sext 8 v
           (u.skipped = true → t.regN oLossRun = 0 ∧ sext 8 (t.regN oLoss) = max (-126) (ls - 1))
          ∧ (u.skipped = false → v / 65536 = 0 → t.regN oLossRun = (s.regN oLossRun + 1) % 2 ^ 32 ∧ t.regN oLoss = v)))

/-! ### Chip links and remote regions -/

/-- R351, R354, R362 to R370, R374, R381, R387, R388: traffic of the links. A frame that passes waits for the link hub. A packet of a peer not
cached parks; one that
does not match its peer, or whose guard bits fail, is dropped and counted; a rejected one changes no memory; an accepted one is passed
to its target and its PSN is marked. An ACK clears what it acknowledges. A peer without a link stops with 0x66; its timer sends again
with a doubled timeout, and after RETRYMAX the peer is DEAD with 0x62. A late remote read stops with 0x6A. -/
def Obligations.LinkTraffic : Prop :=
  ∀ (s : State) (k : Nat), s.running = true →
    (∀ (l : LinkNo) bytes bad up, (∃ t, exec (.linkUp l up) s = .next t ∧ t = { s with link := { s.link with up := t.link.up } }
        ∧ ∀ n, n ∈ t.link.up ↔ if n = l.val then up = true else n ∈ s.link.up)
      ∧ (s.frameLost l.val = true →
          exec (.frameReceive l bytes bad) s = .next { s with strand := s.strand ++ [.frame l bytes bad] })
      ∧ (s.frameLost l.val = false → bad = true ∨ bitOf (s.regN (oLnkCtrl l)) 0 = false → exec (.frameReceive l bytes bad) s = .next s)
      ∧ (s.frameLost l.val = false → bitOf (s.regN (oLnkCtrl l)) 0 = true →
        (frameBody s.rxPort bytes = none → exec (.frameReceive l bytes false) s = .next (s.count (oLnkCnt l 2)))
        ∧ (∀ b ce, frameBody s.rxPort bytes = some (b, ce) → ∃ t, exec (.frameReceive l bytes false) s = .next t
            ∧ t.link = { s.link with rx := s.link.rx ++ [{ bytes := b, link := some l.val, ce := ce }] }
            ∧ t.reg (oLnkCnt l 1) = s.reg (oLnkCnt l 1) + 1#32
            ∧ t.reg (oLnkCnt l 4) = s.reg (oLnkCnt l 4) + (if ce then 1#32 else 0#32))))
    ∧ (∀ x, s.link.rx[k]? = some x → (∃ y ∈ s.link.rx.take k, hvDpeer y.bytes = hvDpeer x.bytes) →
        exec (.dataPacketReceive k) s = .next s ∧ exec (.ackReceive k) s = .next s)
    ∧ (∀ x, s.link.rx[k]? = some x → (∀ y ∈ s.link.rx.take k, hvDpeer y.bytes ≠ hvDpeer x.bytes) →
      let b := x.bytes
      let u : State := { s with link := { s.link with rx := s.link.rx.eraseIdx k } }
      (hvAck b = true → exec (.dataPacketReceive k) s = .next s) ∧ (hvAck b = false → exec (.ackReceive k) s = .next s)
      ∧ (hvAck b = false → s.peer (hvDpeer b) = none → s.link.miss.length < 64 → ∃ t, exec (.dataPacketReceive k) s = .next t
          ∧ t.link.miss = s.link.miss ++ [x] ∧ t.link.rx = u.link.rx ∧ hvDpeer b ∈ t.link.fetch ∧ t.link.pend = s.link.pend
          ∧ t.cores = s.cores)
      ∧ (∀ p, s.peer (hvDpeer b) = some p →
        let plain := p.dead = false ∧ hvSnode b = p.rnode ∧ hvSession b = p.session ∧ hvEnc b = false ∧ p.enc = false
        (p.dead = true ∨ hvSnode b ≠ p.rnode ∨ hvSession b ≠ p.session → hvAck b = false →
          exec (.dataPacketReceive k) s = .next (u.count (oHubCnt 2)))
        ∧ (hvAck b = false → plain → ∀ n, x.link = some n → wireGrans (b.drop 64) (hvNgran b) = none →
          exec (.dataPacketReceive k) s = .next (u.count (oLnkCnt n 3)))
        ∧ (∀ gs, hvAck b = false → plain → wireGrans (b.drop 64) (hvNgran b) = some gs → hvOp b = 0 →
          let psn := hvPsn b
          let d := psnSub psn p.rxExp
          let m : InPkt := { op := 0, msgid := hvMsgid b, off := hvOff b, total := hvTotal b, tg := (List.range 6).map (hvTarget b), grans := gs }
          let marked (t : State) : Prop := ∃ q, t.peer p.idx = some q ∧ (q.rxExp, q.rxMap) = markPsn p.rxExp p.rxMap psn ∧ q.viExp = p.viExp
          psnBelow psn p.rxExp = false → d < 256 → p.rxMap.testBit d = false →
          (s.passUp p.idx m = false → exec (.dataPacketReceive k) s = .next s)
          ∧ (∀ code, s.passUp p.idx m = true → s.regReject p m = some code → ∃ t r, exec (.dataPacketReceive k) s = .next t
            ∧ t.link.pend = s.link.pend ++ [r]
            ∧ RxPkt.void r = true ∧ t.cores = s.cores ∧ t.tierA = s.tierA ∧ t.tierB = s.tierB ∧ t.memq = s.memq ∧ marked t
            ∧ t.link.regRej = Nat.min 0x7FFF (s.link.regRej + 1))
          ∧ (s.passUp p.idx m = true → s.regReject p m = none → s.reasmOf p.idx m.msgid = none → s.inRing p.idx m.msgid = false →
            s.link.reasm.length < 4096 →
            (regEnt (s.regWords m.region)).ext = false → ∃ t r, exec (.dataPacketReceive k) s = .next t
            ∧ t.link.pend = s.link.pend ++ [r] ∧ RxPkt.void r = false ∧ r.count = true ∧ r.psn = psn ∧ r.off = m.base
            ∧ r.grans = ((gs.zipIdx).map (fun g => (m.off + g.2, g.1))).filter (fun g => decide (g.1 < m.total))
            ∧ t.link.reasm = s.link.reasm ++ [{
                peer := p.idx, msgid := m.msgid, total := m.total, count := 0, part := (regEnt (s.regWords m.region)).part }]
            ∧ t.cores = s.cores ∧ marked t))
        ∧ (hvAck b = true → plain → ∃ t q, exec (.ackReceive k) s = .next t ∧ t.link.rx = u.link.rx ∧ t.peer p.idx = some q
          ∧ (∀ y ∈ Peer.tx q, psnBelow y.psn (hvPsn b) = true → y.acked = true) ∧ q.txPsn = p.txPsn ∧ q.rxExp = p.rxExp
          ∧ (q.txBase = p.txBase → q.retries = p.retries ∧ q.rto = p.rto) ∧ (q.txBase ≠ p.txBase → q.retries = 0 ∧ q.rto = s.rtoInit))))
    ∧ (∀ x, s.link.pend[k]? = some x → s.canShow x = true → x.op = 0 → x.void = false → (regEnt x.ent).ext = false →
        ∀ d j v, s.coreAt (regEnt x.ent).part (regEnt x.ent).core = some d → x.grans = [(j, v)] →
          let g := (regEnt x.ent).first + x.off + j
          inKept (s.core d).cur.kept g = false → (s.core d).run.late = [] →
          ∃ t, exec (.packetVisible k) s = .next t ∧ Memory.granule (t.core d).st.ls (32 * g) = v
            ∧ (∀ a, a < 32 * g ∨ 32 * g + 32 ≤ a → Memory.byte (t.core d).st.ls a = Memory.byte (s.core d).st.ls a)
            ∧ t.link.pend = s.link.pend.eraseIdx k)
    ∧ (∀ (i : BitVec 14) p, s.peer i.toNat = some p →
      (∀ t0 n, p.ackSince = some t0 → p.enc = false → s.route p = some (some n) → bitOf (s.regN (oLnkCtrl n)) 1 = false →
          s.frameLost n = false →
        (s.due (t0 + s.ns s.ackDly) = false → exec (.ackDelayExpiry i) s = .next s)
        ∧ (s.due (t0 + s.ns s.ackDly) = true → ∃ t, exec (.ackDelayExpiry i) s = .next t
          ∧ t.peer i.toNat = some { p with ce := false, ackN := 0, ackSince := none, ackDue := false, lastLink := n }
          ∧ t.link.tx = s.link.tx ++ [(n, frameOf (s.pathBytes n p.path) p.dscp p.ect p.viExp
              (sealPacket { s.headFor p true p.viExp with ece := p.ce, map := p.viMap } 0 []))]))
      ∧ (p.dead = true → exec (.packetTransmit i) s = .next s)
      ∧ (p.ackDue = false → s.nextPacket p = none → exec (.packetTransmit i) s = .next s)
      ∧ (∀ l key, p.dead = false → p.ackDue = true → s.route p = some l → s.txKey p = some key →
        (s.serves p l = false → exec (.packetTransmit i) s = .next s)
        ∧ (s.serves p l = true → ∃ t q, exec (.packetTransmit i) s = .next t ∧ t.peer i.toNat = some q ∧ q.ackDue = false ∧ q.ackN = 0
          ∧ Peer.tx q = p.tx ∧ t.link.sends = s.link.sends ∧ t.cores = s.cores))
      ∧ (∀ y x, p.dead = false → s.nextPacket p = some (y, x, false) →
        (s.isLocal p = false → s.ownLinks p = [] → ∃ t, exec (.packetTransmit i) s = .next t
            ∧ ∀ z ∈ t.link.sends, Send.peer z = p.idx → z.fin = true)
        ∧ (∀ n, s.isLocal p = false → s.ownLinks p ≠ [] → s.route p = some (some n) → p.enc = false → p.ackDue = false →
            s.serves p (some n) = true → s.sourceUp y x.off x.n = true →
            ∃ t q, exec (.packetTransmit i) s = .next t ∧ t.peer i.toNat = some q ∧ q.txPsn = (p.txPsn + 1) % 2 ^ 32
              ∧ Peer.tx q = p.tx ++ [x] ∧ q.txBase = p.txBase ∧ q.cwnd = p.cwnd ∧ (p.timer.isSome = true → q.timer = p.timer)
              ∧ (p.timer = none → x.acked = false → q.timer = some (s.aon.tb + s.us p.rto))))
      ∧ (∀ d, p.timer = some d → (s.due d = false → exec (.retransmitExpiry i) s = .next s)
        ∧ (s.due d = true → p.retries + 1 < s.retryMax → ∃ t q, exec (.retransmitExpiry i) s = .next t ∧ t.peer i.toNat = some q
          ∧ q.retries = p.retries + 1 ∧ q.rto = Nat.min s.rtoMax (2 * p.rto) ∧ q.cwnd = s.cwMin
          ∧ (∀ z ∈ Peer.tx q, z.acked = false → z.resend = true) ∧ q.tx.map (fun z => z.psn) = p.tx.map (fun z => z.psn) ∧ t.cores = s.cores)
        ∧ (s.due d = true → s.retryMax ≤ p.retries + 1 → ∃ t q f rest, exec (.retransmitExpiry i) s = .next t ∧ t.peer i.toNat = some q
          ∧ Peer.dead q = true ∧ q.cwnd = s.cwMin ∧ t.fq.offered = s.fq.offered ++ f :: rest ∧ FRec.code f = 0x62
          ∧ ∀ z ∈ t.link.sends, Send.peer z = p.idx → z.fin = true)))
    ∧ (∀ r d, s.link.reads[k]? = some r → r.deadline = some d →
      (s.due d = false → exec (.remoteReadTimeout k) s = .next s)
      ∧ (s.due d = true → (s.core r.core).run.halt = none → ∃ t, exec (.remoteReadTimeout k) s = .next t
          ∧ t.link.reads = s.link.reads.eraseIdx k ∧ (t.core r.core).run.halt = some 0x6A ∧ (t.core r.core).cur = (s.core r.core).cur
          ∧ ∀ c, c ≠ r.core → t.core c = s.core c))

/-- R360, R370 to R372, R379, R392, R393, R395: peers, keys, seeds, rounds and region entries. A peer's context is fetched, written back or reset
only where
no work of it is open (RESULT 2), it is not being moved (RESULT 3) and it is cached (RESULT 1; a reset of one that is not, 2) or has a line
(RESULT 4); a fetched one whose registration breaks R360 is
DEAD. A key load takes the data registers, which then read zero, and starts the counter at 0. A round with fewer than three
participants is refused; a round past its deadline fails with 0x68. -/
def Obligations.PeersKeysAndRounds : Prop :=
  ∀ (s : State) (i : BitVec 14) (k8 : BitVec 8) (k7 : BitVec 7) (k3 : BitVec 3), s.answers = true →
    let n := i.toNat
    (s.peerMoving n = true → exec (.peercmdEvict .host i) s = .next (s.peerEnd 3)
      ∧ exec (.peercmdFetch .host i) s = .next (s.peerEnd 3))
    ∧ (s.peer n = none → exec (.peercmdReset .host i) s = .next (s.peerEnd 2))
    ∧ (s.peerMoving n = false → s.peer n = none →
        exec (.peercmdEvict .host i) s = .next (s.peerEnd 1)
        ∧ (s.freeLines = 0 → exec (.peercmdFetch .host i) s = .next (s.peerEnd 4))
        ∧ (s.freeLines ≠ 0 → ∃ t, exec (.peercmdFetch .host i) s = .next t ∧ t.link.peerResult = 0 ∧ t.link.fetch = s.link.fetch ++ [n]))
    ∧ (∀ p, s.peerMoving n = false → s.peer n = some p →
        exec (.peercmdFetch .host i) s = .next (s.peerAccept n true)
        ∧ (s.peerBusy p = true → exec (.peercmdEvict .host i) s = .next (s.peerEnd 2)
            ∧ exec (.peercmdReset .host i) s = .next (s.peerEnd 2))
        ∧ (s.peerBusy p = false → (∃ t, exec (.peercmdEvict .host i) s = .next t ∧ t.peer n = none ∧ t.link.peerResult = 0
              ∧ (s.hostUp = true → t.link.peerDone = true
                ∧ ∀ w v, p.words[w]? = some v → Memory.nat t.hostOut (s.peerAddr n + 4 * w) 4 = v % 2 ^ 32)
              ∧ (s.hostUp = false → t.link.peerDone = false ∧ t.link.evicting = s.link.evicting ++ [p] ∧ t.hostOut = s.hostOut)
              ∧ t.cores = s.cores)
            ∧ ∃ t, exec (.peercmdReset .host i) s = .next t ∧ t.link.peerResult = 0 ∧ Sp.get 0 t.link.dedup n = 0
              ∧ t.peer n = some { idx := n, reg := p.reg, cwnd := s.cwInit, rto := s.rtoInit, lastLink := p.lastLink }))
    ∧ (∀ data err, s.running = true → s.link.fetch.contains n = true → s.link.peers.length + s.link.evicting.length < 1024 →
        List.length data = 256 → s.peer n = none → s.hostUp = true → (∀ x ∈ s.link.evicting, x.idx ≠ n) →
        let p := s.peerOf n data
        (err = false → s.peerBad p = none → p.dead = false → ∃ t, exec (.peerFetchComplete i err data) s = .next t
          ∧ t.link.peers = s.link.peers ++ [p] ∧ t.link.rx = (s.parkedFor n).map (fun x => { x with parked := true }) ++ s.link.rx
            ∧ t.link.fetch = s.link.fetch.erase n)
        ∧ (∀ code, err = false → s.peerBad p = some code → ∃ t, exec (.peerFetchComplete i err data) s = .next t
          ∧ t.peer n = some { p with dead := true, deadCode := code } ∧ ∀ z ∈ t.link.sends, Send.peer z = n → z.fin = true)
        ∧ (err = true → ∃ t, exec (.peerFetchComplete i err data) s = .next t ∧ t.link.peers = s.link.peers
          ∧ ∀ z ∈ t.link.sends, Send.peer z = n → z.fin = true))
    ∧ (∃ t, exec (.keycmdLoad .host k8) s = .next t ∧ (t.keySlot k8.toNat).valid = true ∧ (t.keySlot k8.toNat).ctr = 0
        ∧ (t.keySlot k8.toNat).key = ((List.range 8).map (fun j => (Sp.get 0#32 s.link.keyData j).toNat * 2 ^ (32 * j))).sum
        ∧ (∀ j, j < 8 → Sp.get 0#32 t.link.keyData j = 0#32) ∧ (∀ k, t.reg (oHubCnt k) = s.reg (oHubCnt k)) ∧ ∀ j, j ≠ k8.toNat →
          t.keySlot j = s.keySlot j)
    ∧ (∃ t, exec (.keycmdErase .host k8) s = .next t ∧ t.keySlot k8.toNat = {} ∧ ∀ j, j ≠ k8.toNat → t.keySlot j = s.keySlot j)
    ∧ (∃ t, exec (.seedcmdLoad .host k7) s = .next t
        ∧ Sp.get none t.link.seeds k7.toNat = some ((List.range 8).map (fun j => s.regN (oSeedData j) * 2 ^ (32 * j))).sum
        ∧ ∀ j, j < 8 → t.reg (oSeedData j) = 0#32)
    ∧ (∃ t, exec (.seedcmdErase .host k7) s = .next t ∧ Sp.get none t.link.seeds k7.toNat = none)
    ∧ (∀ data, s.hostUp = false → exec (.sealcmdLoad .host k3 data) s = .next s)
    ∧ (∀ data, s.hostUp = true → List.length data = 128 → bytesAt data 4 4 % 128 < 3 → ∃ t, exec (.sealcmdLoad .host k3 data) s = .next t
        ∧ t.link = { s.link with sealResult := true })
    ∧ (∀ data, s.hostUp = true → List.length data = 128 →
        let w1 := bytesAt data 4 4
        let np := w1 % 128
        3 ≤ np → np ≤ 64 → fld w1 13 8 < np → bytesAt data 0 4 ≠ 0 → (∀ j, j < 8 → (s.round j).st ≠ 1) →
        (∀ j, j < 128 → (Sp.get none s.link.seeds j).isSome = true) →
        ∃ t, exec (.sealcmdLoad .host k3 data) s = .next t ∧ t.link.sealResult = false ∧ (t.round k3.toNat).st = 1
          ∧ (t.round k3.toNat).round = bytesAt data 0 4 ∧ (t.round k3.toNat).npart = np ∧ (t.round k3.toNat).count = 0)
    ∧ (∃ t, exec (.sealcmdClear .host k3) s = .next t ∧ t.round k3.toNat = {} ∧ t.link.sealResult = false)
    ∧ (∀ d, s.running = true → (s.round k3.toNat).deadline = some d → (s.round k3.toNat).st = 1 → (s.round k3.toNat).agg = true →
        s.due d = true → ∃ t, exec (.sealDeadline k3) s = .next t ∧ t.round k3.toNat = { s.round k3.toNat with st := 3 }
          ∧ (s.round k3.toNat).vec ∈ t.irqs ∧ ∃ f : FRec, f.code = 0x68 ∧ t.fq.offered = s.fq.offered ++ [f])
    ∧ (∀ (region : W16) all, ∃ t, exec (.regcmdInval .host region all) s = .next t ∧ t.link.regDone = false
        ∧ ∀ x, x ∈ t.link.rcache ↔ x ∈ s.link.rcache ∧ all = false ∧ x.1 ≠ region.toNat)
    ∧ (s.running = true → (∃ x ∈ s.link.pend, x.old = true) → exec .regcmdDone s = .next s)
    ∧ (s.running = true → (∀ x ∈ s.link.pend, x.old = false) →
        exec .regcmdDone s = .next { s with link := { s.link with regDone := true } })

/-! ### Requesters, memories and the map -/

/-- R28, R337, R419, R477, R512: a command that its chapter gives to one requester changes nothing when the other writes it. -/
def Obligations.WrongRequesterChangesNothing : Prop :=
  ∀ (s : State) (v : W32) (slot : BitVec 3) (parts k8 : BitVec 8) (u : UnitNo) (u7 : BitVec 7) (l : BitVec 6) (sp : BitVec 7) (i : BitVec 5)
    (path ap : Bool) (ent : BitVec 12) (id : W16) (p : BitVec 3),
    (∀ c ∈ [Instr.fqheadWrite .host v, .endcmd .host l i, .subcmdSubstitute .host path l sp, .subcmdMigrate .host path l sp,
        .subcmdReplay .host l, .subcmdSpineRestart .host, .strcmdSwapOut .host ent, .strcmdSwapIn .host id, .vreqWrite .host v,
        .ceilreqWrite .host v, .temperWrite .host u v, .qcmdResume .host, .tmpcmdMeasure .host u7, .tmpcmdCommit .host u7,
        .tmpcmdAbort .host u7, .pscmdActive .host, .pscmdIdle .host, .pscmdRetention .host, .pscmdDeepSleep .host,
        .otpPgmcmdGo .host slot, .ldcmdHandoffLoad .host, .ifverWrite .host v, .wdkick .host, .stcmdStart .host, .stcmdAbort .host],
      exec c s = .next s)
    ∧ (∀ c ∈ [Instr.castcmdLoadCasting .mgmt, .castcmdLoadPlating .mgmt slot, .castcmdEvict .mgmt slot, .plswSwitch .mgmt slot,
        .plswOff .mgmt parts, .updcmdStart .mgmt ap, .ldcmdColdLoad .mgmt, .cmdAck .mgmt v, .cmdEnd .mgmt v, .cmdUpdate .mgmt v,
        .cmdPolicy .mgmt v, .cmdSave .mgmt v, .keycmdLoad .mgmt k8, .keycmdErase .mgmt k8, .seedcmdLoad .mgmt u7, .seedcmdErase .mgmt u7,
        .sealcmdClear .mgmt slot, .regcmdInval .mgmt id ap, .sqtailWrite .mgmt p v, .cqheadWrite .mgmt p v],
      exec c s = .next s)

/-- R12, R236, R494: memories. A granule written is what the next read returns, its bytes little-endian; every other byte stays; the
memory keeps its canonical form. A memory request that its port accepts takes effect then, and a read returns what the granule held. -/
def Obligations.MemoryReadsWhatWasWritten : Prop :=
  ∀ (m : Memory) (a : Nat) (v g : Granule),
    Memory.granule (Memory.setGranule m a v) a = v
    ∧ (∀ j, j < 32 → Memory.byte (Memory.setGranule m a v) (a + j) = v.extractLsb' (8 * j) 8)
    ∧ (∀ j, (j < a ∨ a + 32 ≤ j) → Memory.byte (Memory.setGranule m a v) j = Memory.byte m j)
    ∧ (Memory.wf m = true → Memory.wf (Memory.setGranule m a v) = true)
    ∧ (Memory.wf m = true → Memory.setGranule (Memory.setGranule m a g) a v = Memory.setGranule m a v)
    ∧ (∀ (s : State) (r : MemReq) (id : Nat),
        (r.op = .write → (s.acceptReq r id).gran r.tierB r.addr = r.slot.granule)
        ∧ (r.op = .add → ∀ i, i < 8 → ((s.acceptReq r id).gran r.tierB r.addr).extractLsb' (32 * i) 32
            = (s.gran r.tierB r.addr).extractLsb' (32 * i) 32 + r.slot.granule.extractLsb' (32 * i) 32)
        ∧ (r.op = .read → (s.acceptReq r id).tierA = s.tierA ∧ (s.acceptReq r id).tierB = s.tierB
            ∧ ∀ x ∈ (s.acceptReq r id).memq, x.serial = r.serial → x.slot = toSlot (s.gran r.tierB r.addr)))
    ∧ (toSlot g).granule = g ∧ (toSlot g).good = true ∧ (toSlot g).extractLsb' 272 16 = 0#16
    ∧ (toSlot g).extractLsb' 256 16 = guardBits g

/-- R30: GEN of the map is odd exactly while a map change is in progress, in every state that a step reaches from one where it is so. -/
def Obligations.MapGenerationStaysSound : Prop :=
  ∀ (s t : State), s.mapSound → step s = .next t → t.mapSound

/-- At reset the map is sound, every memory has its canonical form, no command waits, no core has work, and the block does not answer
(R14, R478; the reset values that the spec does not give are the model's, logs 2, 4, 6, 11 and 12). -/
def Obligations.ResetIsSound : Prop :=
  State.reset.mapSound ∧ State.reset.memWf ∧ State.reset.pending = [] ∧ State.reset.answers = false ∧ State.reset.running = false
    ∧ (∀ c, State.reset.core c = {}) ∧ State.reset.regN oRefFreq = 100000000 ∧ State.reset.pwr.req = 750 ∧ State.reset.cast.loaded = false
end

