-- ==== Sys2Proof/Laws/Sp.lean ====
section
/-! SUPPORT. Laws/Sp.lean: sparse stores: reading after writing, and the canonical form every memory operation keeps. -/

namespace Sys2Proof.Machine

/-! ### Reading after writing -/

@[simp] theorem Sp.get_nil {α : Type} (d : α) (j : Nat) : Sp.get d [] j = d := rfl

/-- Reading after a listed write. -/
theorem Sp.get_put {α : Type} (d : α) (m : Sp α) (k j : Nat) (v : α) :
    Sp.get d (Sp.put m k v) j = if j = k then v else Sp.get d m j := by
  induction m with
  | nil => by_cases h : k = j <;> simp [Sp.put, Sp.get, h, eq_comm]
  | cons x m ih =>
    obtain ⟨a, w⟩ := x
    by_cases h1 : k < a
    · by_cases h : k = j
      · subst h; simp [Sp.put, Sp.get, h1]
      · simp [Sp.put, Sp.get, h1, h, Ne.symm h]
    · by_cases h2 : k = a
      · subst h2
        by_cases h : k = j
        · subst h; simp [Sp.put, Sp.get]
        · simp [Sp.put, Sp.get, h, Ne.symm h]
      · by_cases h : a = j
        · subst h; simp [Sp.put, Sp.get, h1, h2, Ne.symm h2]
        · simp [Sp.put, Sp.get, h1, h2, h, ih]

/-- Reading after removing a key. -/
theorem Sp.get_remove {α : Type} (d : α) (m : Sp α) (k j : Nat) :
    Sp.get d (m.filter (fun c => c.1 != k)) j = if j = k then d else Sp.get d m j := by
  induction m with
  | nil => simp [Sp.get]
  | cons x m ih =>
    obtain ⟨a, w⟩ := x
    by_cases h : a = k
    · subst h
      by_cases hj : j = a
      · subst hj; simpa [Sp.get] using ih
      · simp [Sp.get, Ne.symm hj, ih, hj]
    · by_cases hj : j = a
      · subst hj; simp [Sp.get, h]
      · simp [Sp.get, h, Ne.symm hj, ih]

/-- Reading after writing, whatever the form of the store. -/
theorem Sp.get_set {α : Type} [DecidableEq α] (d : α) (m : Sp α) (k j : Nat) (v : α) :
    Sp.get d (Sp.set d m k v) j = if j = k then v else Sp.get d m j := by
  unfold Sp.set
  by_cases h : v = d
  · subst h; simp [Sp.get_remove]
  · simp [h, Sp.get_put]

@[simp] theorem Sp.get_set_same {α : Type} [DecidableEq α] (d : α) (m : Sp α) (k : Nat) (v : α) :
    Sp.get d (Sp.set d m k v) k = v := by simp [Sp.get_set]

theorem Sp.get_set_ne {α : Type} [DecidableEq α] (d : α) (m : Sp α) {k j : Nat} (v : α) (h : j ≠ k) :
    Sp.get d (Sp.set d m k v) j = Sp.get d m j := by simp [Sp.get_set, h]

/-- Another key reads as before, whatever an unlisted key reads as. -/
theorem Sp.get_set_other {α : Type} [DecidableEq α] (d d' : α) (m : Sp α) {k j : Nat} (v : α) (h : j ≠ k) :
    Sp.get d' (Sp.set d m k v) j = Sp.get d' m j := by
  unfold Sp.set
  by_cases hv : v = d
  · simp [hv, Sp.get_remove, h]
  · simp [hv, Sp.get_put, h]

/-! ### The canonical form -/

/-- A lower bound that holds of a key holds of a store. -/
def Sp.above {α : Type} (b : Option Nat) (m : Sp α) : Prop := ∀ c ∈ m, ∀ x, b = some x → x < c.1

theorem Sp.wfAbove_above {α : Type} [DecidableEq α] (d : α) :
    ∀ (m : Sp α) (b : Option Nat), Sp.wfAbove d b m = true → Sp.above b m
  | [], _, _ => by intro c hc; simp at hc
  | (a, v) :: m, b, h => by
    simp only [Sp.wfAbove, Bool.and_eq_true, decide_eq_true_eq] at h
    obtain ⟨⟨h1, _⟩, h3⟩ := h
    have hm := Sp.wfAbove_above d m (some a) h3
    intro c hc x hx
    subst hx
    simp only [decide_eq_true_eq] at h1
    rcases List.mem_cons.mp hc with rfl | hc
    · exact h1
    · exact Nat.lt_trans h1 (hm c hc a rfl)

/-- A sorted store may be read under a weaker bound. -/
theorem Sp.wfAbove_mono {α : Type} [DecidableEq α] (d : α) (m : Sp α) (b b' : Option Nat)
    (h : Sp.wfAbove d b m = true) (hb : ∀ x, b' = some x → ∃ y, b = some y ∧ x ≤ y) : Sp.wfAbove d b' m = true := by
  cases m with
  | nil => rfl
  | cons c m =>
    obtain ⟨a, v⟩ := c
    simp only [Sp.wfAbove, Bool.and_eq_true] at h ⊢
    refine ⟨⟨?_, h.1.2⟩, h.2⟩
    cases hb' : b' with
    | none => rfl
    | some x =>
      obtain ⟨y, hy, hxy⟩ := hb x hb'
      have := h.1.1
      rw [hy] at this
      simp only [decide_eq_true_eq] at this ⊢
      omega

theorem Sp.wfAbove_remove {α : Type} [DecidableEq α] (d : α) (k : Nat) :
    ∀ (m : Sp α) (b : Option Nat), Sp.wfAbove d b m = true → Sp.wfAbove d b (m.filter (fun c => c.1 != k)) = true
  | [], _, _ => rfl
  | (a, v) :: m, b, h => by
    simp only [Sp.wfAbove, Bool.and_eq_true] at h
    have ih := Sp.wfAbove_remove d k m (some a) h.2
    by_cases hk : a = k
    · simp only [List.filter_cons, hk, bne_self_eq_false, Bool.false_eq_true, if_false]
      refine Sp.wfAbove_mono d _ (some a) b (hk ▸ ih) ?_
      intro x hx
      refine ⟨a, rfl, ?_⟩
      have := h.1.1
      rw [hx] at this
      simp only [decide_eq_true_eq] at this
      omega
    · simp only [List.filter_cons, bne_iff_ne, ne_eq, hk, not_false_eq_true, if_true, Sp.wfAbove, Bool.and_eq_true]
      exact ⟨h.1, ih⟩

theorem Sp.wfAbove_put {α : Type} [DecidableEq α] (d : α) (k : Nat) (v : α) (hv : v ≠ d) :
    ∀ (m : Sp α) (b : Option Nat), Sp.wfAbove d b m = true → (∀ x, b = some x → x < k) →
      Sp.wfAbove d b (Sp.put m k v) = true
  | [], b, _, hb => by
    cases b with
    | none => simp [Sp.put, Sp.wfAbove, hv]
    | some x => simp [Sp.put, Sp.wfAbove, hv, hb x rfl]
  | (a, w) :: m, b, h, hb => by
    simp only [Sp.wfAbove, Bool.and_eq_true] at h
    by_cases h1 : k < a
    · simp only [Sp.put, h1, if_true, Sp.wfAbove, Bool.and_eq_true, decide_eq_true_eq]
      refine ⟨⟨?_, hv⟩, ⟨trivial, by simpa using h.1.2⟩, h.2⟩
      cases b with
      | none => rfl
      | some x => simpa using hb x rfl
    · by_cases h2 : k = a
      · subst h2
        simp only [Sp.put, Nat.lt_irrefl, if_false, if_true, Sp.wfAbove, Bool.and_eq_true, decide_eq_true_eq]
        refine ⟨⟨?_, hv⟩, h.2⟩
        cases b with
        | none => rfl
        | some x => simpa using hb x rfl
      · simp only [Sp.put, h1, h2, if_false, Sp.wfAbove, Bool.and_eq_true]
        refine ⟨h.1, Sp.wfAbove_put d k v hv m (some a) h.2 ?_⟩
        intro x hx
        cases hx
        omega

/-- A write keeps the canonical form. -/
theorem Sp.wf_set {α : Type} [DecidableEq α] (d : α) (m : Sp α) (k : Nat) (v : α) (h : Sp.wf d m = true) :
    Sp.wf d (Sp.set d m k v) = true := by
  unfold Sp.set
  by_cases hv : v = d
  · simpa [hv, Sp.wf] using Sp.wfAbove_remove d k m none h
  · simpa [hv, Sp.wf] using Sp.wfAbove_put d k v hv m none h (by simp)

/-! ### Byte memories -/

@[simp] theorem Memory.byte_setByte (m : Memory) (a j : Nat) (b : Byte) :
    Memory.byte (Memory.setByte m a b) j = if j = a then b else Memory.byte m j := Sp.get_set 0#8 m a j b

theorem Memory.wf_setByte (m : Memory) (a : Nat) (b : Byte) (h : Memory.wf m = true) :
    Memory.wf (Memory.setByte m a b) = true := Sp.wf_set 0#8 m a b h

theorem Memory.wf_setNat : ∀ (n : Nat) (m : Memory) (a v : Nat), Memory.wf m = true → Memory.wf (Memory.setNat m a n v) = true
  | 0, _, _, _, h => h
  | n + 1, _, _, _, h => Memory.wf_setNat n _ _ _ (Memory.wf_setByte _ _ _ h)

theorem Memory.wf_setW32 (m : Memory) (a : Nat) (v : W32) (h : Memory.wf m = true) : Memory.wf (Memory.setW32 m a v) = true :=
  Memory.wf_setNat 4 m a v.toNat h

theorem Memory.wf_setGranule (m : Memory) (a : Nat) (v : Granule) (h : Memory.wf m = true) :
    Memory.wf (Memory.setGranule m a v) = true := Memory.wf_setNat 32 m a v.toNat h

/-- A write of `n` bytes leaves every byte outside them. -/
theorem Memory.byte_setNat_ne : ∀ (n : Nat) (m : Memory) (a v j : Nat), (j < a ∨ a + n ≤ j) →
    Memory.byte (Memory.setNat m a n v) j = Memory.byte m j
  | 0, _, _, _, _, _ => rfl
  | n + 1, m, a, v, j, h => by
    rw [Memory.setNat, Memory.byte_setNat_ne n _ _ _ _ (by omega), Memory.byte_setByte, if_neg (by omega)]

/-- Byte `i` of a write of `n` bytes. -/
theorem Memory.byte_setNat : ∀ (n : Nat) (m : Memory) (a v i : Nat), i < n →
    Memory.byte (Memory.setNat m a n v) (a + i) = BitVec.ofNat 8 (v / 256 ^ i)
  | n + 1, m, a, v, 0, _ => by
    rw [Memory.setNat, Nat.add_zero, Memory.byte_setNat_ne n _ _ _ _ (by omega)]
    simp
  | n + 1, m, a, v, i + 1, h => by
    have := Memory.byte_setNat n (Memory.setByte m a (BitVec.ofNat 8 v)) (a + 1) (v / 256) i (by omega)
    rw [Memory.setNat, show a + (i + 1) = a + 1 + i by omega, this, Nat.div_div_eq_div_mul, Nat.pow_succ, Nat.mul_comm 256]

theorem Memory.byte_setGranule_ne (m : Memory) (a j : Nat) (v : Granule) (h : j < a ∨ a + 32 ≤ j) :
    Memory.byte (Memory.setGranule m a v) j = Memory.byte m j := Memory.byte_setNat_ne 32 m a v.toNat j h

theorem Memory.byte_setW32_ne (m : Memory) (a j : Nat) (v : W32) (h : j < a ∨ a + 4 ≤ j) :
    Memory.byte (Memory.setW32 m a v) j = Memory.byte m j := Memory.byte_setNat_ne 4 m a v.toNat j h

/-- A read of bytes that agree agrees. -/
theorem Memory.nat_congr (m m' : Memory) : ∀ (n a : Nat), (∀ i, i < n → Memory.byte m (a + i) = Memory.byte m' (a + i)) →
    Memory.nat m a n = Memory.nat m' a n
  | 0, _, _ => rfl
  | n + 1, a, h => by
    have h0 := h 0 (by omega)
    have ih := Memory.nat_congr m m' n (a + 1) (fun i hi => by
      have := h (i + 1) (by omega)
      rwa [show a + (i + 1) = a + 1 + i by omega] at this)
    simp only [Nat.add_zero] at h0
    rw [Memory.nat, Memory.nat, h0, ih]

/-- A little-endian write reads back. -/
theorem Memory.nat_setNat : ∀ (n : Nat) (m : Memory) (a v : Nat), Memory.nat (Memory.setNat m a n v) a n = v % 256 ^ n
  | 0, _, _, v => by simp [Memory.nat, Nat.mod_one]
  | n + 1, m, a, v => by
    have hb : Memory.byte (Memory.setNat m a (n + 1) v) a = BitVec.ofNat 8 v := by
      have := Memory.byte_setNat (n + 1) m a v 0 (by omega)
      simpa using this
    have ih := Memory.nat_setNat n (Memory.setByte m a (BitVec.ofNat 8 v)) (a + 1) (v / 256)
    rw [Memory.nat, hb, Memory.setNat, ih, BitVec.toNat_ofNat, show 256 ^ (n + 1) = 256 * 256 ^ n by rw [Nat.pow_succ, Nat.mul_comm],
      Nat.mod_mul]

theorem Memory.w32_setW32 (m : Memory) (a : Nat) (v : W32) : Memory.w32 (Memory.setW32 m a v) a = v := by
  unfold Memory.w32 Memory.setW32
  rw [Memory.nat_setNat]
  apply BitVec.eq_of_toNat_eq
  have := v.isLt
  simp only [BitVec.toNat_ofNat]
  omega

theorem Memory.granule_setGranule (m : Memory) (a : Nat) (v : Granule) : Memory.granule (Memory.setGranule m a v) a = v := by
  unfold Memory.granule Memory.setGranule
  rw [Memory.nat_setNat]
  apply BitVec.eq_of_toNat_eq
  have := v.isLt
  simp only [BitVec.toNat_ofNat]
  rw [Nat.mod_eq_of_lt (a := v.toNat) (by simpa using this), Nat.mod_eq_of_lt this]

end Sys2Proof.Machine
end

