-- ==== Sys2Proof/Laws/Bytes.lean ====
section
/-! SUPPORT. Laws/Bytes.lean: a store in canonical form is determined by what it reads; what a run of bytes leaves. -/

namespace Sys2Proof.Machine

/-- A listed key above the bound reads a value other than the default. -/
theorem Sp.get_below {α : Type} [DecidableEq α] (d : α) : ∀ (m : Sp α) (b j : Nat), Sp.wfAbove d (some b) m = true → j ≤ b →
    Sp.get d m j = d
  | [], _, _, _, _ => rfl
  | (a, v) :: m, b, j, h, hj => by
    simp only [Sp.wfAbove, Bool.and_eq_true, decide_eq_true_eq] at h
    have ha : a ≠ j := by omega
    simp only [Sp.get, if_neg ha]
    exact Sp.get_below d m a j h.2 (by omega)

theorem Sp.ext_above {α : Type} [DecidableEq α] (d : α) : ∀ (m n : Sp α) (b c : Option Nat), Sp.wfAbove d b m = true →
    Sp.wfAbove d c n = true → (∀ j, Sp.get d m j = Sp.get d n j) → m = n
  | [], [], _, _, _, _, _ => rfl
  | [], (a, v) :: n, _, _, _, h, e => by
    simp only [Sp.wfAbove, Bool.and_eq_true, decide_eq_true_eq] at h
    exact absurd (by simpa [Sp.get] using (e a).symm) h.1.2
  | (a, v) :: m, [], _, _, h, _, e => by
    simp only [Sp.wfAbove, Bool.and_eq_true, decide_eq_true_eq] at h
    exact absurd (by simpa [Sp.get] using e a) h.1.2
  | (a, v) :: m, (a', v') :: n, _, _, h, h', e => by
    simp only [Sp.wfAbove, Bool.and_eq_true, decide_eq_true_eq] at h h'
    have haa : a = a' := by
      rcases Nat.lt_trichotomy a a' with hlt | heq | hgt
      · have e' := e a
        rw [Sp.get, if_pos rfl, Sp.get, if_neg (by omega), Sp.get_below d n a' a h'.2 (by omega)] at e'
        exact absurd e' h.1.2
      · exact heq
      · have e' := e a'
        rw [Sp.get, if_neg (by omega), Sp.get_below d m a a' h.2 (by omega), Sp.get, if_pos rfl] at e'
        exact absurd e'.symm h'.1.2
    subst haa
    have hv : v = v' := by simpa [Sp.get] using e a
    subst hv
    have ht : m = n := Sp.ext_above d m n (some a) (some a) h.2 h'.2 (fun j => by
      by_cases hj : j ≤ a
      · rw [Sp.get_below d m a j h.2 hj, Sp.get_below d n a j h'.2 hj]
      · have := e j
        rwa [Sp.get, if_neg (by omega), Sp.get, if_neg (by omega)] at this)
    rw [ht]

/-- Two stores in canonical form that read the same at every key are equal data. -/
theorem Sp.ext_wf {α : Type} [DecidableEq α] (d : α) (m n : Sp α) (hm : Sp.wf d m = true) (hn : Sp.wf d n = true)
    (h : ∀ j, Sp.get d m j = Sp.get d n j) : m = n := Sp.ext_above d m n none none hm hn h

/-- A run of bytes written from `a` upward reads back; every other byte stays. -/
theorem Memory.byte_lsPut : ∀ (bs : List Byte) (m : Memory) (a j : Nat),
    Memory.byte (lsPut m a bs) j = if a ≤ j ∧ j < a + bs.length then bs.getD (j - a) 0#8 else Memory.byte m j
  | [], m, a, j => by rw [if_neg (by simp)]; rfl
  | b :: bs, m, a, j => by
    rw [lsPut, Memory.byte_lsPut bs (Memory.setByte m a b) (a + 1) j, Memory.byte_setByte]
    simp only [List.length_cons]
    by_cases h1 : a + 1 ≤ j ∧ j < a + 1 + bs.length
    · rw [if_pos h1, if_pos (by omega)]
      obtain ⟨i, hi⟩ : ∃ i, j - a = i + 1 := ⟨j - a - 1, by omega⟩
      rw [hi, List.getD_cons_succ]
      congr 1
      omega
    · rw [if_neg h1]
      by_cases h2 : j = a
      · subst h2
        rw [if_pos rfl, if_pos (by omega), Nat.sub_self, List.getD_cons_zero]
      · rw [if_neg h2, if_neg (by omega)]

theorem Memory.wf_lsPut : ∀ (bs : List Byte) (m : Memory) (a : Nat), Memory.wf m = true → Memory.wf (lsPut m a bs) = true
  | [], _, _, h => h
  | b :: bs, m, a, h => Memory.wf_lsPut bs _ (a + 1) (Memory.wf_setByte m a b h)

/-- A byte at or above every listed address reads as unlisted. -/
theorem Memory.byte_above : ∀ (m : Memory) (n : Nat), m.all (fun c => decide (c.1 < n)) = true → ∀ j, n ≤ j → Memory.byte m j = 0#8
  | [], _, _, _, _ => rfl
  | (a, v) :: m, n, h, j, hj => by
    simp only [List.all_cons, Bool.and_eq_true, decide_eq_true_eq] at h
    rw [Memory.byte, Sp.get, if_neg (by omega)]
    exact Memory.byte_above m n h.2 j hj

/-- The bytes of a memory that lists nothing at `n` and above, written into an empty one, give it again. -/
theorem lsPut_lsBytesAt (m : Memory) (n : Nat) (h : Memory.wf m = true) (hn : ∀ j, n ≤ j → Memory.byte m j = 0#8) :
    lsPut [] 0 (lsBytesAt m 0 n) = m := by
  refine Sp.ext_wf 0#8 _ _ (Memory.wf_lsPut _ [] 0 rfl) h (fun j => ?_)
  change Memory.byte (lsPut [] 0 (lsBytesAt m 0 n)) j = Memory.byte m j
  rw [Memory.byte_lsPut]
  by_cases hj : j < n
  · rw [if_pos (by simpa [lsBytesAt] using hj)]
    simp [lsBytesAt, hj, List.getD]
  · rw [if_neg (by simpa [lsBytesAt] using hj), hn j (by omega)]
    rfl

end Sys2Proof.Machine
end

