-- ==== Sys2Proof/Laws/State.lean ====
section
/-! SUPPORT. Laws/State.lean: what each named update of State leaves alone, field by field, and what it writes. -/

namespace Sys2Proof.Machine

@[simp] theorem State.setCore_pending (s : State) (c : Nat) (k : Core) : (s.setCore c k).pending = s.pending := rfl
@[simp] theorem State.setCore_fc (s : State) (c : Nat) (k : Core) : (s.setCore c k).fc = s.fc := rfl
@[simp] theorem State.setCore_v64 (s : State) (c : Nat) (k : Core) : (s.setCore c k).v64 = s.v64 := rfl
@[simp] theorem State.setCore_tierA (s : State) (c : Nat) (k : Core) : (s.setCore c k).tierA = s.tierA := rfl
@[simp] theorem State.setCore_tierB (s : State) (c : Nat) (k : Core) : (s.setCore c k).tierB = s.tierB := rfl
@[simp] theorem State.setCore_hostOut (s : State) (c : Nat) (k : Core) : (s.setCore c k).hostOut = s.hostOut := rfl
@[simp] theorem State.setCore_regs (s : State) (c : Nat) (k : Core) : (s.setCore c k).regs = s.regs := rfl
@[simp] theorem State.setCore_fq (s : State) (c : Nat) (k : Core) : (s.setCore c k).fq = s.fq := rfl
@[simp] theorem State.setCore_roles (s : State) (c : Nat) (k : Core) : (s.setCore c k).roles = s.roles := rfl
@[simp] theorem State.setCore_lmap (s : State) (c : Nat) (k : Core) : (s.setCore c k).lmap = s.lmap := rfl
@[simp] theorem State.setCore_mapgen (s : State) (c : Nat) (k : Core) : (s.setCore c k).mapgen = s.mapgen := rfl
@[simp] theorem State.setCore_cast (s : State) (c : Nat) (k : Core) : (s.setCore c k).cast = s.cast := rfl
@[simp] theorem State.setCore_str (s : State) (c : Nat) (k : Core) : (s.setCore c k).str = s.str := rfl
@[simp] theorem State.setCore_rings (s : State) (c : Nat) (k : Core) : (s.setCore c k).rings = s.rings := rfl
@[simp] theorem State.setCore_subs (s : State) (c : Nat) (k : Core) : (s.setCore c k).subs = s.subs := rfl
@[simp] theorem State.setCore_nextSub (s : State) (c : Nat) (k : Core) : (s.setCore c k).nextSub = s.nextSub := rfl
@[simp] theorem State.setCore_mesh (s : State) (c : Nat) (k : Core) : (s.setCore c k).mesh = s.mesh := rfl
@[simp] theorem State.setCore_posts (s : State) (c : Nat) (k : Core) : (s.setCore c k).posts = s.posts := rfl
@[simp] theorem State.setCore_items (s : State) (c : Nat) (k : Core) : (s.setCore c k).items = s.items := rfl
@[simp] theorem State.setCore_credits (s : State) (c : Nat) (k : Core) : (s.setCore c k).credits = s.credits := rfl
@[simp] theorem State.setCore_tlb (s : State) (c : Nat) (k : Core) : (s.setCore c k).tlb = s.tlb := rfl
@[simp] theorem State.setCore_memq (s : State) (c : Nat) (k : Core) : (s.setCore c k).memq = s.memq := rfl
@[simp] theorem State.setCore_memSerial (s : State) (c : Nat) (k : Core) : (s.setCore c k).memSerial = s.memSerial := rfl
@[simp] theorem State.setCore_lost (s : State) (c : Nat) (k : Core) : (s.setCore c k).lost = s.lost := rfl
@[simp] theorem State.setCore_strand (s : State) (c : Nat) (k : Core) : (s.setCore c k).strand = s.strand := rfl
@[simp] theorem State.setCore_trspWait (s : State) (c : Nat) (k : Core) : (s.setCore c k).trspWait = s.trspWait := rfl
@[simp] theorem State.setCore_dlog (s : State) (c : Nat) (k : Core) : (s.setCore c k).dlog = s.dlog := rfl
@[simp] theorem State.setCore_hostReqs (s : State) (c : Nat) (k : Core) : (s.setCore c k).hostReqs = s.hostReqs := rfl
@[simp] theorem State.setCore_subst (s : State) (c : Nat) (k : Core) : (s.setCore c k).subst = s.subst := rfl
@[simp] theorem State.setCore_substResult (s : State) (c : Nat) (k : Core) : (s.setCore c k).substResult = s.substResult := rfl
@[simp] theorem State.setCore_ptinv (s : State) (c : Nat) (k : Core) : (s.setCore c k).ptinv = s.ptinv := rfl
@[simp] theorem State.setCore_irqs (s : State) (c : Nat) (k : Core) : (s.setCore c k).irqs = s.irqs := rfl
@[simp] theorem State.setCore_mgmtIrqs (s : State) (c : Nat) (k : Core) : (s.setCore c k).mgmtIrqs = s.mgmtIrqs := rfl
@[simp] theorem State.setCore_treqs (s : State) (c : Nat) (k : Core) : (s.setCore c k).treqs = s.treqs := rfl
@[simp] theorem State.setCore_tap (s : State) (c : Nat) (k : Core) : (s.setCore c k).tap = s.tap := rfl
@[simp] theorem State.setCore_trsp (s : State) (c : Nat) (k : Core) : (s.setCore c k).trsp = s.trsp := rfl
@[simp] theorem State.setCore_recovCnt (s : State) (c : Nat) (k : Core) : (s.setCore c k).recovCnt = s.recovCnt := rfl
@[simp] theorem State.setCore_substCnt (s : State) (c : Nat) (k : Core) : (s.setCore c k).substCnt = s.substCnt := rfl
@[simp] theorem State.setCore_halves (s : State) (c : Nat) (k : Core) : (s.setCore c k).halves = s.halves := rfl
@[simp] theorem State.setCore_fabric (s : State) (c : Nat) (k : Core) : (s.setCore c k).fabric = s.fabric := rfl
@[simp] theorem State.setCore_aon (s : State) (c : Nat) (k : Core) : (s.setCore c k).aon = s.aon := rfl
@[simp] theorem State.setCore_pwr (s : State) (c : Nat) (k : Core) : (s.setCore c k).pwr = s.pwr := rfl
@[simp] theorem State.setCore_ages (s : State) (c : Nat) (k : Core) : (s.setCore c k).ages = s.ages := rfl
@[simp] theorem State.setCore_temper (s : State) (c : Nat) (k : Core) : (s.setCore c k).temper = s.temper := rfl
@[simp] theorem State.setCore_otp (s : State) (c : Nat) (k : Core) : (s.setCore c k).otp = s.otp := rfl
@[simp] theorem State.setCore_mgmt (s : State) (c : Nat) (k : Core) : (s.setCore c k).mgmt = s.mgmt := rfl
@[simp] theorem State.setCore_boot (s : State) (c : Nat) (k : Core) : (s.setCore c k).boot = s.boot := rfl
@[simp] theorem State.setCore_link (s : State) (c : Nat) (k : Core) : (s.setCore c k).link = s.link := rfl
@[simp] theorem State.setCore_upd (s : State) (c : Nat) (k : Core) : (s.setCore c k).upd = s.upd := rfl

@[simp] theorem State.updCore_pending (s : State) (c : Nat) (f : Core → Core) : (s.updCore c f).pending = s.pending := rfl
@[simp] theorem State.updCore_fc (s : State) (c : Nat) (f : Core → Core) : (s.updCore c f).fc = s.fc := rfl
@[simp] theorem State.updCore_v64 (s : State) (c : Nat) (f : Core → Core) : (s.updCore c f).v64 = s.v64 := rfl
@[simp] theorem State.updCore_tierA (s : State) (c : Nat) (f : Core → Core) : (s.updCore c f).tierA = s.tierA := rfl
@[simp] theorem State.updCore_tierB (s : State) (c : Nat) (f : Core → Core) : (s.updCore c f).tierB = s.tierB := rfl
@[simp] theorem State.updCore_hostOut (s : State) (c : Nat) (f : Core → Core) : (s.updCore c f).hostOut = s.hostOut := rfl
@[simp] theorem State.updCore_regs (s : State) (c : Nat) (f : Core → Core) : (s.updCore c f).regs = s.regs := rfl
@[simp] theorem State.updCore_fq (s : State) (c : Nat) (f : Core → Core) : (s.updCore c f).fq = s.fq := rfl
@[simp] theorem State.updCore_roles (s : State) (c : Nat) (f : Core → Core) : (s.updCore c f).roles = s.roles := rfl
@[simp] theorem State.updCore_lmap (s : State) (c : Nat) (f : Core → Core) : (s.updCore c f).lmap = s.lmap := rfl
@[simp] theorem State.updCore_mapgen (s : State) (c : Nat) (f : Core → Core) : (s.updCore c f).mapgen = s.mapgen := rfl
@[simp] theorem State.updCore_cast (s : State) (c : Nat) (f : Core → Core) : (s.updCore c f).cast = s.cast := rfl
@[simp] theorem State.updCore_str (s : State) (c : Nat) (f : Core → Core) : (s.updCore c f).str = s.str := rfl
@[simp] theorem State.updCore_rings (s : State) (c : Nat) (f : Core → Core) : (s.updCore c f).rings = s.rings := rfl
@[simp] theorem State.updCore_subs (s : State) (c : Nat) (f : Core → Core) : (s.updCore c f).subs = s.subs := rfl
@[simp] theorem State.updCore_nextSub (s : State) (c : Nat) (f : Core → Core) : (s.updCore c f).nextSub = s.nextSub := rfl
@[simp] theorem State.updCore_mesh (s : State) (c : Nat) (f : Core → Core) : (s.updCore c f).mesh = s.mesh := rfl
@[simp] theorem State.updCore_posts (s : State) (c : Nat) (f : Core → Core) : (s.updCore c f).posts = s.posts := rfl
@[simp] theorem State.updCore_items (s : State) (c : Nat) (f : Core → Core) : (s.updCore c f).items = s.items := rfl
@[simp] theorem State.updCore_credits (s : State) (c : Nat) (f : Core → Core) : (s.updCore c f).credits = s.credits := rfl
@[simp] theorem State.updCore_tlb (s : State) (c : Nat) (f : Core → Core) : (s.updCore c f).tlb = s.tlb := rfl
@[simp] theorem State.updCore_memq (s : State) (c : Nat) (f : Core → Core) : (s.updCore c f).memq = s.memq := rfl
@[simp] theorem State.updCore_memSerial (s : State) (c : Nat) (f : Core → Core) : (s.updCore c f).memSerial = s.memSerial := rfl
@[simp] theorem State.updCore_lost (s : State) (c : Nat) (f : Core → Core) : (s.updCore c f).lost = s.lost := rfl
@[simp] theorem State.updCore_strand (s : State) (c : Nat) (f : Core → Core) : (s.updCore c f).strand = s.strand := rfl
@[simp] theorem State.updCore_trspWait (s : State) (c : Nat) (f : Core → Core) : (s.updCore c f).trspWait = s.trspWait := rfl
@[simp] theorem State.updCore_dlog (s : State) (c : Nat) (f : Core → Core) : (s.updCore c f).dlog = s.dlog := rfl
@[simp] theorem State.updCore_hostReqs (s : State) (c : Nat) (f : Core → Core) : (s.updCore c f).hostReqs = s.hostReqs := rfl
@[simp] theorem State.updCore_subst (s : State) (c : Nat) (f : Core → Core) : (s.updCore c f).subst = s.subst := rfl
@[simp] theorem State.updCore_substResult (s : State) (c : Nat) (f : Core → Core) : (s.updCore c f).substResult = s.substResult := rfl
@[simp] theorem State.updCore_ptinv (s : State) (c : Nat) (f : Core → Core) : (s.updCore c f).ptinv = s.ptinv := rfl
@[simp] theorem State.updCore_irqs (s : State) (c : Nat) (f : Core → Core) : (s.updCore c f).irqs = s.irqs := rfl
@[simp] theorem State.updCore_mgmtIrqs (s : State) (c : Nat) (f : Core → Core) : (s.updCore c f).mgmtIrqs = s.mgmtIrqs := rfl
@[simp] theorem State.updCore_treqs (s : State) (c : Nat) (f : Core → Core) : (s.updCore c f).treqs = s.treqs := rfl
@[simp] theorem State.updCore_tap (s : State) (c : Nat) (f : Core → Core) : (s.updCore c f).tap = s.tap := rfl
@[simp] theorem State.updCore_trsp (s : State) (c : Nat) (f : Core → Core) : (s.updCore c f).trsp = s.trsp := rfl
@[simp] theorem State.updCore_recovCnt (s : State) (c : Nat) (f : Core → Core) : (s.updCore c f).recovCnt = s.recovCnt := rfl
@[simp] theorem State.updCore_substCnt (s : State) (c : Nat) (f : Core → Core) : (s.updCore c f).substCnt = s.substCnt := rfl
@[simp] theorem State.updCore_halves (s : State) (c : Nat) (f : Core → Core) : (s.updCore c f).halves = s.halves := rfl
@[simp] theorem State.updCore_fabric (s : State) (c : Nat) (f : Core → Core) : (s.updCore c f).fabric = s.fabric := rfl
@[simp] theorem State.updCore_aon (s : State) (c : Nat) (f : Core → Core) : (s.updCore c f).aon = s.aon := rfl
@[simp] theorem State.updCore_pwr (s : State) (c : Nat) (f : Core → Core) : (s.updCore c f).pwr = s.pwr := rfl
@[simp] theorem State.updCore_ages (s : State) (c : Nat) (f : Core → Core) : (s.updCore c f).ages = s.ages := rfl
@[simp] theorem State.updCore_temper (s : State) (c : Nat) (f : Core → Core) : (s.updCore c f).temper = s.temper := rfl
@[simp] theorem State.updCore_otp (s : State) (c : Nat) (f : Core → Core) : (s.updCore c f).otp = s.otp := rfl
@[simp] theorem State.updCore_mgmt (s : State) (c : Nat) (f : Core → Core) : (s.updCore c f).mgmt = s.mgmt := rfl
@[simp] theorem State.updCore_boot (s : State) (c : Nat) (f : Core → Core) : (s.updCore c f).boot = s.boot := rfl
@[simp] theorem State.updCore_link (s : State) (c : Nat) (f : Core → Core) : (s.updCore c f).link = s.link := rfl
@[simp] theorem State.updCore_upd (s : State) (c : Nat) (f : Core → Core) : (s.updCore c f).upd = s.upd := rfl

@[simp] theorem State.updRun_pending (s : State) (c : Nat) (f : CoreRun → CoreRun) : (s.updRun c f).pending = s.pending := rfl
@[simp] theorem State.updRun_fc (s : State) (c : Nat) (f : CoreRun → CoreRun) : (s.updRun c f).fc = s.fc := rfl
@[simp] theorem State.updRun_v64 (s : State) (c : Nat) (f : CoreRun → CoreRun) : (s.updRun c f).v64 = s.v64 := rfl
@[simp] theorem State.updRun_tierA (s : State) (c : Nat) (f : CoreRun → CoreRun) : (s.updRun c f).tierA = s.tierA := rfl
@[simp] theorem State.updRun_tierB (s : State) (c : Nat) (f : CoreRun → CoreRun) : (s.updRun c f).tierB = s.tierB := rfl
@[simp] theorem State.updRun_hostOut (s : State) (c : Nat) (f : CoreRun → CoreRun) : (s.updRun c f).hostOut = s.hostOut := rfl
@[simp] theorem State.updRun_regs (s : State) (c : Nat) (f : CoreRun → CoreRun) : (s.updRun c f).regs = s.regs := rfl
@[simp] theorem State.updRun_fq (s : State) (c : Nat) (f : CoreRun → CoreRun) : (s.updRun c f).fq = s.fq := rfl
@[simp] theorem State.updRun_roles (s : State) (c : Nat) (f : CoreRun → CoreRun) : (s.updRun c f).roles = s.roles := rfl
@[simp] theorem State.updRun_lmap (s : State) (c : Nat) (f : CoreRun → CoreRun) : (s.updRun c f).lmap = s.lmap := rfl
@[simp] theorem State.updRun_mapgen (s : State) (c : Nat) (f : CoreRun → CoreRun) : (s.updRun c f).mapgen = s.mapgen := rfl
@[simp] theorem State.updRun_cast (s : State) (c : Nat) (f : CoreRun → CoreRun) : (s.updRun c f).cast = s.cast := rfl
@[simp] theorem State.updRun_str (s : State) (c : Nat) (f : CoreRun → CoreRun) : (s.updRun c f).str = s.str := rfl
@[simp] theorem State.updRun_rings (s : State) (c : Nat) (f : CoreRun → CoreRun) : (s.updRun c f).rings = s.rings := rfl
@[simp] theorem State.updRun_subs (s : State) (c : Nat) (f : CoreRun → CoreRun) : (s.updRun c f).subs = s.subs := rfl
@[simp] theorem State.updRun_nextSub (s : State) (c : Nat) (f : CoreRun → CoreRun) : (s.updRun c f).nextSub = s.nextSub := rfl
@[simp] theorem State.updRun_mesh (s : State) (c : Nat) (f : CoreRun → CoreRun) : (s.updRun c f).mesh = s.mesh := rfl
@[simp] theorem State.updRun_posts (s : State) (c : Nat) (f : CoreRun → CoreRun) : (s.updRun c f).posts = s.posts := rfl
@[simp] theorem State.updRun_items (s : State) (c : Nat) (f : CoreRun → CoreRun) : (s.updRun c f).items = s.items := rfl
@[simp] theorem State.updRun_credits (s : State) (c : Nat) (f : CoreRun → CoreRun) : (s.updRun c f).credits = s.credits := rfl
@[simp] theorem State.updRun_tlb (s : State) (c : Nat) (f : CoreRun → CoreRun) : (s.updRun c f).tlb = s.tlb := rfl
@[simp] theorem State.updRun_memq (s : State) (c : Nat) (f : CoreRun → CoreRun) : (s.updRun c f).memq = s.memq := rfl
@[simp] theorem State.updRun_memSerial (s : State) (c : Nat) (f : CoreRun → CoreRun) : (s.updRun c f).memSerial = s.memSerial := rfl
@[simp] theorem State.updRun_lost (s : State) (c : Nat) (f : CoreRun → CoreRun) : (s.updRun c f).lost = s.lost := rfl
@[simp] theorem State.updRun_strand (s : State) (c : Nat) (f : CoreRun → CoreRun) : (s.updRun c f).strand = s.strand := rfl
@[simp] theorem State.updRun_trspWait (s : State) (c : Nat) (f : CoreRun → CoreRun) : (s.updRun c f).trspWait = s.trspWait := rfl
@[simp] theorem State.updRun_dlog (s : State) (c : Nat) (f : CoreRun → CoreRun) : (s.updRun c f).dlog = s.dlog := rfl
@[simp] theorem State.updRun_hostReqs (s : State) (c : Nat) (f : CoreRun → CoreRun) : (s.updRun c f).hostReqs = s.hostReqs := rfl
@[simp] theorem State.updRun_subst (s : State) (c : Nat) (f : CoreRun → CoreRun) : (s.updRun c f).subst = s.subst := rfl
@[simp] theorem State.updRun_substResult (s : State) (c : Nat) (f : CoreRun → CoreRun) : (s.updRun c f).substResult = s.substResult := rfl
@[simp] theorem State.updRun_ptinv (s : State) (c : Nat) (f : CoreRun → CoreRun) : (s.updRun c f).ptinv = s.ptinv := rfl
@[simp] theorem State.updRun_irqs (s : State) (c : Nat) (f : CoreRun → CoreRun) : (s.updRun c f).irqs = s.irqs := rfl
@[simp] theorem State.updRun_mgmtIrqs (s : State) (c : Nat) (f : CoreRun → CoreRun) : (s.updRun c f).mgmtIrqs = s.mgmtIrqs := rfl
@[simp] theorem State.updRun_treqs (s : State) (c : Nat) (f : CoreRun → CoreRun) : (s.updRun c f).treqs = s.treqs := rfl
@[simp] theorem State.updRun_tap (s : State) (c : Nat) (f : CoreRun → CoreRun) : (s.updRun c f).tap = s.tap := rfl
@[simp] theorem State.updRun_trsp (s : State) (c : Nat) (f : CoreRun → CoreRun) : (s.updRun c f).trsp = s.trsp := rfl
@[simp] theorem State.updRun_recovCnt (s : State) (c : Nat) (f : CoreRun → CoreRun) : (s.updRun c f).recovCnt = s.recovCnt := rfl
@[simp] theorem State.updRun_substCnt (s : State) (c : Nat) (f : CoreRun → CoreRun) : (s.updRun c f).substCnt = s.substCnt := rfl
@[simp] theorem State.updRun_halves (s : State) (c : Nat) (f : CoreRun → CoreRun) : (s.updRun c f).halves = s.halves := rfl
@[simp] theorem State.updRun_fabric (s : State) (c : Nat) (f : CoreRun → CoreRun) : (s.updRun c f).fabric = s.fabric := rfl
@[simp] theorem State.updRun_aon (s : State) (c : Nat) (f : CoreRun → CoreRun) : (s.updRun c f).aon = s.aon := rfl
@[simp] theorem State.updRun_pwr (s : State) (c : Nat) (f : CoreRun → CoreRun) : (s.updRun c f).pwr = s.pwr := rfl
@[simp] theorem State.updRun_ages (s : State) (c : Nat) (f : CoreRun → CoreRun) : (s.updRun c f).ages = s.ages := rfl
@[simp] theorem State.updRun_temper (s : State) (c : Nat) (f : CoreRun → CoreRun) : (s.updRun c f).temper = s.temper := rfl
@[simp] theorem State.updRun_otp (s : State) (c : Nat) (f : CoreRun → CoreRun) : (s.updRun c f).otp = s.otp := rfl
@[simp] theorem State.updRun_mgmt (s : State) (c : Nat) (f : CoreRun → CoreRun) : (s.updRun c f).mgmt = s.mgmt := rfl
@[simp] theorem State.updRun_boot (s : State) (c : Nat) (f : CoreRun → CoreRun) : (s.updRun c f).boot = s.boot := rfl
@[simp] theorem State.updRun_link (s : State) (c : Nat) (f : CoreRun → CoreRun) : (s.updRun c f).link = s.link := rfl
@[simp] theorem State.updRun_upd (s : State) (c : Nat) (f : CoreRun → CoreRun) : (s.updRun c f).upd = s.upd := rfl

@[simp] theorem State.updSt_pending (s : State) (c : Nat) (f : CoreStore → CoreStore) : (s.updSt c f).pending = s.pending := rfl
@[simp] theorem State.updSt_fc (s : State) (c : Nat) (f : CoreStore → CoreStore) : (s.updSt c f).fc = s.fc := rfl
@[simp] theorem State.updSt_v64 (s : State) (c : Nat) (f : CoreStore → CoreStore) : (s.updSt c f).v64 = s.v64 := rfl
@[simp] theorem State.updSt_tierA (s : State) (c : Nat) (f : CoreStore → CoreStore) : (s.updSt c f).tierA = s.tierA := rfl
@[simp] theorem State.updSt_tierB (s : State) (c : Nat) (f : CoreStore → CoreStore) : (s.updSt c f).tierB = s.tierB := rfl
@[simp] theorem State.updSt_hostOut (s : State) (c : Nat) (f : CoreStore → CoreStore) : (s.updSt c f).hostOut = s.hostOut := rfl
@[simp] theorem State.updSt_regs (s : State) (c : Nat) (f : CoreStore → CoreStore) : (s.updSt c f).regs = s.regs := rfl
@[simp] theorem State.updSt_fq (s : State) (c : Nat) (f : CoreStore → CoreStore) : (s.updSt c f).fq = s.fq := rfl
@[simp] theorem State.updSt_roles (s : State) (c : Nat) (f : CoreStore → CoreStore) : (s.updSt c f).roles = s.roles := rfl
@[simp] theorem State.updSt_lmap (s : State) (c : Nat) (f : CoreStore → CoreStore) : (s.updSt c f).lmap = s.lmap := rfl
@[simp] theorem State.updSt_mapgen (s : State) (c : Nat) (f : CoreStore → CoreStore) : (s.updSt c f).mapgen = s.mapgen := rfl
@[simp] theorem State.updSt_cast (s : State) (c : Nat) (f : CoreStore → CoreStore) : (s.updSt c f).cast = s.cast := rfl
@[simp] theorem State.updSt_str (s : State) (c : Nat) (f : CoreStore → CoreStore) : (s.updSt c f).str = s.str := rfl
@[simp] theorem State.updSt_rings (s : State) (c : Nat) (f : CoreStore → CoreStore) : (s.updSt c f).rings = s.rings := rfl
@[simp] theorem State.updSt_subs (s : State) (c : Nat) (f : CoreStore → CoreStore) : (s.updSt c f).subs = s.subs := rfl
@[simp] theorem State.updSt_nextSub (s : State) (c : Nat) (f : CoreStore → CoreStore) : (s.updSt c f).nextSub = s.nextSub := rfl
@[simp] theorem State.updSt_mesh (s : State) (c : Nat) (f : CoreStore → CoreStore) : (s.updSt c f).mesh = s.mesh := rfl
@[simp] theorem State.updSt_posts (s : State) (c : Nat) (f : CoreStore → CoreStore) : (s.updSt c f).posts = s.posts := rfl
@[simp] theorem State.updSt_items (s : State) (c : Nat) (f : CoreStore → CoreStore) : (s.updSt c f).items = s.items := rfl
@[simp] theorem State.updSt_credits (s : State) (c : Nat) (f : CoreStore → CoreStore) : (s.updSt c f).credits = s.credits := rfl
@[simp] theorem State.updSt_tlb (s : State) (c : Nat) (f : CoreStore → CoreStore) : (s.updSt c f).tlb = s.tlb := rfl
@[simp] theorem State.updSt_memq (s : State) (c : Nat) (f : CoreStore → CoreStore) : (s.updSt c f).memq = s.memq := rfl
@[simp] theorem State.updSt_memSerial (s : State) (c : Nat) (f : CoreStore → CoreStore) : (s.updSt c f).memSerial = s.memSerial := rfl
@[simp] theorem State.updSt_lost (s : State) (c : Nat) (f : CoreStore → CoreStore) : (s.updSt c f).lost = s.lost := rfl
@[simp] theorem State.updSt_strand (s : State) (c : Nat) (f : CoreStore → CoreStore) : (s.updSt c f).strand = s.strand := rfl
@[simp] theorem State.updSt_trspWait (s : State) (c : Nat) (f : CoreStore → CoreStore) : (s.updSt c f).trspWait = s.trspWait := rfl
@[simp] theorem State.updSt_dlog (s : State) (c : Nat) (f : CoreStore → CoreStore) : (s.updSt c f).dlog = s.dlog := rfl
@[simp] theorem State.updSt_hostReqs (s : State) (c : Nat) (f : CoreStore → CoreStore) : (s.updSt c f).hostReqs = s.hostReqs := rfl
@[simp] theorem State.updSt_subst (s : State) (c : Nat) (f : CoreStore → CoreStore) : (s.updSt c f).subst = s.subst := rfl
@[simp] theorem State.updSt_substResult (s : State) (c : Nat) (f : CoreStore → CoreStore) : (s.updSt c f).substResult = s.substResult := rfl
@[simp] theorem State.updSt_ptinv (s : State) (c : Nat) (f : CoreStore → CoreStore) : (s.updSt c f).ptinv = s.ptinv := rfl
@[simp] theorem State.updSt_irqs (s : State) (c : Nat) (f : CoreStore → CoreStore) : (s.updSt c f).irqs = s.irqs := rfl
@[simp] theorem State.updSt_mgmtIrqs (s : State) (c : Nat) (f : CoreStore → CoreStore) : (s.updSt c f).mgmtIrqs = s.mgmtIrqs := rfl
@[simp] theorem State.updSt_treqs (s : State) (c : Nat) (f : CoreStore → CoreStore) : (s.updSt c f).treqs = s.treqs := rfl
@[simp] theorem State.updSt_tap (s : State) (c : Nat) (f : CoreStore → CoreStore) : (s.updSt c f).tap = s.tap := rfl
@[simp] theorem State.updSt_trsp (s : State) (c : Nat) (f : CoreStore → CoreStore) : (s.updSt c f).trsp = s.trsp := rfl
@[simp] theorem State.updSt_recovCnt (s : State) (c : Nat) (f : CoreStore → CoreStore) : (s.updSt c f).recovCnt = s.recovCnt := rfl
@[simp] theorem State.updSt_substCnt (s : State) (c : Nat) (f : CoreStore → CoreStore) : (s.updSt c f).substCnt = s.substCnt := rfl
@[simp] theorem State.updSt_halves (s : State) (c : Nat) (f : CoreStore → CoreStore) : (s.updSt c f).halves = s.halves := rfl
@[simp] theorem State.updSt_fabric (s : State) (c : Nat) (f : CoreStore → CoreStore) : (s.updSt c f).fabric = s.fabric := rfl
@[simp] theorem State.updSt_aon (s : State) (c : Nat) (f : CoreStore → CoreStore) : (s.updSt c f).aon = s.aon := rfl
@[simp] theorem State.updSt_pwr (s : State) (c : Nat) (f : CoreStore → CoreStore) : (s.updSt c f).pwr = s.pwr := rfl
@[simp] theorem State.updSt_ages (s : State) (c : Nat) (f : CoreStore → CoreStore) : (s.updSt c f).ages = s.ages := rfl
@[simp] theorem State.updSt_temper (s : State) (c : Nat) (f : CoreStore → CoreStore) : (s.updSt c f).temper = s.temper := rfl
@[simp] theorem State.updSt_otp (s : State) (c : Nat) (f : CoreStore → CoreStore) : (s.updSt c f).otp = s.otp := rfl
@[simp] theorem State.updSt_mgmt (s : State) (c : Nat) (f : CoreStore → CoreStore) : (s.updSt c f).mgmt = s.mgmt := rfl
@[simp] theorem State.updSt_boot (s : State) (c : Nat) (f : CoreStore → CoreStore) : (s.updSt c f).boot = s.boot := rfl
@[simp] theorem State.updSt_link (s : State) (c : Nat) (f : CoreStore → CoreStore) : (s.updSt c f).link = s.link := rfl
@[simp] theorem State.updSt_upd (s : State) (c : Nat) (f : CoreStore → CoreStore) : (s.updSt c f).upd = s.upd := rfl

@[simp] theorem State.setReg_pending (s : State) (o : Nat) (v : W32) : (s.setReg o v).pending = s.pending := rfl
@[simp] theorem State.setReg_fc (s : State) (o : Nat) (v : W32) : (s.setReg o v).fc = s.fc := rfl
@[simp] theorem State.setReg_v64 (s : State) (o : Nat) (v : W32) : (s.setReg o v).v64 = s.v64 := rfl
@[simp] theorem State.setReg_cores (s : State) (o : Nat) (v : W32) : (s.setReg o v).cores = s.cores := rfl
@[simp] theorem State.setReg_tierA (s : State) (o : Nat) (v : W32) : (s.setReg o v).tierA = s.tierA := rfl
@[simp] theorem State.setReg_tierB (s : State) (o : Nat) (v : W32) : (s.setReg o v).tierB = s.tierB := rfl
@[simp] theorem State.setReg_hostOut (s : State) (o : Nat) (v : W32) : (s.setReg o v).hostOut = s.hostOut := rfl
@[simp] theorem State.setReg_fq (s : State) (o : Nat) (v : W32) : (s.setReg o v).fq = s.fq := rfl
@[simp] theorem State.setReg_roles (s : State) (o : Nat) (v : W32) : (s.setReg o v).roles = s.roles := rfl
@[simp] theorem State.setReg_lmap (s : State) (o : Nat) (v : W32) : (s.setReg o v).lmap = s.lmap := rfl
@[simp] theorem State.setReg_mapgen (s : State) (o : Nat) (v : W32) : (s.setReg o v).mapgen = s.mapgen := rfl
@[simp] theorem State.setReg_cast (s : State) (o : Nat) (v : W32) : (s.setReg o v).cast = s.cast := rfl
@[simp] theorem State.setReg_str (s : State) (o : Nat) (v : W32) : (s.setReg o v).str = s.str := rfl
@[simp] theorem State.setReg_rings (s : State) (o : Nat) (v : W32) : (s.setReg o v).rings = s.rings := rfl
@[simp] theorem State.setReg_subs (s : State) (o : Nat) (v : W32) : (s.setReg o v).subs = s.subs := rfl
@[simp] theorem State.setReg_nextSub (s : State) (o : Nat) (v : W32) : (s.setReg o v).nextSub = s.nextSub := rfl
@[simp] theorem State.setReg_mesh (s : State) (o : Nat) (v : W32) : (s.setReg o v).mesh = s.mesh := rfl
@[simp] theorem State.setReg_posts (s : State) (o : Nat) (v : W32) : (s.setReg o v).posts = s.posts := rfl
@[simp] theorem State.setReg_items (s : State) (o : Nat) (v : W32) : (s.setReg o v).items = s.items := rfl
@[simp] theorem State.setReg_credits (s : State) (o : Nat) (v : W32) : (s.setReg o v).credits = s.credits := rfl
@[simp] theorem State.setReg_tlb (s : State) (o : Nat) (v : W32) : (s.setReg o v).tlb = s.tlb := rfl
@[simp] theorem State.setReg_memq (s : State) (o : Nat) (v : W32) : (s.setReg o v).memq = s.memq := rfl
@[simp] theorem State.setReg_memSerial (s : State) (o : Nat) (v : W32) : (s.setReg o v).memSerial = s.memSerial := rfl
@[simp] theorem State.setReg_lost (s : State) (o : Nat) (v : W32) : (s.setReg o v).lost = s.lost := rfl
@[simp] theorem State.setReg_strand (s : State) (o : Nat) (v : W32) : (s.setReg o v).strand = s.strand := rfl
@[simp] theorem State.setReg_trspWait (s : State) (o : Nat) (v : W32) : (s.setReg o v).trspWait = s.trspWait := rfl
@[simp] theorem State.setReg_dlog (s : State) (o : Nat) (v : W32) : (s.setReg o v).dlog = s.dlog := rfl
@[simp] theorem State.setReg_hostReqs (s : State) (o : Nat) (v : W32) : (s.setReg o v).hostReqs = s.hostReqs := rfl
@[simp] theorem State.setReg_subst (s : State) (o : Nat) (v : W32) : (s.setReg o v).subst = s.subst := rfl
@[simp] theorem State.setReg_substResult (s : State) (o : Nat) (v : W32) : (s.setReg o v).substResult = s.substResult := rfl
@[simp] theorem State.setReg_ptinv (s : State) (o : Nat) (v : W32) : (s.setReg o v).ptinv = s.ptinv := rfl
@[simp] theorem State.setReg_irqs (s : State) (o : Nat) (v : W32) : (s.setReg o v).irqs = s.irqs := rfl
@[simp] theorem State.setReg_mgmtIrqs (s : State) (o : Nat) (v : W32) : (s.setReg o v).mgmtIrqs = s.mgmtIrqs := rfl
@[simp] theorem State.setReg_treqs (s : State) (o : Nat) (v : W32) : (s.setReg o v).treqs = s.treqs := rfl
@[simp] theorem State.setReg_tap (s : State) (o : Nat) (v : W32) : (s.setReg o v).tap = s.tap := rfl
@[simp] theorem State.setReg_trsp (s : State) (o : Nat) (v : W32) : (s.setReg o v).trsp = s.trsp := rfl
@[simp] theorem State.setReg_recovCnt (s : State) (o : Nat) (v : W32) : (s.setReg o v).recovCnt = s.recovCnt := rfl
@[simp] theorem State.setReg_substCnt (s : State) (o : Nat) (v : W32) : (s.setReg o v).substCnt = s.substCnt := rfl
@[simp] theorem State.setReg_halves (s : State) (o : Nat) (v : W32) : (s.setReg o v).halves = s.halves := rfl
@[simp] theorem State.setReg_fabric (s : State) (o : Nat) (v : W32) : (s.setReg o v).fabric = s.fabric := rfl
@[simp] theorem State.setReg_aon (s : State) (o : Nat) (v : W32) : (s.setReg o v).aon = s.aon := rfl
@[simp] theorem State.setReg_pwr (s : State) (o : Nat) (v : W32) : (s.setReg o v).pwr = s.pwr := rfl
@[simp] theorem State.setReg_ages (s : State) (o : Nat) (v : W32) : (s.setReg o v).ages = s.ages := rfl
@[simp] theorem State.setReg_temper (s : State) (o : Nat) (v : W32) : (s.setReg o v).temper = s.temper := rfl
@[simp] theorem State.setReg_otp (s : State) (o : Nat) (v : W32) : (s.setReg o v).otp = s.otp := rfl
@[simp] theorem State.setReg_mgmt (s : State) (o : Nat) (v : W32) : (s.setReg o v).mgmt = s.mgmt := rfl
@[simp] theorem State.setReg_boot (s : State) (o : Nat) (v : W32) : (s.setReg o v).boot = s.boot := rfl
@[simp] theorem State.setReg_link (s : State) (o : Nat) (v : W32) : (s.setReg o v).link = s.link := rfl
@[simp] theorem State.setReg_upd (s : State) (o : Nat) (v : W32) : (s.setReg o v).upd = s.upd := rfl

@[simp] theorem State.setRegN_pending (s : State) (o v : Nat) : (s.setRegN o v).pending = s.pending := rfl
@[simp] theorem State.setRegN_fc (s : State) (o v : Nat) : (s.setRegN o v).fc = s.fc := rfl
@[simp] theorem State.setRegN_v64 (s : State) (o v : Nat) : (s.setRegN o v).v64 = s.v64 := rfl
@[simp] theorem State.setRegN_cores (s : State) (o v : Nat) : (s.setRegN o v).cores = s.cores := rfl
@[simp] theorem State.setRegN_tierA (s : State) (o v : Nat) : (s.setRegN o v).tierA = s.tierA := rfl
@[simp] theorem State.setRegN_tierB (s : State) (o v : Nat) : (s.setRegN o v).tierB = s.tierB := rfl
@[simp] theorem State.setRegN_hostOut (s : State) (o v : Nat) : (s.setRegN o v).hostOut = s.hostOut := rfl
@[simp] theorem State.setRegN_fq (s : State) (o v : Nat) : (s.setRegN o v).fq = s.fq := rfl
@[simp] theorem State.setRegN_roles (s : State) (o v : Nat) : (s.setRegN o v).roles = s.roles := rfl
@[simp] theorem State.setRegN_lmap (s : State) (o v : Nat) : (s.setRegN o v).lmap = s.lmap := rfl
@[simp] theorem State.setRegN_mapgen (s : State) (o v : Nat) : (s.setRegN o v).mapgen = s.mapgen := rfl
@[simp] theorem State.setRegN_cast (s : State) (o v : Nat) : (s.setRegN o v).cast = s.cast := rfl
@[simp] theorem State.setRegN_str (s : State) (o v : Nat) : (s.setRegN o v).str = s.str := rfl
@[simp] theorem State.setRegN_rings (s : State) (o v : Nat) : (s.setRegN o v).rings = s.rings := rfl
@[simp] theorem State.setRegN_subs (s : State) (o v : Nat) : (s.setRegN o v).subs = s.subs := rfl
@[simp] theorem State.setRegN_nextSub (s : State) (o v : Nat) : (s.setRegN o v).nextSub = s.nextSub := rfl
@[simp] theorem State.setRegN_mesh (s : State) (o v : Nat) : (s.setRegN o v).mesh = s.mesh := rfl
@[simp] theorem State.setRegN_posts (s : State) (o v : Nat) : (s.setRegN o v).posts = s.posts := rfl
@[simp] theorem State.setRegN_items (s : State) (o v : Nat) : (s.setRegN o v).items = s.items := rfl
@[simp] theorem State.setRegN_credits (s : State) (o v : Nat) : (s.setRegN o v).credits = s.credits := rfl
@[simp] theorem State.setRegN_tlb (s : State) (o v : Nat) : (s.setRegN o v).tlb = s.tlb := rfl
@[simp] theorem State.setRegN_memq (s : State) (o v : Nat) : (s.setRegN o v).memq = s.memq := rfl
@[simp] theorem State.setRegN_memSerial (s : State) (o v : Nat) : (s.setRegN o v).memSerial = s.memSerial := rfl
@[simp] theorem State.setRegN_lost (s : State) (o v : Nat) : (s.setRegN o v).lost = s.lost := rfl
@[simp] theorem State.setRegN_strand (s : State) (o v : Nat) : (s.setRegN o v).strand = s.strand := rfl
@[simp] theorem State.setRegN_trspWait (s : State) (o v : Nat) : (s.setRegN o v).trspWait = s.trspWait := rfl
@[simp] theorem State.setRegN_dlog (s : State) (o v : Nat) : (s.setRegN o v).dlog = s.dlog := rfl
@[simp] theorem State.setRegN_hostReqs (s : State) (o v : Nat) : (s.setRegN o v).hostReqs = s.hostReqs := rfl
@[simp] theorem State.setRegN_subst (s : State) (o v : Nat) : (s.setRegN o v).subst = s.subst := rfl
@[simp] theorem State.setRegN_substResult (s : State) (o v : Nat) : (s.setRegN o v).substResult = s.substResult := rfl
@[simp] theorem State.setRegN_ptinv (s : State) (o v : Nat) : (s.setRegN o v).ptinv = s.ptinv := rfl
@[simp] theorem State.setRegN_irqs (s : State) (o v : Nat) : (s.setRegN o v).irqs = s.irqs := rfl
@[simp] theorem State.setRegN_mgmtIrqs (s : State) (o v : Nat) : (s.setRegN o v).mgmtIrqs = s.mgmtIrqs := rfl
@[simp] theorem State.setRegN_treqs (s : State) (o v : Nat) : (s.setRegN o v).treqs = s.treqs := rfl
@[simp] theorem State.setRegN_tap (s : State) (o v : Nat) : (s.setRegN o v).tap = s.tap := rfl
@[simp] theorem State.setRegN_trsp (s : State) (o v : Nat) : (s.setRegN o v).trsp = s.trsp := rfl
@[simp] theorem State.setRegN_recovCnt (s : State) (o v : Nat) : (s.setRegN o v).recovCnt = s.recovCnt := rfl
@[simp] theorem State.setRegN_substCnt (s : State) (o v : Nat) : (s.setRegN o v).substCnt = s.substCnt := rfl
@[simp] theorem State.setRegN_halves (s : State) (o v : Nat) : (s.setRegN o v).halves = s.halves := rfl
@[simp] theorem State.setRegN_fabric (s : State) (o v : Nat) : (s.setRegN o v).fabric = s.fabric := rfl
@[simp] theorem State.setRegN_aon (s : State) (o v : Nat) : (s.setRegN o v).aon = s.aon := rfl
@[simp] theorem State.setRegN_pwr (s : State) (o v : Nat) : (s.setRegN o v).pwr = s.pwr := rfl
@[simp] theorem State.setRegN_ages (s : State) (o v : Nat) : (s.setRegN o v).ages = s.ages := rfl
@[simp] theorem State.setRegN_temper (s : State) (o v : Nat) : (s.setRegN o v).temper = s.temper := rfl
@[simp] theorem State.setRegN_otp (s : State) (o v : Nat) : (s.setRegN o v).otp = s.otp := rfl
@[simp] theorem State.setRegN_mgmt (s : State) (o v : Nat) : (s.setRegN o v).mgmt = s.mgmt := rfl
@[simp] theorem State.setRegN_boot (s : State) (o v : Nat) : (s.setRegN o v).boot = s.boot := rfl
@[simp] theorem State.setRegN_link (s : State) (o v : Nat) : (s.setRegN o v).link = s.link := rfl
@[simp] theorem State.setRegN_upd (s : State) (o v : Nat) : (s.setRegN o v).upd = s.upd := rfl

@[simp] theorem State.setRole_pending (s : State) (l : Nat) (r : Role) : (s.setRole l r).pending = s.pending := rfl
@[simp] theorem State.setRole_fc (s : State) (l : Nat) (r : Role) : (s.setRole l r).fc = s.fc := rfl
@[simp] theorem State.setRole_v64 (s : State) (l : Nat) (r : Role) : (s.setRole l r).v64 = s.v64 := rfl
@[simp] theorem State.setRole_cores (s : State) (l : Nat) (r : Role) : (s.setRole l r).cores = s.cores := rfl
@[simp] theorem State.setRole_tierA (s : State) (l : Nat) (r : Role) : (s.setRole l r).tierA = s.tierA := rfl
@[simp] theorem State.setRole_tierB (s : State) (l : Nat) (r : Role) : (s.setRole l r).tierB = s.tierB := rfl
@[simp] theorem State.setRole_hostOut (s : State) (l : Nat) (r : Role) : (s.setRole l r).hostOut = s.hostOut := rfl
@[simp] theorem State.setRole_regs (s : State) (l : Nat) (r : Role) : (s.setRole l r).regs = s.regs := rfl
@[simp] theorem State.setRole_fq (s : State) (l : Nat) (r : Role) : (s.setRole l r).fq = s.fq := rfl
@[simp] theorem State.setRole_lmap (s : State) (l : Nat) (r : Role) : (s.setRole l r).lmap = s.lmap := rfl
@[simp] theorem State.setRole_mapgen (s : State) (l : Nat) (r : Role) : (s.setRole l r).mapgen = s.mapgen := rfl
@[simp] theorem State.setRole_cast (s : State) (l : Nat) (r : Role) : (s.setRole l r).cast = s.cast := rfl
@[simp] theorem State.setRole_str (s : State) (l : Nat) (r : Role) : (s.setRole l r).str = s.str := rfl
@[simp] theorem State.setRole_rings (s : State) (l : Nat) (r : Role) : (s.setRole l r).rings = s.rings := rfl
@[simp] theorem State.setRole_subs (s : State) (l : Nat) (r : Role) : (s.setRole l r).subs = s.subs := rfl
@[simp] theorem State.setRole_nextSub (s : State) (l : Nat) (r : Role) : (s.setRole l r).nextSub = s.nextSub := rfl
@[simp] theorem State.setRole_mesh (s : State) (l : Nat) (r : Role) : (s.setRole l r).mesh = s.mesh := rfl
@[simp] theorem State.setRole_posts (s : State) (l : Nat) (r : Role) : (s.setRole l r).posts = s.posts := rfl
@[simp] theorem State.setRole_items (s : State) (l : Nat) (r : Role) : (s.setRole l r).items = s.items := rfl
@[simp] theorem State.setRole_credits (s : State) (l : Nat) (r : Role) : (s.setRole l r).credits = s.credits := rfl
@[simp] theorem State.setRole_tlb (s : State) (l : Nat) (r : Role) : (s.setRole l r).tlb = s.tlb := rfl
@[simp] theorem State.setRole_memq (s : State) (l : Nat) (r : Role) : (s.setRole l r).memq = s.memq := rfl
@[simp] theorem State.setRole_memSerial (s : State) (l : Nat) (r : Role) : (s.setRole l r).memSerial = s.memSerial := rfl
@[simp] theorem State.setRole_lost (s : State) (l : Nat) (r : Role) : (s.setRole l r).lost = s.lost := rfl
@[simp] theorem State.setRole_strand (s : State) (l : Nat) (r : Role) : (s.setRole l r).strand = s.strand := rfl
@[simp] theorem State.setRole_trspWait (s : State) (l : Nat) (r : Role) : (s.setRole l r).trspWait = s.trspWait := rfl
@[simp] theorem State.setRole_dlog (s : State) (l : Nat) (r : Role) : (s.setRole l r).dlog = s.dlog := rfl
@[simp] theorem State.setRole_hostReqs (s : State) (l : Nat) (r : Role) : (s.setRole l r).hostReqs = s.hostReqs := rfl
@[simp] theorem State.setRole_subst (s : State) (l : Nat) (r : Role) : (s.setRole l r).subst = s.subst := rfl
@[simp] theorem State.setRole_substResult (s : State) (l : Nat) (r : Role) : (s.setRole l r).substResult = s.substResult := rfl
@[simp] theorem State.setRole_ptinv (s : State) (l : Nat) (r : Role) : (s.setRole l r).ptinv = s.ptinv := rfl
@[simp] theorem State.setRole_irqs (s : State) (l : Nat) (r : Role) : (s.setRole l r).irqs = s.irqs := rfl
@[simp] theorem State.setRole_mgmtIrqs (s : State) (l : Nat) (r : Role) : (s.setRole l r).mgmtIrqs = s.mgmtIrqs := rfl
@[simp] theorem State.setRole_treqs (s : State) (l : Nat) (r : Role) : (s.setRole l r).treqs = s.treqs := rfl
@[simp] theorem State.setRole_tap (s : State) (l : Nat) (r : Role) : (s.setRole l r).tap = s.tap := rfl
@[simp] theorem State.setRole_trsp (s : State) (l : Nat) (r : Role) : (s.setRole l r).trsp = s.trsp := rfl
@[simp] theorem State.setRole_recovCnt (s : State) (l : Nat) (r : Role) : (s.setRole l r).recovCnt = s.recovCnt := rfl
@[simp] theorem State.setRole_substCnt (s : State) (l : Nat) (r : Role) : (s.setRole l r).substCnt = s.substCnt := rfl
@[simp] theorem State.setRole_halves (s : State) (l : Nat) (r : Role) : (s.setRole l r).halves = s.halves := rfl
@[simp] theorem State.setRole_fabric (s : State) (l : Nat) (r : Role) : (s.setRole l r).fabric = s.fabric := rfl
@[simp] theorem State.setRole_aon (s : State) (l : Nat) (r : Role) : (s.setRole l r).aon = s.aon := rfl
@[simp] theorem State.setRole_pwr (s : State) (l : Nat) (r : Role) : (s.setRole l r).pwr = s.pwr := rfl
@[simp] theorem State.setRole_ages (s : State) (l : Nat) (r : Role) : (s.setRole l r).ages = s.ages := rfl
@[simp] theorem State.setRole_temper (s : State) (l : Nat) (r : Role) : (s.setRole l r).temper = s.temper := rfl
@[simp] theorem State.setRole_otp (s : State) (l : Nat) (r : Role) : (s.setRole l r).otp = s.otp := rfl
@[simp] theorem State.setRole_mgmt (s : State) (l : Nat) (r : Role) : (s.setRole l r).mgmt = s.mgmt := rfl
@[simp] theorem State.setRole_boot (s : State) (l : Nat) (r : Role) : (s.setRole l r).boot = s.boot := rfl
@[simp] theorem State.setRole_link (s : State) (l : Nat) (r : Role) : (s.setRole l r).link = s.link := rfl
@[simp] theorem State.setRole_upd (s : State) (l : Nat) (r : Role) : (s.setRole l r).upd = s.upd := rfl

@[simp] theorem State.offer_pending (s : State) (f : FRec) : (s.offer f).pending = s.pending := rfl
@[simp] theorem State.offer_fc (s : State) (f : FRec) : (s.offer f).fc = s.fc := rfl
@[simp] theorem State.offer_v64 (s : State) (f : FRec) : (s.offer f).v64 = s.v64 := rfl
@[simp] theorem State.offer_cores (s : State) (f : FRec) : (s.offer f).cores = s.cores := rfl
@[simp] theorem State.offer_tierA (s : State) (f : FRec) : (s.offer f).tierA = s.tierA := rfl
@[simp] theorem State.offer_tierB (s : State) (f : FRec) : (s.offer f).tierB = s.tierB := rfl
@[simp] theorem State.offer_hostOut (s : State) (f : FRec) : (s.offer f).hostOut = s.hostOut := rfl
@[simp] theorem State.offer_regs (s : State) (f : FRec) : (s.offer f).regs = s.regs := rfl
@[simp] theorem State.offer_roles (s : State) (f : FRec) : (s.offer f).roles = s.roles := rfl
@[simp] theorem State.offer_lmap (s : State) (f : FRec) : (s.offer f).lmap = s.lmap := rfl
@[simp] theorem State.offer_mapgen (s : State) (f : FRec) : (s.offer f).mapgen = s.mapgen := rfl
@[simp] theorem State.offer_cast (s : State) (f : FRec) : (s.offer f).cast = s.cast := rfl
@[simp] theorem State.offer_str (s : State) (f : FRec) : (s.offer f).str = s.str := rfl
@[simp] theorem State.offer_rings (s : State) (f : FRec) : (s.offer f).rings = s.rings := rfl
@[simp] theorem State.offer_subs (s : State) (f : FRec) : (s.offer f).subs = s.subs := rfl
@[simp] theorem State.offer_nextSub (s : State) (f : FRec) : (s.offer f).nextSub = s.nextSub := rfl
@[simp] theorem State.offer_mesh (s : State) (f : FRec) : (s.offer f).mesh = s.mesh := rfl
@[simp] theorem State.offer_posts (s : State) (f : FRec) : (s.offer f).posts = s.posts := rfl
@[simp] theorem State.offer_items (s : State) (f : FRec) : (s.offer f).items = s.items := rfl
@[simp] theorem State.offer_credits (s : State) (f : FRec) : (s.offer f).credits = s.credits := rfl
@[simp] theorem State.offer_tlb (s : State) (f : FRec) : (s.offer f).tlb = s.tlb := rfl
@[simp] theorem State.offer_memq (s : State) (f : FRec) : (s.offer f).memq = s.memq := rfl
@[simp] theorem State.offer_memSerial (s : State) (f : FRec) : (s.offer f).memSerial = s.memSerial := rfl
@[simp] theorem State.offer_lost (s : State) (f : FRec) : (s.offer f).lost = s.lost := rfl
@[simp] theorem State.offer_strand (s : State) (f : FRec) : (s.offer f).strand = s.strand := rfl
@[simp] theorem State.offer_trspWait (s : State) (f : FRec) : (s.offer f).trspWait = s.trspWait := rfl
@[simp] theorem State.offer_dlog (s : State) (f : FRec) : (s.offer f).dlog = s.dlog := rfl
@[simp] theorem State.offer_hostReqs (s : State) (f : FRec) : (s.offer f).hostReqs = s.hostReqs := rfl
@[simp] theorem State.offer_subst (s : State) (f : FRec) : (s.offer f).subst = s.subst := rfl
@[simp] theorem State.offer_substResult (s : State) (f : FRec) : (s.offer f).substResult = s.substResult := rfl
@[simp] theorem State.offer_ptinv (s : State) (f : FRec) : (s.offer f).ptinv = s.ptinv := rfl
@[simp] theorem State.offer_irqs (s : State) (f : FRec) : (s.offer f).irqs = s.irqs := rfl
@[simp] theorem State.offer_mgmtIrqs (s : State) (f : FRec) : (s.offer f).mgmtIrqs = s.mgmtIrqs := rfl
@[simp] theorem State.offer_treqs (s : State) (f : FRec) : (s.offer f).treqs = s.treqs := rfl
@[simp] theorem State.offer_tap (s : State) (f : FRec) : (s.offer f).tap = s.tap := rfl
@[simp] theorem State.offer_trsp (s : State) (f : FRec) : (s.offer f).trsp = s.trsp := rfl
@[simp] theorem State.offer_recovCnt (s : State) (f : FRec) : (s.offer f).recovCnt = s.recovCnt := rfl
@[simp] theorem State.offer_substCnt (s : State) (f : FRec) : (s.offer f).substCnt = s.substCnt := rfl
@[simp] theorem State.offer_halves (s : State) (f : FRec) : (s.offer f).halves = s.halves := rfl
@[simp] theorem State.offer_fabric (s : State) (f : FRec) : (s.offer f).fabric = s.fabric := rfl
@[simp] theorem State.offer_aon (s : State) (f : FRec) : (s.offer f).aon = s.aon := rfl
@[simp] theorem State.offer_pwr (s : State) (f : FRec) : (s.offer f).pwr = s.pwr := rfl
@[simp] theorem State.offer_ages (s : State) (f : FRec) : (s.offer f).ages = s.ages := rfl
@[simp] theorem State.offer_temper (s : State) (f : FRec) : (s.offer f).temper = s.temper := rfl
@[simp] theorem State.offer_otp (s : State) (f : FRec) : (s.offer f).otp = s.otp := rfl
@[simp] theorem State.offer_mgmt (s : State) (f : FRec) : (s.offer f).mgmt = s.mgmt := rfl
@[simp] theorem State.offer_boot (s : State) (f : FRec) : (s.offer f).boot = s.boot := rfl
@[simp] theorem State.offer_link (s : State) (f : FRec) : (s.offer f).link = s.link := rfl
@[simp] theorem State.offer_upd (s : State) (f : FRec) : (s.offer f).upd = s.upd := rfl

@[simp] theorem State.offerCore_pending (s : State) (c : Nat) (f : CFault) : (s.offerCore c f).pending = s.pending := rfl
@[simp] theorem State.offerCore_fc (s : State) (c : Nat) (f : CFault) : (s.offerCore c f).fc = s.fc := rfl
@[simp] theorem State.offerCore_v64 (s : State) (c : Nat) (f : CFault) : (s.offerCore c f).v64 = s.v64 := rfl
@[simp] theorem State.offerCore_cores (s : State) (c : Nat) (f : CFault) : (s.offerCore c f).cores = s.cores := rfl
@[simp] theorem State.offerCore_tierA (s : State) (c : Nat) (f : CFault) : (s.offerCore c f).tierA = s.tierA := rfl
@[simp] theorem State.offerCore_tierB (s : State) (c : Nat) (f : CFault) : (s.offerCore c f).tierB = s.tierB := rfl
@[simp] theorem State.offerCore_hostOut (s : State) (c : Nat) (f : CFault) : (s.offerCore c f).hostOut = s.hostOut := rfl
@[simp] theorem State.offerCore_regs (s : State) (c : Nat) (f : CFault) : (s.offerCore c f).regs = s.regs := rfl
@[simp] theorem State.offerCore_roles (s : State) (c : Nat) (f : CFault) : (s.offerCore c f).roles = s.roles := rfl
@[simp] theorem State.offerCore_lmap (s : State) (c : Nat) (f : CFault) : (s.offerCore c f).lmap = s.lmap := rfl
@[simp] theorem State.offerCore_mapgen (s : State) (c : Nat) (f : CFault) : (s.offerCore c f).mapgen = s.mapgen := rfl
@[simp] theorem State.offerCore_cast (s : State) (c : Nat) (f : CFault) : (s.offerCore c f).cast = s.cast := rfl
@[simp] theorem State.offerCore_str (s : State) (c : Nat) (f : CFault) : (s.offerCore c f).str = s.str := rfl
@[simp] theorem State.offerCore_rings (s : State) (c : Nat) (f : CFault) : (s.offerCore c f).rings = s.rings := rfl
@[simp] theorem State.offerCore_subs (s : State) (c : Nat) (f : CFault) : (s.offerCore c f).subs = s.subs := rfl
@[simp] theorem State.offerCore_nextSub (s : State) (c : Nat) (f : CFault) : (s.offerCore c f).nextSub = s.nextSub := rfl
@[simp] theorem State.offerCore_mesh (s : State) (c : Nat) (f : CFault) : (s.offerCore c f).mesh = s.mesh := rfl
@[simp] theorem State.offerCore_posts (s : State) (c : Nat) (f : CFault) : (s.offerCore c f).posts = s.posts := rfl
@[simp] theorem State.offerCore_items (s : State) (c : Nat) (f : CFault) : (s.offerCore c f).items = s.items := rfl
@[simp] theorem State.offerCore_credits (s : State) (c : Nat) (f : CFault) : (s.offerCore c f).credits = s.credits := rfl
@[simp] theorem State.offerCore_tlb (s : State) (c : Nat) (f : CFault) : (s.offerCore c f).tlb = s.tlb := rfl
@[simp] theorem State.offerCore_memq (s : State) (c : Nat) (f : CFault) : (s.offerCore c f).memq = s.memq := rfl
@[simp] theorem State.offerCore_memSerial (s : State) (c : Nat) (f : CFault) : (s.offerCore c f).memSerial = s.memSerial := rfl
@[simp] theorem State.offerCore_lost (s : State) (c : Nat) (f : CFault) : (s.offerCore c f).lost = s.lost := rfl
@[simp] theorem State.offerCore_strand (s : State) (c : Nat) (f : CFault) : (s.offerCore c f).strand = s.strand := rfl
@[simp] theorem State.offerCore_trspWait (s : State) (c : Nat) (f : CFault) : (s.offerCore c f).trspWait = s.trspWait := rfl
@[simp] theorem State.offerCore_dlog (s : State) (c : Nat) (f : CFault) : (s.offerCore c f).dlog = s.dlog := rfl
@[simp] theorem State.offerCore_hostReqs (s : State) (c : Nat) (f : CFault) : (s.offerCore c f).hostReqs = s.hostReqs := rfl
@[simp] theorem State.offerCore_subst (s : State) (c : Nat) (f : CFault) : (s.offerCore c f).subst = s.subst := rfl
@[simp] theorem State.offerCore_substResult (s : State) (c : Nat) (f : CFault) : (s.offerCore c f).substResult = s.substResult := rfl
@[simp] theorem State.offerCore_ptinv (s : State) (c : Nat) (f : CFault) : (s.offerCore c f).ptinv = s.ptinv := rfl
@[simp] theorem State.offerCore_irqs (s : State) (c : Nat) (f : CFault) : (s.offerCore c f).irqs = s.irqs := rfl
@[simp] theorem State.offerCore_mgmtIrqs (s : State) (c : Nat) (f : CFault) : (s.offerCore c f).mgmtIrqs = s.mgmtIrqs := rfl
@[simp] theorem State.offerCore_treqs (s : State) (c : Nat) (f : CFault) : (s.offerCore c f).treqs = s.treqs := rfl
@[simp] theorem State.offerCore_tap (s : State) (c : Nat) (f : CFault) : (s.offerCore c f).tap = s.tap := rfl
@[simp] theorem State.offerCore_trsp (s : State) (c : Nat) (f : CFault) : (s.offerCore c f).trsp = s.trsp := rfl
@[simp] theorem State.offerCore_recovCnt (s : State) (c : Nat) (f : CFault) : (s.offerCore c f).recovCnt = s.recovCnt := rfl
@[simp] theorem State.offerCore_substCnt (s : State) (c : Nat) (f : CFault) : (s.offerCore c f).substCnt = s.substCnt := rfl
@[simp] theorem State.offerCore_halves (s : State) (c : Nat) (f : CFault) : (s.offerCore c f).halves = s.halves := rfl
@[simp] theorem State.offerCore_fabric (s : State) (c : Nat) (f : CFault) : (s.offerCore c f).fabric = s.fabric := rfl
@[simp] theorem State.offerCore_aon (s : State) (c : Nat) (f : CFault) : (s.offerCore c f).aon = s.aon := rfl
@[simp] theorem State.offerCore_pwr (s : State) (c : Nat) (f : CFault) : (s.offerCore c f).pwr = s.pwr := rfl
@[simp] theorem State.offerCore_ages (s : State) (c : Nat) (f : CFault) : (s.offerCore c f).ages = s.ages := rfl
@[simp] theorem State.offerCore_temper (s : State) (c : Nat) (f : CFault) : (s.offerCore c f).temper = s.temper := rfl
@[simp] theorem State.offerCore_otp (s : State) (c : Nat) (f : CFault) : (s.offerCore c f).otp = s.otp := rfl
@[simp] theorem State.offerCore_mgmt (s : State) (c : Nat) (f : CFault) : (s.offerCore c f).mgmt = s.mgmt := rfl
@[simp] theorem State.offerCore_boot (s : State) (c : Nat) (f : CFault) : (s.offerCore c f).boot = s.boot := rfl
@[simp] theorem State.offerCore_link (s : State) (c : Nat) (f : CFault) : (s.offerCore c f).link = s.link := rfl
@[simp] theorem State.offerCore_upd (s : State) (c : Nat) (f : CFault) : (s.offerCore c f).upd = s.upd := rfl

/-! ### What an update writes -/

theorem State.core_setCore (s : State) (c d : Nat) (k : Core) :
    (s.setCore c k).core d = if d = c then k else s.core d :=
  Sp.get_put ({} : Core) s.cores c d k

@[simp] theorem State.core_setCore_same (s : State) (c : Nat) (k : Core) : (s.setCore c k).core c = k := by
  simp [State.core_setCore]

theorem State.core_setCore_ne (s : State) {c d : Nat} (k : Core) (h : d ≠ c) : (s.setCore c k).core d = s.core d := by
  simp [State.core_setCore, h]

@[simp] theorem State.core_updCore_same (s : State) (c : Nat) (f : Core → Core) : (s.updCore c f).core c = f (s.core c) := by
  simp [State.updCore]

theorem State.core_updCore_ne (s : State) {c d : Nat} (f : Core → Core) (h : d ≠ c) : (s.updCore c f).core d = s.core d := by
  simp [State.updCore, State.core_setCore, h]

theorem State.reg_setReg (s : State) (o p : Nat) (v : W32) : (s.setReg o v).reg p = if p = o then v else s.reg p := by
  unfold State.setReg State.reg
  by_cases h : p = o
  · subst h; simp
  · simp [Sp.get_set_other, h]

theorem State.role_setRole (s : State) (l m : Nat) (r : Role) : (s.setRole l r).role m = if m = l then r else s.role m :=
  Sp.get_set ({} : Role) s.roles l m r

@[simp] theorem State.offer_offered (s : State) (f : FRec) :
    (s.offer f).fq.offered = s.fq.offered ++ [{ f with time := s.aon.tb, esc := f.esc || escOf f.code }] := rfl

end Sys2Proof.Machine
end

