-- ==== Sys2Proof/Laws/Core.lean ====
section
/-! SUPPORT. Laws/Core.lean: what the shared operations of a core do when they answer: a core command, one instruction issued as a long
word of its own, an engine's instruction issued and run. -/

namespace Sys2Proof.Machine

/-- A paced core command of a working core answers the core operation carried to the block. -/
theorem State.onCore_live (s : State) (c : Nat) (f : CEnv → CRes → CRes) (h : s.livePaced c = true) :
    s.onCore c f = .next (s.runCore c f) := by simp [State.onCore, h]

/-- Nothing waits, so settling changes nothing. -/
theorem Core.settle_none (k : Core) (h : k.run.late = []) : k.settle = k := by simp [Core.settle, h]

/-- With nothing waiting, issue sees the core as it is. -/
theorem Core.seen_none (k : Core) (h : k.run.late = []) : k.seen = k := by simp [Core.seen, h]

/-- An effect that no commit point and no earlier write holds back takes place at once. -/
theorem CRes.late_now (r : CRes) (q : Nat) (l : Late) (h : r.k.run.waits q l = false) : r.late q l = { r with k := l.apply r.k } := by
  simp [CRes.late, h]

/-- A core operation that offers no effect to the rest of the block and halts nothing changes that core alone. -/
theorem State.runCore_quiet (s : State) (c : Nat) (f : CEnv → CRes → CRes) (k : Core) (n : Nat)
    (h : f (s.cenv c) (CRes.of (s.core c) s.fc) = { k := k, fc := n, outs := [] })
    (hh : k.run.halt = (s.core c).run.halt) (hl : k.run.late = []) : s.runCore c f = { s.setCore c k with fc := n } := by
  unfold State.runCore
  rw [h]
  simp only [List.foldl_nil, Core.settle_none k hl]
  cases hx : (s.core c).run.halt <;> simp [hh, hx]

/-- A scalar instruction that plans an effect issues alone and takes it (R284, R305). -/
theorem issueOne_scal (e : CEnv) (i : Instr) (r : CRes) (f : ScalEff) (h : issueHeld r.k = false) (hl : r.k.run.lsUsed ≤ 64)
    (hc : r.k.run.current) (hb : f.br = none)
    (hp : scalPlan e r.k i = some (.go f)) (hs : streamIds i = []) (h2 : ∀ c a b, i ≠ .fence c a b) (h3 : ∀ c, i ≠ .cwait c) :
    issueOne e i r = f.apply (r.k.run.seq + 1) (r.run (fun x => x.issued 1)) := by
  have hl' : ¬ 64 < r.k.run.lsUsed := by omega
  simp [issueOne, issueWord, oneSlot, h, Core.seen_none r.k hc.2, hp, issueSlots, hs, notResident, admitted, hl', passIssue, CRes.run,
    CoreRun.issued, takeIds, hb, CRes.branchTo, CRes.marked]

/-- A scalar instruction that plans a fault halts the core's issue, and nothing of it takes effect (R302). -/
theorem issueOne_scal_fault (e : CEnv) (i : Instr) (r : CRes) (code : Nat) (h : issueHeld r.k = false) (hc : r.k.run.current)
    (hp : scalPlan e r.k i = some (.fault code)) : issueOne e i r = r.halt { code := code, unit := 0, tag := 0#16 } := by
  simp [issueOne, issueWord, oneSlot, h, Core.seen_none r.k hc.2, hp, issueFault]

/-- An instruction of another slot that acts at issue: `r1` is what the slot leaves. -/
theorem issueOne_slot (e : CEnv) (i : Instr) (r r1 : CRes) (h : issueHeld r.k = false) (hc : r.k.run.current) (hn : scalPlan e r.k i = none)
    (hs : streamIds i = []) (ho : issueSlot e r.k.st.ls (r.k.run.seq + 2) 0#16 i r = .ok r1) (hl : r1.k.run.lsUsed ≤ 64)
    (hi : r1.k.run.iq = r.k.run.iq) (hf : r1.k.run.iqOff = r.k.run.iqOff) :
    issueOne e i r = passIssue (oneSlot i) (r.k.run.seq + 2) r1 := by
  have hl' : ¬ 64 < r1.k.run.lsUsed := by omega
  simp [issueOne, issueWord, oneSlot, h, Core.seen_none r.k hc.2, hn, issueSlots, ho, hs, notResident, admitted, hl', passIssue, CRes.run,
    ScalEff.apply, CRes.lateOpt, CRes.branchTo, CRes.marked, hi, hf]

/-- An engine's instruction that is admitted enters its queue alone (R284, R301). -/
theorem issueOne_eng (e : CEnv) (i : Instr) (p : Plan) (r : CRes) (h : issueHeld r.k = false) (he : r.k.run.entries = [])
    (hf : r.k.run.fq = []) (hq : r.k.run.eq = []) (hc : r.k.run.current)
    (hn : scalPlan e r.k i = none) (hd : ∀ q, issueDmv e q 0#16 i r = none) (hw : ∀ c, i ≠ .cwait c) (ht : ∀ c, i ≠ .tswitch c)
    (hp : planEng e r.k r.k.st.ls i = some (.go p)) (hr : p.ranges ≤ 64) (hres : notResident e [i] = [])
    (ha : admitted r.k.run.qadm (streamIds i) = true) (hm : r.k.run.ordinal + p.msgs ≤ maxMsgs) :
    issueOne e i r = p.entered e i r := by
  have hm' : ¬ maxMsgs < r.k.run.ordinal + p.msgs := by omega
  have hnf : ∀ c a b, i ≠ .fence c a b := by
    intro c a b hx; subst hx; simp [planEng, planVec] at hp
  have hs : issueSlot e r.k.st.ls (r.k.run.seq + 2) 0#16 i r = enterPlan e (r.k.run.seq + 2) 0#16 i p r := by
    unfold issueSlot
    rw [hd]
    dsimp only
    split
    · exact absurd rfl (ht _)
    · exact absurd rfl (hw _)
    · rw [Core.seen_none r.k hc.2, hp]
  have hwin : issueWin r.k = r.k.cur.win := by simp [issueWin, he]
  have hls : (CoreRun.lsUsed { r.k.run with entries := [p.head e i r.k], ordinal := r.k.run.ordinal + p.msgs }) = p.ranges := by
    simp [CoreRun.lsUsed, CoreRun.holds, CoreRun.engHolds, hc.2, hf, hq, Plan.ranges, Plan.head, Plan.entry]
  have hes : enterPlan e (r.k.run.seq + 2) 0#16 i p r
      = .ok (r.run (fun x => { x with entries := [p.head e i r.k], ordinal := x.ordinal + p.msgs })) := by
    simp [enterPlan, hm', Plan.head, hwin, CRes.run, he]
  simp only [issueOne, issueWord, oneSlot, h, Core.seen_none r.k hc.2]
  have hl2 : ¬ 64 < (r.run (fun x => { x with entries := [p.head e i r.k], ordinal := x.ordinal + p.msgs })).k.run.lsUsed := by
    simp only [CRes.run, hls]; omega
  simp [hn, issueSlots, hs, hes, hres, ha, ScalEff.apply, CRes.lateOpt, CRes.branchTo, CRes.marked, passIssue, CRes.run, CoreRun.issued, Plan.entered]
  intro hx
  exact absurd hx hl2

/-- With nothing else unfinished, nothing stands in the entry's way (R241). -/
theorem free_entered (p : Plan) (e : CEnv) (i : Instr) (r : CRes) (hf : r.k.run.fq = []) (hq : r.k.run.eq = []) (hc : r.k.run.current) :
    (p.head e i r.k).free (p.entered e i r).k = true := by
  simp [Entry.free, mustWait, Plan.entered, CRes.run, CoreRun.holds, CoreRun.engHolds, CoreRun.behind, CoreRun.issued, hc.1, hc.2, hf, hq, Plan.head, Plan.entry]

/-- The entry then heads its queue and runs. -/
theorem slotStep_fresh (e : CEnv) (g : Eng) (i : Instr) (p : Plan) (r : CRes) (ready : ReadyF) (run : ExecF) (he : r.k.run.entries = [])
    (hf : r.k.run.fq = []) (hq : r.k.run.eq = []) (hc : r.k.run.current) (hg : p.eng = g)
    (h1 : issueOne e i r = p.entered e i r) (hr : ready e (p.head e i r.k) (p.entered e i r).k = true) :
    slotStep e g i ready run r = run e (p.head e i r.k) (p.entered e i r) := by
  have hh : headEntry g (p.entered e i r).k.run.entries = some (p.head e i r.k) := by
    simp [headEntry, Plan.entered, CRes.run, Plan.head, Plan.entry, hg]
  have hfr := free_entered p e i r hf hq hc
  have hdd : (p.head e i r.k).dead = false := by simp [Plan.head, Plan.entry]
  have hi : (p.head e i r.k).instr = i := rfl
  have hps : (p.head e i r.k).pushes = [] := rfl
  simp [slotStep, he, headEntry, h1]
  simp only [headEntry] at hh
  rw [hh]
  simp [hi, tryRun, hfr, hdd, hps, hr]

/-- A command that names an engine's instruction: in a core with nothing unfinished it issues and runs. -/
theorem exec_fresh (s : State) (c : Nat) (g : Eng) (i : Instr) (p : Plan) (ready : ReadyF) (run : ExecF)
    (h : s.fresh c) (ha : s.admits c i p) (hg : p.eng = g) (hr : s.readyNow c i p ready)
    (hn : scalPlan (s.cenv c) (s.core c) i = none) (hd : ∀ q, issueDmv (s.cenv c) q 0#16 i (CRes.of (s.core c) s.fc) = none)
    (hw : ∀ c, i ≠ .cwait c) (ht : ∀ c, i ≠ .tswitch c) :
    s.onCore c (fun e r => slotStep e g i ready run r) = .next (s.ran c i p run) := by
  obtain ⟨h1, h2, h3, h4, h5, h6, h7, h8, h9⟩ := h
  obtain ⟨a1, a2, a3, a4, a5⟩ := ha
  rw [State.onCore_live _ _ _ h1]
  have e1 := issueOne_eng (s.cenv c) i p (CRes.of (s.core c) s.fc) h2 h3 h4 h5 h9 hn hd hw ht a1 a2 a3 a4 a5
  have e2 := slotStep_fresh (s.cenv c) g i p (CRes.of (s.core c) s.fc) ready run h3 h4 h5 h9 hg e1 hr
  simp only [State.ran, State.runCore, e2]
end Sys2Proof.Machine
end

