-- ==== Sys2Proof/Laws/Lanes.lean ====
section
/-! SUPPORT. Laws/Lanes.lean: what a vector instruction that has entered its queue does when it runs: the operand cache, a mask, a
summary register, and nothing else. -/

namespace Sys2Proof.Machine

/-- Writing other keys leaves a key alone. -/
theorem foldl_set_other {β : Type} (d : W32) (key : β → Nat) (val : β → W32) (w : Nat) :
    ∀ (l : List β) (m : Sp W32), (∀ x ∈ l, key x ≠ w) →
      Sp.get d (l.foldl (fun m x => Sp.set d m (key x) (val x)) m) w = Sp.get d m w
  | [], _, _ => rfl
  | x :: l, m, h => by
    rw [List.foldl_cons, foldl_set_other d key val w l _ (fun y hy => h y (List.mem_cons_of_mem _ hy))]
    exact Sp.get_set_ne d m (val x) (h x List.mem_cons_self).symm

/-- Writing distinct keys leaves each with its value. -/
theorem foldl_set_get {β : Type} (d : W32) (key : β → Nat) (val : β → W32) :
    ∀ (l : List β) (m : Sp W32) (x : β), x ∈ l → (l.map key).Nodup →
      Sp.get d (l.foldl (fun m x => Sp.set d m (key x) (val x)) m) (key x) = val x
  | [], _, _, h, _ => by simp at h
  | y :: l, m, x, h, hn => by
    rw [List.foldl_cons]
    rw [List.map_cons, List.nodup_cons] at hn
    rcases List.mem_cons.mp h with rfl | h
    · rw [foldl_set_other d key val (key x) l _ (fun z hz hk => hn.1 (hk ▸ List.mem_map_of_mem hz))]
      exact Sp.get_set_same d m (key x) (val x)
    · exact foldl_set_get d key val l _ x h hn.2

/-- Lanes of one register lie at different words. -/
theorem laneWord_inj (L : Nat) (win : Sp Nat) (r i j : Nat) (hi : i < 512) (hj : j < 512) (h : laneWord L win r i = laneWord L win r j) :
    i = j := by
  unfold laneWord at h
  have := Nat.mod_lt (winBase L win r) (by decide : 512 > 0)
  omega

theorem CEnv.L_le (e : CEnv) : e.L ≤ 64 := by unfold CEnv.L; split <;> omega

theorem State.lanes_cenv (s : State) (c : Nat) : (s.cenv c).L = s.lanes := rfl

/-- A lane write: the lanes listed hold their values, every other word of the cache stays. -/
theorem setLanes_spec (a : CoreArch) (L : Nat) (win : Sp Nat) (r : Nat) (is : List Nat) (f : Nat → W32) (hb : ∀ i ∈ is, i < 64)
    (hn : is.Nodup) :
    let a' := a.setLanes L win r (is.map (fun i => (i, f i)))
    a' = { a with cache := a'.cache }
    ∧ (∀ i ∈ is, a'.lane L win r i = f i)
    ∧ (∀ w, (∀ i ∈ is, w ≠ laneWord L win r i) → Sp.get 0#32 a'.cache w = Sp.get 0#32 a.cache w) := by
  refine ⟨rfl, ?_, ?_⟩
  · intro i hi
    simp only [CoreArch.lane, CoreArch.setLanes]
    exact foldl_set_get 0#32 (fun (x : Nat × W32) => laneWord L win r x.1) (fun x => x.2) _ _ (i, f i)
      (List.mem_map_of_mem hi) (by
        rw [List.map_map]
        refine List.pairwise_map.mpr (List.Pairwise.imp_of_mem ?_ hn)
        intro x y hx hy hne h
        exact hne (laneWord_inj L win r x y (by have := hb x hx; omega) (by have := hb y hy; omega) h))
  · intro w hw
    simp only [CoreArch.setLanes]
    refine foldl_set_other 0#32 (fun (x : Nat × W32) => laneWord L win r x.1) (fun x => x.2) w _ _ ?_
    intro x hx
    obtain ⟨i, hi, rfl⟩ := List.mem_map.mp hx
    exact (hw i hi).symm

/-- Landing granules stay where nothing of the local store is written. -/
theorem unland_none (wr : List Res) (l : List Nat) (h : ∀ x ∈ wr, isLs x = false) : unland wr l = l := by
  unfold unland
  refine List.filter_eq_self.mpr (fun g _ => ?_)
  rw [Bool.not_eq_true', List.any_eq_false]
  intro x hx
  have := h x hx
  cases x <;> simp_all [isLs]

/-- The end of a vector instruction that writes nothing of the local store: its entry leaves, VEC_BUSY and VEC_WAIT count. -/
theorem vecDone_spec (b : Nat) (h : Entry) (r : CRes) (hl : ∀ e ∈ r.k.run.entries, ∀ x ∈ e.wr, isLs x = false) :
    ∃ pf fc', vecDone b h r = { r with k := { r.k with run := r.k.run.drop h.seq, st := { r.k.st with perf := pf } }, fc := fc' }
      ∧ ∀ o, o ∉ vecCounters → Sp.get 0#32 pf o = Sp.get 0#32 r.k.st.perf o := by
  have hu : unland ((r.k.run.entries.filter (fun e => e.seq = h.seq)).flatMap (·.wr)) r.k.st.landing = r.k.st.landing := by
    refine unland_none _ _ (fun x hx => ?_)
    obtain ⟨e, he, hx⟩ := List.mem_flatMap.mp hx
    exact hl e (List.mem_filter.mp he).1 x hx
  refine ⟨_, _, by simp only [vecDone, CRes.bumpFree, CRes.bump, CRes.st, CRes.free, CRes.done, CRes.run, hu]; rfl, ?_⟩
  intro o ho
  simp only [vecCounters, List.mem_cons, List.not_mem_nil, or_false, not_or] at ho
  rw [Sp.get_set_ne _ _ _ (by exact ho.2), Sp.get_set_ne _ _ _ (by exact ho.1)]

/-- An engine's instruction that ran alone, without effects on the rest of the block, left its result. -/
theorem ran_quiet (s : State) (c : Nat) (i : Instr) (p : Plan) (run : ExecF) (a : CoreArch) (fl : Fl) (pf : Sp W32) (fc' : Nat)
    (counters : List Nat) (K : Core) (hl : (s.core c).run.late = []) (hf : (s.core c).run.entries = []) (hs : streamIds i = []) (hm : p.msgs = 0)
    (h : run (s.cenv c) (p.head (s.cenv c) i (s.core c)) (p.entered (s.cenv c) i (CRes.of (s.core c) s.fc))
      = { k := K, fc := fc', outs := [] })
    (hK : K = { s.core c with
      cur := a, run := (p.entered (s.cenv c) i (CRes.of (s.core c) s.fc)).k.run.drop ((s.core c).run.seq + 2),
      st := { (s.core c).st with fmt := (s.core c).st.fmt ||| fl, perf := pf } })
    (hp : ∀ o, o ∉ counters → Sp.get 0#32 pf o = Sp.get 0#32 (s.core c).st.perf o) :
    onlyCore s (s.ran c i p run) c ∧ ranOn (s.core c) ((s.ran c i p run).core c) fl counters (fun _ => a)
      ∧ ((s.ran c i p run).core c).cur = a := by
  have e2 : s.ran c i p run = { s.setCore c K with fc := fc' } :=
    State.runCore_quiet s c (fun e r => run e (p.head e i r.k) (p.entered e i r)) _ _ h
      (by rw [hK]; simp [Plan.entered, CRes.run, CRes.of, CoreRun.issued, CoreRun.drop])
      (by rw [hK]; simpa [Plan.entered, CRes.run, CRes.of, CoreRun.issued, CoreRun.drop] using hl)
  have hc : (s.ran c i p run).core c = K := by rw [e2]; exact State.core_setCore_same s c _
  refine ⟨⟨by rw [e2]; rfl, fun d hd => by rw [e2]; exact State.core_setCore_ne s _ hd⟩, ⟨?_, ?_⟩, by rw [hc, hK]⟩
  · rw [hc, hK]
    simp [Plan.entered, CRes.run, CRes.of, CoreRun.issued, CoreRun.drop, hf, hs, hm, takeIds, Plan.head, Plan.entry]
  · rw [hc, hK]; exact hp

/-- A lane operation, which writes nothing of the local store, that has entered its queue and runs gives the lane result (R134, R141). -/
theorem laneOp_result (s : State) (c : Nat) (i : Instr) (p : Plan) (b vd vm : Nat) (srcs : List Nat) (f : List W32 → W32 × Fl)
    (hl : (s.core c).run.late = []) (hf : (s.core c).run.entries = []) (hs : streamIds i = []) (hm : p.msgs = 0)
    (hn : ∀ x ∈ p.wr ++ writeRanges p.accs, isLs x = false)
    (hw : winAfter (s.cenv c).L i p.sr (s.core c).cur.win = (s.core c).cur.win) :
    laneResult s (s.ran c i p (laneOp b vd vm srcs f)) c vd vm
      (fun j => f (srcs.map (fun v => (s.core c).cur.lane s.lanes (s.core c).cur.win v j))) := by
  obtain ⟨pf, fc', h1, h2⟩ := vecDone_spec b (p.head (s.cenv c) i (s.core c))
    ((((p.entered (s.cenv c) i (CRes.of (s.core c) s.fc))).cur (fun a => a.setLanes s.lanes (s.core c).cur.win vd
      (((s.core c).cur.active s.lanes vm).map (fun j => (j, (f (srcs.map (fun v => (s.core c).cur.lane s.lanes (s.core c).cur.win v j))).1))))).flags
      (flAll (((s.core c).cur.active s.lanes vm).map (fun j => (f (srcs.map (fun v => (s.core c).cur.lane s.lanes (s.core c).cur.win v j))).2))))
    (by
      intro e he
      simp only [Plan.entered, CRes.run, CRes.of, CRes.cur, CRes.flags, CRes.st, List.mem_singleton] at he
      subst he
      exact hn)
  have hhw : (p.head (s.cenv c) i (s.core c)).win = (s.core c).cur.win := hw
  have heq : laneOp b vd vm srcs f (s.cenv c) (p.head (s.cenv c) i (s.core c)) (p.entered (s.cenv c) i (CRes.of (s.core c) s.fc))
      = vecDone b (p.head (s.cenv c) i (s.core c)) ((((p.entered (s.cenv c) i (CRes.of (s.core c) s.fc))).cur
        (fun a => a.setLanes s.lanes (s.core c).cur.win vd (((s.core c).cur.active s.lanes vm).map
          (fun j => (j, (f (srcs.map (fun v => (s.core c).cur.lane s.lanes (s.core c).cur.win v j))).1))))).flags
        (flAll (((s.core c).cur.active s.lanes vm).map
          (fun j => (f (srcs.map (fun v => (s.core c).cur.lane s.lanes (s.core c).cur.win v j))).2)))) := by
    simp only [laneOp, hhw, State.lanes_cenv, Plan.entered, CRes.run, CRes.of, List.map_map]
    rfl
  have hrun := heq.trans h1
  obtain ⟨q1, q2, q3⟩ := ran_quiet s c i p (laneOp b vd vm srcs f) _ (flAll (((s.core c).cur.active s.lanes vm).map
    (fun j => (f (srcs.map (fun v => (s.core c).cur.lane s.lanes (s.core c).cur.win v j))).2))) pf fc' vecCounters _ hl hf hs hm hrun rfl
    (fun o ho => h2 o ho)
  have hb : ∀ j ∈ (s.core c).cur.active s.lanes vm, j < 64 := by
    intro j hj
    have h := (List.mem_filter.mp hj).1
    have := List.mem_range.mp h
    have := CEnv.L_le (s.cenv c)
    rw [State.lanes_cenv] at this
    omega
  have hnd : ((s.core c).cur.active s.lanes vm).Nodup := List.Pairwise.filter _ List.nodup_range
  obtain ⟨z1, z2, z3⟩ := setLanes_spec (s.core c).cur s.lanes (s.core c).cur.win vd ((s.core c).cur.active s.lanes vm)
    (fun j => (f (srcs.map (fun v => (s.core c).cur.lane s.lanes (s.core c).cur.win v j))).1) hb hnd
  have hmem : ∀ j, j ∈ (s.core c).cur.active s.lanes vm ↔ j < s.lanes ∧ (s.core c).cur.mbit vm j = true := by
    intro j; simp [CoreArch.active]
  refine ⟨q1, ?_, ?_, ?_⟩
  · refine ⟨?_, q2.2⟩
    rw [q3]
    exact q2.1
  · intro j hj
    rw [q3]
    by_cases hmb : (s.core c).cur.mbit vm j = true
    · rw [if_pos hmb]; exact z2 j ((hmem j).mpr ⟨hj, hmb⟩)
    · rw [if_neg hmb]
      refine z3 _ ?_
      intro x hx he
      have hx' := (hmem x).mp hx
      have := laneWord_inj s.lanes (s.core c).cur.win vd j x (by have := CEnv.L_le (s.cenv c); rw [State.lanes_cenv] at this; omega)
        (by have := hb x hx; omega) he
      exact hmb (this ▸ hx'.2)
  · intro w hw'
    rw [q3]
    exact z3 w (fun x hx => hw' x ((hmem x).mp hx).1)

end Sys2Proof.Machine
end

