-- ==== Sys2Proof/WellFormed.lean ====
section
/-! DEFINITION. WellFormed.lean: which operands of a command the spec admits beyond what its fields' widths say. -/

namespace Sys2Proof

/-- The operands are ones the spec gives the command: a target access of 1 to 64 bytes (R496), a sensor source 0 to 8 (R503), a frame
of 78 to 8,850 bytes (R501), a unit 0 to 71 (Table 9 of Ageing and hard limits), an OTP field 0 to 6 (Table 1 of
One-time-programmable settings), 8 words of a submission entry (R279), a comparator word 0 to 2 (Table 6 of Always-on domain),
128 bytes of a round record (R393), 256 bytes of a peer context (R358). -/
def Instr.wf : Instr → Bool
  | .targetRequest f => decide (1 ≤ f.len.toNat) && decide (f.len.toNat ≤ 64)
  | .sensorReading src _ => decide (src.toNat ≤ 8)
  | .sensorStale src => decide (src.toNat ≤ 8)
  | .frameReceive _ bytes _ => decide (78 ≤ bytes.length) && decide (bytes.length ≤ 8850)
  | .tmpcmdMeasure _ u => decide (u.toNat < 72)
  | .tmpcmdCommit _ u => decide (u.toNat < 72)
  | .tmpcmdAbort _ u => decide (u.toNat < 72)
  | .otpTestProgram field _ => decide (field.toNat ≤ 6)
  | .submissionEntryRead _ words => decide (words.length = 8)
  | .deadlineWrite _ _ word _ => decide (word.toNat ≤ 2)
  | .sealcmdLoad _ _ data => decide (data.length = 128)
  | .peerFetchComplete _ err data => err || decide (data.length = 256)
  | _ => true

end Sys2Proof
end

