-- ==== Sys2Proof/Tests/Slice0.lean ====
section
/-! SUPPORT. Tests/Slice0.lean: ill-formed commands that WellFormed refuses, long words written out from the encodings of
Instruction reference, results that the chapters' own words fix, and for every obligation states that meet the hypotheses of each of
its clauses (`test_witness_…`). -/

namespace Sys2Proof.Tests

set_option Elab.async false

open Sys2Proof Sys2Proof.Machine

/-! ### Small states -/

/-- A running block: slabs 0 and 1 are logical slabs 0 and 1 of partition 0, whose casting is loaded; slab 2 is a spare. -/
def up : State :=
  { State.reset with
    v64 := false
    boot := { cold := false, blk := false, init := false, pgood := true }
    pwr := { on := true }
    roles := [(0, { logical := some 0, st := .active, part := some 0 }), (1, { logical := some 1, st := .active, part := some 0 }),
      (2, { logical := none, st := .spare })]
    lmap := [(0, some 0), (1, some 1)]
    cast := { loaded := true, img := { kind := 1, parts := [{ first := 0, size := 2, qwait := 10 }] } } }

/-- Core 0. -/
def c0 : CoreNo := 0

/-- `up` with `f` applied to core 0. -/
def upc (f : Core → Core) : State := up.updCore 0 f

/-- `up` with the registers of core 0 that `f` gives. -/
def upr (f : CoreRun → CoreRun) : State := upc (fun k => { k with run := f k.run })

/-- `up` with the architectural state of core 0 that `f` gives. -/
def upa (f : CoreArch → CoreArch) : State := upc (fun k => { k with cur := f k.cur })

/-- The plan of an engine instruction of core 0. -/
def planOf (s : State) (i : Instr) : Plan :=
  match planEng (s.cenv 0) (s.core 0) (s.core 0).st.ls i with
  | some (.go p) => p
  | _ => { eng := .vec }

/-- What an outcome leaves in core 0, where it is a next state. -/
def after (o : Host.Outcome State Fault Refusal) : Option Core :=
  match o with
  | .next t => some (t.core 0)
  | _ => none

/-- Words `ws` from byte address `a` of a memory. -/
def putWords (m : Memory) (a : Nat) : List Nat → Memory
  | [] => m
  | w :: ws => putWords (Memory.setNat m a 4 w) (a + 4) ws

/-- A running block whose core 0 holds in its local store four descriptors from address 0: handles 0 and 1 are BF16 operands of
one element (3 and 5), handle 2 an FP32 result of one element at 0x420, handle 3 one with a reserved format; SR1 is 1. -/
def upd4 : State :=
  let ls : Memory := [(0, 1), (4, 1), (8, 1), (13, 1), (16, 1), (32, 1), (36, 1), (40, 1), (44, 4), (45, 1), (48, 1), (68, 1), (72, 1),
    (76, 8), (77, 1), (80, 1), (96, 7), (100, 1), (104, 1), (112, 1), (0x400, 0x40), (0x401, 0x40), (0x410, 0xA0), (0x411, 0x40)]
  upc (fun k => { k with cur := { k.cur with sr := [(1, 1#64)] }, st := { k.st with ls := ls } })

/-- One element times one element into tile 0 of array A. -/
def mm : MMul :=
  { fmt := 0, ori := false, add := false, slide := false, batch := false, qe := false, kr := 1, base := 0, m1 := 0, sh := 0, bh := 1,
    ndh := 0 }

/-- The write-out of that element, to handle 2. -/
def wo : WOut :=
  { dq := false, dfmt := 0, rm := 0, wide := false, qe := false, o2 := false, gk := 0, base := 0, m1 := 0, n1 := 0, dh := 2, sch := 0,
    tbb := 0 }

/-! ### The step and the scalar slot -/

theorem test_witness_IdleStep : up.pending = [] ∧ up.treqs = [] := by decide +kernel

/-- ScalarRegisterForms, ScalarImmediateForms, CounterAndSemaphoreMoves, FencesAndKeptRanges. -/
theorem test_witness_issues : up.issues c0 ∧ (up.cenv c0).qends = false := by unfold State.issues; decide +kernel

/-- A core whose scoreboard is full (64 ranges) still meets `issues`; one with a commit mark open does not. -/
theorem test_issues_bounds : ¬ (upr (fun r => { r with marks := [{ seq := 1, stop := false, next := 8 }] })).issues c0 := by
  unfold State.issues; decide +kernel

/-- ScalarMovesAndDescriptors: the last handle whose descriptor ends inside the local store at DBASE 0xBFF8 (word address). -/
theorem test_witness_ScalarMovesAndDescriptors :
    let s := upa (fun a => { a with dbase := 0xBFF8 })
    s.issues c0 ∧ (s.core 0).run.smPending 7 = false ∧ (s.cenv 0).qends = false ∧ (s.core 0).run.entries = []
      ∧ descAddr (s.core 0) 0 + 32 = 196608 ∧ inKept (s.core 0).cur.kept ((descAddr (s.core 0) 0 + 28) / 32) = false := by
  unfold State.issues; decide +kernel

/-- A core that runs a stream of 8 bytes, SR1 = -1, SR2 = 1. -/
def upBr : State :=
  upc (fun k => { k with cur := { k.cur with sr := [(1, 0xFFFFFFFFFFFFFFFF#64), (2, 1#64)] },
                         run := { k.run with run := some { sub := 0, addr := 0, len := 8 } } })

/-- Branches: taken at the last target inside LEN, not taken, taken at LEN itself; a reserved condition; a misaligned target. -/
theorem test_witness_Branches :
    let a := (upBr.core 0).cur.sreg 1
    let b := (upBr.core 0).cur.sreg 2
    upBr.issues c0 ∧ streamLen (upBr.core 0) = 8 ∧ a.toInt < b.toInt ∧ ¬ a.toNat < b.toNat ∧ a ≠ b
      ∧ (4 : Nat) < streamLen (upBr.core 0) ∧ streamLen (upBr.core 0) ≤ 8 := by
  unfold State.issues; decide +kernel

theorem test_branch_taken_and_not :
    (after (exec (.br c0 3 1 2 4) upBr)).map (fun k => (k.run.iqOff, k.run.halt)) = some (4, none)
      ∧ (after (exec (.br c0 5 1 2 4) upBr)).map (fun k => (k.run.iqOff, k.run.halt)) = some (0, none)
      ∧ (after (exec (.br c0 3 1 2 8) upBr)).map (fun k => k.run.halt) = some (some 0x4D) := by decide +kernel

/-! ### The vector slot -/

/-- VectorFloatLanes, VectorIntegerLanes, VectorCompares, VectorMoves (a shift of 1 and one of 31 of 32 lanes), VectorSummariesAndWindows. -/
theorem test_witness_fresh : up.fresh c0 ∧ up.lanes = 32 ∧ 0 < (31#6).toNat ∧ (31#6).toNat < up.lanes := by
  unfold State.fresh; decide +kernel

/-- A contiguous load of FP32 elements from word address 0xBFE0, the last that ends inside the local store. -/
def vm0 : VMem := { v := 1, mode := 0, fmt := 0, d := false, ra := 0, modx := 0, w1 := 0xBFE0 }

/-- `up` with one tile in the finished-tile queue of array A. -/
def upTile : State := upa (fun a => { a with finA := [{ fmt := 0, elems := [], flag := 0#32 }] })

theorem test_witness_VectorMemoryRuns :
    up.fresh c0 ∧ (∀ i ∈ [Instr.vld c0 vm0, .vst c0 vm0, .rinit c0 0 2 false 0, .rfeed c0 3 31 0, .rfeedm c0 1 0 0, .rread c0 0 true 1 0 0],
      up.admits 0 i (planOf up i)) ∧ up.readyNow 0 (.vld c0 vm0) (planOf up (.vld c0 vm0)) popReady
    ∧ upTile.fresh c0 ∧ upTile.admits 0 (.tpop c0 false 480 0) (planOf upTile (.tpop c0 false 480 0))
    ∧ upTile.readyNow 0 (.tpop c0 false 480 0) (planOf upTile (.tpop c0 false 480 0)) (tpopReady false) := by
  unfold State.fresh State.admits State.readyNow; decide +kernel

theorem test_witness_VectorContiguousMemory :
    up.fresh c0 ∧ vm0.d = false ∧ vm0.mode = 0#2 ∧ 4 * (vm0.w1.toNat % 65536) + up.lanes * 4 = 196608 ∧ vm0.fmt.toNat ≤ 3
      ∧ vm0.fmt = 0#3 := by
  unfold State.fresh; decide +kernel

theorem test_witness_ReductionContexts :
    up.fresh c0 ∧ (2#3 : BitVec 3) ≠ 7#3
      ∧ (feedAll (nthD (up.core 0).cur.rctx 0 {}) (((up.core 0).cur.active 32 0).map (fun i => (up.core 0).cur.lane 32 [] 0 i))).2.2 = false
      ∧ (0#3 : BitVec 3).toNat < kindComps 0 ∧ (up.core 0).cur.fin false = [] ∧ (nthD (up.core 0).cur.rctx 0 {}).kind = 0
      ∧ upTile.fresh c0 ∧ (upTile.core 0).cur.fin false = { fmt := 0, elems := [], flag := 0#32 } :: [] := by
  unfold State.fresh; decide +kernel

/-- Every clause of EngineFaultsAtIssue: an instruction whose plan is a fault, with its code. -/
theorem test_witness_EngineFaultsAtIssue :
    upd4.livePaced c0 = true ∧ issueHeld (upd4.core 0) = false ∧ (upd4.core 0).run.entries = [] ∧ (upd4.core 0).run.current
    ∧ ∀ x ∈ [(Instr.vld c0 { vm0 with w1 := 0xBFE1 }, 0x25), (.vst c0 { vm0 with fmt := 7 }, 0x14), (.vext c0 0 0 32, 0x14),
        (.lsh c0 0 0 0 false false, 0x14), (.lsh c0 0 0 32 true true, 0x14), (.rinit c0 0 7 false 0, 0x14),
        (.rfeedm c0 0 0xC000 1, 0x25), (.mac c0 false { mm with base := 63, m1 := 8 }, 0x12),
        (.sqd c0 false { mm with sh := 3 }, 0x15), (.abd c0 true { mm with kr := 2 }, 0x12), (.minp c0 false { mm with qe := true }, 0x15),
        (.maxp c0 false { mm with fmt := 1 }, 0x12), (.wout c0 false { wo with m1 := 1 }, 0x12),
        (.woutg c0 true wo, 0x12),
        (.sfev c0 { vd := 0, va := 0, vb := 0, dir := 0, dfmt := 3, rm := 0, pk := false, o2 := false }, 0x10),
        (.gact c0 { vd := 0, va := 0, vb := 0, dir := 0, dfmt := 3, rm := 0, pk := false }, 0x10),
        (.smaxt c0 { ctx := 0, e := 0, va := 0, vd := 0, dfmt := 3, vm := 0, smc := 0, smf := 1, smc2 := 0 }, 0x10),
        (.tload c0 5944, 0x25), (.rmsf c0 0 0 0 0 0, 0x14),
        (.cstep c0 { ns1 := 0, blk := 6143, rt := 1, id := 0, stride := 0 }, 0x25),
        (.cadj c0 { ns1 := 0, blk := 0, rt := 2, id := 0, stride := 0 }, 0x16), (.ckgen c0 0 2, 0x16),
        (.cset c0 { mode := 1, fmt := false, tgt := true, elem := 1, addr := 0, tail := 0 }, 0x16),
        (.cget c0 { fmt := true, rm := 0, tgt := true, elem := 32736, addr := 0, tail := 32 }, 0x16),
        (.ccmp c0 { fmt := 3, r := 0, sm := 0, trap := false, rn := 1, x := 0, y := 0 }, 0x16), (.creset c0 0, 0x30)],
      planEng (upd4.cenv c0) (upd4.core 0) (upd4.core 0).st.ls x.1 = some (.fault x.2) := by decide +kernel

/-! ### The matrix slots -/

/-- `upd4` in a casting whose mode has a fill deadline of 100 ns. -/
def updB : State :=
  { upd4 with cast := { upd4.cast with img := { upd4.cast.img with modes := [{ part := 0, o2en := false, img := 0, crv := 0, filldl := 100 }] } } }

/-- A column of a batch whose result goes to handle 2. -/
def mb : MMul := { mm with batch := true, ndh := 2 }

theorem test_witness_MatrixRuns :
    upd4.fresh c0 ∧ (∀ i ∈ [Instr.mac c0 false mm, .sqd c0 true mm, .abd c0 false mm, .minp c0 true mm, .maxp c0 false mm],
        upd4.admits 0 i (planOf upd4 i) ∧ upd4.readyNow 0 i (planOf upd4 i) popReady)
    ∧ updB.fresh c0 ∧ upd4.admits 0 (.mac c0 true mb) (planOf upd4 (.mac c0 true mb)) ∧ (updB.cenv c0).fillDl ≠ 0
    ∧ updB.admits 0 (.mac c0 true mb) (planOf updB (.mac c0 true mb))
    ∧ upd4.admits 0 (.wout c0 false wo) (planOf upd4 (.wout c0 false wo))
    ∧ upd4.readyNow 0 (.wout c0 false wo) (planOf upd4 (.wout c0 false wo)) popReady
    ∧ upd4.admits 0 (.woutg c0 false wo) (planOf upd4 (.woutg c0 false wo))
    ∧ upd4.readyNow 0 (.woutg c0 false wo) (planOf upd4 (.woutg c0 false wo)) popReady := by
  unfold State.fresh State.admits State.readyNow; decide +kernel

theorem test_witness_MatrixAccumulators :
    mm.batch = false ∧ (upd4.core 0).st.nantrap.getLsbD 0 = false ∧ mm.M = 1 ∧ mm.N = 1 := by decide +kernel

/-- 3 x 5 = 15 into tile 0, and its write-out to handle 2. -/
theorem test_mac_and_wout :
    (match exec (.mac c0 false mm) upd4 with
      | .next t => decide (((t.core 0).cur.accAt false 0 0) = 0x41700000#32)
          && (match exec (.wout c0 false wo) t with
              | .next u => decide (Memory.nat (u.core 0).st.ls 0x420 4 = 0x41700000)
              | _ => false)
      | _ => false) = true := by decide +kernel

/-- `upd4` with `mm` for array A in its queue, started by nobody. -/
def updQ : State :=
  let p := planOf upd4 (.mac c0 false mm)
  upd4.updCore 0 (fun k => { k with run := { k.run with entries := [p.head (upd4.cenv 0) (.mac c0 false mm) k] } })

/-- A write-out of one tile to the finished-tile queue at the head of its queue. -/
def updW (n : Nat) : State :=
  let i := Instr.wout c0 false { wo with dq := true, dh := 0, dfmt := 1 }
  let tile : FinTile := { fmt := 0, elems := [], flag := 0#32 }
  upd4.updCore 0 (fun k => { k with
    cur := { k.cur with finA := List.replicate n tile }
    run := { k.run with entries := [{ seq := 2, tag := 0, eng := .wq false, instr := i }] } })

/-- `updQ` whose multiply also pops one item of inbound queue end 0, which is empty. -/
def updP : State := updQ.updCore 0 (fun k => { k with run := { k.run with entries := k.run.entries.map (fun h => { h with pops := [(0, 1)] }) } })

theorem test_witness_MatrixEvents :
    (∀ s ∈ [updQ, updP], s.livePaced c0 = true ∧ (s.core 0).run.current ∧ (s.core 0).run.batch false = none ∧ (s.core 0).run.fq = []
      ∧ (s.core 0).run.eq = [] ∧ (s.core 0).run.entries.length = 1
      ∧ (s.core 0).run.entries.all (fun h => decide (h.eng = .arr false ∧ h.group = none ∧ h.dead = false ∧ h.pushes = []
          ∧ asMMul h.instr = some (false, .mac, mm))) = true)
    ∧ mm.batch = false ∧ mm.base.toNat + tileCount mm.M mm.N ≤ 64 ∧ (updQ.core 0).st.nantrap.getLsbD 0 = false
    ∧ (updQ.core 0).run.entries.all (fun h => popsReady (updQ.core 0) h.pops) = true
    ∧ (updP.core 0).run.entries.all (fun h => !popsReady (updP.core 0) h.pops) = true
    ∧ ((upr (fun r => { r with batchA := some (0, 0) })).core 0).run.batch false = some (0, 0) ∧ up.aon.refLost = false ∧ up.aon.tb = 0
    ∧ ((upr (fun r => { r with batchA := some (0, 1) })).core 0).run.batch false = some (0, 1)
    ∧ (∀ n ∈ [3, 4], (updW n).livePaced c0 = true
        ∧ (headEntry (.wq false) ((updW n).core 0).run.entries).map (fun h => (h.instr, h.prog + 1))
            = some (.wout c0 false { wo with dq := true, dh := 0, dfmt := 1 }, tileCount 1 1)
        ∧ (((updW n).core 0).cur.fin false).length = n ∧ 0 < tileCount 1 1) := by decide +kernel

theorem test_witness_WriteOutStores :
    let p := planOf upd4 (.wout c0 false wo)
    wo.dq = false ∧ wo.wide = false ∧ p.ops.length = 1 ∧ (∀ d ∈ p.ops, d.qend = none ∧ d.fmt = 0 ∧ 4 * wo.N ≤ d.pitch) := by
  decide +kernel

theorem test_witness_MatrixRegisters :
    up.slabAnswers (c0.val / 32) = true ∧ ((up.core 0).st.byp false).getLsbD 3 = false ∧ (up.core 0).st.hold false = none
    ∧ bypassNow ((upr (fun r => { r with halt := some 0x22 })).core 0).run = true
    ∧ bypassNow ((upr (fun r => { r with ranSince := true })).core 0).run = false
    ∧ ((upc (fun k => { k with st := { k.st with bypA := 8#32 } })).core 0).st.byp false = 8#32
    ∧ ((upc (fun k => { k with st := { k.st with holdA := some 7 } })).core 0).st.hold false = some 7 := by decide +kernel

/-! ### Special functions -/

/-- A core whose active bank is valid, entries 4 and 5 naming a program, and whose reduction context 0 holds a sum of squares. -/
def upSf (rn : W64) : State :=
  upa (fun a => { a with
    sr := [(1, rn)]
    bank0 := { img := putWords [] 0x60 [1, 0, 0, 0, 1, 0, 0, 0], valid := true }
    rctx := [{ kind := 1 }, {}, {}, {}] })

theorem test_witness_SpecialFunctionRuns :
    (upSf 1).fresh c0 ∧ (∀ i ∈ [Instr.sfev c0 { vd := 1, va := 0, vb := 0, dir := 4, dfmt := 0, rm := 0, pk := false, o2 := false },
        .gact c0 { vd := 1, va := 0, vb := 0, dir := 4, dfmt := 0, rm := 0, pk := false },
        .smaxt c0 { ctx := 0, e := 4, va := 0, vd := 1, dfmt := 0, vm := 0, smc := 0, smf := 1, smc2 := 0 }, .smaxr c0 0 0 1 2,
        .rmsf c0 0 5 1 0 0, .tload c0 5943], (upSf 1).admits 0 i (planOf (upSf 1) i)) := by
  unfold State.fresh State.admits; decide +kernel

theorem test_witness_SoftMaximumAndRms :
    let k := ((upSf 1).core 0).cur
    let b := k.bankOf (issueBank ((upSf 1).core 0))
    b.valid = true ∧ (dirEnt b.reader 4).func ≠ 0 ∧ (dirEnt b.reader (5#4).toNat).func ≠ 0 ∧ (nthD k.rctx 0 {}).kind = 1
      ∧ (k.sreg 1).toNat % 2 ^ 32 = 1 ∧ (k.sreg 2).toNat % 2 ^ 32 = 0 := by decide +kernel

/-- A table load at granule 0 that has started, of an image that is empty but for its header (`ok`), or has none. -/
def upTl (ok : Bool) : State :=
  upc (fun k => { k with
    st := { k.st with ls := putWords [] 0 (if ok then [0x0A5E0053, 7, 1] else []) }
    run := { k.run with entries := [{ seq := 2, tag := 0, eng := .tload, instr := .tload c0 0, bank := 1, prog := 1 }] } })

theorem test_witness_TableLoadCompletes : ∀ ok ∈ [true, false],
    (upTl ok).livePaced c0 = true ∧ ((upTl ok).core 0).run.current
    ∧ (headEntry .tload ((upTl ok).core 0).run.entries).map (fun h => (h.instr, h.prog)) = some (.tload c0 0, 1)
    ∧ Memory.wf ((upTl ok).core 0).st.ls = true ∧ ((upTl ok).core 0).st.ls.all (fun c => decide (c.1 < 6432)) = true
    ∧ imageValid (fun a n => Memory.nat ((upTl ok).core 0).st.ls a n) = ok := by decide +kernel

/-- The image that TLOAD_COMPLETE reads at granule 0 is the local store itself, so both of its clauses are met. -/
theorem test_witness_TableLoadCompletes_image (ok : Bool) :
    imageValid (fun a n => Memory.nat (lsPut [] 0 (lsBytesAt ((upTl ok).core 0).st.ls (32 * (0#13).toNat) 6432)) a n) = ok := by
  have h := test_witness_TableLoadCompletes ok (by cases ok <;> simp)
  rw [show 32 * (0#13).toNat = 0 from rfl, lsPut_lsBytesAt _ _ h.2.2.2.1 (Memory.byte_above _ _ h.2.2.2.2.1)]
  exact h.2.2.2.2.2

/-! ### The carry slot -/

/-- A core with one resident stream (id 5, entry 0, slot 1, state pointer 32) whose increment is admitted, and a step block at
granule 0: one channel, N = 1, A = 0.5, B = 1, C = 1, XA = 1. SR1 is 1. -/
def upCar : State :=
  let ls : Memory := [(0, 1), (24, 6), (31, 0x3F), (48, 6), (54, 0x80), (55, 0x3F), (72, 6), (78, 0x80), (79, 0x3F),
    (96, 6), (102, 0x80), (103, 0x3F)]
  let s := upc (fun k => { k with cur := { k.cur with sr := [(1, 1#64)] }, run := { k.run with qadm := [5] }, st := { k.st with ls := ls } })
  let g : Geo := { part := 0, entBase := 0, entCount := 4, regBase := 0, slots := 2, nslot := 32, idFirst := 4, idLast := 7, reswait := 10 }
  { s with
    cast := { s.cast with img := { s.cast.img with geos := [g] } }
    str := { s.str with
      ents := [(0, { id := 5, res := .resident, valid := true, slot := some 1, qcount := 1 })]
      score := [(0, .resident), (1, .resident)] } }

def cst : CStepF := { ns1 := 0, blk := 0, rt := 1, id := 5, stride := 0 }
/-- A range of 32 parameters at element 32,736, the last of the state store. -/
def csetF (m : BitVec 2) : CSetF := { mode := m, fmt := false, tgt := true, elem := 32736, addr := 0, tail := 31 }
def cgetF : CGetF := { fmt := true, rm := 0, tgt := true, elem := 0, addr := 64, tail := 1 }
/-- A comparison of one FP32 element each. -/
def ccmpF (y : W16) (trap : Bool) : CCmpF := { fmt := 0, r := 0, sm := 1, trap := trap, rn := 1, x := 12, y := y }

theorem test_witness_CarryRuns :
    upCar.fresh c0 ∧ (∀ i ∈ [Instr.cstep c0 cst, .cadj c0 cst, .ckgen c0 0 1, .cset c0 (csetF 1), .cget c0 cgetF, .ccmp c0 (ccmpF 18 true),
      .creset c0 5], upCar.admits 0 i (planOf upCar i)) := by
  unfold State.fresh State.admits; decide +kernel

theorem test_witness_CarryStepOnePosition :
    let b := stepBlk (planOf upCar (.cstep c0 cst)).blk
    cst.ns1 = 0#2 ∧ ((upCar.core 0).cur.sreg cst.rt.toNat).toNat % 2 ^ 32 = 1
      ∧ b.finish = false ∧ b.den = false ∧ b.rden = false ∧ b.emen = false ∧ b.mken = false ∧ b.size = 1 := by decide +kernel

/-- CSET of constants 0 and 1, CGET of OS40, CCMP of two equal elements, and of 0 and 1, with and
without TRAP. -/
theorem test_witness_CarryMovesAndCompare :
    (∀ i ∈ [Instr.cset c0 (csetF 2), .ccmp c0 (ccmpF 13 false), .ccmp c0 (ccmpF 13 true)], upCar.admits 0 i (planOf upCar i))
    ∧ (csetF 1).tgt = true ∧ cgetF.tgt = true ∧ cgetF.fmt = true ∧ ((upCar.core 0).cur.sreg 1).toNat % 2 ^ 32 = 1
    ∧ (FFmt.fp32.read (Memory.nat (upCar.core 0).st.ls 48 4)).1.isNan = false
    ∧ (FFmt.fp32.read (Memory.nat (upCar.core 0).st.ls 52 4)).1.isNan = false := by
  unfold State.admits; decide +kernel

/-! ### The data-movement slot -/

/-- A core that waits: for arrival counter 3 to reach 2, or for semaphore 4, until timebase 0 or 1. -/
def upWait (w : Wait) : State := upr (fun r => { r with wait := some w })

/-- A region table of one entry: region 0 writes core 0's store, counts on counter 3 and carries messages of 32 bytes (R226). -/
def upPair : State :=
  let s := upWait (.arrive 3 2 1 (some 0))
  { s with regs := [(oRegN, 1#32)], link := { s.link with rcache := [(0, [0x45, 0, 0, 0, 64, 32, 3, 0])] } }

theorem test_witness_TimedWaits :
    up.issues c0 ∧ up.aon.refLost = false ∧ up.aon.tb = 0
    ∧ (∀ s ∈ [upWait (.arrive 3 2 1 (some 0)), upPair], s.live c0 = true ∧ (s.core 0).run.current ∧ s.aon.refLost = false ∧ s.aon.tb = 0
        ∧ (s.core 0).run.wait = some (.arrive 3 2 1 (some 0)) ∧ (s.core 0).run.halt = none)
    ∧ (upWait (.arrive 3 2 1 (some 0))).pairWait c0 3 = false ∧ upPair.pairWait c0 3 = true
    ∧ (upWait (.sema 4 1 (some 0))).live c0 = true ∧ ((upWait (.sema 4 1 (some 0))).core 0).run.current
    ∧ ((upWait (.sema 4 1 (some 0))).core 0).run.wait = some (.sema 4 1 (some 0)) := by
  unfold State.issues; decide +kernel

/-- A post to the core itself, to core `t`. -/
def sp (self : Bool) (t : BitVec 11) (n : BitVec 4) : SemPostF :=
  { sem := 4, tcore := t, self := self, cnt1 := n, rng := false, first := 0, gcnt1 := 0 }

/-- A post that waits for the granules from `first`, `n + 1` of them. -/
def spR (first n : BitVec 13) : SemPostF := { sp true 0 0 with rng := true, first := first, gcnt1 := n }

/-- SemaphorePosts: counts that end at 65,535 and at 65,536, a post to core 63, the last of the partition, and one to core 64. -/
theorem test_witness_SemaphorePosts :
    let s := upa (fun a => { a with sem := [(4, 65520)] })
    s.issues c0 ∧ (sp true 0 0).rng = false ∧ Sp.get 0 (s.core 0).cur.sem 4 + ((sp true 0 14).cnt1.toNat + 1) = 65535
      ∧ Sp.get 0 (s.core 0).cur.sem 4 + ((sp true 0 15).cnt1.toNat + 1) = 65536
      ∧ (s.cenv 0).part = some 0 ∧ (s.cenv 0).pidx = 0 ∧ (s.cenv 0).ncores = 64 ∧ (sp false 63 0).tcore.toNat < 64
      ∧ (s.core 0).run.ordinal < maxMsgs ∧ 64 ≤ (sp false 64 0).tcore.toNat
      ∧ (s.core 0).run.eq = [] ∧ (s.core 0).run.eHalt = false ∧ (s.core 0).run.lsUsed + 1 ≤ 64
      ∧ (spR 6143 0).first.toNat + ((spR 6143 0).gcnt1.toNat + 1) = 6144 ∧ (spR 6143 1).first.toNat + ((spR 6143 1).gcnt1.toNat + 1) = 6145
      ∧ mustWait (s.core 0).run.holds ((s.core 0).run.seq + 2) [] [.ls 6143 6144] = false := by
  unfold State.issues; decide +kernel

/-- A post whose range an unfinished fetch still writes. -/
theorem test_witness_SemaphorePosts_waits :
    let s := upr (fun r => { r with seq := 4, fq := [{ seq := 2, tag := 0, gath := false, tgt := 0, nent := 1, list := 0, lfirst := 6143,
                                                       lcnt := 1, wr := [.ls 6143 6144] }] })
    s.issues c0 ∧ (s.core 0).run.eq = [] ∧ (s.core 0).run.eHalt = false ∧ (s.core 0).run.lsUsed + 1 ≤ 64
      ∧ mustWait (s.core 0).run.holds ((s.core 0).run.seq + 2) [] [.ls 6143 6144] = true := by
  unfold State.issues; decide +kernel

theorem test_sempost_limit :
    let s := upa (fun a => { a with sem := [(4, 65520)] })
    (after (exec (.sempost c0 (sp true 0 14)) s)).map (fun k => (Sp.get 0 k.cur.sem 4, k.run.halt)) = some (65535, none)
      ∧ (after (exec (.sempost c0 (sp true 0 15)) s)).map (fun k => (Sp.get 0 k.cur.sem 4, k.run.halt)) = some (65535, some 0x46) := by
  decide +kernel

/-- A core of a partition whose page table of one page lies at tier-A address 0; its entry is `pte`. SR1 is 0x40, an address of page 0,
SR2 the first address of page 1. -/
def upPt (pte : List (Nat × Byte)) : State :=
  let s := upa (fun a => { a with sr := [(1, 0x40#64), (2, 0x200000#64)] })
  { s with tierA := pte, regs := [(oPt 0 2, 1#32)] }

theorem test_witness_FencesAndKeptRanges :
    let s := upPt [(0, 1)]
    s.issues c0 ∧ (s.core 0).run.entries = [] ∧ (s.core 0).run.fq = [] ∧ (s.core 0).run.eq = [] ∧ (6143#13).toNat + 1 ≤ 6144
      ∧ (∀ x ∈ (s.core 0).cur.kept, x.1 = 0 ∨ x.2.first + x.2.count ≤ 6143 ∨ 6143 + 1 ≤ x.2.first)
      ∧ ((s.core 0).cur.sreg 1).toNat / 2 ^ 21 < (s.cenv 0).ptLen ∧ bitOf (ptEntry (s.cenv 0) 0) 0 = true
      ∧ frameBad (ptEntry (s.cenv 0) 0) = false := by
  unfold State.issues; decide +kernel

/-- A one-block transfer into the last granule of the local store. -/
def xf : XferF := { dir := false, tgt := 0, add := false, hdr := false, nent1 := 0, list := 6143, lfirst := 6143, lcnt1 := 0 }
/-- A gather by the record at the last granule. -/
def gf : GathF := { dir := true, tgt := 1, gr := 6143, lfirst := 0, lcnt1 := 6143 }
/-- A core whose transfer header at granule 1 names a completion post to core `n` of the partition (R318). -/
def upFar (n : Nat) : Core := (upc (fun k => { k with st := { k.st with ls := putWords [] 32 [0, 1 + 2 * n] } })).core 0
/-- A queued transfer. -/
def xq (n : Nat) : Xfer := { seq := n, tag := 0, gath := false, tgt := 0, nent := 1, list := 0, lfirst := 6143, lcnt := 1 }

theorem test_witness_TransfersEnterTheirQueue :
    up.issues c0 ∧ (up.core 0).run.lsUsed + 3 ≤ 64
    ∧ xf.tgt ≠ 3#2 ∧ (xf.add = true → xf.dir = true ∧ xf.tgt ≠ 1#2) ∧ (xf.hdr = true ∨ xf.tgt = 0#2)
    ∧ (xf.dir = false ∧ (up.core 0).run.ordinal + 2 ≤ maxMsgs)
    ∧ 32 * xf.list.toNat + (if xf.hdr then 32 else 0) + 16 * (xf.nent1.toNat + 1) ≤ 196608 ∧ xf.lfirst.toNat + xf.lcnt1.toNat + 1 = 6144
    ∧ (up.cenv 0).logUsed = 0 ∧ (up.core 0).run.fq.length < 16 ∧ ({ xf with dir := true, add := true }).dir = true
    ∧ gf.tgt.toNat < 2 ∧ 32 * gf.gr.toNat + 32 = 196608
    ∧ 4 * (Memory.nat (up.core 0).st.ls (32 * gf.gr.toNat + 0x10) 4 % 65536)
        + 4 * Memory.nat (up.core 0).st.ls (32 * gf.gr.toNat + 0x14) 4 ≤ 196608 ∧ gf.lfirst.toNat + gf.lcnt1.toNat + 1 ≤ 6144
    ∧ (up.core 0).run.ordinal < maxMsgs ∧ (up.core 0).run.eq.length < 16
    ∧ ((upr (fun r => { r with fq := (List.range 15).map xq })).core 0).run.fq.length = 15 ∧ ({ xf with tgt := 3 }).tgt = 3#2
    ∧ (∀ n ∈ [0, 1], let w : Nat := Memory.nat (upFar n).st.ls 36 4
        (!bitOf (Memory.nat (upFar n).st.ls 32 4) 18 && bitOf w 0 && fld w 11 1 != up.pidx c0) = decide (n = 1)) := by
  unfold State.issues; decide +kernel

/-- A core whose fetch queue holds a transfer: not started; waiting for a walk of page `p`; halted; done but for its last step. -/
def upX (pte : List (Nat × Byte)) (x : Xfer) (halt : Bool) : State :=
  let s := upPt pte
  s.updCore 0 (fun k => { k with run := { k.run with fq := [x], fHalt := halt } })

theorem test_witness_TransferProgress :
    nextXfer ((upX [] (xq 2) false).xfers c0 false) = some (xq 2) ∧ (upX [] (xq 2) false).livePaced c0 = true
    ∧ (upX [] (xq 2) false).qHalt c0 false = false
    ∧ (xq 2).free ((upX [] (xq 2) false).core 0) = true ∧ (xq 2).post = none
    ∧ (let y : Xfer := { xq 2 with post := some { tcore := none, sem := 4, cnt := 1 } }
       nextXfer ((upX [] y false).xfers c0 false) = some y ∧ y.post.isSome = true ∧ y.free ((upX [] y false).core 0) = true)
    ∧ (∀ q ∈ [([], 1, 0), ([], 0, 0), ([], 0, 1), ([(0, 1)], 0, 0)],
        let x : Xfer := { xq 2 with walk := some q.2.1, open_ := q.2.2 }
        let s := upX q.1 x false
        (s.xfers c0 false)[0]? = some x ∧ s.xfer c0 false x.seq = some x ∧ s.livePaced c0 = true
          ∧ s.portUp false (s.pteAddr ((s.partOf c0).getD 0) q.2.1) = true ∧ x.dead = false ∧ x.halted = false)
    ∧ ((upX [] (xq 2) false).cenv 0).ptLen ≤ 1 ∧ 0 < ((upX [] (xq 2) false).cenv 0).ptLen
    ∧ bitOf (ptEntry ((upX [] (xq 2) false).cenv 0) 0) 0 = false ∧ bitOf (ptEntry ((upX [(0, 1)] (xq 2) false).cenv 0) 0) 0 = true
    ∧ frameBad (ptEntry ((upX [(0, 1)] (xq 2) false).cenv 0) 0) = false
    ∧ (upX [] { xq 2 with halted := true } true).slabAnswers 0 = true ∧ (upX [] { xq 2 with halted := true } true).qHalt c0 false = true
    ∧ ((upX [] (xq 2) false).core 0).run.late = []
    ∧ ((upX [] { xq 2 with started := true, allReq := true } false).xfers c0 false)[0]? = some { xq 2 with started := true, allReq := true }
    ∧ ({ xq 2 with started := true, hdr := true, head := [0#32, 0x803#32] }).posten = true
    ∧ fld (({ xq 2 with hdr := true, head := [0#32, 0x803#32] } : Xfer).h 1) 11 1 ≠ up.pidx c0 := by decide +kernel

/-- A granule in flight to granule 6143 of core 33, counted on counter 63. -/
def ms (k : MsgKind) : Msg := 
  { src := 0, seq := 2, region := 0, ordinal := 0, off := 0, part := 0, dst := 33, sp := 1, dp := 9, gran := 6143, kind := k }

theorem test_witness_MeshArrivals :
    let s := { up with mesh := [ms (.put 7#256 (some 63))] }
    let h := (s.updCore 33 (fun k => { k with cur := { k.cur with kept := [(0, { first := 6143, count := 1 })] } }))
    s.mesh[0]? = some (ms (.put 7#256 (some 63))) ∧ firstOf s.mesh 0 (·.sp) (·.dp) = true ∧ (s.core 33).run.late = []
      ∧ (h.core 33).run.late = [] ∧ s.coreAt 0 33 = some 33 ∧ s.takes 33 = true
      ∧ (s.mesh.take 0).all (fun x => x.src != 0 || x.seq != 2) = true ∧ inKept (s.core 33).cur.kept 6143 = false
      ∧ inKept (h.core 33).cur.kept 6143 = true ∧ (h.core 33).run.halt = none ∧ h.takes 33 = true ∧ h.coreAt 0 33 = some 33 := by
  decide +kernel

/-- A post of 2 to semaphore 4 of core 33 whose count is `v`; core 0 sent it. -/
def upPost (v : Nat) (seen : List MsgCount) : State :=
  let s := up.updCore 33 (fun k => { k with cur := { k.cur with sem := [(4, v)] }, st := { k.st with posts := seen } })
  { s with posts := [{ src := 0, tag := 0, region := 0, ordinal := 0, part := 0, dst := 33, sp := 1, dp := 9, sem := 4, cnt := 2 }] }

/-- An item of one granule for slot 1 of a ring of two at granule 6142. -/
def upItem : State :=
  let s := up.updCore 33 (fun k => { k with st := { k.st with qarr := [(2, 1)] } })
  let m : ItemMsg :=
    { src := 0, seq := none, region := 0, ordinal := 0, part := 0, dst := 33, sp := 1, dp := 9, dend := 2, idx := 1, ring := 6142, nitems := 2,
      bytes := List.replicate 32 1#8 }
  { s with items := [m] }

/-- A core whose vector engine waits for an inbound queue end that is empty, with a deadline that has passed. -/
def upQw : State :=
  let o : Opnd := { qend := some 0, item := 4, ring := 100, nitems := 2 }
  let h : Entry := { seq := 2, tag := 0, eng := .vec, instr := .vld c0 { vm0 with mode := 3, w1 := 0 }, deadline := 1, ops := [o], pops := [(0, 1)] }
  let s := upr (fun r => { r with entries := [h] })
  { s with aon := { s.aon with tb := 1 } }

theorem test_witness_PostAndItemArrivals :
    (∀ s ∈ [upPost 65533 [], upPost 65534 [], upPost 0 [{ src := 0, region := 0, ordinal := 0, counted := 1 }]],
      s.coreAt 0 33 = some 33 ∧ s.takes 33 = true ∧ (s.core 33).run.wait = none ∧ s.pcore 0 = some 0
        ∧ firstOf s.posts 0 (·.sp) (·.dp) = true ∧ (s.core 33).run.late = [])
    ∧ (∀ m ∈ upItem.items, upItem.itemBehind 0 m = false ∧ m.idx = Sp.get 0 (upItem.core 33).st.qarr m.dend)
    ∧ counted ((upPost 0 []).core 33).st.posts 0 0 0 = 0
    ∧ counted ((upPost 0 [{ src := 0, region := 0, ordinal := 0, counted := 1 }]).core 33).st.posts 0 0 0 ≠ 0
    ∧ upItem.coreAt 0 33 = some 33 ∧ upItem.takes 33 = true ∧ Sp.get 0 (upItem.core 33).st.qarr 2 = 1
    ∧ inKept (upItem.core 33).cur.kept 6143 = false
    ∧ (upQw.core 0).run.halt = none
    ∧ ((upQw.core 0).run.entries.find? (fun h => h.deadline ≠ 0 && upQw.due h.deadline && !h.dead
        && queueWaits (upQw.cenv 0) h (upQw.core 0))).isSome = true := by decide +kernel

/-! ### Streams, submissions and commit points -/

/-- A submission entry: address 0x1000, `len` bytes, `count` cores from core 0 with stride 1, vector 3 with IRQ, USERTAG 9. -/
def sub (len count : W32) : List W32 := [0x1000, 0, len, count <<< 16, 0x4301, 9, 0, 0]

/-- Ring 0 with one entry to read (size 16), and completion entries that wait. -/
def upRing (w : List (List Nat × Option Nat)) : State := { up with rings := [(0, { sqTail := 1, waiting := w })] }

/-- A stream bound to cores 0 and 1 that both have passed. -/
def subDone : Sub := { num := 0, part := 0, cores := [0, 1], vec := 3, irq := true, usertag := 9, passed := [0, 1] }

theorem test_witness_SubmissionsAndCompletions :
    up.answers = true ∧ up.boot.stActive = false ∧ up.pwr.ps = 0 ∧ (15#32).toNat % 65536 < 2 ^ (up.ring 0).sqSize
    ∧ ¬ (16#32).toNat % 65536 < 2 ^ (up.ring 0).sqSize
    ∧ (upRing []).running = true ∧ ((upRing []).ring 0).sqHead ≠ ((upRing []).ring 0).sqTail ∧ ((upRing []).ring 0).waiting = []
    ∧ (subEntry (sub 32 64)).refused ((upRing []).partEnt 0) = false ∧ (subEntry (sub 32 65)).refused ((upRing []).partEnt 0) = true
    ∧ (subEntry (sub 0 1)).refused ((upRing []).partEnt 0) = true ∧ up.cast.stopped.contains 0 = false
    ∧ ({ up with subs := [subDone] } : State).subs[0]? = some subDone ∧ subDone.stopped = false ∧ subDone.halted = []
    ∧ subDone.cores.all (subDone.passed.contains ·) = true ∧ (up.ring 0).waiting.length < 64
    ∧ ((upRing [([9, 0, 2], some 3)]).ring 0).waiting = [([9, 0, 2], some 3)]
    ∧ ((upRing [([9, 0, 2], some 3)]).ring 0).full = false ∧ 0 < ((upRing []).ring 0).cqSize := by decide +kernel

/-- A core with one stream on its list; one that runs it and waits for its second granule. -/
def upList : State :=
  let s := upr (fun r => { r with list := [{ sub := 0, addr := 0x1000, len := 64 }] })
  { s with subs := [{ num := 0, part := 0, cores := [0], vec := 0, irq := false, usertag := 9 }] }
def upFetch : State :=
  let s := upr (fun r => { r with run := some { sub := 0, addr := 0x1000, len := 64 }, fetch := some 32 })
  { s with
    subs := [{ num := 0, part := 0, cores := [0], vec := 0, irq := false, usertag := 9 }]
    hostReqs := [{ tag := 255, addr := 0x1020, sub := 0, off := 32, own := none }] }

theorem test_witness_StreamFetching :
    (upList.cores.map (·.1)).Nodup ∧ (upList.core 0).run.run = none ∧ (upList.core 0).run.list.length = 1 ∧ upList.live c0 = true
    ∧ (upList.core 0).run.held = false ∧ (upList.core 0).run.halt = none ∧ (upList.core 0).run.recov = 0 ∧ upList.switching c0 = false
    ∧ upList.hostReqs = [] ∧ upList.lost = []
    ∧ (upFetch.cores.map (·.1)).Nodup ∧ (upFetch.core 0).run.run.isSome = true ∧ (upFetch.core 0).run.fetch = some 32
    ∧ upFetch.hostReqs.find? (fun q => q.tag = BitVec.toNat (255#8)) = some { tag := 255, addr := 0x1020, sub := 0, off := 32, own := none }
    ∧ c0.val ∈ upFetch.waiters { tag := 255, addr := 0x1020, sub := 0, off := 32, own := none } ∧ upFetch.tagAnswered 255 = false
    ∧ (upList.subBuf 0).isSome = true ∧ (upList.subBuf 0).all (fun m => (m.find? (fun g => g.1 = 0)).isNone) = true
    ∧ upFetch.lost.contains .host = false ∧ (upFetch.core 0).run.halt = none
    ∧ upFetch.hostReqs.find? (fun q => q.tag = BitVec.toNat (0#8)) = none := by decide +kernel

/-- ADD SR3 := SR1 + SR2 alone in a long word with TAG 5 and COMMIT: header 0x00400141 (slot 0 present, TAG in [21:6], COMMIT bit 22),
slot word 0x000208C2 (OP 0x01 in [5:1], RD, RA and RB in [10:6], [15:11] and [20:16]). -/
def lwAdd : List Byte := [0x41, 0x01, 0x40, 0x00, 0xC2, 0x08, 0x02, 0x00]

/-- A core that runs a stream and holds bytes `b` of it. -/
def upIq (b : List Byte) : State := upr (fun r => { r with run := some { sub := 0, addr := 0, len := 64 }, iq := b })

/-- The last long word is a fault: a header with bit 24 set (R300: 0x4E). -/
theorem test_witness_LongWordsIssueWhole :
    (upIq lwAdd).live c0 = true ∧ issueHeld ((upIq lwAdd).core 0) = false ∧ ((upIq lwAdd).core 0).run.run.isSome = true
    ∧ decodeLongWord false c0 ((upIq lwAdd).core 0).run.iq
        = .word { tag := 5, commit := true, stop := false, slots := [.add c0 3 1 2], size := 8 }
    ∧ ((upIq lwAdd).core 0).run.lsUsed ≤ 64 ∧ (upIq lwAdd).livePaced c0 = true ∧ ((upIq lwAdd).core 0).run.late = []
    ∧ ((upIq lwAdd).core 0).run.marks = []
    ∧ decodeLongWord false c0 ((upIq [0x40, 0x01, 0x00, 0x01]).core 0).run.iq = .fault 0x4E 5 := by decide +kernel

/-- A core whose commit mark waits for nothing, or for an instruction of its carry engine. -/
def upMark (es : List Entry) (stop : Bool) : State :=
  upr (fun r => { r with run := some { sub := 0, addr := 0, len := 64 }, entries := es, marks := [⟨5, stop, 8⟩] })

theorem test_witness_CommitPoints :
    let m : Mark := { seq := 5, stop := true, next := 8 }
    let e : Entry := { seq := 5, tag := 0, eng := .carry, instr := .creset c0 0 }
    (upMark [] true).live c0 = true ∧ ((upMark [] true).core 0).run.marks = m :: [] ∧ ((upMark [] true).core 0).run.batchA = none
    ∧ ((upMark [] true).core 0).run.batchB = none ∧ ((upMark [] true).core 0).run.late = []
    ∧ ((upMark [] true).core 0).run.wait = none ∧ allDone ((upMark [] true).core 0).run 5 = true
    ∧ (∀ d ∈ (upMark [] true).dlog, d.core ≠ 0) ∧ (upMark [] true).subst = none ∧ ((upMark [] true).core 0).run.wrote = []
    ∧ ((upMark [] true).core 0).cur.qpop = []
    ∧ (((upMark [] true).core 0).cur.region + 1) % 2 ^ 48 ≠ ((upMark [] true).core 0).cur.region
    ∧ allDone ((upMark [e] true).core 0).run 5 = false ∧ ((upMark [e] true).core 0).run.marks = m :: [] := by decide +kernel

/-- `upCar` with entry 0 as `e`, and more of the stream controller. -/
def upStr (e : StrEnt) (f : StrCtl → StrCtl) : State :=
  { upCar with str := f { upCar.str with ents := [(0, e)], score := [(0, e.res), (1, e.res)] } }
/-- CRESET of stream 5 alone in a long word: OP 0x17 in [5:1], id in [21:6]. -/
def lwReset : List Byte := [0x10, 0x00, 0x00, 0x00, 0x6E, 0x01, 0x00, 0x00]
def strIn : StrEnt := { id := 5, res := .resident, valid := true, slot := some 1 }
def strOut : StrEnt := { id := 5, valid := true }

theorem test_witness_StreamTable :
    let s := (upStr strIn id).updCore 0 (fun k => { k with run := { k.run with
      qadm := []
      pre := lwReset
      run := some { sub := 0, addr := 0, len := 64 } } })
    ((s.partOf c0).bind s.geo).map (fun g => (g.idFirst, g.idLast)) = some (4, 7) ∧ s.live c0 = true ∧ s.entOf 5 = some 0
    ∧ s.entLocked 0 = false ∧ s.multicast c0 5 ≠ []
    ∧ (let t : State := { s with str := { s.str with swaps := [{ ent := 0, inn := true, phase := 2 }] } }
       t.entLocked 0 = true ∧ t.multicast c0 5 ≠ [] ∧ t.strReady { inn := true, n := 5 } = false)
    ∧ (let t : State := { s with str := { s.str with ents := [] } }
       t.entOf 5 = none ∧ ((t.partOf c0).bind t.geo).bind t.takeEnt = some 0 ∧ t.multicast c0 5 ≠ [])
    ∧ (let t : State := { s with str := { s.str with ents := (List.range 4).map (fun i => (i, { strIn with id := 100 + i, qcount := 1 })) } }
       t.entOf 5 = none ∧ ((t.partOf c0).bind t.geo).bind t.takeEnt = none ∧ t.multicast c0 5 ≠ [])
    ∧ s.strReady { inn := true, n := 8 } = true ∧ s.str.waits = []
    ∧ ((upStr strIn id).updCore 0 (fun k => { k with run := { k.run with qdec := [5] } })).running = true
    ∧ (((upStr strIn id).updCore 0 (fun k => { k with run := { k.run with qdec := [5] } })).core 0).run.qdec.contains 5 = true
    ∧ (upStr strOut id).answers = true ∧ ((upStr strOut id).ent 0).valid = true ∧ ((upStr strOut id).ent 0).res ≠ .resident
    ∧ ((upStr { strIn with qcount := 1 } id).ent 0).qcount ≠ 0 ∧ (upStr strIn id).dirty 0 5 = false
    ∧ ((upStr strIn id).updCore 63 (fun k => { k with run := { k.run with wrote := [5] } })).dirty 0 5 = true
    ∧ (∀ b ∈ flagsOf (upStr strIn id) 0 5, b = false)
    ∧ (upStr strIn id).geoOfId 8 = none ∧ ((upStr strOut id).geoOfId 5).isSome = true ∧ (upStr strOut id).entOf 5 = some 0
    ∧ ((upStr strOut id).geoOfId 5).map (upStr strOut id).freeSlots = some [0, 1]
    ∧ ((upStr strOut (fun c => { c with miss := [5] })).startable 5).isSome = true
    ∧ (∀ ph ∈ [0, 1, 2], (upStr strIn (fun c => { c with swaps := [{ ent := 0, inn := true, phase := ph }] })).str.swaps.find?
        (fun w => w.ent = (0#12).toNat) = some { ent := 0, inn := true, phase := ph }) := by decide +kernel

theorem test_witness_StreamTable_waits :
    let s : State := (upStr strOut id).updCore 0 (fun k => { k with run := { k.run with resSince := some 0, iq := lwReset } })
    let t : State := { s with aon := { s.aon with tb := 1000 } }
    (t.core 0).run.resSince = some 0 ∧ t.waitsRes c0 = true ∧ ((t.partOf c0).bind t.geo).map (·.reswait) = some 10 ∧ (t.core 0).run.halt = none
    ∧ t.due (0 + t.us 10) = true ∧ ({ t with aon := { t.aon with tb := 999 } } : State).due (0 + t.us 10) = false
    ∧ (let d : LogEnt := { core := 0, acked := true, dest := .mem false 0 0 0, data := 0 }
       ((({ up with dlog := [d] } : State).dlog.zipIdx).filter (fun d => d.1.core / 32 = (0 : SlabNo).val))[0]? = some (d, 0)) := by
  decide +kernel

/-- A swap of entry 0 whose memory accesses are under way; the directory record of stream 5 at tier-A address 160 holds `rec5`. -/
def upSwap (inn : Bool) (rec5 : Memory) : State :=
  let s := upStr { strIn with res := if inn then .swappingIn else .swappingOut } (fun c => { c with swaps := [{ ent := 0, inn := inn, phase := 1 }] })
  { s with tierA := rec5 }

theorem test_witness_Swaps :
    (∀ b ∈ [true, false], (upSwap b []).running = true
      ∧ ((upSwap b []).geo ((upSwap b []).ent 0).part).map ((upSwap b []).swapUp 0 b) = some true
      ∧ (upSwap b []).str.swaps.find? (fun w => w.ent = (0#12).toNat && w.phase = 1) = some { ent := 0, inn := b, phase := 1 }
      ∧ ((upSwap b []).geo ((upSwap b []).ent 0).part).isSome = true)
    ∧ bitOf (Memory.nat (upSwap true []).tierA ((upSwap true []).dirAddr 5) 4) 20 = false
    ∧ bitOf (Memory.nat (upSwap true [(162, 0x10)]).tierA 160 4) 20 = true ∧ (upSwap true []).dirAddr 5 = 160
    ∧ Memory.nat [(162, 0x10)] (160 + 4 * 4) 4 = 0 ∧ Memory.nat [(162, 0x10), (176, 1)] (160 + 4 * 4) 4 = 1
    ∧ Memory.nat [(162, 0x10), (176, 1)] ((upSwap true []).coresOf 0).length 32 % 2 ^ 32 ≠ 1 := by decide +kernel

/-! ### Memory ports, control space, castings -/

/-- A read of a transfer of core 0, outstanding on port 0 of tier A with id 255 since timebase 0. -/
def rq (e : Bool) : MemReq :=
  { tierB := false, addr := 0, op := .read, slot := toSlot 7#256, lgran := 6143, owner := .xfer 0 false 2, serial := 1, id := some 255, expired := e }

def upMem (e : Bool) : State :=
  let s := upr (fun r => { r with fq := [{ xq 2 with started := true, allReq := true, open_ := 1 }] })
  { s with memq := [rq e], regs := [(oMpCfg 2, 10#32)], aon := { s.aon with tb := 1000 } }

theorem test_witness_MemoryPortAnswers :
    up.reqOf false (0#4).toNat (255#8).toNat = none ∧ (upMem false).reqOf false (0#4).toNat (255#8).toNat = some (rq false)
    ∧ ({ upMem false with lost := [.memA 0] } : State).lost.contains (memPort false (0#4).toNat) = true
    ∧ (upMem false).lost.contains (memPort false (0#4).toNat) = false ∧ (∀ x ∈ (upMem false).memq, x.id.isSome = true)
    ∧ (upMem true).reqOf false (0#4).toNat (255#8).toNat = some (rq true) ∧ (rq true).expired = true
    ∧ (upMem false).idAnswered false 0 255 = false ∧ (upMem false).answerHeld (rq false) = false ∧ (rq false).slot.good = true
    ∧ ({ rq false with slot := (rq false).slot ^^^ 1 } : MemReq).slot.good = false
    ∧ ({ upMem false with strand := [.mem false 0 255 false] } : State).idAnswered false 0 255 = true
    ∧ ((upMem false).xfer 0 false 2).map (·.stop) = some none ∧ ((upMem false).core 0).run.halt = none ∧ (upMem false).slabFaulty 0 = false
    ∧ (upMem false).regN (oMpCfg 2) % 65536 = 10 ∧ (upMem false).due (0 + (upMem false).us 10) = true
    ∧ up.regN (oMpCfg 2) % 65536 = 100
    ∧ ({ upMem false with aon := { up.aon with tb := 999 } } : State).due (0 + (upMem false).us 10) = false
    ∧ up.boot.cold = false ∧ up.lost.contains (.frame 11) = false ∧ up.portOn (.frame 11) = true
    ∧ ({ up with lost := [.frame 11] } : State).lost.contains (.frame 11) = true := by decide +kernel

/-- A host request of `n` bytes at target address `a`. -/
def tq (wr : Bool) (a : BitVec 46) (n : BitVec 7) : TReq := { tag := 1, wr := wr, ta := a, len := n, be := 0xF, data := 5 }

theorem test_witness_ControlSpaceAccesses :
    up.answers = true ∧ up.treqs = [] ∧ up.tap = none ∧ up.lost.contains .host = false
    ∧ targetOf (tq false 0xFFFFFFC 4).ta.toNat = .control 0xFFFFFFC ∧ 0xFFFFFFC % 4 = 0 ∧ targetOf (tq false 0xFFFFFF8 8).ta.toNat = .control 0xFFFFFF8
    ∧ 0xFFFFFF8 % 8 = 0 ∧ wholeReq (tq true 0x100 4) = true ∧ 0x102 % (tq false 0x102 4).len.toNat ≠ 0
    ∧ (tq false 0 64).len.toNat ≠ 8 ∧ targetOf (tq false 0x10000000 4).ta.toNat = .outside ∧ targetOf (tq false 0xFFFFFFFFFF 4).ta.toNat = .outside
    ∧ targetOf (tq false 0x10000000000 4).ta.toNat = .aperture false 0 ∧ targetOf (tq false 0x3FFFFFFFFFFF 4).ta.toNat = .aperture true (2 ^ 45 - 1)
    ∧ ({ up with boot := { up.boot with ea := false } } : State).tierOn false = false
    ∧ oCastLen % 4 = 0 ∧ oCastSrc 1 % 4 = 0 ∧ oCastStg % 4 = 0 ∧ oDriftTh % 4 = 0 ∧ (1 : Nat) % 4 ≠ 0
    ∧ up.ptinv.all up.ptinvClear = true
    ∧ ({ upMem false with ptinv := [{ part := 0, page := none, upto := 2 }] } : State).ptinv.all
        ({ upMem false with ptinv := [{ part := 0, page := none, upto := 2 }] } : State).ptinvClear = false := by decide +kernel

/-- The clause about an aligned write: the register at 0x100 or any other, its write being a next state. -/
theorem test_witness_ControlSpaceAccesses_write :
    targetOf (tq true 0x100 4).ta.toNat = .control 0x100
      ∧ (match up.ctrlWrite .host 0x100 ((tq true 0x100 4).data.extractLsb' 0 32) with | .next _ => true | _ => false) = true := by
  decide +kernel

/-- An image of the plating kind that claims nothing, for partition 0. -/
def plImg (scope : Nat) : Image := { kind := 2, id := 2, scope := scope }

/-- `up` with a casting command in progress, a plating in slot 0, and slot `k - 1` active on partition 0 (`k` 0: none). -/
def upCast (b : Option CastOp) (k : Nat) : State :=
  { up with cast := { up.cast with busy := b, slots := [(0, some (plImg 1))], act := if k = 0 then [] else [(0, k)] } }

/-- The clauses of CastingsAndPlatings: idle and busy; refused images (an empty one: 0x51); slots loaded, active, free; a switch whose
cores are quiet and one whose core 0 runs. -/
theorem test_witness_CastingsAndPlatings :
    up.answers = true ∧ up.anyBound = false ∧ upFetch.anyBound = true ∧ up.cast.sw.isSome = false ∧ up.cast.busy.isSome = false
    ∧ up.boot.stActive = false
    ∧ (upCast (some .casting) 0).lost = [] ∧ (upCast (some .casting) 0).cast.busy = some .casting ∧ (List.nil : List Byte).length = (upCast (some .casting) 0).regN oCastLen
    ∧ (upCast (some .casting) 0).refusal 1 [] (parseImage []) = some (0x51, 0xFF)
    ∧ (upCast (some (.plating 7)) 0).cast.busy = some (.plating 7)
    ∧ (upCast (some (.plating 7)) 0).refusal 2 [] (parseImage []) = some (0x51, 0xFF)
    ∧ (upCast none 0).slotActive 0 = false ∧ (upCast none 1).slotActive 0 = true ∧ (upCast none 1).cast.busy = none
    ∧ Sp.get none (upCast none 0).cast.slots 0 = some (plImg 1) ∧ (upCast none 0).crosses 1 = false
    ∧ (upCast none 0).claimed (plImg 1) = false ∧ Sp.get none (upCast none 0).cast.slots 7 = none
    ∧ (let o : OwnEnt := { cls := 0, owner := 1, first := 3, count := 1 }
       let p : Image := { plImg 2 with claims := [o] }
       let s : State := { up with cast := { up.cast with slots := [(0, some p), (1, some { p with scope := 1 })], act := [(1, 1)] } }
       s.crosses 1 = false ∧ s.claimed { p with scope := 1 } = true ∧ Sp.get none s.cast.slots 1 = some { p with scope := 1 })
    ∧ (let s : State := { up with cast := { up.cast with sw := some (some 0, 1) } }
       ((List.range 8).filter (fun p => (1 : Nat).testBit p)).all (fun p => (s.coresOf p).all s.quiet) = true)
    ∧ (let s : State := { upFetch with cast := { up.cast with sw := some (none, 1) } }
       ((List.range 8).filter (fun p => (1 : Nat).testBit p)).all (fun p => (s.coresOf p).all s.quiet) = false) := by decide +kernel

/-! ### Faults, recovery, substitution -/

/-- Core 0 in recovery, having lost granule 5 of its store, into which another core wrote if `landed`; semaphore 4 accepted `n` posts. -/
def upRec (landed : Bool) (n : Nat) : State :=
  upc (fun k => { k with run := { k.run with recov := 1, failed := [5] },
                         st := { k.st with landing := if landed then [5] else [], semSince := [(4, n)] } })

theorem test_witness_GuardFailuresAndRecovery :
    up.boot.init = false ∧ up.boot.cold = false ∧ up.spareFault (c0.val / 32) = none ∧ (up.core 0).run.halt = none
    ∧ up.slabFaulty (c0.val / 32) = false
    ∧ (up.updCore 31 (fun k => { k with run := { k.run with recov := 3 } })).slabFaulty (c0.val / 32) = true
    ∧ ((upr (fun r => { r with halt := some 0x46 })).core 0).run.halt = some 0x46
    ∧ (let s : State := { up with mesh := [ms (.get 5)] }
       let t := s.updCore 33 (fun k => { k with rp := { k.rp with kept := [(0, { first := 6143, count := 1 })] } })
       ∀ x ∈ [(s, false), (t, true)], let u := x.1
         u.mesh[0]? = some (ms (.get 5)) ∧ u.pcore (ms (.get 5)).src = some c0.val ∧ u.coreAt 0 33 = some 33
         ∧ (u.core 0).run.halt = none ∧ u.spareFault (c0.val / 32) = none ∧ u.slabFaulty (c0.val / 32) = false
         ∧ inKept (u.core 33).rp.kept (ms (.get 5)).gran = x.2)
    ∧ up.draining c0 = false ∧ ({ up with posts := (upPost 0 []).posts } : State).draining c0 = true
    ∧ (∀ s ∈ [upRec false 1, upRec true 1, upRec false 65536], s.live c0 = true ∧ (s.core 0).run.recov = 1 ∧ (s.core 0).run.halt = none
        ∧ s.draining c0 = false)
    ∧ lostGranule ((upRec false 1).core 0) = none ∧ (restored ((upRec false 1).core 0)).2 = false
    ∧ (lostGranule ((upRec true 1).core 0)).isSome = true ∧ (restored ((upRec false 65536).core 0)).2 = true
    ∧ inKept ((upRec false 1).core 0).rp.kept 5 = false
    ∧ (let s : State := { up with mgmt := { up.mgmt with run := true, imgLen := 64 } }
       s.mgmt.run = true ∧ 32 * (1#15).toNat < s.mgmt.imgLen ∧ s.mgmt.imgLen ≤ 32 * (2#15).toNat)
    ∧ (∀ n ∈ [0, 1], let s : State := { up with temper := { up.temper with busy := true, unit := 67, faults := n } }
        s.temper.busy = true ∧ s.temper.unit < 68 ∧ (s.temper.faults = 0 ↔ n = 0)) := by decide +kernel

/-- A fault queue with `n` entries and one record offered. -/
def fr (act : Nat) (esc : Bool) : FRec := { code := 0x22, act := act, esc := esc, info0 := some 0, info1 := some 0 }
def upFq (n act : Nat) (esc : Bool) : State := { up with fq := { head := 511, count := n, offered := [fr act esc] } }

theorem test_witness_FaultQueueOrder :
    (∀ n ∈ [511, 512], ∀ a ∈ [0, 1], ∀ e ∈ [true, false], (upFq n a e).fq.offered[0]? = some (fr a e))
    ∧ (upFq 511 0 false).fq.count < 512 ∧ 512 ≤ (upFq 512 0 false).fq.count
    ∧ (upFq 511 0 false).answers = true ∧ (upFq 511 0 false).fq.head < 512 ∧ 511 ≤ (upFq 511 0 false).fq.count
    ∧ (510#32).toNat % 512 = ((upFq 511 0 false).fq.head + 511) % 512 := by decide +kernel

/-- Slab 0's substitution by slab 2, moved or not, failed or not. -/
def so (moved failed : Bool) : SubstOp := { migrate := false, logical := 0, old := 0, spare := 2, moved := moved, failed := failed }

theorem test_witness_SubstitutionAndSpine :
    up.answers = true ∧ up.subst = none ∧ up.phys (0#6).toNat = some 0 ∧ (2#7).toNat < 68 ∧ (up.role (2#7).toNat).st = .spare
    ∧ up.fabric.contains 0 = false ∧ upFetch.allHeld 0 = false ∧ upFetch.subst = none ∧ upFetch.phys (0#6).toNat = some 0
    ∧ (upFetch.role (2#7).toNat).st = .spare ∧ up.allHeld 0 = true ∧ up.phys (63#6).toNat = none
    ∧ ({ up with subst := some (so false false) } : State).subst = some (so false false) ∧ (so false false).failed = false
    ∧ (so true false).moved = true ∧ ({ up with subst := some (so true false) } : State).running = true ∧ (so true false).old ≠ (so true false).spare
    ∧ up.credits = [] ∧ up.strand = []
    ∧ noReplay {} 0x29 = true ∧ noReplay ((upr (fun r => { r with halt := some 0x2A })).core 0).run 0x2A = false
    ∧ ((upr (fun r => { r with halt := some 0x2A })).core 0).run.halt = some 0x2A
    ∧ lostGranule ((upr (fun r => { r with halt := some 0x2A })).core 0) = none
    ∧ (restored ((upr (fun r => { r with halt := some 0x2A })).core 0)).2 = false := by decide +kernel

/-! ### Power, ageing, the always-on domain -/

/-- A sensor source that reads `v` quarter degrees. -/
def sen (v : W16) : Sensor := { val := v, seen := true }

/-- Source 0 reads `v`; the block is quenched, or cool since timebase 0 at timebase `tb`. -/
def upT (v : W16) (q cool : Bool) (tb : Nat) : State :=
  { up with
    aon := { up.aon with sens := [(0, sen v)], tb := tb }
    pwr := { up.pwr with quench := q, cool := cool, coolSince := some 0 } }

/-- The OTP default limits: VMAX 600 and TTRIP 85 (340 quarter degrees). -/
theorem test_witness_PowerPaceAndHeat :
    up.boot.init = false ∧ up.boot.cold = false ∧ up.boot.blk = false ∧ up.pwr.ps = 0 ∧ up.pwr.quench = false
    ∧ (upT 0 true false 0).pwr.quench = true ∧ up.vmaxEff = 600 ∧ (601#32).toNat % 1024 = 601 ∧ up.ceilTop = 200
    ∧ (let s : State := { up with aon := { up.aon with tb := 100 } }
       s.paceDue (s.pwr.winAt + s.us 1) = true ∧ s.paceDue (s.pwr.chkAt + s.ns 125) = true)
    ∧ up.paceDue (up.pwr.chkAt + up.ns 125) = false ∧ up.paceDue (up.pwr.winAt + up.us 1) = false
    ∧ up.aon.refLost = false ∧ ({ up with aon := { up.aon with refLost := true } } : State).aon.refLost = true
    ∧ up.pwr.ceilWin = 200 ∧ up.pwr.level ≤ 15 ∧ (8#4).toNat ≤ 8 ∧ 8 < (9#4).toNat
    ∧ ((upT 0 false false 100000).sensor (0#4).toNat).seen = true ∧ ((upT 0 false false 100000).sensor (0#4).toNat).stale = false
    ∧ (upT 0 false false 100000).due (0 + (upT 0 false false 100000).us 1000) = true
    ∧ (upT 0 false false 99999).due (0 + (upT 0 false false 99999).us 1000) = false
    ∧ (upT 340 false false 0).hottest = some 340 ∧ 4 * (up.otp.sh.ttrip : Int) = 340
    ∧ (upT 300 true false 1000000).pwr.coolSince = some 0 ∧ (upT 300 true false 1000000).coolNow = true
    ∧ (upT 301 true false 1000000).coolNow = false
    ∧ (upT 300 true false 1000000).due (0 + (upT 300 true false 1000000).us 10000) = true ∧ (upT 300 true true 0).pwr.cool = true := by
  decide +kernel

/-- A temper search that runs for unit `u`, or has found margins for it. -/
def upTm (u : Nat) (busy : Bool) : State := { up with temper := { up.temper with busy := busy, unit := u, ready := !busy, newOff := 3, newFloor := 600 } }
/-- `up` once a casting load has begun. -/
def upL : State := { up with boot := { up.boot with castBegun := true } }

theorem test_witness_AgeingAndTempering :
    up.answers = true ∧ up.slabAnswers 0 = true ∧ (67#7).toNat = (67 : UnitNo).val ∧ (71#7).toNat = (71 : UnitNo).val
    ∧ (upTm 2 true).temper.busy = true ∧ (upTm 2 true).slabAnswers 2 = true ∧ (upTm 71 true).temper.unit = (71 : UnitNo).val
    ∧ up.mayShorten 0 = true ∧ upL.mayShorten 0 = false ∧ (upL.age 0).offset = 31 ∧ (upL.age 0).floor = 600
    ∧ up.otp.sh.base = none ∧ (let s : State := { up with otp := { up.otp with sh := { up.otp.sh with tapBase := [0], tapmin := 0 } },
                                                           aon := { up.aon with tb := 100000 },
                                                           ages := [(0, { offset := 30, auto := 2 })] }
                              s.codeFull 0 = false ∧ (s.age 0).told = false ∧ 2 ≤ (s.age 0).auto
                                ∧ s.due ((s.age 0).meas + s.us 1000) = true)
    ∧ up.due ((up.age 0).meas + up.us 1000) = false ∧ (upTm 2 true).pwr.trans = false
    ∧ ({ upTm 2 true with pwr := { up.pwr with trans := true } } : State).pwr.trans = true
    ∧ (up.role 2).st = .spare ∧ (up.role 0).st ≠ .spare ∧ (up.role 0).st ≠ .tempering
    ∧ (600 + 5 * cdiv (Int.toNat 0) 10 ≤ up.otp.sh.vfloorMax)
    ∧ (let s : State := { upTm 2 true with ages := [(2, { drift := 1 })] }
       s.otp.sh.vfloorMax < s.otp.sh.vfloor0 + 5 * cdiv (s.age 2).drift.toNat 10)
    ∧ (upTm 2 false).temper.ready = true ∧ (upTm 2 false).temper.result = 0 ∧ (upTm 71 false).temper.unit = 71
    ∧ (upTm 71 false).temper.newOff < ((upTm 71 false).age 71).offset
    ∧ (({ upTm 71 false with ages := [(71, { offset := 3 })] } : State).age 71).offset ≤ (upTm 71 false).temper.newOff
    ∧ up.temper.ready = false := by decide +kernel

/-- Comparator `k` owned by `o`, armed at 0, waking and interrupting, in a block whose power state is `ps`. -/
def upDl (o ps : Nat) (arm : Bool) : State :=
  { up with aon := { up.aon with dl := [(15, { arm := arm, wake := true, irq := true, owner := o, vec := 7 })],
                                 sc := [(3, { arm := arm, wake := true, irq := true, owner := o, vec := 7, thresh := 10 })],
                                 sens := [(8, sen 10)] },
            pwr := { up.pwr with ps := ps } }

/-- `s` whose casting gives comparator 15 to partition 0. -/
def upTimer (s : State) : State :=
  { s with
    cast := { s.cast with img := { s.cast.img with timers := [(0, 15)] } }
    aon := { s.aon with dl := [(15, { owner := 0 })] } }

theorem test_witness_AlwaysOnDomain :
    up.answers = true ∧ owns .host ((upDl 9 0 true).dl 15).owner = true ∧ owns .mgmt ((upDl 9 0 true).dl 15).owner = false
    ∧ owns .mgmt ((upDl 8 0 true).dl 15).owner = true ∧ (upDl 8 1 true).answers = true
    ∧ ((upDl 8 1 true).dlNow 15).arm = true ∧ (upDl 8 1 true).due ((upDl 8 1 true).dlNow 15).cmp = true
    ∧ up.cast.img.timers.contains ((up.dl 15).owner, 15) = false
    ∧ (let s := upTimer (upr id)
       s.cast.loaded = true ∧ s.cast.img.timers.contains ((s.dl 15).owner, 15) = true ∧ s.waitTimes 0 = [])
    ∧ (let s := upTimer (upWait (.sema 4 1 (some 7)))
       s.cast.loaded = true ∧ s.cast.img.timers.contains ((s.dl 15).owner, 15) = true ∧ s.waitTimes (s.dl 15).owner = [7])
    ∧ ((upDl 8 1 true).dl 15).irq = true ∧ ((upDl 8 1 true).dl 15).wake = true ∧ (upDl 8 1 true).pwr.ps ≠ 0
    ∧ ((upDl 8 0 false).dlNow 15).arm = false ∧ (up.dl 15).irq = false
    ∧ (upDl 8 1 true).scReading 3 = some 10 ∧ ((upDl 8 1 true).sc 3).arm = true ∧ ((upDl 8 1 true).sc 3).hit 10 = true
    ∧ ((upDl 8 1 true).sc 3).hit 9 = false
    ∧ (let s : State := { up with aon := { up.aon with vOut := some 0, tb := 1000 } }
       s.aon.vOut = some 0 ∧ s.aon.venv = false ∧ s.pwr.on = true ∧ s.pwr.trans = false ∧ s.due (0 + s.us 10) = true)
    ∧ up.aon.refLost = false := by decide +kernel

/-! ### Power states, resets, the management core -/

def upPs (ps target : Nat) (st : PsStep) (wake : Bool) : State :=
  { up with pwr := { up.pwr with ps := ps, target := target, step := st }, aon := { up.aon with wakeReq := wake, linkWake := wake } }

theorem test_witness_PowerStates :
    up.boot.cold = false ∧ up.boot.blk = false ∧ up.boot.init = false ∧ up.pwr.ps < 2 ∧ up.pwr.step = .none_
    ∧ (upT 0 true false 0).pwr.quench = true ∧ upFetch.busyWork = true ∧ up.pwr.quench = false ∧ up.busyWork = false ∧ up.busyDeep = false
    ∧ (upTm 2 true).busyDeep = true ∧ (upTm 2 true).busyWork = false
    ∧ (upPs 0 3 .entering false).pending = [] ∧ (upPs 0 3 .entering false).treqs = [] ∧ (upPs 0 3 .entering false).pwr.step = .entering
    ∧ (upPs 0 3 .entering false).otp.pgm = none ∧ (upPs 0 3 .entering false).memq = []
    ∧ (upPs 2 2 (.offWait false) false).pwr.step = .offWait false ∧ 2 ≤ (upPs 2 2 .off true).pwr.ps
    ∧ (upPs 2 2 .off true).aon.linkWake = true ∧ (upPs 2 2 .off true).aon.wakeReq = true ∧ (upPs 2 2 .off true).pwr.step = .off
    ∧ (upPs 2 2 .off true).pwr.target = 2 ∧ (upPs 3 3 .off true).pwr.target = 3 ∧ up.aon.wakeReq = false ∧ up.aon.linkWake = false
    ∧ (upPs 1 0 .none_ true).pwr.ps = 1 ∧ (upPs 1 0 .none_ true).pwr.quench = false ∧ (upPs 2 2 .waking false).pwr.step = .waking
    ∧ (upPs 3 3 .waking false).pwr.ps = 3 := by decide +kernel

/-- Right after reset, with generation `arr` in the OTP array. -/
def rst (arr : Memory) : State := { State.reset with v64 := false, otp := { arr := arr } }

/-- Every source has reported. -/
def upInit (n : Nat) : State :=
  let sens : Sp Sensor := (List.range n).map (fun k => (k, sen 100))
  { up with boot := { up.boot with init := true, initRun := true, cause := 3 }, aon := { up.aon with sens := sens, vecEn := true, vec := 5 } }

/-- A generation of the RATING field (3) being programmed. -/
def pg : Pgm := { field := 3, gen := 3, data := List.replicate 48 1#8 }

theorem test_witness_ResetsAndOtp :
    up.boot.cold = false ∧ up.otp.pgm = none ∧ (rst []).boot.cold = true ∧ (rst []).boot.vaon = true
    ∧ ({ rst [] with boot := { (rst []).boot with vaon := false } } : State).boot.vaon = false
    ∧ (let s : State := { up with boot := { up.boot with blk := true }, otp := { up.otp with loaded := true } }
       s.boot.blk = true ∧ s.boot.pgood = true ∧ s.boot.cold = false ∧ s.otp.loaded = true ∧ s.pwr.ps < 2)
    ∧ (rst []).boot.blk = true ∧ (rst []).boot.pgood = false
    ∧ (upInit 9).boot.initRun = true ∧ (upInit 9).boot.init = true ∧ (upInit 9).boot.blk = false ∧ (upInit 9).boot.cold = false
    ∧ (∀ k, k < 9 → ((upInit 9).sensor k).seen = true) ∧ ((upInit 8).sensor 8).seen = false
    ∧ up.answers = true ∧ otpNext [] 4 = some 0 ∧ otpNext [(0x160 + 3 * 148, 1)] 4 = none
    ∧ otpLocked [] = false ∧ up.otp.testmode = false ∧ ({ up with otp := { up.otp with testmode := true } } : State).otp.testmode = true
    ∧ otpNext [] 6 = some 0 ∧ up.boot.vaon = true ∧ ({ up with otp := { up.otp with pgm := some pg } } : State).otp.pgm = some pg ∧ pg.field ≤ 6
    ∧ pg.data.length = otpLen pg.field
    ∧ (∀ i, i < otpSize pg.field → Memory.byte up.otp.arr (otpBase pg.field + pg.gen * otpSize pg.field + i) = 0#8) := by decide +kernel

/-- A firmware image of its 64-byte header alone, ENTRY 0. -/
def fwImg : List Byte := [0xA0, 0xF1, 0x5E, 0x0A, 0, 0, 0, 0, 64, 0, 0, 0] ++ List.replicate 52 0#8

/-- The management core runs; one escalation, of SEQ 7, is unacknowledged. -/
def upMg (busy updating : Bool) : State := { up with mgmt := { up.mgmt with run := true, cmdBusy := busy, updating := updating, unack := [7] } }

theorem test_witness_ManagementCore :
    up.answers = true ∧ (upMg true false).mgmt.cmdBusy = true ∧ up.mgmt.cmdBusy = false ∧ up.mgmt.run = false
    ∧ (upMg false true).mgmt.updating = true ∧ (upMg false false).mgmt.run = true ∧ (upMg false false).mgmt.unack.contains 7 = true
    ∧ (2047#32).toNat / 2 ^ 11 = 0 ∧ up.phys ((65#32).toNat % 64) = some 1 ∧ (up.core (32 * 1 + (65#32).toNat / 64)).run.halt = none
    ∧ ((up.updCore 33 (fun k => { k with run := { k.run with halt := some 0x46 } })).core (32 * 1 + (65#32).toNat / 64)).run.halt.isSome = true
    ∧ up.mgmt.load = none ∧ fwImageOk [] = false
    ∧ fwImageOk (fwImg.take ((up.setRegN oLoadLen 64).regN oLoadLen)) = true
    ∧ ({ up with mgmt := { up.mgmt with load := some 1 } } : State).mgmt.load = some 1
    ∧ up.wdExpired = false ∧ ({ upMg false false with aon := { up.aon with tb := 30000000 } } : State).wdExpired = true := by decide +kernel

/-! ### Self-test and the update engine -/

/-- An update step of one layer of one page and no expected contribution, with a ledger of one slot at tier-A address 0x100000. -/
def lay : Layer :=
  { first := 0, npages := 1, expect := 0, sgdm := true, wfmt := 1, sgn := false, blk := false, part := 0, sem := 0, k := [], sibase := 0x8000000,
    skip := false, woff := 0 }
def upUp (apply : Bool) (any : Memory) : State :=
  { up with
    tierA := any, regs := [(oLedger, 1#32)]
    upd := { busy := true, apply := apply, nchip := 1, lbase := 0x100000, abase := 0x4000000, m1base := 0x1000000, m2base := 0x2000000, layers := [lay] } }

theorem test_witness_SelfTestAndUpdate :
    up.answers = true ∧ up.boot.stActive = false ∧ up.cast.loaded = true
    ∧ ({ up with cast := { up.cast with loaded := false } } : State).stHeaderOk = false
    ∧ (let s : State := { up with cast := {},
                                  tierA := [(0, 0x1F), (1, 0x5E), (2, 0x5E), (3, 0x0A)] }
       s.cast.loaded = false ∧ s.cast.busy = none ∧ s.stage = 0 ∧ s.stHeaderOk = true)
    ∧ ({ up with boot := { up.boot with stActive := true } } : State).boot.stActive = true ∧ (up.role 0).st.retired = false
    ∧ (upUp true []).upd.busy = true ∧ up.upd.busy = false ∧ up.nslotL = 0
    ∧ (let s : State := { up with regs := [(oLedger, 1#32)], tierA := [(2, 1)] }
       s.nslotL ≠ 0 ∧ tableBad s.tierA s.updBase (s.upd.readTable s.tierA s.updBase) = false)
    ∧ (∀ ap ∈ [true, false], (upUp ap []).upd.layers[(upUp ap []).upd.next]? = some lay ∧ (upUp ap []).running = true
        ∧ (upUp ap []).upd.result = 0 ∧ (upUp ap []).layerReady lay = true ∧ (upUp ap []).pwr.hold = false ∧ (upUp ap []).upd.busy = true
        ∧ (upUp ap []).upd.reading = false ∧ (upUp ap []).tierUp false = true ∧ (upUp ap []).tierUp true = true ∧ (upUp ap []).tableUp = true
        ∧ lay.expect * contribution = (upUp ap []).arrivedOf ((upUp ap []).ledgerSlot lay.first) ∧ (upUp ap []).layerAny lay = 0)
    ∧ (upUp true [(0x100000, 1)]).layerAny lay = 1 ∧ (upUp true [((upUp true []).arrAddr 0, 1)]).layerAny lay = 0
    ∧ (let s := upUp true [((upUp true []).arrAddr 0, 1)]
       lay.expect * contribution < s.arrivedOf (s.ledgerSlot lay.first))
    ∧ ({ up with lost := [.memA 3] } : State).tierUp false = false
    ∧ (upUp true []).layerReady { lay with expect := 1 } = false
    ∧ allPairs (fun (x y : Nat × Nat) => apart x.1 x.2 y.1 y.2)
        [(0, 2 ^ 21), (0x1000000, 2 ^ 20), (0x2000000, 2 ^ 20), (0x4000000, 3 * 2 ^ 20), (lay.sibase, lay.imgBytes)] = true
    ∧ (upUp true []).table.layers[(0#16).toNat]? = some lay
    ∧ ({ upUp true [] with upd := { (upUp true []).upd with drained := [0] } } : State).upd.drained.contains (0#16).toNat = true
    ∧ (let s : State := { upUp true [] with upd := { (upUp true []).upd with next := 1 } }
       s.upd.layers.length ≤ s.upd.next ∧ s.upd.skipped = false)
    ∧ ({ up with regs := [(oLoss, 0xFF#32)] } : State).regN oLoss / 65536 = 0 := by decide +kernel

/-! ### Links -/

/-- A peer of node 2, session 3, reached by link 0, not encrypted; the other's context index is 9. -/
def pr : Peer := { idx := 5, reg := [0x101, 2, 0x30009, 0, 0x300], cwnd := 4, rto := 50 }
/-- A data packet (`a` 0) or an ACK (`a` 1) for context 5, from node 2, with PSN `psn`, of message 1: one granule of WRITE for region
0 with key `key`; the granule is zero and `g` its guard bits. -/
def pk (a psn key g : Nat) : Pkt :=
  let h : HvHead := { ack := a == 1, enc := false, kep := false, dpeer := 5, snode := 2, psn := psn, session := 3, txc := 0, msgid := 1,
                      total := 1, target := [0, key, 0, 0] }
  { bytes := h.bytes ++ natBytes 32 0 ++ natBytes 2 g, link := some 0, ce := false }
/-- The path table makes path 0 of link 0 usable; the region table has one entry, of partition 0, key 77, granules 100 to 103 of core 33,
open to WRITE. -/
def upK (f : Link → Link) : State :=
  let l : Link := { peers := [pr], up := [0], paths := [(0, 0x80#32)], rcache := [(0, [5, 77, 100 + 2 ^ 13 * 33, 0, 4, 0, 0, 0])] }
  { up with link := f l, regs := [(oLnkCtrl 0, 1#32), (oRegN, 1#32)] }

theorem test_witness_LinkTraffic_frames :
    up.running = true ∧ bitOf ((upK id).regN (oLnkCtrl 0)) 0 = true ∧ bitOf (up.regN (oLnkCtrl 0)) 0 = false
    ∧ frameBody (upK id).rxPort [] = none
    ∧ (frameBody (upK id).rxPort (List.replicate 12 1#8 ++ [0x88, 0xB5] ++ (pk 1 0 0 0).bytes.take 64)).isSome = true
    ∧ hvAck (pk 1 0 0 0).bytes = true ∧ hvAck (pk 0 0 0 0).bytes = false ∧ (upK (fun l => { l with peers := [] })).peer (hvDpeer (pk 0 0 0 0).bytes) = none
    ∧ (upK id).link.miss.length < 64 ∧ (upK id).frameLost 11 = false ∧ ({ upK id with lost := [.frame 11] } : State).frameLost 11 = true
    ∧ (let s := upK (fun l => { l with rx := [pk 0 0 77 0, pk 0 1 77 0] })
       s.link.rx[1]? = some (pk 0 1 77 0) ∧ hvDpeer (pk 0 0 77 0).bytes = hvDpeer (pk 0 1 77 0).bytes) := by decide +kernel

theorem test_witness_LinkTraffic_packets :
    (∀ k ∈ [pk 0 0 77 0xFFFF, pk 0 255 76 0xFFFF, pk 1 0 77 0],
      (upK id).peer (hvDpeer k.bytes) = some pr ∧ pr.dead = false ∧ hvSnode k.bytes = pr.rnode ∧ hvSession k.bytes = pr.session
        ∧ hvEnc k.bytes = false ∧ pr.enc = false ∧ hvOp k.bytes = 0)
    ∧ (upK (fun l => { l with rx := [pk 0 0 77 0] })).link.rx[0]? = some (pk 0 0 77 0)
    ∧ ({ pr with dead := true } : Peer).dead = true
    ∧ wireGrans ((pk 0 0 77 0).bytes.drop 64) (hvNgran (pk 0 0 77 0).bytes) = none ∧ (pk 0 0 77 0).link = some 0
    ∧ wireGrans ((pk 0 0 77 0xFFFF).bytes.drop 64) (hvNgran (pk 0 0 77 0xFFFF).bytes) = some [0#256]
    ∧ psnBelow 255 pr.rxExp = false ∧ psnSub 255 pr.rxExp < 256 ∧ pr.rxMap.testBit 255 = false
    ∧ (upK id).regReject pr { op := 0, msgid := 1, off := 0, total := 1, tg := [0, 76, 0, 0, 0, 0], grans := [0#256] } = some 0x67
    ∧ (upK id).regReject pr { op := 0, msgid := 1, off := 0, total := 1, tg := [0, 77, 0, 0, 0, 0], grans := [0#256] } = none
    ∧ (List.range 6).map (hvTarget (pk 0 0 77 0xFFFF).bytes) = [0, 77, 0, 0, 0, 0] ∧ hvTotal (pk 0 0 77 0xFFFF).bytes = 1
    ∧ hvMsgid (pk 0 0 77 0xFFFF).bytes = 1 ∧ hvOff (pk 0 0 77 0xFFFF).bytes = 0
    ∧ (∀ key ∈ [76, 77], (upK id).passUp 5 { op := 0, msgid := 1, off := 0, total := 1, tg := [0, key, 0, 0, 0, 0], grans := [0#256] } = true)
    ∧ ({ upK id with lost := (List.range 16).map (memPort false) ++ (List.range 16).map (memPort true) } : State).passUp 5
        { op := 0, msgid := 1, off := 0, total := 1, tg := [0, 77, 0, 0, 0, 0], grans := [0#256] } = false
    ∧ (upK id).reasmOf 5 1 = none ∧ (upK id).inRing 5 1 = false ∧ (upK id).link.reasm.length < 4096
    ∧ (regEnt ((upK id).regWords 0)).ext = false := by decide +kernel

/-- A packet of that message passed to its target and not yet visible. -/
def rp : RxPkt :=
  { peer := 5, psn := 0, msgid := 1, op := 0, total := 1, region := 0, ent := [5, 77, 100 + 2 ^ 13 * 33, 0, 4, 0, 0, 0], off := 0,
    grans := [(0, 9#256)], count := true, void := false, round := 0 }
/-- A message of one granule to send to the peer, by core 0. -/
def sd : Send := { id := 0, src := .core 0 true 2, peer := 5, msgid := 1, op := 0, total := 1, target := [], data := .held [9#256] }
def ro (d : Nat) : RdOut :=
  { send := 0, peer := 5, msgid := 1, core := 0, exec := false, seq := 2, nread := 1, dst := [0], deadline := some d }

theorem test_witness_LinkTraffic_transport :
    (upK (fun l => { l with pend := [rp] })).link.pend[0]? = some rp ∧ (upK id).canShow rp = true ∧ rp.op = 0 ∧ rp.void = false
    ∧ (regEnt rp.ent).ext = false ∧ (upK id).coreAt (regEnt rp.ent).part (regEnt rp.ent).core = some 33
    ∧ inKept ((upK id).core 33).cur.kept ((regEnt rp.ent).first + rp.off + 0) = false ∧ ((upK id).core 33).run.late = []
    ∧ (upK id).peer (5#14).toNat = some pr ∧ (upK id).route pr = some (some 0)
    ∧ (let s := upK (fun l => { l with peers := [{ pr with ackSince := some 0, ackN := 1 }] })
       s.peer 5 = some { pr with ackSince := some 0, ackN := 1 } ∧ bitOf (s.regN (oLnkCtrl 0)) 1 = false
         ∧ s.route { pr with ackSince := some 0, ackN := 1 } = some (some 0)
         ∧ ({ s with aon := { s.aon with tb := 1000000 } } : State).due (0 + s.ns s.ackDly) = true ∧ s.due (0 + s.ns s.ackDly) = false)
    ∧ (upK id).nextPacket pr = none
    ∧ (upK (fun l => { l with sends := [sd] })).nextPacket pr = some (sd, { psn := 0, send := 0, off := 0, n := 1 }, false)
    ∧ (upK id).isLocal pr = false ∧ (upK id).ownLinks pr = [0] ∧ pr.ackDue = false ∧ pr.enc = false ∧ (upK id).frameLost 0 = false
    ∧ (upK (fun l => { l with sends := [sd] })).serves pr (some 0) = true
    ∧ (upK (fun l => { l with sends := [sd] })).sourceUp sd 0 1 = true
    ∧ (let q : Peer := { pr with ackDue := true, ackN := 1 }
       let s := upK (fun l => { l with peers := [q] })
       s.peer 5 = some q ∧ s.route q = some (some 0) ∧ (s.txKey q).isSome = true ∧ s.serves q (some 0) = true)
    ∧ (let q : Peer := { pr with ackDue := true, ackN := 1 }
       let s := upK (fun l => { l with peers := [q, { q with idx := 4 }], turn := [(0, 4)] })
       s.peer 5 = some q ∧ s.route q = some (some 0) ∧ (s.txKey q).isSome = true ∧ s.serves q (some 0) = false)
    ∧ (upK id).ownLinks { pr with reg := [1, 2, 0x30009, 0, 0x300] } = []
    ∧ ({ pr with timer := some 0 } : Peer).timer = some 0 ∧ (upK id).due 0 = true ∧ (upK id).due 1 = false
    ∧ pr.retries + 1 < (upK id).retryMax ∧ (upK id).retryMax ≤ ({ pr with retries := 14 } : Peer).retries + 1
    ∧ (upK (fun l => { l with reads := [ro 0] })).link.reads[0]? = some (ro 0) ∧ ((upK id).core (ro 0).core).run.halt = none := by
  decide +kernel

/-- A peer context in memory: valid, OWNER 0, link 0; everything else 0. With OWNER 8 it breaks R360. -/
def ctx (owner : Byte) : List Byte := [1 + 16 * owner, 1] ++ List.replicate 254 0#8
/-- A seal round record: ROUND 1, `np` participants, SELF 0. -/
def sealRec (np : Byte) : List Byte := [1, 0, 0, 0, np] ++ List.replicate 123 0#8

theorem test_witness_PeersKeysAndRounds :
    up.answers = true ∧ (upK (fun l => { l with fetch := [5] })).peerMoving (5#14).toNat = true
    ∧ (upK id).hostUp = true ∧ ({ upK id with lost := [.host] } : State).hostUp = false
    ∧ (∀ x ∈ [true, false], let s := upK (fun l => { l with pend := [{ rp with old := x }] })
        s.running = true ∧ ((∃ y ∈ s.link.pend, y.old = true) ↔ x = true))
    ∧ (upK id).peerMoving (5#14).toNat = false ∧ (upK id).peerMoving (6#14).toNat = false ∧ (upK id).peer (6#14).toNat = none ∧ (upK id).freeLines ≠ 0
    ∧ (upK (fun l => { l with fetch := (List.range 1023).map (· + 6) })).freeLines = 0
    ∧ (upK id).peer (5#14).toNat = some pr ∧ (upK id).peerBusy pr = false ∧ (upK (fun l => { l with sends := [sd] })).peerBusy pr = true
    ∧ (let s := upK (fun l => { l with peers := [], fetch := [5] })
       s.running = true ∧ s.link.fetch.contains 5 = true ∧ s.link.peers.length + s.link.evicting.length < 1024
         ∧ s.hostUp = true ∧ s.link.evicting = [] ∧ (ctx 0).length = 256 ∧ s.peer 5 = none
         ∧ s.peerBad (s.peerOf 5 (ctx 0)) = none ∧ (s.peerOf 5 (ctx 0)).dead = false ∧ s.peerBad (s.peerOf 5 (ctx 8)) = some 0x65)
    ∧ (sealRec 2).length = 128 ∧ bytesAt (sealRec 2) 4 4 % 128 < 3 ∧ 3 ≤ bytesAt (sealRec 64) 4 4 % 128
    ∧ bytesAt (sealRec 64) 4 4 % 128 ≤ 64 ∧ fld (bytesAt (sealRec 64) 4 4) 13 8 < 64 ∧ bytesAt (sealRec 64) 0 4 ≠ 0
    ∧ (∀ j, j < 8 → (up.round j).st ≠ 1)
    ∧ (let s := upK (fun l => { l with seeds := (List.range 128).map (fun j => (j, some 1)) })
       ∀ j, j < 128 → (Sp.get none s.link.seeds j).isSome = true)
    ∧ (let s := upK (fun l => { l with rounds := [(7, { st := 1, agg := true, deadline := some 0 })] })
       s.running = true ∧ (s.round 7).deadline = some 0 ∧ (s.round 7).st = 1 ∧ (s.round 7).agg = true ∧ s.due 0 = true) := by decide +kernel

/-! ### Requesters, memories and the map -/

/-- Canonical and not; the add and write of a memory request; a map change in progress. -/
theorem test_witness_memory_and_map :
    Memory.wf [(1, 1), (2, 5)] = true ∧ Memory.wf [(2, 5), (1, 1)] = false ∧ Memory.wf [(1, 0)] = false
    ∧ (rq false).op = .read ∧ ({ rq false with op := .add }).op = .add ∧ ({ rq false with op := .write }).op = .write := by decide +kernel

theorem test_witness_MapGenerationStaysSound :
    up.mapSound ∧ ({ up with mapgen := 1, subst := some (so true false) } : State).mapSound
    ∧ ¬ ({ up with mapgen := 1 } : State).mapSound
    ∧ (match step { up with pending := [.subcmdSubstitute .mgmt true 0 2] } with | .next _ => true | _ => false) = true := by
  unfold State.mapSound; decide +kernel

/-! ### A signed plating -/

/-- A plating image (R322): header of kind 2, ID 4, BASE 9, SCOPE 1 and LEN 384; one CLAIMS section of one entry, resource 3 of class
0; a trailer whose key and signature are over those 128 bytes: both halves of the signature are their SHA-384 digest z, and the key is the
point (z, ·) less the generator, so that verification adds the two. -/
def plBytes : List Byte :=
  let z : Nat := 7393857495689203415189851647703352263393273485737942600326141392634609386626108118698226775035470790970631813024958
  let x : Nat := 6482805687717405192841433460573669488565080613549852289884908159320014532514000046091590834715927560724817352108608
  let y : Nat := 18472422850214765763148427407114035058974029532985681787063611912611598121252535334219884692566182842057382169154248
  natBytes 4 0x0A5ECA57 ++ [2, 1, 3, 1] ++ natBytes 4 384 ++ natBytes 4 1 ++ natBytes 4 4 ++ natBytes 4 9 ++ natBytes 4 1
    ++ List.replicate 36 0#8 ++ natBytes 4 0x0C ++ natBytes 4 0x60 ++ natBytes 4 4 ++ List.replicate 20 0#8 ++ natBytes 4 0x300
    ++ List.replicate 28 0#8 ++ (beBytes 48 x ++ beBytes 48 y ++ beBytes 48 z ++ beBytes 48 z).map (BitVec.ofNat 8) ++ List.replicate 64 0#8

/-- The casting loaded has ID 9, and the OTP holds that key's digest. -/
def upPl : State :=
  let h : Nat := 32976347137590360478870767833470194839485435116054231646093403007938575954410440711721699324799118268991288498840802
  { up with
    cast := { up.cast with busy := some (.plating 7), img := { up.cast.img with id := 9 } }
    regs := [(oCastLen, 384#32)], otp := { up.otp with sh := { up.otp.sh with keyhash := h } } }

theorem test_witness_CastingsAndPlatings_plating :
    upPl.lost = [] ∧ upPl.answers = true ∧ upPl.cast.busy = some (.plating 7) ∧ plBytes.length = upPl.regN oCastLen
      ∧ upPl.refusal 2 plBytes (parseImage plBytes) = none := by decide +kernel

/-- A casting image (R322): header of kind 1, ID 1 and LEN 1,824; PARTITIONS (one, of one slab), OWNERSHIP (comparator 3 of partition 0),
TIMERS, MODE (no image, curve set 0) and CURVES (a set of zeros); the trailer as in `plBytes`. -/
def caBytes : List Byte :=
  let z : Nat := 36914056331113031949862311039356844703100451676599049264293455651460905302120055642172469042405192050907275721431058
  let x : Nat := 12654457316234655654579206567235107447370972780554076133082520049496469384002692876918005706787713023626294177283031
  let y : Nat := 37570556895682367864138578854511207389063047206396283782939653796349477868999322077038031511793505825242246099997317
  let dir (ty off len : Nat) : List Byte := natBytes 16 (ty + 2 ^ 32 * off + 2 ^ 64 * len)
  natBytes 4 0x0A5ECA57 ++ [1, 1, 3, 1] ++ natBytes 4 1824 ++ natBytes 4 5 ++ natBytes 4 1 ++ List.replicate 44 0#8
    ++ dir 1 0xA0 8 ++ dir 3 0xC0 4 ++ dir 4 0xE0 4 ++ dir 9 0x100 8 ++ dir 8 0x120 1280 ++ List.replicate 16 0#8
    ++ natBytes 32 0 ++ natBytes 32 0x300 ++ natBytes 32 0x30 ++ natBytes 32 0xF0 ++ List.replicate 1280 0#8
    ++ (beBytes 48 x ++ beBytes 48 y ++ beBytes 48 z ++ beBytes 48 z).map (BitVec.ofNat 8) ++ List.replicate 64 0#8

def upCa : State :=
  let h : Nat := 37763997703026534991135443629937868778153911053378260396459423562344671833125769509424843976469828284826696852012042
  { up with
    cast := { busy := some .casting }, regs := [(oCastLen, 1824#32)]
    otp := { up.otp with sh := { up.otp.sh with keyhash := h } } }

theorem test_witness_CastingsAndPlatings_casting :
    upCa.lost = [] ∧ upCa.answers = true ∧ upCa.cast.busy = some .casting ∧ caBytes.length = upCa.regN oCastLen
    ∧ upCa.refusal 1 caBytes (parseImage caBytes) = none := by decide +kernel

/-! ### Commands that WellFormed refuses -/

theorem test_wf_targetRequest : Instr.wf (.targetRequest (tq false 0 0)) = false ∧ Instr.wf (.targetRequest (tq false 0 65)) = false
    ∧ Instr.wf (.targetRequest (tq false 0 1)) = true ∧ Instr.wf (.targetRequest (tq false 0 64)) = true := by decide
theorem test_wf_sensor : Instr.wf (.sensorReading 9 0) = false ∧ Instr.wf (.sensorStale 9) = false ∧ Instr.wf (.sensorReading 8 0) = true := by
  decide
theorem test_wf_frame : Instr.wf (.frameReceive 0 (List.replicate 77 0) false) = false
    ∧ Instr.wf (.frameReceive 0 (List.replicate 78 0) false) = true := by decide +kernel
theorem test_wf_temper : Instr.wf (.tmpcmdMeasure .mgmt 72) = false ∧ Instr.wf (.tmpcmdCommit .mgmt 72) = false
    ∧ Instr.wf (.tmpcmdAbort .mgmt 72) = false ∧ Instr.wf (.tmpcmdAbort .mgmt 71) = true := by decide
theorem test_wf_otp : Instr.wf (.otpTestProgram 7 []) = false ∧ Instr.wf (.otpTestProgram 6 []) = true := by decide
theorem test_wf_submission : Instr.wf (.submissionEntryRead 0 []) = false ∧ Instr.wf (.submissionEntryRead 0 (sub 32 1)) = true := by decide
theorem test_wf_deadline : Instr.wf (.deadlineWrite .mgmt 0 3 0) = false ∧ Instr.wf (.deadlineWrite .mgmt 0 2 0) = true := by decide
theorem test_wf_records : Instr.wf (.sealcmdLoad .host 0 []) = false ∧ Instr.wf (.peerFetchComplete 0 false []) = false
    ∧ Instr.wf (.peerFetchComplete 0 true []) = true := by decide

/-- The instruction that a slot spells, and the code of one that spells none. -/
def spelt (x : Except Nat Instr) : Option Instr := x.toOption
def refusedWith (x : Except Nat Instr) : Option Nat :=
  match x with
  | .error e => some e
  | .ok _ => none

/-! ### Slots written out from the tables of Instruction reference (Tables 4 to 19, R319, R321) -/

/-- ADDI RD 3, RA 4, IMM -2; BR COND 4, RA 1, RB 2 to byte 8; DSET handle 700, word 5, RA 9; BR to byte 6 (0x4E); OP 0 (0x10). -/
theorem test_decode_scalar :
    spelt (decodeScalar c0 0xFFFE20E2 0) = some (.addi c0 3 4 0xFFFE) ∧ spelt (decodeScalar c0 0x0082083F 8) = some (.br c0 4 1 2 8)
    ∧ spelt (decodeScalar c0 0x004DAF20 0) = some (.dset c0 700 5 9) ∧ refusedWith (decodeScalar c0 0x0082083F 6) = some 0x4E
    ∧ refusedWith (decodeScalar c0 0 0) = some 0x10 := by decide +kernel

/-- FFMA V1 := V2 * V3 + V31 under VM4, RM 1; FCLE VM5, V2, V3 under VM1; WSTEP V7 by -512; VST V1 strided, FMT 2, RA 3, MODX 1, BASE
0x10, STRIDE -1; RREAD of context 3's component 2 into SM7. -/
theorem test_decode_vector :
    spelt (decodeVector c0 0xFB062088 0) = some (.ffma c0 1 2 3 31 4 1) ∧ spelt (decodeVector c0 0x00462298 0) = some (.fcle c0 5 2 3 1)
    ∧ spelt (decodeVector c0 0x002003DA 0) = some (.wstep c0 7 0x200)
    ∧ spelt (decodeVector c0 0x008C90E3 0xFFFF0010)
        = some (.vst c0 { v := 1, mode := 1, fmt := 2, d := false, ra := 3, modx := 1, w1 := 0xFFFF0010 })
    ∧ spelt (decodeVector c0 0x000B81EE 0) = some (.rread c0 3 false 0 7 2) := by decide +kernel

/-- MINP FMT 1, BATCH, KR 5, BASE 63, M 256, SH 1, BH 2, NDH 3; WOUTG DQ, DFMT 2, RM 1, WIDE, O2, GK 5, BASE 9, M 8, N 32, SCH 4, TBB 33. -/
theorem test_decode_matrix :
    spelt (decodeMatrix c0 true 0x3FFF2A17 0x00300801)
        = some (.minp c0 true
            { fmt := 1, ori := false, add := false, slide := false, batch := true, qe := false, kr := 5, base := 63, m1 := 255, sh := 1, bh := 2,
              ndh := 3 })
    ∧ spelt (decodeMatrix c0 false 0x01C95ADD 0x8404001F)
        = some (.woutg c0 false
            { dq := true, dfmt := 2, rm := 1, wide := true, qe := false, o2 := true, gk := 5, base := 9, m1 := 7, n1 := 31, dh := 0, sch := 4,
              tbb := 33 }) := by decide +kernel

/-- SFEV, SMAXT (SMC2 2), CSTEP of four streams, CSET MODE 3 to slot of stream 7 (with FMT 1: 0x10), CCMP. -/
theorem test_decode_carry_and_special :
    spelt (decodeCsf c0 0x72831042 0) = some (.sfev c0 { vd := 1, va := 2, vb := 3, dir := 4, dfmt := 1, rm := 2, pk := true, o2 := true })
    ∧ spelt (decodeCsf c0 0x35483249 0x17)
        = some (.smaxt c0 { ctx := 1, e := 2, va := 3, vd := 4, dfmt := 1, vm := 5, smc := 6, smf := 7, smc2 := 2 })
    ∧ spelt (decodeCsf c0 0x013FFFE1 0x00561234) = some (.cstep c0 { ns1 := 3, blk := 8191, rt := 9, id := 0x1234, stride := 0x56 })
    ∧ spelt (decodeCsf c0 0x000000E7 0x00071000)
        = some (.cset c0 { mode := 3, fmt := false, tgt := false, elem := 0, addr := 0x1000, tail := 7 })
    ∧ refusedWith (decodeCsf c0 0x000001E7 0x00071000) = some 0x10
    ∧ spelt (decodeCsf c0 0x000969AB 0x00200010)
        = some (.ccmp c0 { fmt := 2, r := 9, sm := 3, trap := true, rn := 4, x := 0x10, y := 0x20 }) := by decide +kernel

/-- XFER (execute queue, REMOTE, ADD, HDR, 4,096 entries, LCNT 8,191), AWAIT, ARRSET with SUB, SEMPOST with RNG, KEEP, KEEP with CLR, GATH. -/
theorem test_decode_movement :
    spelt (decodeDmv c0 0x3FFFFF43 0xF8004001)
        = some (.xfer c0 { dir := true, tgt := 2, add := true, hdr := true, nent1 := 4095, list := 1, lfirst := 2, lcnt1 := 0x1FFE })
    ∧ spelt (decodeDmv c0 0x00041FC9 100) = some (.await c0 63 1 2 100) ∧ spelt (decodeDmv c0 0x000064CA 0) = some (.arrsetSubtract c0 9 3)
    ∧ spelt (decodeDmv c0 0x0FBFF90F 0x0003E064)
        = some (.sempost c0 { sem := 4, tcore := 2047, self := false, cnt1 := 15, rng := true, first := 100, gcnt1 := 31 })
    ∧ spelt (decodeDmv c0 0x08BFFBD5 0) = some (.keep c0 15 6143 8 0) ∧ spelt (decodeDmv c0 0x000004D5 0) = some (.keepClear c0 3)
    ∧ spelt (decodeDmv c0 (1 + 2 * 2 + 2 ^ 6 + 2 ^ 7 + 5 * 2 ^ 9) (7 + 9 * 2 ^ 13)) = some (.gath c0 { dir := true, tgt := 1, gr := 5, lfirst := 7, lcnt1 := 9 }) := by
  decide +kernel

/-! ### Results that the rules fix -/

/-- R305 on -1 and 1: ADD wraps to 0, SAR keeps the sign, SLT is signed and SLTU is not. -/
theorem test_scalar_results :
    let r (i : Instr) : Option W64 := (after (exec i upBr)).map (fun k => k.cur.sreg 3)
    r (.add c0 3 1 2) = some 0 ∧ r (.sar c0 3 1 2) = some 0xFFFFFFFFFFFFFFFF ∧ r (.slt c0 3 1 2) = some 1 ∧ r (.sltu c0 3 1 2) = some 0
      ∧ r (.mul c0 3 1 1) = some 1 ∧ r (.lih c0 3 0x80000000) = some 0x8000000000000000 ∧ r (.li c0 3 0x80000000) = some 0xFFFFFFFF80000000
      ∧ r (.shl c0 3 1 1) = some 0x8000000000000000 ∧ r (.subi c0 0 2 1) = some 0 := by decide +kernel

/-- V0 holds 1.0 in lane 0, 2.0 in lane 31, VM1 lane 31 alone. -/
def upLane : State :=
  upa (fun a => { a with cache := [(0, 0x3F800000#32), (31, 0x40000000#32), (32, 7#32)], masks := [(1, 2 ^ 31)] })

/-- FADD V1 := V0 + V0: lane 0 stays 7 under VM1 and is 2.0 under VM0; lane 31 is 4.0. A register of 32 lanes holds words 32 and up. -/
theorem test_fadd_masked :
    let r (i : Instr) (l : Nat) : Option W32 := (after (exec i upLane)).map (fun k => Sp.get 0#32 k.cur.cache (32 + l))
    r (.fadd c0 1 0 0 1 0) 0 = some 7 ∧ r (.fadd c0 1 0 0 1 0) 31 = some 0x40800000 ∧ r (.fadd c0 1 0 0 0 0) 0 = some 0x40000000 := by
  decide +kernel

/-- LSH by 1 toward lower lanes: with ROT lane 31 takes lane 0, without it +0. CVTFI of 2.0 is 2. -/
theorem test_lanes :
    let r (i : Instr) (l : Nat) : Option W32 := (after (exec i upLane)).map (fun k => Sp.get 0#32 k.cur.cache (32 + l))
    r (.lsh c0 1 0 1 true true) 31 = some 0x3F800000 ∧ r (.lsh c0 1 0 1 true false) 31 = some 0 ∧ r (.cvtfi c0 1 0 0 0) 31 = some 2 := by
  decide +kernel

/-- What a step leaves of the block, where it is a next state. -/
def left {α : Type} (o : Host.Outcome State Fault Refusal) (f : State → α) : Option α :=
  match o with
  | .next t => some (f t)
  | _ => none

/-- R278: a doorbell of 15 in a ring of 16 entries is SQTAIL; one of 16 sets SQERR and leaves SQTAIL. -/
theorem test_doorbell :
    left (exec (.sqtailWrite .host 0 15) up) (fun t => ((t.ring 0).sqTail, (t.ring 0).sqErr)) = some (15, false)
      ∧ left (exec (.sqtailWrite .host 0 16) up) (fun t => ((t.ring 0).sqTail, (t.ring 0).sqErr)) = some (0, true) := by decide +kernel

/-- R30: GEN is odd while slab 2 takes over, and even again once it is active. -/
theorem test_substitution :
    left (exec (.subcmdSubstitute .mgmt true 0 2) up) (fun t => (t.mapgen, t.phys 0, (t.role 2).st)) = some (1, some 2, .migrating)
      ∧ left (step { up with pending := [.subcmdSubstitute .mgmt true 0 2, .substitutionResume] })
          (fun t => left (step t) (fun u => (u.mapgen, (u.role 2).st, u.subst)))
        = some (some (2, .active, none)) := by decide +kernel

/-- The stops: an answer to no request (R493, R499), a source that R503 does not define. -/
theorem test_stops :
    exec (.memResponse false 0 0 false) up = .fault (.breach 493) ∧ exec (.hostMasterResponse 0 false 0) up = .fault (.breach 499)
      ∧ exec (.sensorReading 9 0) up = .refused (.noSuchSource 9) := ⟨rfl, rfl, rfl⟩

/-- R495: 1,000 reference edges at 100 MHz are the 10 µs of TMO; the transfer's core then recovers and the id stays reserved. -/
theorem test_memory_timeout :
    left (exec (.memRequestExpiry false 0 255) (upMem false))
      (fun t => ((t.core 0).run.recov, t.memq.map (·.expired), t.fq.offered.map (·.code))) = some (1, [true], [0x27]) := by decide +kernel

/-- R403: the record goes to TAIL of a queue of 511, HEAD 511: entry 510; a full queue drops one with ACT 0. -/
theorem test_fault_queue :
    left (exec (.faultRecordPlace 0) (upFq 511 1 false)) (fun t => (t.fq.count, (Sp.get 0#32 t.fq.words (8 * 510)).toNat % 2048)) = some (512, 0x122)
      ∧ left (exec (.faultRecordPlace 0) (upFq 512 0 false)) (fun t => (t.fq.count, t.fq.ovf, t.fq.lost)) = some (512, true, 1)
      ∧ left (exec (.faultRecordPlace 0) (upFq 512 1 false)) (fun t => (t.fq.count, t.fq.offered.length)) = some (512, 1) := by decide +kernel

/-- R425, R426: a reading of 340 quarter degrees (85 °C) trips: FWD is FLOOR and ESC is set. -/
theorem test_thermal_trip :
    left (exec .thermalTrip (upT 340 false false 0)) (fun t => (t.pwr.quench, t.pwr.fwd, t.fq.offered.map (fun r => (r.code, r.act, r.esc))))
      = some (true, 600, [(0x72, 4, true)]) := by decide +kernel

/-- R442: AON_TBLO captures the upper half for its requester. -/
theorem test_timebase_capture :
    let s : State := { up with aon := { up.aon with tb := 0x500000007 } }
    left (exec (.targetRequest { tag := 9, wr := false, ta := 0x100000, len := 4, be := 0, data := 0 }) s) (fun t => (t.trsp, t.aon.capHost))
      = some (some (9, false, 7), 5) := by decide +kernel

/-- R480: from reset, the cold reset's release and power-good start the initialisation once block reset is released. -/
theorem test_start_up :
    left (exec (.coldResetRelease true true) (rst [])) (fun t => (t.boot.cold, t.pwr.on, t.pwr.fwd)) = some (false, true, 600)
      ∧ left (step { rst [] with pending := [.coldResetRelease true true, .powerGood] })
          (fun t => left (step t) (fun u => left (exec .blockResetRelease u) (fun v => (v.boot.initRun, v.answers))))
        = some (some (some (true, false))) := by decide +kernel

/-- R403, R216, R370 and the reset value of LOWAT: at reset no interrupt level to the management core is raised; the fault interrupt
rises with a record in the queue, and the peer-low interrupt with LOWAT above the free lines there are. -/
theorem test_interrupt_levels : (State.reset.faultIrq, State.reset.streamMissIrq, State.reset.peerLowIrq) = (false, false, false)
    ∧ ({ State.reset with fq := { count := 1 } } : State).faultIrq = true
    ∧ ({ State.reset with link := { fetch := List.replicate 1009 0 } } : State).peerLowIrq = true := by decide +kernel

/-- Tables 16 and 17 of Chip link transport: at offset 0x0_A050 of hub 1 a write reaches HUB_KEYDATA4, and a read HUB_MISSDROP. -/
theorem test_key_data_and_counters : (match exec (.registerWrite .host 0x00C4A050#28 5#32) (up.count (oHubCnt 0)) with
    | .next t => (Sp.get 0#32 t.link.keyData 4, (t.ctrlRead .host 0x00C4A050).1)
    | _ => (0#32, 0#32)) = (5#32, 1#32) := by decide +kernel

end Sys2Proof.Tests
end

section
/-! Branches: BR at issue (R285, R302, R306). What the scalar slot plans for it, what a taken branch does as it issues, and what a fault
at issue leaves. -/

namespace Sys2Proof.Machine

/-! ### The plan -/

/-- The conditions of BR (R306) as relations on its operands. -/
theorem brHolds_iff (cond : BitVec 3) (a b : W64) :
    brHolds cond.toNat a b = true ↔ (cond = 0#3) ∨ (cond = 1#3 ∧ a = b) ∨ (cond = 2#3 ∧ a ≠ b) ∨ (cond = 3#3 ∧ a.toInt < b.toInt)
      ∨ (cond = 4#3 ∧ b.toInt ≤ a.toInt) ∨ (cond = 5#3 ∧ a.toNat < b.toNat) ∨ (cond = 6#3 ∧ b.toNat ≤ a.toNat) := by
  have hc : cond = 0#3 ∨ cond = 1#3 ∨ cond = 2#3 ∨ cond = 3#3 ∨ cond = 4#3 ∨ cond = 5#3 ∨ cond = 6#3 ∨ cond = 7#3 := by
    revert cond; decide
  obtain rfl | rfl | rfl | rfl | rfl | rfl | rfl | rfl := hc <;> simp [brHolds, BitVec.slt_eq_decide, BitVec.ult_eq_decide]

section
variable (k : Core) (cond : BitVec 3) (ra rb : BitVec 5) (target : W32)

theorem scalBr_reserved (hc : cond = 7#3) : scalBr k cond ra rb target = .fault 0x10 := by
  simp [scalBr, hc]

theorem scalBr_misaligned (hc : cond ≠ 7#3) (ht : target.toNat % 4 ≠ 0) : scalBr k cond ra rb target = .fault 0x4E := by
  simp [scalBr, hc, ht]

/-- Past the checks of its fields, a branch's condition decides, and then LEN. -/
theorem scalBr_checked (hc : cond ≠ 7#3) (ht : target.toNat % 4 = 0) :
    scalBr k cond ra rb target =
      if brHolds cond.toNat (k.cur.sreg ra.toNat) (k.cur.sreg rb.toNat) then
        (if streamLen k ≤ target.toNat then .fault 0x4D else .go { br := some target.toNat })
      else .go {} := by
  simp [scalBr, hc, ht]

end

/-! ### A fault at issue -/

/-- Core `k` halted with `code`. -/
def Core.halted (k : Core) (code : Nat) : Core := { k with run := { k.run with halt := some code } }

/-- A halt is counted in the streams' own records alone (R283). -/
theorem State.noteHalt_eq (s : State) (c : Nat) : s.noteHalt c = { s with subs := (s.noteHalt c).subs } := by
  simp only [State.noteHalt]
  split <;> rfl

/-- A core operation that does nothing but halt a core that had not halted: the core, its fault record and the streams' count of it. -/
theorem State.runCore_halt (s : State) (c : Nat) (f : CEnv → CRes → CRes) (x : CFault) (hh : (s.core c).run.halt = none)
    (hl : (s.core c).run.late = []) (hf : f (s.cenv c) (CRes.of (s.core c) s.fc) = (CRes.of (s.core c) s.fc).halt x) :
    s.runCore c f = ((s.setCore c ((s.core c).halted x.code)).offerCore c { x with act := 2 }).noteHalt c := by
  have hk : ((CRes.of (s.core c) s.fc).halt x).k = (s.core c).halted x.code := rfl
  have hs : ((s.core c).halted x.code).settle = (s.core c).halted x.code := Core.settle_none _ hl
  have hc : ((s.core c).run.halt.isNone && ((s.core c).halted x.code).run.halt.isSome) = true := by simp [hh, Core.halted]
  simp only [State.runCore, hf, hk, hs, hc, if_true]
  rfl

/-- Such a core operation leaves a fault at issue (R302, R404). -/
theorem State.faultsAt_runCore (s : State) (c : Nat) (f : CEnv → CRes → CRes) (x : CFault) (hh : (s.core c).run.halt = none)
    (hl : (s.core c).run.late = []) (hf : f (s.cenv c) (CRes.of (s.core c) s.fc) = (CRes.of (s.core c) s.fc).halt x) :
    faultsAt s (s.runCore c f) c x.code := by
  rw [State.runCore_halt s c f x hh hl hf, State.noteHalt_eq]
  have hc : (s.setCore c ((s.core c).halted x.code)).core c = (s.core c).halted x.code := State.core_setCore_same ..
  refine ⟨(congrArg Core.cur hc).trans rfl, (congrArg Core.st hc).trans rfl, (congrArg Core.rp hc).trans rfl,
    (congrArg Core.run hc).trans rfl, ?_, ?_, rfl, rfl, rfl⟩
  · exact ⟨_, rfl, rfl, rfl, rfl, rfl⟩
  · exact fun d hd => State.core_setCore_ne s _ hd

/-- A core whose issue is not held has not halted. -/
theorem halt_none_of_not_issueHeld {k : Core} (h : issueHeld k = false) : k.run.halt = none := by
  cases hx : k.run.halt with
  | none => rfl
  | some code => simp [issueHeld, hx] at h

/-- A scalar instruction that plans a fault, in a core that issues (R302). -/
theorem State.issues.faultsAt {s : State} {c : Nat} (h : s.issues c) (i : Instr) (code : Nat)
    (hp : scalPlan (s.cenv c) (s.core c) i = some (.fault code)) :
    ∃ t, s.onCore c (fun e r => issueOne e i r) = .next t ∧ Machine.faultsAt s t c code := by
  obtain ⟨hlive, hheld, -, hcur⟩ := h
  refine ⟨_, State.onCore_live s c _ hlive, ?_⟩
  exact State.faultsAt_runCore s c _ { code := code, unit := 0, tag := 0#16 } (halt_none_of_not_issueHeld hheld) hcur.2
    (issueOne_scal_fault (s.cenv c) i (CRes.of (s.core c) s.fc) code hheld hcur hp)

/-! ### A branch that issues -/

/-- A scalar instruction that plans a branch alone issues, and the sequencer goes on at its target (R284, R285). -/
theorem issueOne_scal_branch (e : CEnv) (i : Instr) (r : CRes) (t : Nat) (h : issueHeld r.k = false) (hl : r.k.run.lsUsed ≤ 64)
    (hc : r.k.run.current) (hp : scalPlan e r.k i = some (.go { br := some t })) (hs : streamIds i = [])
    (h2 : ∀ c a b, i ≠ .fence c a b) (h3 : ∀ c, i ≠ .cwait c) :
    issueOne e i r = (r.run (fun x => x.issued 1)).branchTo e.v64 (some t) := by
  have hl' : ¬ 64 < r.k.run.lsUsed := by omega
  simp [issueOne, issueWord, oneSlot, h, Core.seen_none r.k hc.2, hp, issueSlots, hs, notResident, admitted, hl', passIssue, CRes.run,
    CoreRun.issued, takeIds, ScalEff.apply, CRes.lateOpt, CRes.branchTo, CRes.marked]

/-- A core operation on a working core that offers nothing to the rest of the block, takes no free value and halts nothing changes
that core alone. -/
theorem State.onCore_quiet (s : State) (c : Nat) (f : CEnv → CRes → CRes) (g : Core → Core) (hp : s.livePaced c = true)
    (hf : f (s.cenv c) (CRes.of (s.core c) s.fc) = CRes.of (g (s.core c)) s.fc)
    (hh : (g (s.core c)).run.halt = (s.core c).run.halt) (hl : (g (s.core c)).run.late = []) :
    s.onCore c f = .next (s.updCore c g) := by
  rw [State.onCore_live s c f hp, State.runCore_quiet s c f _ _ hf hh hl]
  rfl

section
variable {s : State} {c : CoreNo} {cond : BitVec 3} {ra rb : BitVec 5} {target : W32}

/-- A taken branch issues, discards what was placed and fetched, and goes on at its target (R215, R285). -/
theorem execBr_taken (h : s.issues c) (hp : scalBr (s.core c) cond ra rb target = .go { br := some target.toNat }) :
    execBr c cond ra rb target s = .next (s.updCore c (fun k =>
      { k with run := { discardQueue s.v64 (k.run.issued 1) with iqOff := target.toNat, branch := some target.toNat } })) := by
  obtain ⟨hlive, hheld, hls, hcur⟩ := h
  refine State.onCore_quiet s c _ _ hlive ?_ rfl hcur.2
  exact issueOne_scal_branch (s.cenv c) _ (CRes.of (s.core c) s.fc) target.toNat hheld hls hcur (by simp [scalPlan, CRes.of, hp]) rfl
    (by simp) (by simp)

/-- A branch that is not taken only issues (R285). -/
theorem execBr_not_taken (h : s.issues c) (hp : scalBr (s.core c) cond ra rb target = .go {}) :
    execBr c cond ra rb target s = .next (s.updCore c (fun k => { k with run := k.run.issued 1 })) := by
  obtain ⟨hlive, hheld, hls, hcur⟩ := h
  refine State.onCore_quiet s c _ _ hlive ?_ rfl hcur.2
  exact issueOne_scal (s.cenv c) _ (CRes.of (s.core c) s.fc) {} hheld hls hcur rfl (by simp [scalPlan, CRes.of, hp]) rfl
    (by simp) (by simp)

/-- A branch that the scalar slot refuses faults at issue (R302, R306). -/
theorem execBr_fault {code : Nat} (h : s.issues c) (hp : scalBr (s.core c) cond ra rb target = .fault code) :
    ∃ t, execBr c cond ra rb target s = .next t ∧ faultsAt s t c code :=
  h.faultsAt (.br c cond ra rb target) code (by simp [scalPlan, hp])

end

end Sys2Proof.Machine
end

section
open Sys2Proof Sys2Proof.Machine

/-- Settles O7: the plan of the branch decides among the three lemmas about its meaning. -/
theorem branches : Obligations.Branches := by
  intro s c cond ra rb target h
  refine ⟨fun hc ht => ?_, fun hc => ?_, fun hc ht => ?_⟩
  · have hplan := scalBr_checked (s.core c) cond ra rb target hc ht
    refine ⟨fun hholds hlen => ?_, fun hholds => ?_, fun hholds hlen => ?_⟩
    · rw [if_pos ((brHolds_iff _ _ _).mpr hholds), if_neg (Nat.not_le.mpr hlen)] at hplan
      exact execBr_taken h hplan
    · rw [if_neg (mt (brHolds_iff _ _ _).mp hholds)] at hplan
      exact execBr_not_taken h hplan
    · rw [if_pos ((brHolds_iff _ _ _).mpr hholds), if_pos hlen] at hplan
      exact execBr_fault h hplan
  · exact execBr_fault h (scalBr_reserved _ _ _ _ _ hc)
  · exact execBr_fault h (scalBr_misaligned _ _ _ _ _ hc ht)
end

section
/-! Arrivals of CORE messages (R20, R244, R245, R250, R391, R415): what an acknowledgement leaves alone, what a count on an arrival counter
changes, and what a granule that is written or refused leaves. -/

namespace Sys2Proof.Machine

/-! ### What an acknowledgement leaves alone -/

/-- The messages in flight and the memories are the same. -/
structure State.SameTraffic (s t : State) : Prop where
  mesh : t.mesh = s.mesh
  posts : t.posts = s.posts
  items : t.items = s.items
  tierA : t.tierA = s.tierA
  tierB : t.tierB = s.tierB

theorem State.SameTraffic.trans {s t u : State} (h : s.SameTraffic t) (g : t.SameTraffic u) : s.SameTraffic u :=
  ⟨g.mesh.trans h.mesh, g.posts.trans h.posts, g.items.trans h.items, g.tierA.trans h.tierA, g.tierB.trans h.tierB⟩

theorem State.sameTraffic_updSt (s : State) (c : Nat) (f : CoreStore → CoreStore) : s.SameTraffic (s.updSt c f) :=
  ⟨rfl, rfl, rfl, rfl, rfl⟩

/-- An acknowledgement reaches a core's transfers, and may stop one and halt its core: architectural state and local store stay, and a halt
keeps its code. -/
structure Core.AckKeeps (k l : Core) : Prop where
  cur : l.cur = k.cur
  ls : l.st.ls = k.st.ls
  halt : ∀ code, k.run.halt = some code → l.run.halt = some code

theorem Core.AckKeeps.refl (k : Core) : k.AckKeeps k := ⟨rfl, rfl, fun _ => id⟩

theorem Core.AckKeeps.trans {k l m : Core} (h : k.AckKeeps l) (g : l.AckKeeps m) : k.AckKeeps m :=
  ⟨g.cur.trans h.cur, g.ls.trans h.ls, fun code hk => g.halt code (h.halt code hk)⟩

/-- What an acknowledgement keeps of the whole block. -/
structure State.AckKeeps (s t : State) : Prop where
  traffic : s.SameTraffic t
  core : ∀ d, (s.core d).AckKeeps (t.core d)

namespace State.AckKeeps

theorem of_cores {s t : State} (traffic : s.SameTraffic t) (h : t.cores = s.cores) : s.AckKeeps t := by
  refine ⟨traffic, fun d => ?_⟩
  have hc : t.core d = s.core d := congrArg (fun x => Sp.get ({} : Core) x d) h
  exact hc ▸ Core.AckKeeps.refl _

theorem refl (s : State) : s.AckKeeps s := of_cores ⟨rfl, rfl, rfl, rfl, rfl⟩ rfl

theorem trans {s t u : State} (h : s.AckKeeps t) (g : t.AckKeeps u) : s.AckKeeps u :=
  ⟨h.traffic.trans g.traffic, fun d => (h.core d).trans (g.core d)⟩

theorem updCore (s : State) (c : Nat) (f : Core → Core) (h : (s.core c).AckKeeps (f (s.core c))) : s.AckKeeps (s.updCore c f) := by
  refine ⟨⟨rfl, rfl, rfl, rfl, rfl⟩, fun d => ?_⟩
  by_cases hd : d = c
  · subst hd
    rwa [State.core_updCore_same]
  · rw [State.core_updCore_ne s f hd]
    exact Core.AckKeeps.refl _

theorem updRun (s : State) (c : Nat) (f : CoreRun → CoreRun)
    (h : ∀ code, (s.core c).run.halt = some code → (f (s.core c).run).halt = some code) : s.AckKeeps (s.updRun c f) :=
  updCore s c _ ⟨rfl, rfl, h⟩

theorem offerCore (s : State) (c : Nat) (f : CFault) : s.AckKeeps (s.offerCore c f) := of_cores ⟨rfl, rfl, rfl, rfl, rfl⟩ rfl

theorem noteHalt (s : State) (c : Nat) : s.AckKeeps (s.noteHalt c) := by
  rw [State.noteHalt_eq]
  exact of_cores ⟨rfl, rfl, rfl, rfl, rfl⟩ rfl

theorem haltCore (s : State) (c : Nat) (f : CFault) : s.AckKeeps (s.haltCore c f) := by
  have hoffer := offerCore s c { f with act := 2 }
  unfold State.haltCore
  split
  · exact hoffer
  · next hnone => exact (hoffer.trans (updRun _ c _ fun code hc => absurd (congrArg Option.isSome hc) hnone)).trans (noteHalt _ c)

theorem dropLog (s : State) (c : Nat) : s.AckKeeps (s.dropLog c) := of_cores ⟨rfl, rfl, rfl, rfl, rfl⟩ rfl

theorem setXfers (s : State) (c : Nat) (exec : Bool) (l : List Xfer) : s.AckKeeps (s.setXfers c exec l) :=
  updRun s c _ fun _ h => by cases exec <;> exact h

theorem updXfer (s : State) (c : Nat) (exec : Bool) (q : Nat) (f : Xfer → Xfer) : s.AckKeeps (s.updXfer c exec q f) :=
  setXfers s c exec _

theorem setQHalt (s : State) (c : Nat) (exec b : Bool) : s.AckKeeps (s.setQHalt c exec b) :=
  updRun s c _ fun _ h => by cases exec <;> exact h

theorem pageFault (s : State) (c : Nat) (exec : Bool) (x : Xfer) : s.AckKeeps (s.pageFault c exec x) :=
  (((updXfer s c exec x.seq _).trans (setQHalt _ c exec true)).trans (updCore _ c _ ⟨rfl, rfl, fun _ => id⟩)).trans (offerCore _ c _)

theorem stopXfer (s : State) (c : Nat) (exec : Bool) (q code : Nat) : s.AckKeeps (s.stopXfer c exec q code) := by
  have dead (f : Xfer → Xfer) :
      s.AckKeeps (s.updRun c (fun r => if exec then { r with eq := r.eq.map f } else { r with fq := r.fq.map f })) :=
    updRun s c _ fun _ h => by cases exec <;> exact h
  have unlogged (t : State) (b : Bool) : t.AckKeeps (if b then t.dropLog c else t) := by
    cases b
    · exact refl t
    · exact dropLog t c
  exact ((dead _).trans (unlogged _ _)).trans (haltCore _ c _)

theorem stopNow (s : State) (c : Nat) (exec : Bool) (q : Nat) : s.AckKeeps (s.stopNow c exec q) := by
  unfold State.stopNow
  split
  · exact refl s
  split
  · exact refl s
  split
  · exact refl s
  split
  · exact pageFault s c exec _
  · exact stopXfer s c exec q _

theorem answered (s : State) (c : Nat) (exec : Bool) (q n : Nat) : s.AckKeeps (s.answered c exec q n) :=
  (updXfer s c exec q _).trans (stopNow _ c exec q)

theorem ackXfer (s : State) (l q : Nat) : s.AckKeeps (s.ackXfer l q) := by
  unfold State.ackXfer
  split
  · exact refl s
  · exact (answered s _ false q 1).trans (answered _ _ true q 1)

end State.AckKeeps

/-! ### A count on an arrival counter (R244) -/

@[simp] theorem CoreArch.setSreg_arr (a : CoreArch) (i : Nat) (v : W64) : (a.setSreg i v).arr = a.arr := by
  unfold CoreArch.setSreg
  split <;> rfl

/-- A wait that ends takes its result and leaves the arrival counters (R247, R271); nothing else of the core changes. -/
theorem wakeWait_eq (r : CRes) : ∃ (a : CoreArch) (w : Option Wait),
    wakeWait r = { r with k := { r.k with cur := a, run := { r.k.run with wait := w } } } ∧ a.arr = r.k.cur.arr := by
  unfold wakeWait
  have unchanged : r = { r with k := { r.k with cur := r.k.cur, run := { r.k.run with wait := r.k.run.wait } } } := rfl
  split
  · exact ⟨_, _, unchanged, rfl⟩
  split
  · split
    · exact ⟨_, none, rfl, CoreArch.setSreg_arr ..⟩
    · exact ⟨_, _, unchanged, rfl⟩
  · split
    · exact ⟨_, none, rfl, CoreArch.setSreg_arr ..⟩
    · exact ⟨_, _, unchanged, rfl⟩
  · exact ⟨_, _, unchanged, rfl⟩

/-- A count changes the target core alone: its counter, and what a wait it ends leaves; its local store stays. -/
theorem State.arrive_eq (s : State) (d ctr n : Nat) (hl : (s.core d).run.late = []) : ∃ k : Core, s.arrive d ctr n = s.setCore d k
    ∧ k.cur.arr = Sp.set 0#32 (s.core d).cur.arr ctr (Sp.get 0#32 (s.core d).cur.arr ctr + BitVec.ofNat 32 n)
    ∧ k.st.ls = (s.core d).st.ls := by
  obtain ⟨a, w, hwake, harr⟩ := wakeWait_eq (((CRes.of (s.core d) s.fc).cur (fun a =>
    { a with arr := Sp.set 0#32 a.arr ctr (Sp.get 0#32 a.arr ctr + BitVec.ofNat 32 n) })).st
      (fun st => { st with arrSince := Sp.set 0 st.arrSince ctr (Sp.get 0 st.arrSince ctr + n) }))
  exact ⟨_, State.runCore_quiet s d _ _ _ hwake rfl hl, harr, rfl⟩

/-- A granule of message `m` is counted at its target (R415), and on the counter the message names (R244). -/
def State.tally (s : State) (d : Nat) (m : Msg) (data : Granule) (ctr : Option Nat) : State :=
  let v := s.updSt d (fun st => { st with msgs := countOne st.msgs m.src m.region m.ordinal [data] })
  match ctr with
  | some a => v.arrive d a 1
  | none => v

/-- What a count of a granule leaves, with or without a counter. -/
theorem State.tally_spec (s : State) (d : Nat) (m : Msg) (data : Granule) (ctr : Option Nat) (hl : (s.core d).run.late = []) :
    s.SameTraffic (s.tally d m data ctr) ∧ ((s.tally d m data ctr).core d).st.ls = (s.core d).st.ls
    ∧ ∀ j, Sp.get 0#32 ((s.tally d m data ctr).core d).cur.arr j
        = Sp.get 0#32 (s.core d).cur.arr j + (if ctr = some j then 1#32 else 0#32) := by
  unfold State.tally
  generalize hv : s.updSt d (fun st => { st with msgs := countOne st.msgs m.src m.region m.ordinal [data] }) = v
  have hsame : s.SameTraffic v := hv ▸ s.sameTraffic_updSt d _
  have hcore : (v.core d).cur = (s.core d).cur ∧ (v.core d).run = (s.core d).run ∧ (v.core d).st.ls = (s.core d).st.ls := by
    subst hv
    simp [State.updSt]
  obtain ⟨hcur, hrun, hls⟩ := hcore
  cases ctr with
  | none => exact ⟨hsame, hls, fun j => by simp [hcur]⟩
  | some a =>
    obtain ⟨k, harrive, harr, hkls⟩ := v.arrive_eq d a 1 (by rw [hrun, hl])
    simp only [harrive, State.core_setCore_same, harr, hkls, hls, hcur, true_and]
    refine ⟨hsame.trans ⟨rfl, rfl, rfl, rfl, rfl⟩, fun j => ?_⟩
    by_cases hj : j = a
    · simp [hj]
    · simp [Sp.get_set_ne _ _ _ hj, Ne.symm hj]

/-! ### A granule that is written, and one that is refused -/

/-- A granule written through FIN where the granule is not kept: the target's store, its landing granules and its bank slots. -/
def State.written (s : State) (d g : Nat) (data : Granule) (far : Bool) : State :=
  (s.slotHit d g).updSt d (fun st => { st with
    ls := Memory.setGranule st.ls (32 * g) data,
    landing := if !far then st.landing.erase g else if st.landing.contains g then st.landing else st.landing ++ [g] })

theorem State.inbound_free (s : State) (d g : Nat) (data : Granule) (far : Bool) (h : inKept (s.core d).cur.kept g = false) :
    s.inbound d g data far = (s.written d g data far, true) := by
  simp [State.inbound, h, State.written]

theorem State.inbound_kept (s : State) (d g : Nat) (data : Granule) (far : Bool) (h : inKept (s.core d).cur.kept g = true) :
    s.inbound d g data far = (s.haltCore d { code := 0x24, unit := 6 }, false) := by
  simp [State.inbound, h]

theorem State.sameTraffic_written (s : State) (d g : Nat) (data : Granule) (far : Bool) : s.SameTraffic (s.written d g data far) :=
  ⟨rfl, rfl, rfl, rfl, rfl⟩

section
variable (s : State) (d g : Nat) (data : Granule) (far : Bool)

@[simp] theorem State.written_cur : ((s.written d g data far).core d).cur = (s.core d).cur := by
  simp [State.written, State.slotHit, State.updSt]

@[simp] theorem State.written_run : ((s.written d g data far).core d).run = (s.core d).run := by
  simp [State.written, State.slotHit, State.updSt]

@[simp] theorem State.written_ls :
    ((s.written d g data far).core d).st.ls = Memory.setGranule (s.core d).st.ls (32 * g) data := by
  simp [State.written, State.slotHit, State.updSt]

end

/-- A core that had not halted is halted with the record's code (R404). -/
theorem State.haltCore_halt (s : State) (c : Nat) (f : CFault) (h : (s.core c).run.halt = none) :
    ((s.haltCore c f).core c).run.halt = some f.code := by
  simp only [State.haltCore, h, Option.isSome_none, Bool.false_eq_true, if_false]
  refine ((State.AckKeeps.noteHalt _ c).core c).halt f.code ?_
  simp [State.updRun]

/-! ### The arrival -/

/-- A granule of message `m` brings `data` to core `d`: where it may be written, the target takes the contents it first brought (R391) and
counts it if it is the next of its message (R415). -/
def State.putArrived (s : State) (d : Nat) (m : Msg) (data : Granule) (ctr : Option Nat) : State :=
  let msgs := (s.core d).st.msgs
  let r := s.inbound d m.gran ((firstCopy msgs m.src m.region m.ordinal m.off).getD data) (s.lcore d != m.src)
  if r.2 && counted msgs m.src m.region m.ordinal = m.off then r.1.tally d m data ctr else r.1

theorem State.putArrived_kept (s : State) (d : Nat) (m : Msg) (data : Granule) (ctr : Option Nat)
    (h : inKept (s.core d).cur.kept m.gran = true) : s.putArrived d m data ctr = s.haltCore d { code := 0x24, unit := 6 } := by
  simp [State.putArrived, State.inbound_kept _ _ _ _ _ h]

/-- What a granule leaves that may be written. -/
theorem State.putArrived_free (s : State) (d : Nat) (m : Msg) (data : Granule) (ctr : Option Nat)
    (h : inKept (s.core d).cur.kept m.gran = false) (hl : (s.core d).run.late = []) :
    s.SameTraffic (s.putArrived d m data ctr)
    ∧ ((s.putArrived d m data ctr).core d).st.ls = Memory.setGranule (s.core d).st.ls (32 * m.gran)
        ((firstCopy (s.core d).st.msgs m.src m.region m.ordinal m.off).getD data)
    ∧ ∀ j, Sp.get 0#32 ((s.putArrived d m data ctr).core d).cur.arr j = Sp.get 0#32 (s.core d).cur.arr j
        + (if ctr = some j ∧ counted (s.core d).st.msgs m.src m.region m.ordinal = m.off then 1#32 else 0#32) := by
  simp only [State.putArrived, State.inbound_free _ _ _ _ _ h, Bool.true_and, decide_eq_true_eq]
  generalize hw : s.written d m.gran ((firstCopy (s.core d).st.msgs m.src m.region m.ordinal m.off).getD data) (s.lcore d != m.src) = w
  have htraffic : s.SameTraffic w := hw ▸ s.sameTraffic_written ..
  have hwcur : (w.core d).cur = (s.core d).cur := hw ▸ State.written_cur ..
  have hwrun : (w.core d).run = (s.core d).run := hw ▸ State.written_run ..
  have hwls := hw ▸ State.written_ls s d ..
  split
  · next hcount =>
    obtain ⟨htally, hls, harr⟩ := w.tally_spec d m data ctr (by rw [hwrun, hl])
    exact ⟨htraffic.trans htally, by rw [hls, hwls], fun j => by simp [harr, hwcur, hcount]⟩
  · next hcount => exact ⟨htraffic, hwls, fun j => by simp [hwcur, hcount]⟩

/-- A granule at the head of its route is taken from the mesh, written or refused, and acknowledged to its sender. -/
theorem exec_meshGranuleArrival_put {s : State} {n d : Nat} {m : Msg} {data : Granule} {ctr : Option Nat} (hm : s.mesh[n]? = some m)
    (hput : m.kind = .put data ctr) (hd : s.coreAt m.part m.dst = some d) (htakes : s.takes d = true)
    (hfirst : firstOf s.mesh n (·.sp) (·.dp) = true)
    (horder : (s.mesh.take n).all (fun x => x.src != m.src || x.seq != m.seq) = true) :
    exec (.meshGranuleArrival n) s = .next ((State.putArrived { s with mesh := s.mesh.eraseIdx n } d m data ctr).ackXfer m.src m.seq) := by
  have hnone : (s.mesh.take n).any (fun x => x.src == m.src && x.seq == m.seq) = false := by
    simpa [bne, ← Bool.not_and] using horder
  have hsrc : s.srcTakes m = true := by simp [State.srcTakes, hput]
  change execMeshGranuleArrival n s = _
  simp only [execMeshGranuleArrival, hm, hd, htakes, hsrc, hfirst, hnone, hput, Bool.not_true, Bool.or_false, Bool.false_eq_true, if_false]
  rfl

end Sys2Proof.Machine
end

section
open Sys2Proof Sys2Proof.Machine

/-- Settles O34: what the granule leaves at its target, and what the acknowledgement after it keeps of that. -/
theorem meshArrivals : Obligations.MeshArrivals := by
  intro s n m data ctr d hm hput hd htakes hfirst horder hlate
  have hexec := exec_meshGranuleArrival_put hm hput hd htakes hfirst horder
  generalize ht : ({ s with mesh := s.mesh.eraseIdx n } : State) = t at hexec
  have hcore : t.core d = s.core d := by subst ht; rfl
  have hack := State.AckKeeps.ackXfer (t.putArrived d m data ctr) m.src m.seq
  rw [← hcore] at hlate
  rw [← hcore]
  refine ⟨fun hfree => ⟨_, hexec, ?_⟩, fun hkept hhalt => ⟨_, hexec, ?_⟩⟩
  · obtain ⟨hput, hls, harr⟩ := t.putArrived_free d m data ctr hfree hlate
    obtain ⟨hmesh, hposts, hitems, htierA, htierB⟩ := hput.trans hack.traffic
    simp only [hmesh, hposts, hitems, htierA, htierB, (hack.core d).ls, (hack.core d).cur, hls]
    refine ⟨by rw [← ht], Memory.granule_setGranule .., fun b hb => Memory.byte_setGranule_ne _ _ _ _ hb, harr, ?_⟩
    simp [← ht]
  · rw [t.putArrived_kept d m data ctr hkept] at hack ⊢
    have hstop := State.AckKeeps.haltCore t d { code := 0x24, unit := 6 }
    obtain ⟨hcur, hls, -⟩ := (hstop.trans hack).core d
    exact ⟨hls, (hack.core d).halt _ (t.haltCore_halt d _ hhalt), congrArg CoreArch.arr hcur⟩
end

section
/-! The always-on domain (R325, R440 to R448): reading a comparator after a write, what a comparator that fires does besides, the comparator
that a casting gives a partition, and the upper half of the timebase captured for each requester. -/

namespace Sys2Proof.Machine

/-! ### Reading a comparator after a write -/

@[simp] theorem State.dl_setDl_same (s : State) (k : Nat) (d : Dl) : (s.setDl k d).dl k = d := Sp.get_set_same ..

theorem State.dl_setDl_ne (s : State) {j k : Nat} (d : Dl) (h : j ≠ k) : (s.setDl k d).dl j = s.dl j := Sp.get_set_ne _ _ _ h

@[simp] theorem State.sc_setSc_same (s : State) (k : Nat) (x : Sc) : (s.setSc k x).sc k = x := Sp.get_set_same ..

/-! ### What a comparator that fires does besides (R444, R447) -/

section
variable (s : State) (n owner vec : Nat)

@[simp] theorem State.cmpIrq_aon : (s.cmpIrq n owner vec).aon = s.aon := by
  unfold State.cmpIrq State.irq
  repeat' split
  all_goals rfl

@[simp] theorem State.cmpIrq_pwr : (s.cmpIrq n owner vec).pwr = s.pwr := by
  unfold State.cmpIrq State.irq
  repeat' split
  all_goals rfl

theorem State.mem_mgmtIrqs_cmpIrq (h : owner = 8) : n ∈ (s.cmpIrq n owner vec).mgmtIrqs := by
  rw [State.cmpIrq, if_pos h]
  by_cases hn : n ∈ s.mgmtIrqs <;> simp [hn]

theorem State.mem_irqs_cmpIrq (h : owner ≠ 8) : vec ∈ (s.cmpIrq n owner vec).irqs := by
  rw [State.cmpIrq, if_neg h, State.irq]
  by_cases hv : vec ∈ s.irqs <;> simp [hv]

end

/-- A comparator that fires raises interrupt `n` where IRQ is 1, and acts as the wake source `f` where WAKE is 1. -/
def State.signal (s : State) (irq wake : Bool) (n owner vec : Nat) (f : Aon → Aon) : State :=
  let t := if irq then s.cmpIrq n owner vec else s
  if wake then t.wakeSource f else t

section
variable (s : State) (n owner vec : Nat) (f : Aon → Aon)

@[simp] theorem State.wakeSource_irqs : (s.wakeSource f).irqs = s.irqs := by
  unfold State.wakeSource
  split <;> rfl

@[simp] theorem State.wakeSource_mgmtIrqs : (s.wakeSource f).mgmtIrqs = s.mgmtIrqs := by
  unfold State.wakeSource
  split <;> rfl

theorem State.wakeSource_aon :
    (s.wakeSource f).aon = if s.pwr.ps = 0 ∧ s.pwr.step ≠ .entering then s.aon else { f s.aon with wakeReq := true } := by
  unfold State.wakeSource
  split <;> rfl

/-- A wake source is latched in a low-power state (R451). -/
theorem State.wakeSource_latched (h : s.pwr.ps ≠ 0) : (s.wakeSource f).aon = { f s.aon with wakeReq := true } := by
  simp [State.wakeSource_aon, h]

theorem State.signal_irqs (irq wake : Bool) :
    (s.signal irq wake n owner vec f).irqs = if irq then (s.cmpIrq n owner vec).irqs else s.irqs := by
  cases irq <;> cases wake <;> simp [State.signal]

theorem State.signal_mgmtIrqs (irq wake : Bool) :
    (s.signal irq wake n owner vec f).mgmtIrqs = if irq then (s.cmpIrq n owner vec).mgmtIrqs else s.mgmtIrqs := by
  cases irq <;> cases wake <;> simp [State.signal]

theorem State.signal_aon (irq wake : Bool) :
    (s.signal irq wake n owner vec f).aon = if wake then (s.wakeSource f).aon else s.aon := by
  cases irq <;> cases wake <;> simp [State.signal, State.wakeSource_aon]

/-- What the wake source leaves alone of the always-on domain, the firing leaves alone. -/
theorem State.signal_keeps {α : Type} (g : Aon → α) (hg : ∀ a, g { f a with wakeReq := true } = g a) (irq wake : Bool) :
    g (s.signal irq wake n owner vec f).aon = g s.aon := by
  rw [State.signal_aon, State.wakeSource_aon]
  repeat' split
  · rfl
  · exact hg _
  · rfl

theorem State.dl_signal (hf : ∀ a, (f a).dl = a.dl) (irq wake : Bool) (k : Nat) : (s.signal irq wake n owner vec f).dl k = s.dl k :=
  congrArg (fun m => Sp.get ({} : Dl) m k) (s.signal_keeps n owner vec f Aon.dl hf irq wake)

theorem State.sc_signal (hf : ∀ a, (f a).sc = a.sc) (irq wake : Bool) (k : Nat) : (s.signal irq wake n owner vec f).sc k = s.sc k :=
  congrArg (fun m => Sp.get ({} : Sc) m k) (s.signal_keeps n owner vec f Aon.sc hf irq wake)

end

/-! ### A partition's comparator (R325) -/

/-- The block drives a comparator's compare value and ARM; the rest of it stands. -/
theorem State.dlNow_eq (s : State) (k : Nat) : ∃ (m : Nat) (b : Bool), s.dlNow k = { s.dl k with cmp := m, arm := b } := by
  dsimp only [State.dlNow]
  repeat' split
  all_goals exact ⟨_, _, rfl⟩

theorem State.dlNow_unassigned (s : State) (k : Nat)
    (h : s.cast.loaded = false ∨ s.cast.img.timers.contains ((s.dl k).owner, k) = false) : s.dlNow k = s.dl k := by
  rw [State.dlNow, if_neg]
  rcases h with h | h <;> rw [h] <;> simp

/-- A comparator that TIMERS assigns stands armed for the earliest of its partition's waits, or disarmed where there is none. -/
theorem State.dlNow_assigned (s : State) (k : Nat) (hl : s.cast.loaded = true)
    (ht : s.cast.img.timers.contains ((s.dl k).owner, k) = true) :
    ((s.dlNow k).arm = true ↔ s.waitTimes (s.dl k).owner ≠ []) ∧ (∀ w ∈ s.waitTimes (s.dl k).owner, (s.dlNow k).cmp ≤ w)
      ∧ ((s.dlNow k).arm = true → (s.dlNow k).cmp ∈ s.waitTimes (s.dl k).owner) := by
  cases hmin : (s.waitTimes (s.dl k).owner).min? with
  | none =>
    have hnow : s.dlNow k = { s.dl k with arm := false } := by simp only [State.dlNow, hl, ht, hmin, Bool.and_self, if_true]
    simp [hnow, List.min?_eq_none_iff.mp hmin]
  | some m =>
    have hnow : s.dlNow k = { s.dl k with cmp := m, arm := true } := by simp only [State.dlNow, hl, ht, hmin, Bool.and_self, if_true]
    obtain ⟨hmem, hle⟩ := List.min?_eq_some_iff.mp hmin
    simpa [hnow, hmem, List.ne_nil_of_mem hmem] using hle

/-! ### Writes and firings -/

section
variable {s : State} {req : Requester} {k : BitVec 4} (v : W32)

theorem execDeadlineWrite_foreign (w : BitVec 2) (h : owns req (s.dl k.toNat).owner = false) : execDeadlineWrite req k w v s = .next s := by
  simp [execDeadlineWrite, h]

/-- Word 3 of a comparator is no register. -/
theorem execDeadlineWrite_word3 : execDeadlineWrite req k 3#2 v s = .next s := by
  simp [execDeadlineWrite]

variable (ha : s.answers = true) (ho : owns req (s.dl k.toNat).owner = true)
include ha ho

theorem execDeadlineWrite_word0 : execDeadlineWrite req k 0#2 v s
    = .next (s.setDl k.toNat { s.dl k.toNat with cmp := (s.dl k.toNat).cmp / 2 ^ 32 * 2 ^ 32 + v.toNat }) := by
  simp [execDeadlineWrite, ha, ho]

theorem execDeadlineWrite_word1 : execDeadlineWrite req k 1#2 v s
    = .next (s.setDl k.toNat { s.dl k.toNat with cmp := (s.dl k.toNat).cmp % 2 ^ 32 + 2 ^ 32 * v.toNat }) := by
  simp [execDeadlineWrite, ha, ho]

theorem execDeadlineWrite_word2 : execDeadlineWrite req k 2#2 v s
    = .next (s.setDl k.toNat { s.dl k.toNat with
        arm := v.getLsbD 0, wake := v.getLsbD 1, irq := v.getLsbD 2, fired := (s.dl k.toNat).fired && !v.getLsbD 3,
        vec := if (s.dl k.toNat).owner = 9 then fld v.toNat 13 8 else (s.dl k.toNat).vec }) := by
  simp [execDeadlineWrite, ha, ho]

end

section
variable {s : State} {k : BitVec 4}

theorem execDeadlineFire_due (ha : (s.dlNow k.toNat).arm = true) (hd : s.due (s.dlNow k.toNat).cmp = true) :
    execDeadlineFire k s = .next ((s.setDl k.toNat { s.dlNow k.toNat with arm := false, fired := true }).signal
      (s.dl k.toNat).irq (s.dl k.toNat).wake k.toNat (s.dl k.toNat).owner (s.dl k.toNat).vec (fun a => { a with wDl := true })) := by
  obtain ⟨m, b, hnow⟩ := s.dlNow_eq k.toNat
  simp only [hnow] at ha hd
  simp [execDeadlineFire, hnow, ha, hd, State.signal]

theorem execDeadlineFire_not_due (h : (s.dlNow k.toNat).arm = false ∨ s.due (s.dlNow k.toNat).cmp = false) :
    execDeadlineFire k s = .next s := by
  rcases h with h | h <;> simp [execDeadlineFire, h]

end

section
variable {s : State} {j : BitVec 2} {r : Int} (hr : s.scReading j.toNat = some r)
include hr

theorem execSensorComparatorFire_hit (ha : (s.sc j.toNat).arm = true) (hh : (s.sc j.toNat).hit r = true) :
    execSensorComparatorFire j s = .next ((s.setSc j.toNat { s.sc j.toNat with arm := false, fired := true }).signal
      (s.sc j.toNat).irq (s.sc j.toNat).wake (16 + j.toNat) (if (s.sc j.toNat).owner = 8 then 8 else 9) (s.sc j.toNat).vec
      (fun a => { a with wSc := true })) := by
  simp [execSensorComparatorFire, hr, ha, hh, State.signal]

theorem execSensorComparatorFire_not_hit (h : (s.sc j.toNat).arm = false ∨ (s.sc j.toNat).hit r = false) :
    execSensorComparatorFire j s = .next s := by
  rcases h with h | h <;> simp [execSensorComparatorFire, hr, h]

end

/-! ### VCORE and the reference (R443, R448) -/

theorem execVcoreEnvelopeExcursion_due {s : State} {t0 : Nat} (hout : s.aon.vOut = some t0) (hvenv : s.aon.venv = false)
    (hon : s.pwr.on = true) (htrans : s.pwr.trans = false) (hdue : s.due (t0 + s.us 10) = true) :
    execVcoreEnvelopeExcursion s
      = .next (({ s with aon := { s.aon with venv := true } } : State).offer { code := 0x73, unit := 12 }) := by
  simp [execVcoreEnvelopeExcursion, hout, hvenv, hon, htrans, hdue]

theorem execReferenceLost_first {s : State} (ha : s.answers = true) (hr : s.aon.refLost = false) :
    execReferenceLost s
      = .next (({ s with aon := { s.aon with refLost := true } } : State).offer { code := 0x7C, esc := true, unit := 12 }) := by
  have hcold : s.boot.cold = false := by
    simp only [State.answers, Bool.and_eq_true, Bool.not_eq_true'] at ha
    obtain ⟨⟨⟨-, hcold⟩, -⟩, -⟩ := ha
    exact hcold
  simp [execReferenceLost, hcold, hr]

/-- No deadline passes while the reference is lost (R443). -/
theorem State.due_refLost {s : State} (h : s.aon.refLost = true) (n : Nat) : s.due n = false := by
  simp [State.due, h]

/-! ### The captured half of the timebase (R442) -/

/-- The upper half of the timebase last captured for a requester. -/
def Aon.captured (a : Aon) (req : Requester) : W32 :=
  match req with
  | .host => a.capHost
  | .mgmt => a.capMgmt

theorem Aon.captured_captureTb_same (s : State) (req : Requester) :
    (s.captureTb req).aon.captured req = BitVec.ofNat 32 (s.aon.tb / 2 ^ 32) := by
  cases req <;> rfl

theorem Aon.captured_captureTb_ne (s : State) {r req : Requester} (h : r ≠ req) :
    (s.captureTb req).aon.captured r = s.aon.captured r := by
  cases r with
  | host =>
    cases req with
    | host => exact absurd rfl h
    | mgmt => rfl
  | mgmt =>
    cases req with
    | host => rfl
    | mgmt => exact absurd rfl h

theorem State.ctrlRead_tblo (s : State) (r : Requester) :
    s.ctrlRead r 0x00100000 = (BitVec.ofNat 32 s.aon.tb, s.captureTb r) := by
  simp [State.ctrlRead]

/-- A read of AON_TBHI returns what was captured for its requester. -/
theorem State.ctrlRead_tbhi (s : State) (r : Requester) : (s.ctrlRead r 0x00100004).1 = s.aon.captured r := by
  cases r <;> simp [State.ctrlRead, State.readAon, slotOf, Aon.captured]

theorem execTbloRead_answered {s : State} (ha : s.answers = true) (req : Requester) : execTbloRead req s = .next (s.captureTb req) := by
  simp [execTbloRead, ha]

end Sys2Proof.Machine
end

section
open Sys2Proof Sys2Proof.Machine

/-- Settles O50: a write, a firing, a loss and a capture each as the lemma about it says. -/
theorem alwaysOnDomain : Obligations.AlwaysOnDomain := by
  intro s k v ha
  refine ⟨fun req w ho => execDeadlineWrite_foreign v w ho, fun req ho => ?_, fun req ho => ?_, fun req ho => ?_,
    fun req => execDeadlineWrite_word3 v, fun harm hdue => ?_, execDeadlineFire_not_due, s.dlNow_unassigned k.toNat,
    s.dlNow_assigned k.toNat, fun j r hr => ⟨fun harm hhit => ?_, execSensorComparatorFire_not_hit hr⟩,
    fun t0 hout hvenv hon htrans hdue => ?_, fun hlost => ?_, rfl, execTbloRead_answered ha .host, execTbloRead_answered ha .mgmt,
    fun req => ?_⟩
  · exact ⟨_, execDeadlineWrite_word0 v ha ho, State.dl_setDl_same .., fun j hj => State.dl_setDl_ne _ _ hj⟩
  · refine ⟨_, execDeadlineWrite_word2 v ha ho, ?_⟩
    simp only [State.dl_setDl_same, true_and]
    exact fun j hj => State.dl_setDl_ne _ _ hj
  · exact ⟨_, execDeadlineWrite_word1 v ha ho, State.dl_setDl_same .., fun j hj => State.dl_setDl_ne _ _ hj⟩
  · refine ⟨_, execDeadlineFire_due harm hdue, ?_, fun hi ho => ?_, fun hi ho => ?_, fun hi => ?_, fun hw hps => ?_, fun hw => ?_⟩
    · rw [State.dl_signal]
      · exact State.dl_setDl_same ..
      · exact fun _ => rfl
    · rw [State.signal_irqs, if_pos hi]
      exact State.mem_irqs_cmpIrq _ _ _ _ ho
    · rw [State.signal_mgmtIrqs, if_pos hi]
      exact State.mem_mgmtIrqs_cmpIrq _ _ _ _ ho
    · rw [State.signal_irqs, State.signal_mgmtIrqs, hi]
      exact ⟨rfl, rfl⟩
    · rw [State.signal_aon, if_pos hw, State.wakeSource_latched]
      · exact ⟨rfl, rfl⟩
      · exact hps
    · rw [State.signal_aon, hw]
      rfl
  · refine ⟨_, execSensorComparatorFire_hit hr harm hhit, ?_, fun hi ho => ?_, fun hi ho => ?_, fun hw hps => ?_⟩
    · rw [State.sc_signal]
      · exact State.sc_setSc_same ..
      · exact fun _ => rfl
    · rw [State.signal_mgmtIrqs, if_pos hi, if_pos ho]
      exact State.mem_mgmtIrqs_cmpIrq _ _ _ _ rfl
    · rw [State.signal_irqs, if_pos hi, if_neg ho]
      exact State.mem_irqs_cmpIrq _ _ _ _ (by decide)
    · rw [State.signal_aon, if_pos hw, State.wakeSource_latched]
      · exact ⟨rfl, rfl⟩
      · exact hps
  · exact ⟨_, _, execVcoreEnvelopeExcursion_due hout hvenv hon htrans hdue, rfl, rfl, rfl, rfl⟩
  · exact ⟨_, _, execReferenceLost_first ha hlost, rfl, rfl, rfl, rfl, State.due_refLost rfl⟩
  · refine ⟨_, execTbloRead_answered ha req, ?_, fun r hr => ?_, s.ctrlRead_tblo⟩
    · rw [State.ctrlRead_tbhi, Aon.captured_captureTb_same]
    · rw [State.ctrlRead_tbhi, State.ctrlRead_tbhi, Aon.captured_captureTb_ne s hr]
end

section
/-! The scalar slot (R303, R305): what an instruction with an effect of its own leaves. -/

namespace Sys2Proof.Machine

/-- With no commit mark open, an effect other than a KEEP waits for nothing (R290). -/
theorem CoreRun.waits_of_no_mark (r : CoreRun) (q : Nat) (l : Late) (hm : r.marks = []) (hl : ∀ i e, l ≠ .keep i e) : r.waits q l = false := by
  cases l with
  | keep i e => exact absurd rfl (hl i e)
  | _ => simp [CoreRun.waits, CoreRun.behind, hm]

section
variable {s : State} {c : Nat} {i : Instr} (h : s.issues c) (hs : streamIds i = []) (h2 : ∀ c a b, i ≠ .fence c a b)
  (h3 : ∀ c, i ≠ .cwait c)
include h hs h2 h3

/-- A scalar instruction whose one effect is `l` issues and takes it at once (R284, R290). -/
theorem State.issues.onCore_scal (f : ScalEff) (g : Core → Core) (hb : f.br = none)
    (hp : scalPlan (s.cenv c) (s.core c) i = some (.go f))
    (hf : ∀ r : CRes, r.k = { s.core c with run := (s.core c).run.issued 1 } →
      f.apply ((s.core c).run.seq + 1) r = { r with k := g (s.core c) })
    (hg : (g (s.core c)).run = (s.core c).run.issued 1) :
    s.onCore c (fun e r => issueOne e i r) = .next (s.updCore c g) := by
  obtain ⟨hlive, hheld, hls, hcur⟩ := h
  refine State.onCore_quiet s c _ _ hlive ?_ (by rw [hg]; rfl) (by rw [hg]; exact hcur.2)
  exact (issueOne_scal (s.cenv c) i (CRes.of (s.core c) s.fc) f hheld hls hcur hb hp hs h2 h3).trans (hf _ rfl)

/-- A scalar instruction that writes SR[`rd`] (R303). -/
theorem State.issues.onCore_sr (rd : BitVec 5) (v : W64) (hp : scalPlan (s.cenv c) (s.core c) i = some (.go { sr := some (rd.toNat, v) })) :
    s.onCore c (fun e r => issueOne e i r) = .next (s.wroteSr c rd v) := by
  refine h.onCore_scal hs h2 h3 _ _ rfl hp (fun r hr => ?_) rfl
  have hw := CoreRun.waits_of_no_mark ((s.core c).run.issued 1) ((s.core c).run.seq + 1) (.sr rd.toNat v) h.2.2.2.1 (by simp)
  simp [ScalEff.apply, CRes.lateOpt, CRes.late, hr, hw, Late.apply]

end

end Sys2Proof.Machine
end

section
open Sys2Proof Sys2Proof.Machine

/-- Settles O1: the machine's step is defined so. -/
theorem stepRunsFrontCommand : Obligations.StepRunsFrontCommand :=
  fun _ _ _ => rfl

/-- Settles O3: each register form plans one write of its destination. -/
theorem scalarRegisterForms : Obligations.ScalarRegisterForms := by
  intro s c rd ra rb h
  refine ⟨?_, ?_, ?_, ?_, ?_, ?_, ?_, ?_, ?_, ?_, ?_, ?_⟩ <;> refine h.onCore_sr rfl (by simp) (by simp) rd _ ?_
  all_goals simp [scalPlan, scalReg, opAdd, opSub, opAnd, opOr, opXor, opShl, opShr, opSar, opMul, opSlt, opSltu, opSeq, boolW,
    BitVec.slt_eq_decide, BitVec.ult_eq_decide]

/-- Settles O4: each immediate form plans one write of its destination. -/
theorem scalarImmediateForms : Obligations.ScalarImmediateForms := by
  intro s c rd ra imm h
  refine ⟨?_, ?_, ?_, ?_, ?_, ?_, ?_, ?_, ?_, ?_, ?_, ?_⟩ <;> refine h.onCore_sr rfl (by simp) (by simp) rd _ ?_
  all_goals simp [scalPlan, scalImm, opAdd, opSub, opAnd, opOr, opXor, opShl, opShr, opSar, opMul, opSlt, opSltu, opSeq, boolW,
    BitVec.slt_eq_decide, BitVec.ult_eq_decide]

end

section
namespace Sys2Proof.Machine

/-- A written register reads back; SR0 reads zero (R303). -/
theorem CoreArch.sreg_setSreg (a : CoreArch) (i j : Nat) (v : W64) :
    (a.setSreg i v).sreg j = if j = 0 then 0#64 else if j = i then v else a.sreg j := by
  unfold CoreArch.setSreg CoreArch.sreg
  by_cases hj : j = 0
  · simp [hj]
  by_cases hi : i = 0
  · have hji : j ≠ i := hi ▸ hj
    rw [if_pos hi, if_neg hj, if_neg hj, if_neg hji]
  · rw [if_neg hi, if_neg hj, if_neg hj, Sp.get_set]
    simp [hj]

theorem CoreArch.setSreg_eq (a : CoreArch) (i : Nat) (v : W64) : a.setSreg i v = { a with sr := (a.setSreg i v).sr } := by
  unfold CoreArch.setSreg
  split <;> rfl

/-- DSET with nothing unfinished writes its word (R305). -/
theorem scalDset_go (e : CEnv) (k : Core) (d : BitVec 10) (w : BitVec 3) (ra : BitVec 5) (hq : e.qends = false)
    (hend : descAddr k d.toNat + 32 ≤ 196608) (hkept : inKept k.cur.kept ((descAddr k d.toNat + 4 * w.toNat) / 32) = false)
    (hen : k.run.entries = []) (hfq : k.run.fq = []) (heq : k.run.eq = []) :
    scalDset e k d w ra = .go { word := some (descAddr k d.toNat + 4 * w.toNat, (k.cur.sreg ra.toNat).setWidth 32) } := by
  have hlen : ¬ lsBytes < descAddr k d.toNat + 32 := by simpa [lsBytes] using hend
  simp [scalDset, hq, hlen, hkept, CoreRun.engHolds, hen, hfq, heq, mustWait]

theorem onlyCore_updCore (s : State) (c : Nat) (f : Core → Core) : onlyCore s (s.updCore c f) c :=
  ⟨rfl, fun _ hd => State.core_updCore_ne s f hd⟩

theorem onlyCore_refl (s : State) (c : Nat) : onlyCore s s c := ⟨rfl, fun _ _ => rfl⟩

end Sys2Proof.Machine
end

section
open Sys2Proof Sys2Proof.Machine

/-- Settles O5: a write of the register file read back. -/
theorem scalarRegisterFile : Obligations.ScalarRegisterFile := by
  intro s c rd v j
  have hc : (s.wroteSr c rd v).core c
      = { s.core c with cur := (s.core c).cur.setSreg rd.toNat v, run := (s.core c).run.issued 1 } := State.core_updCore_same ..
  refine ⟨?_, onlyCore_updCore s c _, ?_, ?_⟩
  · rw [hc]; exact CoreArch.sreg_setSreg ..
  · rw [hc]; exact CoreArch.setSreg_eq ..
  · rw [hc]

/-- Settles O6: each form plans its one effect, which no commit mark holds back. -/
theorem scalarMovesAndDescriptors : Obligations.ScalarMovesAndDescriptors := by
  intro s c rd ra imm h
  have hnow := fun l => CoreRun.waits_of_no_mark ((s.core c).run.issued 1) ((s.core c).run.seq + 1) l h.2.2.2.1
  refine ⟨?_, ?_, ?_, fun sm hsm => ?_, fun w hq => ?_, fun d w hq hen hfq heq hend hkept => ?_⟩
  · exact h.onCore_sr rfl (by simp) (by simp) rd _ rfl
  · exact h.onCore_sr rfl (by simp) (by simp) rd _ rfl
  · exact h.onCore_sr rfl (by simp) (by simp) rd _ rfl
  · exact h.onCore_sr rfl (by simp) (by simp) rd _ (by simp [scalPlan, scalMovsm, hsm])
  · refine h.onCore_scal rfl (by simp) (by simp) { base := some _ } _ rfl (by simp [scalPlan, scalDbase, hq]; rfl) (fun r hr => ?_) rfl
    simp [ScalEff.apply, CRes.lateOpt, CRes.late, hr, hnow (.dbase _) (by simp), Late.apply]
  · refine h.onCore_scal rfl (by simp) (by simp) _ _ rfl
      (congrArg some (scalDset_go (s.cenv c) (s.core c) d w ra hq hend hkept hen hfq heq)) (fun r hr => ?_) rfl
    simp [ScalEff.apply, CRes.lateOpt, CRes.late, hr, hnow (.word _ _) (by simp), Late.apply]

end

section
/-! The idle step (R440, R443, R474): what each part of it touches. -/

namespace Sys2Proof.Machine

theorem State.irq_eq (s : State) (v : Nat) : s.irq v = { s with irqs := (s.irq v).irqs } := by
  unfold State.irq
  split <;> rfl

theorem State.logPut_eq (s : State) (ws : List Nat) :
    s.logPut ws = { s with hostOut := (s.logPut ws).hostOut, mgmt := (s.logPut ws).mgmt, irqs := (s.logPut ws).irqs } := by
  dsimp only [State.logPut]
  split
  · rw [State.irq_eq]
  · rfl

/-- An entry of the log ring writes host memory, the ring's registers and its vector (R470). -/
theorem State.log_eq (s : State) (type : Nat) (esc : Bool) (p : List Nat) :
    s.log type esc p = { s with hostOut := (s.log type esc p).hostOut, mgmt := (s.log type esc p).mgmt, irqs := (s.log type esc p).irqs } := by
  dsimp only [State.log]
  split
  · rfl
  split
  · split <;> rfl
  · rw [State.logPut_eq]

/-- A persistent record takes three free values besides its entry (R474). -/
theorem State.persist_eq (s : State) :
    s.persist = { s with fc := s.persist.fc, hostOut := s.persist.hostOut, mgmt := s.persist.mgmt, irqs := s.persist.irqs } := by
  dsimp only [State.persist, State.free]
  rw [State.log_eq]

theorem tickTime_eq (s : State) :
    tickTime s = { s with aon := { s.aon with tb := if s.boot.cold || s.aon.refLost then s.aon.tb else s.aon.tb + 1 } } := by
  unfold tickTime
  split <;> rfl

theorem tickIrq_eq (s : State) : tickIrq s = { s with irqs := (tickIrq s).irqs } := by
  unfold tickIrq
  split <;> rfl

theorem tickEntry_eq (s : State) : tickEntry s = { s with pwr := (tickEntry s).pwr } := by
  unfold tickEntry
  repeat' split
  all_goals rfl

theorem tickHour_eq (s : State) : tickHour s =
    { s with fc := (tickHour s).fc, hostOut := (tickHour s).hostOut, mgmt := (tickHour s).mgmt, irqs := (tickHour s).irqs } := by
  unfold tickHour
  split
  · exact State.persist_eq s
  · rfl

/-- No record is due where firmware does not run, or before the hour has passed (R474). -/
theorem tickHour_of_not_due (s : State) (h : s.mgmt.run = false ∨ s.aon.tb < s.mgmt.persistAt + s.us 3600000000) : tickHour s = s := by
  have hdue : s.persistDue = false := by
    rcases h with h | h
    · simp [State.persistDue, h]
    · simp [State.persistDue, State.due, Nat.not_le.mpr h]
  simp [tickHour, hdue]

/-- The idle step before the hourly record. -/
def tick (s : State) : State := tickEntry (tickIrq (tickTime s))

theorem tick_eq (s : State) : tick s =
    { s with aon := { s.aon with tb := if s.boot.cold || s.aon.refLost then s.aon.tb else s.aon.tb + 1 },
             irqs := (tick s).irqs, pwr := (tick s).pwr } := by
  unfold tick
  rw [tickEntry_eq, tickIrq_eq, tickTime_eq]

theorem idle_eq (s : State) : idle s =
    { s with aon := { s.aon with tb := if s.boot.cold || s.aon.refLost then s.aon.tb else s.aon.tb + 1 },
             irqs := (idle s).irqs, pwr := (idle s).pwr, fc := (idle s).fc, hostOut := (idle s).hostOut, mgmt := (idle s).mgmt } := by
  have h : idle s = tickHour (tick s) := rfl
  rw [h, tickHour_eq, tick_eq]

end Sys2Proof.Machine
end

section
open Sys2Proof Sys2Proof.Machine

/-- Settles O2: the idle step is one edge, with the hourly record where it is due. -/
theorem idleStepCountsTheTimebase : Obligations.IdleStepCountsTheTimebase := by
  intro s hp ht
  have hreqs : (idle s).treqs = [] := by rw [idle_eq]; exact ht
  refine ⟨idle s, by simp [step, hp, idleStep, hreqs, State.pumpTarget], idle_eq s, fun h => ?_⟩
  have hq : idle s = tick s := by
    refine tickHour_of_not_due (tick s) ?_
    rw [idle_eq] at h
    rw [tick_eq]
    exact h
  rw [hq, tick_eq]
  exact ⟨rfl, rfl, rfl⟩

end

section
/-! Engine instructions in a core with nothing unfinished: what issue asks of them besides their plan, and the lane operations
(R134, R135, R141, R307). -/

namespace Sys2Proof.Machine

/-- An instruction that enters an engine's queue: the scalar and data-movement slots have no plan for it, and it is not one of the two
other instructions that act at issue. -/
structure Instr.Queued (i : Instr) : Prop where
  scal : ∀ e k, scalPlan e k i = none
  dmv : ∀ e q r, issueDmv e q 0#16 i r = none
  cwait : ∀ c, i ≠ .cwait c
  tswitch : ∀ c, i ≠ .tswitch c

/-- An instruction with a plan for an engine is of no other kind. -/
theorem Instr.queued_of_planEng {e : CEnv} {k : Core} {ls : Memory} {i : Instr} {x : PlanR} (h : planEng e k ls i = some x) :
    Instr.Queued i := by
  have hn : planEng e k ls i ≠ none := by simp [h]
  clear h
  cases i <;> first
    | exact absurd rfl hn
    | exact ⟨fun _ _ => rfl, fun _ _ _ => rfl, fun _ => Instr.noConfusion, fun _ => Instr.noConfusion⟩
/-- An admitted instruction whose engine is `g` runs at once where it waits for nothing. -/
theorem State.fresh.runs {s : State} {c : Nat} (h : s.fresh c) {i : Instr} {p : Plan} (ha : s.admits c i p) {g : Eng} (hg : p.eng = g)
    {ready : ReadyF} (hr : s.readyNow c i p ready) (run : ExecF) :
    s.onCore c (fun e r => slotStep e g i ready run r) = .next (s.ran c i p run) :=
  have hq := Instr.queued_of_planEng ha.1
  exec_fresh s c g i p ready run h ha hg hr (hq.scal _ _) (fun q => hq.dmv _ q _) hq.cwait hq.tswitch

/-- A vector instruction that is admitted, sends no message and writes nothing of the local store. -/
structure State.VecRun (s : State) (c : Nat) (i : Instr) (p : Plan) : Prop where
  adm : s.admits c i p
  eng : p.eng = .vec
  ids : streamIds i = []
  msgs : p.msgs = 0
  noLsWrites : ∀ x ∈ p.wr ++ writeRanges p.accs, isLs x = false

/-- An instruction of engine `g` whose plan names no range of the local store. -/
structure Instr.PlanFor (g : Eng) (e : CEnv) (k : Core) (i : Instr) (p : Plan) : Prop where
  ids : streamIds i = []
  plan : planEng e k k.st.ls i = some (.go p)
  eng : p.eng = g
  accs : p.accs = []
  msgs : p.msgs = 0
  rd : ∀ x ∈ p.rd, isLs x = false
  wr : ∀ x ∈ p.wr, isLs x = false

/-- A vector instruction whose plan names no range of the local store. -/
abbrev Instr.VecPlan := Instr.PlanFor .vec

theorem isLs_cacheRes (g n : Nat) : ∀ x ∈ cacheRes g n, isLs x = false := by
  unfold cacheRes
  split <;> simp [isLs]

theorem isLs_vres (e : CEnv) (k : Core) (r : Nat) : ∀ x ∈ vres e k r, isLs x = false := isLs_cacheRes _ _

theorem isLs_maskRes (m : Nat) : ∀ x ∈ maskRes m, isLs x = false := by
  unfold maskRes
  split <;> simp [isLs]

namespace Instr.PlanFor

section
variable {s : State} {c : Nat} {i : Instr} {p : Plan} {g : Eng} (hp : Instr.PlanFor g (s.cenv c) (s.core c) i p)
include hp

theorem ranges : p.ranges = 0 := by
  have h1 : p.rd.filter isLs = [] := List.filter_eq_nil_iff.mpr fun x hx => by simp [hp.rd x hx]
  have h2 : p.wr.filter isLs = [] := List.filter_eq_nil_iff.mpr fun x hx => by simp [hp.wr x hx]
  simp [Plan.ranges, hp.accs, readRanges, writeRanges, lsRanges, h1, h2]

theorem admits (h : s.fresh c) : s.admits c i p := by
  obtain ⟨-, -, -, -, -, -, -, hord, -⟩ := h
  refine ⟨hp.plan, by rw [hp.ranges]; omega, by simp [notResident, hp.ids], by simp [hp.ids, admitted], ?_⟩
  rw [hp.msgs]
  omega

theorem noLsWrites : ∀ x ∈ p.wr ++ writeRanges p.accs, isLs x = false := by
  simpa [hp.accs, writeRanges, lsRanges] using hp.wr

end

end Instr.PlanFor

namespace Instr.VecPlan

section
variable {s : State} {c : Nat} {i : Instr} {p : Plan} (hp : Instr.VecPlan (s.cenv c) (s.core c) i p)
include hp

theorem vecRun (h : s.fresh c) : s.VecRun c i p := ⟨hp.admits h, hp.eng, hp.ids, hp.msgs, hp.noLsWrites⟩

/-- A lane operation issues, runs and leaves its lane result. -/
theorem lanes (h : s.fresh c) (b vd vm : Nat) (srcs : List Nat) (f : List W32 → W32 × Fl)
    (hw : winAfter (s.cenv c).L i p.sr (s.core c).cur.win = (s.core c).cur.win) :
    ∃ t, s.onCore c (fun e r => slotStep e .vec i always (laneOp b vd vm srcs f) r) = .next t
      ∧ laneResult s t c vd vm (fun j => f (srcs.map (fun v => (s.core c).cur.lane s.lanes (s.core c).cur.win v j))) := by
  refine ⟨_, h.runs (ready := always) (hp.admits h) hp.eng rfl _, ?_⟩
  obtain ⟨-, -, hen, -, -, -, -, -, -, hlate⟩ := h
  exact laneOp_result s c i p b vd vm srcs f hlate hen hp.ids hp.msgs hp.noLsWrites hw

end

/-- The plan of a lane operation (R134). -/
theorem ofLane {e : CEnv} {k : Core} {i : Instr} (srcs : List Nat) (vd vm : Nat) (extra : List Res) (sr : List W64)
    (hs : streamIds i = []) (hx : ∀ x ∈ extra, isLs x = false)
    (hp : planEng e k k.st.ls i = some (planLane e k srcs vd vm extra sr)) :
    Instr.VecPlan e k i { eng := .vec, rd := srcs.flatMap (vres e k) ++ maskRes vm ++ extra, wr := vres e k vd, sr := sr } := by
  refine ⟨hs, hp, rfl, rfl, rfl, fun x hm => ?_, isLs_vres e k vd⟩
  rcases List.mem_append.mp hm with hm | hm
  · rcases List.mem_append.mp hm with hm | hm
    · obtain ⟨v, -, hv⟩ := List.mem_flatMap.mp hm
      exact isLs_vres e k v x hv
    · exact isLs_maskRes vm x hm
  · exact hx x hm

end Instr.VecPlan

/-- A lane operation in a core with nothing unfinished (R134, R141). -/
theorem State.fresh.lanes {s : State} {c : Nat} (h : s.fresh c) {i : Instr} (hs : streamIds i = [])
    (b vd vm : Nat) (srcs : List Nat) (f : List W32 → W32 × Fl)
    (hp : planEng (s.cenv c) (s.core c) (s.core c).st.ls i = some (planLane (s.cenv c) (s.core c) srcs vd vm))
    (hw : winAfter (s.cenv c).L i [] (s.core c).cur.win = (s.core c).cur.win) :
    ∃ t, s.onCore c (fun e r => slotStep e .vec i always (laneOp b vd vm srcs f) r) = .next t
      ∧ laneResult s t c vd vm (fun j => f (srcs.map (fun v => (s.core c).cur.lane s.lanes (s.core c).cur.win v j))) :=
  (Instr.VecPlan.ofLane srcs vd vm [] [] hs (by simp) hp).lanes h b vd vm srcs f hw

theorem minS_eq (a b : W32) : minS a b = if a.toInt < b.toInt then a else b := by
  simp [minS, BitVec.slt_eq_decide]

theorem maxS_eq (a b : W32) : maxS a b = if a.toInt < b.toInt then b else a := by
  simp [maxS, BitVec.slt_eq_decide]

end Sys2Proof.Machine
end

section
open Sys2Proof Sys2Proof.Machine

/-- Settles O8: each instruction runs as the lane operation of its function. -/
theorem vectorFloatLanes : Obligations.VectorFloatLanes := by
  intro s c vd va vb vc vm rm h
  have two (i : Instr) := fun hs f => h.lanes (i := i) hs 1 vd.toNat vm.toNat [va.toNat, vb.toNat] (arg2 f)
  have one (i : Instr) := fun hs f => h.lanes (i := i) hs 1 vd.toNat vm.toNat [va.toNat] (arg1 f)
  refine ⟨?_, ?_, ?_, ?_, ?_, ?_, ?_, ?_, ?_, ?_⟩
  · exact two (.fadd c vd va vb vm rm) rfl _ rfl rfl
  · exact two (.fsub c vd va vb vm rm) rfl _ rfl rfl
  · exact two (.fmul c vd va vb vm rm) rfl _ rfl rfl
  · exact h.lanes (i := .ffma c vd va vb vc vm rm) rfl 1 vd.toNat vm.toNat
      [va.toNat, vb.toNat, vc.toNat] (arg3 (fp32Fma (.ofCode rm.toNat))) rfl rfl
  · exact one (.fabs c vd va vm) rfl _ rfl rfl
  · exact one (.fneg c vd va vm) rfl _ rfl rfl
  · exact two (.fmin c vd va vb vm) rfl _ rfl rfl
  · exact two (.fmax c vd va vb vm) rfl _ rfl rfl
  · exact one (.cvtfi c vd va vm rm) rfl _ rfl rfl
  · exact one (.cvtif c vd va vm rm) rfl _ rfl rfl

/-- Settles O9: each instruction runs as the lane operation of its function. -/
theorem vectorIntegerLanes : Obligations.VectorIntegerLanes := by
  intro s c vd va vb vm h
  have two (i : Instr) := fun hs f => h.lanes (i := i) hs 1 vd.toNat vm.toNat [va.toNat, vb.toNat] (arg2 (intOp f))
  simp only [← minS_eq, ← maxS_eq]
  refine ⟨?_, ?_, ?_, ?_, ?_, ?_, ?_, ?_, ?_, ?_, ?_⟩
  · exact two (.iadd c vd va vb vm) rfl _ rfl rfl
  · exact two (.isub c vd va vb vm) rfl _ rfl rfl
  · exact two (.imul c vd va vb vm) rfl _ rfl rfl
  · exact two (.imin c vd va vb vm) rfl _ rfl rfl
  · exact two (.imax c vd va vb vm) rfl _ rfl rfl
  · exact two (.iand c vd va vb vm) rfl _ rfl rfl
  · exact two (.ior c vd va vb vm) rfl _ rfl rfl
  · exact two (.ixor c vd va vb vm) rfl _ rfl rfl
  · exact two (.ishl c vd va vb vm) rfl _ rfl rfl
  · exact two (.ishr c vd va vb vm) rfl _ rfl rfl
  · exact two (.isar c vd va vb vm) rfl _ rfl rfl

end

section
/-! Vector instructions that write a mask, a summary register, a window or lanes of their own choice (R70, R137, R141, R150, R307). -/

namespace Sys2Proof.Machine

theorem CRes.flags_zero (r : CRes) : r.flags 0#6 = r := by simp [CRes.flags, CRes.st]

/-- The core's result with the instruction's entry in its queue (R301). -/
def State.enteredAs (s : State) (c : Nat) (i : Instr) (p : Plan) : CRes := p.entered (s.cenv c) i (CRes.of (s.core c) s.fc)

/-- A vector instruction whose run leaves architectural state `a` and flags `fl`, and then ends, leaves just that. -/
theorem State.VecRun.arch {s : State} {c : Nat} {i : Instr} {p : Plan} (hp : s.VecRun c i p) (h : s.fresh c)
    (ready : ReadyF) (run : ExecF) (b : Nat) (fl : Fl) (a : CoreArch) (hr : s.readyNow c i p ready)
    (hrun : run (s.cenv c) (p.head (s.cenv c) i (s.core c)) (s.enteredAs c i p)
      = vecDone b (p.head (s.cenv c) i (s.core c)) (((s.enteredAs c i p).cur (fun _ => a)).flags fl)) :
    ∃ t, s.onCore c (fun e r => slotStep e .vec i ready run r) = .next t
      ∧ onlyCore s t c ∧ ranOn (s.core c) (t.core c) fl vecCounters (fun _ => a) ∧ (t.core c).cur = a := by
  refine ⟨_, h.runs hp.adm hp.eng hr run, ?_⟩
  obtain ⟨-, -, hen, -, -, -, -, -, -, hlate⟩ := h
  obtain ⟨pf, fc', h1, h2⟩ := vecDone_spec b (p.head (s.cenv c) i (s.core c)) (((s.enteredAs c i p).cur (fun _ => a)).flags fl) (by
    intro x hx
    simp only [State.enteredAs, Plan.entered, CRes.run, CRes.of, CRes.cur, CRes.flags, CRes.st, List.mem_singleton] at hx
    subst hx
    exact hp.noLsWrites)
  exact ran_quiet s c i p run a fl pf fc' vecCounters _ hlate hen hp.ids hp.msgs (hrun.trans h1) rfl h2

/-! ### Masks -/

/-- A mask put together bit by bit. -/
def maskOf (L : Nat) (bit : Nat → Bool) : Nat := (List.range L).foldl (fun m i => if bit i then m + 2 ^ i else m) 0

theorem maskOf_succ (L : Nat) (bit : Nat → Bool) : maskOf (L + 1) bit = if bit L then maskOf L bit + 2 ^ L else maskOf L bit := by
  simp [maskOf, List.range_succ, List.foldl_append]

theorem maskOf_lt (bit : Nat → Bool) : ∀ L, maskOf L bit < 2 ^ L
  | 0 => by simp [maskOf]
  | L + 1 => by
    have ih := maskOf_lt bit L
    rw [maskOf_succ, Nat.pow_succ]
    split <;> omega

theorem testBit_maskOf (bit : Nat → Bool) : ∀ L i, (maskOf L bit).testBit i = (decide (i < L) && bit i)
  | 0, i => by simp [maskOf]
  | L + 1, i => by
    have ih := testBit_maskOf bit L i
    have hlt := maskOf_lt bit L
    rw [maskOf_succ]
    cases hb : bit L with
    | false => simp only [Bool.false_eq_true, if_false, ih]; grind
    | true =>
      have h2 := Nat.testBit_two_pow_mul_add 1 hlt i
      rw [Nat.mul_one, Nat.add_comm] at h2
      rw [if_pos rfl, h2, ih]
      by_cases hi : i < L
      · simp [hi, Nat.lt_succ_of_lt hi]
      · by_cases he : i = L
        · simp [he, hb]
        · have h0 : i - L ≠ 0 := by omega
          have hi' : ¬ i < L + 1 := by omega
          simp [hi, hi', Nat.testBit_lt_two_pow (Nat.one_lt_two_pow h0)]

/-- A mask register written with a mask reads back bit by bit; VM0 discards the write (R141). -/
theorem CoreArch.mbit_setMask (a : CoreArch) (m v j i : Nat) :
    (a.setMask m v).mbit j i = if j = m ∧ m ≠ 0 then v.testBit i else a.mbit j i := by
  unfold CoreArch.setMask CoreArch.mbit
  by_cases hm : m = 0
  · simp [hm]
  · by_cases hj : j = m
    · simp [hm, hj]
    · simp [hm, hj, Sp.get_set]

theorem CoreArch.setMask_eq (a : CoreArch) (m v : Nat) : a.setMask m v = { a with masks := (a.setMask m v).masks } := by
  unfold CoreArch.setMask
  split <;> rfl

/-- The plan of a compare (R141). -/
theorem Instr.VecPlan.ofCmp {e : CEnv} {k : Core} {i : Instr} (va vb md vm : Nat) (hs : streamIds i = [])
    (hp : planEng e k k.st.ls i = some (planCmp e k va vb md vm)) :
    Instr.VecPlan e k i { eng := .vec, rd := vres e k va ++ vres e k vb ++ maskRes vm, wr := maskRes md } := by
  refine ⟨hs, hp, rfl, rfl, rfl, fun x hm => ?_, isLs_maskRes md⟩
  simp only [List.mem_append] at hm
  rcases hm with (hm | hm) | hm
  · exact isLs_vres e k va x hm
  · exact isLs_vres e k vb x hm
  · exact isLs_maskRes vm x hm

/-- A compare in a core with nothing unfinished (R70, R141). -/
theorem State.fresh.compares {s : State} {c : Nat} (h : s.fresh c) {i : Instr} (hs : streamIds i = []) (md va vb vm : Nat)
    (f : FV → FV → Bool) (hp : planEng (s.cenv c) (s.core c) (s.core c).st.ls i = some (planCmp (s.cenv c) (s.core c) va vb md vm))
    (hw : winAfter (s.cenv c).L i [] (s.core c).cur.win = (s.core c).cur.win) :
    let rd (v j : Nat) : FV × Fl := FFmt.fp32.read ((s.core c).cur.lane s.lanes (s.core c).cur.win v j).toNat
    ∃ t, s.onCore c (fun e r => slotStep e .vec i always (cmpOp md va vb vm f) r) = .next t
      ∧ maskResult s t c md vm (fun j => (f (rd va j).1 (rd vb j).1, (rd va j).2 ||| (rd vb j).2)) := by
  intro rd
  obtain ⟨p, hsr, hplan⟩ : ∃ p, p.sr = [] ∧ Instr.VecPlan (s.cenv c) (s.core c) i p := ⟨_, rfl, .ofCmp va vb md vm hs hp⟩
  have hwin : (p.head (s.cenv c) i (s.core c)).win = (s.core c).cur.win := by rw [← hsr] at hw; exact hw
  let act := (s.core c).cur.active s.lanes vm
  let bit (j : Nat) : Bool := if act.contains j then f (rd va j).1 (rd vb j).1 else (s.core c).cur.mbit md j
  obtain ⟨t, hexec, honly, hran, hcur⟩ := (hplan.vecRun h).arch h always (cmpOp md va vb vm f) 1
    (flAll (act.map (fun j => (rd va j).2 ||| (rd vb j).2))) ((s.core c).cur.setMask md (maskOf s.lanes bit)) rfl (by
      simp only [cmpOp, hwin]
      rfl)
  have hbit (m i : Nat) := CoreArch.mbit_setMask (s.core c).cur md (maskOf s.lanes bit) m i
  refine ⟨t, hexec, honly, ?_, fun i hi hmd => ?_, fun m hm i => ?_⟩
  · obtain ⟨hk, hperf⟩ := hran
    refine ⟨?_, hperf⟩
    dsimp only
    rw [hcur, ← CoreArch.setMask_eq]
    exact hk
  · rw [hcur, hbit, if_pos ⟨rfl, hmd⟩, testBit_maskOf]
    simp [hi, bit, act, CoreArch.active]
  · rw [hcur, hbit, if_neg]
    rintro ⟨rfl, h0⟩
    exact hm.elim (fun hne => hne rfl) h0

end Sys2Proof.Machine
end

section
open Sys2Proof Sys2Proof.Machine

/-- Settles O10: each instruction runs as the compare of its relation. -/
theorem vectorCompares : Obligations.VectorCompares := by
  intro s c md vm va vb h
  refine ⟨?_, ?_, ?_, ?_⟩
  · exact h.compares (i := .fceq c md va vb vm) rfl md.toNat va.toNat vb.toNat vm.toNat FV.eqv rfl rfl
  · exact h.compares (i := .fclt c md va vb vm) rfl md.toNat va.toNat vb.toNat vm.toNat FV.lt rfl rfl
  · exact h.compares (i := .fcle c md va vb vm) rfl md.toNat va.toNat vb.toNat vm.toNat FV.le rfl rfl
  · have hne : (fun x y : FV => x.isNan || y.isNan || FV.cmp x y != .eq) = fun x y => !FV.eqv x y := by
      funext x y
      simp [FV.eqv, bne]
    rw [hne]
    exact h.compares (i := .fcne c md va vb vm) rfl md.toNat va.toNat vb.toNat vm.toNat (fun x y => !FV.eqv x y) rfl rfl

end

section
/-! Whole lanes moved without flags (R141, R307). -/

namespace Sys2Proof.Machine

theorem flAll_zero {α : Type} (l : List α) : flAll (l.map (fun _ => 0#6)) = 0#6 := by
  simp only [flAll]
  induction l with
  | nil => rfl
  | cons x l ih => simpa using ih

/-- Every lane is active under VM0 (R141). -/
theorem CoreArch.active_zero (a : CoreArch) (L : Nat) : a.active L 0 = List.range L := by
  simp [CoreArch.active, CoreArch.mbit]

/-- A vector instruction whose run writes the active lanes with `g`, sets their flags, and ends. -/
theorem State.VecRun.lanesFlags {s : State} {c : Nat} {i : Instr} {p : Plan} (hp : s.VecRun c i p) (h : s.fresh c) (ready : ReadyF)
    (run : ExecF) (b vd vm : Nat) (g : Nat → W32 × Fl) (hr : s.readyNow c i p ready)
    (hrun : run (s.cenv c) (p.head (s.cenv c) i (s.core c)) (s.enteredAs c i p)
      = vecDone b (p.head (s.cenv c) i (s.core c)) (((s.enteredAs c i p).cur (fun _ => (s.core c).cur.setLanes s.lanes (s.core c).cur.win vd
          (((s.core c).cur.active s.lanes vm).map (fun j => (j, (g j).1))))).flags
        (flAll (((s.core c).cur.active s.lanes vm).map (fun j => (g j).2))))) :
    ∃ t, s.onCore c (fun e r => slotStep e .vec i ready run r) = .next t ∧ laneResult s t c vd vm g := by
  obtain ⟨t, hexec, honly, ⟨hk, hperf⟩, hcur⟩ := hp.arch h ready run b _ _ hr hrun
  have hmem : ∀ j, j ∈ (s.core c).cur.active s.lanes vm ↔ j < s.lanes ∧ (s.core c).cur.mbit vm j = true := by
    intro j; simp [CoreArch.active]
  have hlt : ∀ j, j < s.lanes → j < 64 := fun j hj => Nat.lt_of_lt_of_le hj (CEnv.L_le (s.cenv c))
  obtain ⟨hcache, hin, hout⟩ := setLanes_spec (s.core c).cur s.lanes (s.core c).cur.win vd ((s.core c).cur.active s.lanes vm) (fun j => (g j).1)
    (fun j hj => hlt j ((hmem j).mp hj).1) (List.Pairwise.filter _ List.nodup_range)
  refine ⟨t, hexec, honly, ?_, fun j hj => ?_, fun w hw => ?_⟩
  · refine ⟨?_, hperf⟩
    dsimp only
    rw [hcur]
    exact hk
  · rw [hcur]
    by_cases hm : (s.core c).cur.mbit vm j = true
    · rw [if_pos hm]
      exact hin j ((hmem j).mpr ⟨hj, hm⟩)
    · rw [if_neg hm]
      refine hout _ (fun x hx he => hm ?_)
      obtain ⟨hxl, hxm⟩ := (hmem x).mp hx
      have hjx := laneWord_inj s.lanes (s.core c).cur.win vd j x (by have := hlt j hj; omega) (by have := hlt x hxl; omega) he
      exact hjx ▸ hxm
  · rw [hcur]
    exact hout w (fun x hx => hw x ((hmem x).mp hx).1)

/-- One that sets no flag. -/
theorem State.VecRun.writesLanes {s : State} {c : Nat} {i : Instr} {p : Plan} (hp : s.VecRun c i p) (h : s.fresh c)
    (run : ExecF) (b vd vm : Nat) (g : Nat → W32)
    (hrun : run (s.cenv c) (p.head (s.cenv c) i (s.core c)) (s.enteredAs c i p)
      = vecDone b (p.head (s.cenv c) i (s.core c)) ((s.enteredAs c i p).cur (fun _ =>
          (s.core c).cur.setLanes s.lanes (s.core c).cur.win vd (((s.core c).cur.active s.lanes vm).map (fun j => (j, g j)))))) :
    ∃ t, s.onCore c (fun e r => slotStep e .vec i always run r) = .next t ∧ laneResult s t c vd vm (fun j => (g j, 0#6)) := by
  refine hp.lanesFlags h always run b vd vm (fun j => (g j, 0#6)) rfl ?_
  rw [flAll_zero, CRes.flags_zero]
  exact hrun

end Sys2Proof.Machine
end

section
open Sys2Proof Sys2Proof.Machine

/-- Settles O11: each instruction writes the lanes its mask names. -/
theorem vectorMoves : Obligations.VectorMoves := by
  intro s c vd va vb vm h
  refine ⟨?_, fun sm => ?_, fun ra => ?_, ?_, fun n dir rot h0 hn => ?_⟩
  · refine ((Instr.VecPlan.ofLane (i := .fsel c vd va vb vm) [va.toNat, vb.toNat] vd.toNat vm.toNat [] [] rfl (by simp) rfl).vecRun h).writesLanes h
      _ 1 vd.toNat 0 _ ?_
    rw [CoreArch.active_zero]
    rfl
  · refine ((Instr.VecPlan.ofLane (i := .bcsm c vd sm vm) [] vd.toNat vm.toNat [.sm sm.toNat] [] rfl (by simp [isLs]) rfl).vecRun h).writesLanes h
      _ 1 vd.toNat vm.toNat _ ?_
    simp only [bcsmRun, bcast, laneOp, List.map_map, Function.comp_def, flAll_zero, CRes.flags_zero]
    rfl
  · refine ((Instr.VecPlan.ofLane (i := .bcsr c vd ra vm) [] vd.toNat vm.toNat [] [(s.core c).cur.sreg ra.toNat] rfl (by simp)
      rfl).vecRun h).writesLanes h _ 1 vd.toNat vm.toNat _ ?_
    simp only [bcsrRun, bcast, laneOp, List.map_map, Function.comp_def, flAll_zero, CRes.flags_zero]
    rfl
  · exact ((Instr.VecPlan.ofLane (i := .lgath c vd va vb vm) [va.toNat, vb.toNat] vd.toNat vm.toNat [] [] rfl (by simp) rfl).vecRun h).writesLanes h
      _ 2 vd.toNat vm.toNat _ rfl
  · have hplan : planEng (s.cenv c) (s.core c) (s.core c).st.ls (.lsh c vd va n dir rot)
        = some (planLane (s.cenv c) (s.core c) [va.toNat] vd.toNat 0) := by
      have hcount : ¬ (n.toNat = 0 ∨ (s.cenv c).L ≤ n.toNat) := by rw [State.lanes_cenv]; omega
      simp [planEng, planVec, hcount, planLane]
    refine ((Instr.VecPlan.ofLane (i := .lsh c vd va n dir rot) [va.toNat] vd.toNat 0 [] [] rfl (by simp) hplan).vecRun h).writesLanes h
      _ 1 vd.toNat 0 _ ?_
    rw [CoreArch.active_zero]
    rfl

end

section
/-! Summary registers and window bases (R137, R138, R150, Table 4 of Vector engine). -/

namespace Sys2Proof.Machine

/-- A vector instruction that reads `rd` and writes `wr`, none of them the local store. -/
theorem Instr.VecPlan.ofRes {e : CEnv} {k : Core} {i : Instr} (rd wr : List Res) (sr : List W64) (hs : streamIds i = [])
    (hrd : ∀ x ∈ rd, isLs x = false) (hwr : ∀ x ∈ wr, isLs x = false)
    (hp : planEng e k k.st.ls i = some (.go { eng := .vec, rd := rd, wr := wr, sr := sr })) :
    Instr.VecPlan e k i { eng := .vec, rd := rd, wr := wr, sr := sr } :=
  ⟨hs, hp, rfl, rfl, rfl, hrd, hwr⟩

/-! ### Summaries of a mask -/

/-- The first lane whose bit is set. -/
theorem findIdx_range_eq (p : Nat → Bool) (L i : Nat) (rest : List Nat) (h : (List.range L).filter p = i :: rest) :
    ((List.range L).map p).findIdx id = i := by
  have hfind : (List.range L).find? p = some i := by rw [← List.head?_filter, h]; rfl
  obtain ⟨hpi, hi, hbefore⟩ := List.find?_range_eq_some.mp hfind
  rw [List.mem_range] at hi
  rw [List.findIdx_eq (by simpa using hi)]
  simpa [hpi] using fun j hj => by simpa using hbefore j hj

/-- The ANY, ALL, COUNT and FIRST summaries of a mask in terms of the lanes that are set (Table 4 of Vector engine). -/
theorem maskSummary_range (kind L : Nat) (p : Nat → Bool) :
    let on := (List.range L).filter p
    maskSummary kind ((List.range L).map p) = match kind with
      | 0 => if on = [] then 0#32 else 1#32
      | 1 => if on.length = L then 1#32 else 0#32
      | 2 => BitVec.ofNat 32 on.length
      | _ => match on with
        | i :: _ => BitVec.ofNat 32 i
        | [] => 0xFFFFFFFF#32 := by
  intro on
  have hany : ((List.range L).map p).any id = !on.isEmpty := by
    rw [Bool.eq_iff_iff]
    simp [on]
  match kind with
  | 0 => cases hon : on <;> simp [maskSummary, hany, hon]
  | 1 =>
    have hall : ((List.range L).map p).all id = decide (on.length = L) := by
      rw [Bool.eq_iff_iff, decide_eq_true_iff]
      have hlen : on.length = L ↔ on.length = (List.range L).length := by rw [List.length_range]
      rw [hlen, List.length_filter_eq_length_iff]
      simp
    by_cases h : on.length = L <;> simp [maskSummary, hall, h]
  | 2 => simp [maskSummary, on, ← List.countP_eq_length_filter]
  | n + 3 =>
    cases hon : on with
    | nil => simp [maskSummary, hany, hon]
    | cons i rest => simp [maskSummary, hany, hon, findIdx_range_eq p L i rest hon]

/-! ### Window bases -/

theorem winBase_set_ne (L : Nat) (w : Sp Nat) {r v : Nat} (x : Nat) (h : v ≠ r) : winBase L (Sp.set 0 w r x) v = winBase L w v := by
  simp [winBase, Sp.get_set, h]

/-- WSET sets the window base (R137). -/
theorem winBase_wset (L : Nat) (w : Sp Nat) (r b : Nat) :
    winBase L (Sp.set 0 w r ((b % 512 + 512 - L / 8 * r % 512) % 512)) r = b % 512 := by
  simp only [winBase, Sp.get_set_same]
  have := Nat.mod_lt (L / 8 * r) (by decide : 512 > 0)
  omega

/-- A signed field of a word (R11) is the word's own signed value. -/
theorem sext_toNat {w : Nat} (hw : 0 < w) (x : BitVec w) : sext w x.toNat = x.toInt := by
  have hlt := x.isLt
  have hpow : 2 * 2 ^ (w - 1) = 2 ^ w := by
    rw [← Nat.pow_succ', Nat.succ_eq_add_one, Nat.sub_add_cancel hw]
  simp only [sext, Nat.mod_eq_of_lt hlt, BitVec.toInt]
  split <;> split <;> first | rfl | omega

/-- WSTEP moves the window base by a signed count, modulo 512 (R137). -/
theorem winBase_wstep (L : Nat) (w : Sp Nat) (r : Nat) (n : BitVec 10) :
    (winBase L (Sp.set 0 w r (wrap 9 (((Sp.get 0 w r : Nat) : Int) + sext 10 n.toNat))) r : Int) = ((winBase L w r : Int) + n.toInt) % 512 := by
  simp only [winBase, Sp.get_set_same, wrap, sext_toNat (by decide : 0 < 10) n]
  omega

end Sys2Proof.Machine
end

section
open Sys2Proof Sys2Proof.Machine

/-- Settles O12: each instruction runs on its one register. -/
theorem vectorSummariesAndWindows : Obligations.VectorSummariesAndWindows := by
  intro s c h
  refine ⟨fun sm va l hl => ?_, fun sm mask kind => ?_, fun vd rs b => ?_, fun vd n => ?_⟩
  · have hplan : planEng (s.cenv c) (s.core c) (s.core c).st.ls (.vext c sm va l)
        = some (.go { eng := .vec, rd := vres (s.cenv c) (s.core c) va.toNat, wr := [.sm sm.toNat] }) := by
      have hlane : ¬ (s.cenv c).L ≤ l.toNat := by rw [State.lanes_cenv]; omega
      simp [planEng, planVec, hlane]
    obtain ⟨t, hexec, honly, hran, -⟩ := ((Instr.VecPlan.ofRes _ _ [] rfl (isLs_vres _ _ _) (by simp [isLs]) hplan).vecRun h).arch h always
      (vextRun sm.toNat va.toNat l.toNat) 0 0#6 _ rfl (by rw [CRes.flags_zero]; rfl)
    exact ⟨t, hexec, honly, hran⟩
  · obtain ⟨t, hexec, honly, hran, -⟩ := ((Instr.VecPlan.ofRes (i := .msum c sm mask kind) _ _ [] rfl (isLs_maskRes mask.toNat)
      (by simp [isLs]) rfl).vecRun h).arch h always (msumRun sm.toNat mask.toNat kind.toNat) 0 0#6 _ rfl (by rw [CRes.flags_zero]; rfl)
    have hv := maskSummary_range kind.toNat s.lanes ((s.core c).cur.mbit mask.toNat)
    exact ⟨t, hexec, honly, (congrArg (fun v => ranOn (s.core c) (t.core c) 0#6 vecCounters (fun a => a.setSm sm.toNat v)) hv).mp hran⟩
  · obtain ⟨t, hexec, honly, hran, hcur⟩ := ((Instr.VecPlan.ofRes (i := .wset c vd b rs) [] [] _ rfl (by simp) (by simp) rfl).vecRun h).arch h always
      winRun 0 0#6 _ rfl (by rw [CRes.flags_zero]; rfl)
    refine ⟨t, hexec, ⟨honly, ?_⟩, ?_, fun v hv => ?_⟩ <;> rw [hcur]
    · exact hran
    · exact winBase_wset _ _ _ _
    · exact winBase_set_ne _ _ _ hv
  · obtain ⟨t, hexec, honly, hran, hcur⟩ := ((Instr.VecPlan.ofRes (i := .wstep c vd n) [] [] _ rfl (by simp) (by simp) rfl).vecRun h).arch h always
      winRun 0 0#6 _ rfl (by rw [CRes.flags_zero]; rfl)
    refine ⟨t, hexec, ⟨honly, ?_⟩, ?_, fun v hv => ?_⟩ <;> rw [hcur]
    · exact hran
    · exact winBase_wstep _ _ _ n
    · exact winBase_set_ne _ _ _ hv

end

section
/-! Which engine each plan is for, and an engine's instruction that issue admits or refuses in a core with nothing unfinished (R284, R301,
R302). -/

namespace Sys2Proof.Machine

/-! ### What a plan is -/

/-- Where the plan succeeds, it is one that `P` holds of. -/
def PlanR.Gives (r : PlanR) (P : Plan → Prop) : Prop := ∀ p, r = .go p → P p

/-- Where the plan succeeds, it is for engine `g`. -/
abbrev PlanR.For (r : PlanR) (g : Eng) : Prop := r.Gives fun p => p.eng = g

namespace PlanR.Gives

variable {P : Plan → Prop}

theorem fault {c : Nat} : (PlanR.fault c).Gives P := nofun

theorem go {p : Plan} (h : P p) : (PlanR.go p).Gives P := by
  intro q hq
  cases hq
  exact h

theorem ite {c : Prop} [Decidable c] {a b : PlanR} (ha : a.Gives P) (hb : b.Gives P) : (if c then a else b).Gives P := by
  split
  · exact ha
  · exact hb

theorem checked {k : Core} {p : Plan} (h : P p) : (planChecked k p).Gives P := by
  unfold planChecked
  split
  · exact fault
  · exact go h

theorem withOpnd {x : Except Nat Opnd} {f : Opnd → PlanR} (h : ∀ o, (f o).Gives P) : (withOpnd x f).Gives P := by
  cases x with
  | error c => exact fault
  | ok o => exact h o

theorem planH {e : CEnv} {k : Core} {ls : Memory} {d : Nat} {f : Opnd → PlanR} (h : ∀ o, (f o).Gives P) : (planH e k ls d f).Gives P :=
  ite nofun (withOpnd h)

theorem planOpnd {e : CEnv} {k : Core} {ls : Memory} {qe out : Bool} {d : Nat} {f : Opnd → PlanR} (h : ∀ o, (f o).Gives P) :
    (planOpnd e k ls qe out d f).Gives P :=
  ite (withOpnd h) (planH h)

theorem withBlk {k : Core} {ls : Memory} {d : Nat} {f : List W32 → PlanR} (h : ∀ ws, (f ws).Gives P) : (withBlk k ls d f).Gives P :=
  ite fault (ite nofun (h _))

theorem withIds {e : CEnv} {ids : List Nat} {size : Nat} {p : PlanR} (h : p.Gives P) : (withIds e ids size p).Gives P := by
  refine ite fault ?_
  split
  · exact ite fault h
  · exact h

end PlanR.Gives

open PlanR.Gives (fault ite checked)

theorem planMem_for (e : CEnv) (k : Core) (ls : Memory) (st : Bool) (f : VMem) : (planMem e k ls st f).For .vec := by
  have hbase : (if st then { eng := .vec, rd := vres e k f.v.toNat } else { eng := .vec, wr := vres e k f.v.toNat } : Plan).eng = .vec := by
    cases st <;> rfl
  refine ite (ite fault (.planH fun o => ite fault (ite fault (ite fault (checked hbase))))) (ite ?_ (ite fault (ite fault (checked hbase))))
  exact .withOpnd fun o => ite fault (ite fault (checked hbase))

theorem planMMul_for (e : CEnv) (k : Core) (ls : Memory) (arr : Bool) (op : MOp) (f : MMul) : (planMMul e k ls arr op f).For (.arr arr) := by
  refine ite fault (.planOpnd fun s => .planOpnd fun b => ite (.planOpnd fun d => ?_) ?_)
  · exact ite fault (checked rfl)
  · exact ite fault (checked rfl)

theorem planWOut_gives (e : CEnv) (k : Core) (ls : Memory) (arr g : Bool) (f : WOut) :
    (planWOut e k ls arr g f).Gives fun p => p.eng = .arr arr ∧ p.pops = [] := by
  refine ite (ite ?_ (ite fault (.planH fun c => ?_))) (ite fault (.planOpnd fun d => ite ?_ (ite ?_ (.planH fun c => ?_))))
  all_goals exact ite fault (checked ⟨rfl, rfl⟩)

theorem planWOut_for (e : CEnv) (k : Core) (ls : Memory) (arr g : Bool) (f : WOut) : (planWOut e k ls arr g f).For (.arr arr) :=
  fun p hp => (planWOut_gives e k ls arr g f p hp).1

theorem planStep_for (e : CEnv) (k : Core) (ls : Memory) (adj : Bool) (f : CStepF) : (planStep e k ls adj f).For .carry :=
  .withBlk fun _ => ite fault (.withIds (checked rfl))

/-- An instruction that is admitted has the engine of its plan. -/
theorem State.admits.eng {s : State} {c : Nat} {i : Instr} {p : Plan} (h : s.admits c i p) {r : PlanR} {g : Eng}
    (hr : planEng (s.cenv c) (s.core c) (s.core c).st.ls i = some r) (hg : r.For g) : p.eng = g :=
  hg p (Option.some.inj (hr.symm.trans h.1))

/-- A vector instruction's plan, where it has one. -/
theorem State.admits.vec {s : State} {c : Nat} {i : Instr} {p : Plan} (h : s.admits c i p)
    (hg : (planVec (s.cenv c) (s.core c) (s.core c).st.ls i).For .vec)
    (hv : planEng (s.cenv c) (s.core c) (s.core c).st.ls i = match planVec (s.cenv c) (s.core c) (s.core c).st.ls i with
      | .fault 0x10 => none
      | p => some p) : p.eng = .vec := by
  have hp := h.1
  rw [hv] at hp
  split at hp
  · cases hp
  · exact hg p (Option.some.inj hp)

/-! ### An instruction that issue refuses -/

/-- An instruction whose plan is a fault halts the core's issue, and nothing of it takes effect (R302). -/
theorem issueOne_eng_fault (e : CEnv) (i : Instr) (r : CRes) (code : Nat) (h : issueHeld r.k = false) (hc : r.k.run.current)
    (hp : planEng e r.k r.k.st.ls i = some (.fault code)) : issueOne e i r = r.halt { code := code, unit := 0, tag := 0#16 } := by
  have hq := Instr.queued_of_planEng hp
  have hseen := Core.seen_none r.k hc.2
  have hslot : issueSlot e r.k.st.ls (r.k.run.seq + 2) 0#16 i r = .fault code := by
    unfold issueSlot
    rw [hq.dmv, hseen, hp]
    dsimp only
    split
    · exact absurd rfl (hq.tswitch _)
    · exact absurd rfl (hq.cwait _)
    · rfl
  simp [issueOne, issueWord, oneSlot, h, hseen, hq.scal, issueSlots, hslot, issueFault]

section
variable {s : State} {c code : Nat} {i : Instr} (hlive : s.livePaced c = true) (hheld : issueHeld (s.core c) = false)
  (hen : (s.core c).run.entries = []) (hcur : (s.core c).run.current)
  (hp : planEng (s.cenv c) (s.core c) (s.core c).st.ls i = some (.fault code))
include hlive hheld hen hcur hp

/-- A core operation that issues such an instruction and then finds no entry leaves a fault at issue. -/
theorem State.onCore_refused (f : CEnv → CRes → CRes)
    (hf : ∀ e r, r.k.run.entries = [] → (issueOne e i r).k.run.entries = [] → f e r = issueOne e i r) :
    ∃ t, s.onCore c f = .next t ∧ faultsAt s t c code := by
  have hone := issueOne_eng_fault (s.cenv c) i (CRes.of (s.core c) s.fc) code hheld hcur hp
  refine ⟨_, State.onCore_live s c _ hlive, ?_⟩
  refine State.faultsAt_runCore s c _ { code := code, unit := 0, tag := 0#16 } (halt_none_of_not_issueHeld hheld) hcur.2 ?_
  rw [hf _ _ hen (by rw [hone]; exact hen), hone]

theorem State.slotStep_refused (g : Eng) (ready : ReadyF) (run : ExecF) :
    ∃ t, s.onCore c (fun e r => slotStep e g i ready run r) = .next t ∧ faultsAt s t c code :=
  State.onCore_refused hlive hheld hen hcur hp _ fun e r h h1 => by simp [slotStep, h, h1, headEntry]

theorem State.mmStep_refused (arr : Bool) :
    ∃ t, s.onCore c (fun e r => mmStep e arr i r) = .next t ∧ faultsAt s t c code :=
  State.onCore_refused hlive hheld hen hcur hp _ fun e r h h1 => by simp [mmStep, h, h1, headEntry]

omit hheld hen hcur hp in
/-- While the governor holds no paced work, a carry instruction goes the way of the other engines' (R55). -/
theorem State.onCarry_paced (run : ExecF) : s.onCarry c i run = s.onCore c (fun e r => slotStep e .carry i always run r) := by
  have hhold : s.pwr.hold = false := by
    simp only [State.livePaced, Bool.and_eq_true, Bool.not_eq_true'] at hlive
    exact hlive.2
  simp [State.onCarry, hhold]

theorem State.onCarry_refused (run : ExecF) : ∃ t, s.onCarry c i run = .next t ∧ faultsAt s t c code := by
  rw [State.onCarry_paced hlive]
  exact State.slotStep_refused hlive hheld hen hcur hp .carry always run

end

end Sys2Proof.Machine
end

section
open Sys2Proof Sys2Proof.Machine

/-- Settles O13: each instruction's plan is one of the vector engine. -/
theorem vectorMemoryRuns : Obligations.VectorMemoryRuns := by
  intro s c h
  refine ⟨fun f p ha hr => ?_, fun f p ha hr => ?_, fun ctx kind carry va p ha hr => ?_, fun ctx va m p ha hr => ?_,
    fun ctx a rn p ha hr => ?_, fun ctx tov vd sm comp p ha hr => ?_, fun arr g sm p ha hr => ?_⟩
  · exact h.runs ha (ha.vec (planMem_for _ _ _ _ _) rfl) hr _
  · exact h.runs ha (ha.vec (planMem_for _ _ _ _ _) rfl) hr _
  · exact h.runs ha (ha.vec (.ite .fault (.go rfl)) rfl) hr _
  · exact h.runs ha (ha.vec (.go rfl) rfl) hr _
  · exact h.runs ha (ha.vec (.ite .fault (.checked rfl)) rfl) hr _
  · exact h.runs ha (ha.vec (.ite .fault (.go rfl)) rfl) hr _
  · exact h.runs ha (ha.vec (.go rfl) rfl) hr _

/-- Settles O16: a plan that is a fault is one at issue, whichever engine the instruction is for. -/
theorem engineFaultsAtIssue : Obligations.EngineFaultsAtIssue := by
  intro s c code hlive hheld hen hcur
  have slot (i : Instr) (hp) := fun g ready run => State.slotStep_refused (i := i) (code := code) hlive hheld hen hcur hp g ready run
  have mm (i : Instr) (hp) := State.mmStep_refused (i := i) (code := code) hlive hheld hen hcur hp
  have carry (i : Instr) (hp) := State.onCarry_refused (i := i) (code := code) hlive hheld hen hcur hp
  refine ⟨?_, ?_, ?_, ?_, ?_, ?_, ?_, ?_, ?_, ?_, ?_, ?_, ?_, ?_, ?_, ?_, ?_, ?_, ?_, ?_, ?_, ?_, ?_, ?_, ?_⟩
  · exact fun f hp => slot (.vld c f) hp _ _ _
  · exact fun f hp => slot (.vst c f) hp _ _ _
  · exact fun sm va l hp => slot (.vext c sm va l) hp _ _ _
  · exact fun vd va n dir rot hp => slot (.lsh c vd va n dir rot) hp _ _ _
  · exact fun ctx kind carry va hp => slot (.rinit c ctx kind carry va) hp _ _ _
  · exact fun ctx a rn hp => slot (.rfeedm c ctx a rn) hp _ _ _
  · exact fun arr f hp => mm (.mac c arr f) hp arr
  · exact fun arr f hp => mm (.sqd c arr f) hp arr
  · exact fun arr f hp => mm (.abd c arr f) hp arr
  · exact fun arr f hp => mm (.minp c arr f) hp arr
  · exact fun arr f hp => mm (.maxp c arr f) hp arr
  · exact fun arr f hp => mm (.wout c arr f) hp arr
  · exact fun arr f hp => mm (.woutg c arr f) hp arr
  · exact fun f hp => slot (.sfev c f) hp _ _ _
  · exact fun f hp => slot (.gact c f) hp _ _ _
  · exact fun f hp => slot (.smaxt c f) hp _ _ _
  · exact fun g hp => slot (.tload c g) hp _ _ _
  · exact fun ctx en rn sm eps hp => slot (.rmsf c ctx en rn sm eps) hp _ _ _
  · exact fun f hp => carry (.cstep c f) hp _
  · exact fun f hp => carry (.cadj c f) hp _
  · exact fun b rt hp => carry (.ckgen c b rt) hp _
  · exact fun f hp => carry (.cset c f) hp _
  · exact fun f hp => carry (.cget c f) hp _
  · exact fun f hp => carry (.ccmp c f) hp _
  · exact fun id hp => carry (.creset c id) hp _

end

section
/-! Contiguous loads and stores of the local store (R231, R234, R308). -/

namespace Sys2Proof.Machine

/-! ### Runs of writes -/

/-- Words of `w` bytes written at places that do not overlap: each reads back, every other byte stays. -/
theorem Memory.foldl_setNat {ι : Type} (addr val : ι → Nat) (w : Nat) : ∀ (l : List ι) (m : Memory),
    l.Pairwise (fun x y => addr x + w ≤ addr y ∨ addr y + w ≤ addr x) →
      (∀ x ∈ l, Memory.nat (l.foldl (fun m x => Memory.setNat m (addr x) w (val x)) m) (addr x) w = val x % 256 ^ w)
      ∧ ∀ b, (∀ x ∈ l, b < addr x ∨ addr x + w ≤ b) →
          Memory.byte (l.foldl (fun m x => Memory.setNat m (addr x) w (val x)) m) b = Memory.byte m b
  | [], _, _ => ⟨by simp, fun _ _ => rfl⟩
  | x :: l, m, hd => by
    obtain ⟨hx, hl⟩ := List.pairwise_cons.mp hd
    obtain ⟨hread, hkeep⟩ := Memory.foldl_setNat addr val w l (Memory.setNat m (addr x) w (val x)) hl
    refine ⟨fun y hy => ?_, fun b hb => ?_⟩
    · rcases List.mem_cons.mp hy with rfl | hy
      · rw [List.foldl_cons, ← Memory.nat_setNat w m (addr y) (val y)]
        refine Memory.nat_congr _ _ w (addr y) fun i hi => hkeep _ fun z hz => ?_
        rcases hx z hz with h | h <;> omega
      · exact hread y hy
    · rw [List.foldl_cons, hkeep b fun y hy => hb y (List.mem_cons_of_mem _ hy)]
      exact Memory.byte_setNat_ne w m _ _ b (hb x List.mem_cons_self)

/-- FP32 elements stored one after another (R80, R308): a write of four bytes each, without flags. -/
theorem storeElems_fp32 {ι : Type} (o : Opnd) (ho : o.fmt = 0) (f : VMem) (sc ls : Memory) (l : List ι) (place : ι → Nat × ElemAt)
    (v : ι → W32) (hp : ∀ x, (place x).2.pad = false) :
    storeElems o f sc ls (l.map place) (l.map v)
      = (l.foldl (fun m x => Memory.setNat m (place x).2.byte 4 (v x).toNat) ls, 0#6) := by
  have hfold : ∀ (l : List ι) (m : Memory), (l.map (fun x => (place x, v x))).foldl (fun (acc : Memory × Fl) (x : (Nat × ElemAt) × W32) =>
        (Memory.setNat acc.1 x.1.2.byte 4 x.2.toNat, acc.2)) (m, 0#6)
      = (l.foldl (fun m x => Memory.setNat m (place x).2.byte 4 (v x).toNat) m, 0#6) := by
    intro l
    induction l with
    | nil => exact fun _ => rfl
    | cons x l ih => exact fun m => ih _
  have hvs : (((l.map place).zip (l.map v)).map (fun x => if x.1.2.pad then 0#32 else x.2)) = l.map v := by
    simp [List.zip_map', hp]
  have hob : fmtOb 0 = false := rfl
  simp only [storeElems, hvs, ho, hob, storeFp32, putElem, fmtBits]
  simpa [List.zip_map'] using hfold l ls

/-! ### The access -/

section
variable (f : VMem) (L sra : Nat) (hmode : f.mode = 0#2)
include hmode

/-- Lane `i` of a contiguous form lies `i` elements behind ADDR + SR (R308). -/
theorem memLane_contiguous (i : Nat) :
    memLane L f sra i = ((4 * (f.w1.toNat % 65536 + sra % 65536) + i * (fmtBits f.fmt.toNat / 8) : Nat) : Int) := by
  simp [memLane, hmode, fld]

omit hmode in
theorem foldl_min_rising (g : Nat → Int) (hg : ∀ i j, i ≤ j → g i ≤ g j) : ∀ n, ((List.range n).map g).foldl min (g 0) = g 0
  | 0 => rfl
  | n + 1 => by
    rw [List.range_succ, List.map_append, List.foldl_append, foldl_min_rising g hg n]
    exact Int.min_eq_left (hg 0 n (Nat.zero_le n))

omit hmode in
theorem foldl_max_rising (g : Nat → Int) (hg : ∀ i j, i ≤ j → g i ≤ g j) : ∀ n, ((List.range (n + 1)).map g).foldl max (g 0) = g n
  | 0 => by simp
  | n + 1 => by
    rw [List.range_succ, List.map_append, List.foldl_append, foldl_max_rising g hg n]
    exact Int.max_eq_right (hg n (n + 1) (Nat.le_succ n))

/-- A contiguous form accesses the bytes from its first lane's to its last lane's. -/
theorem memAccs_contiguous (wr : Bool) :
    memAccs (L + 1) wr f sra = [{
      wr := wr, lo := ((4 * (f.w1.toNat % 65536 + sra % 65536) : Nat) : Int),
      hi := ((4 * (f.w1.toNat % 65536 + sra % 65536) + (L + 1) * (fmtBits f.fmt.toNat / 8) : Nat) : Int),
      segs := if wr then ((List.range (L + 1)).map (memLane (L + 1) f sra)).map (fun x => (x.toNat, fmtBits f.fmt.toNat / 8)) else [] }] := by
  have hrise : ∀ i j, i ≤ j → memLane (L + 1) f sra i ≤ memLane (L + 1) f sra j := by
    intro i j hij
    rw [memLane_contiguous f _ sra hmode, memLane_contiguous f _ sra hmode]
    have := Nat.mul_le_mul_right (fmtBits f.fmt.toNat / 8) hij
    omega
  have hhead : ((List.range (L + 1)).map (memLane (L + 1) f sra)).headD 0 = memLane (L + 1) f sra 0 := by
    rw [List.range_succ_eq_map]
    rfl
  simp only [memAccs, hmode, hhead, foldl_min_rising _ hrise, foldl_max_rising _ hrise]
  simp only [memLane_contiguous f _ sra hmode]
  rw [Nat.zero_mul, Nat.add_zero, Nat.add_mul L, Nat.one_mul, ← Nat.add_assoc, Int.natCast_add (_ + _) (fmtBits _ / 8)]
  rfl

end

/-! ### The plan -/

/-- A contiguous form of a format that needs no MODX is planned once its access passes the checks (R231, R250). -/
theorem planMem_contiguous (e : CEnv) (k : Core) (ls : Memory) (st : Bool) (f : VMem) (hd : f.d = false) (hmode : f.mode = 0#2)
    (hfmt : f.fmt.toNat ≤ 3) :
    planMem e k ls st f = planChecked k
      { (if st then { eng := .vec, rd := vres e k f.v.toNat } else { eng := .vec, wr := vres e k f.v.toNat } : Plan) with
        accs := memAccs e.L st f (k.cur.sreg f.ra.toNat).toNat, sr := [k.cur.sreg f.ra.toNat] } := by
  have hbad : ¬ (fmtOb f.fmt.toNat = true ∨ 7 ≤ f.fmt.toNat ∨ (f.fmt.toNat = 6 ∧ (!modxOk f.modx.toNat) = true)) := by
    have hob : fmtOb f.fmt.toNat = false := by
      simp only [fmtOb, Bool.or_eq_false_iff, beq_eq_false_iff_ne]
      omega
    rw [hob]
    rintro (h | h | ⟨h, -⟩)
    · cases h
    · omega
    · omega
  have h3 : ¬ f.mode.toNat = 3 := by simp [hmode]
  have h2 : ¬ f.mode.toNat = 2 := by simp [hmode]
  dsimp only [planMem]
  rw [if_neg (by simp [hd]), if_neg h3, if_neg hbad, if_neg (fun h => h2 h.1)]

/-- The lanes of the build are a positive number. -/
theorem CEnv.exists_L (e : CEnv) : ∃ n, e.L = n + 1 := by
  unfold CEnv.L
  split
  · exact ⟨63, rfl⟩
  · exact ⟨31, rfl⟩

/-- Loads of the FP formats and of 40-bit words do not look at MODX's F (R82). -/
theorem loadFp32_noF {fmt : Nat} (h : fmt ≤ 3) (rm : RM) (f : Int) (bits : Nat) : loadFp32 fmt rm f bits = loadFp32 fmt rm 0 bits := by
  unfold loadFp32
  split
  · rfl
  · omega
  · rfl

/-! ### Loads and stores -/

theorem zipIdx_map_range {α : Type} (g : Nat → α) (n : Nat) : ((List.range n).map g).zipIdx = (List.range n).map (fun i => (g i, i)) := by
  refine List.ext_getElem (by simp) fun i h1 h2 => ?_
  simp

/-- The access of a contiguous form lies in the store (R231). -/
theorem Acc.ok_memAccs (f : VMem) (L sra : Nat) (wr : Bool) (hmode : f.mode = 0#2)
    (hend : 4 * (f.w1.toNat % 65536 + sra % 65536) + (L + 1) * (fmtBits f.fmt.toNat / 8) ≤ 196608) :
    (memAccs (L + 1) wr f sra).any (fun a => !a.ok) = false := by
  have hhi : ((4 * (f.w1.toNat % 65536 + sra % 65536) + (L + 1) * (fmtBits f.fmt.toNat / 8) : Nat) : Int) ≤ (lsBytes : Nat) :=
    Int.ofNat_le.mpr hend
  have hlo : (0 : Int) ≤ ((4 * (f.w1.toNat % 65536 + sra % 65536) : Nat) : Int) := Int.natCast_nonneg _
  rw [memAccs_contiguous f L sra hmode]
  simp only [List.any_cons, List.any_nil, Bool.or_false, Acc.ok, decide_eq_true hlo, decide_eq_true hhi]
  rfl

/-- A read never hits a kept range (R250). -/
theorem Acc.hitsKept_read (t : Sp Kept) (a : Acc) (h : a.wr = false) : a.hitsKept t = false := by
  simp [Acc.hitsKept, h]

/-- What a contiguous load names at issue. -/
def vldPlan (e : CEnv) (k : Core) (f : VMem) : Plan :=
  let sra := k.cur.sreg f.ra.toNat
  { eng := .vec, wr := vres e k f.v.toNat, sr := [sra], accs := memAccs e.L false f sra.toNat }

/-- What a contiguous store names at issue. -/
def vstPlan (e : CEnv) (k : Core) (f : VMem) : Plan :=
  let sra := k.cur.sreg f.ra.toNat
  { eng := .vec, rd := vres e k f.v.toNat, sr := [sra], accs := memAccs e.L true f sra.toNat }

section
variable (e : CEnv) (k : Core) (f : VMem) (c : CoreNo) (hd : f.d = false) (hmode : f.mode = 0#2)
  (hend : 4 * (f.w1.toNat % 65536 + (k.cur.sreg f.ra.toNat).toNat % 65536) + e.L * (fmtBits f.fmt.toNat / 8) ≤ 196608)
include hd hmode hend

/-- A contiguous form whose access is inside the store and on no kept range is planned (R231, R250, R308). -/
theorem planMem_go (st : Bool) (hfmt : f.fmt.toNat ≤ 3)
    (hkept : (memAccs e.L st f (k.cur.sreg f.ra.toNat).toNat).any (Acc.hitsKept k.cur.kept) = false) (ls : Memory) :
    planMem e k ls st f = .go (if st then vstPlan e k f else vldPlan e k f) := by
  obtain ⟨n, hn⟩ := e.exists_L
  have hok : (memAccs e.L st f (k.cur.sreg f.ra.toNat).toNat).any (fun a => !a.ok) = false := by
    rw [hn] at hend ⊢
    exact Acc.ok_memAccs f n _ st hmode hend
  rw [planMem_contiguous e k ls st f hd hmode hfmt]
  simp only [planChecked, accFault, hok, hkept, Bool.false_eq_true, if_false]
  cases st <;> rfl

theorem planEng_vld (hfmt : f.fmt.toNat ≤ 3) : planEng e k k.st.ls (.vld c f) = some (.go (vldPlan e k f)) := by
  have hkept : (memAccs e.L false f (k.cur.sreg f.ra.toNat).toNat).any (Acc.hitsKept k.cur.kept) = false := by
    obtain ⟨n, hn⟩ := e.exists_L
    rw [hn, memAccs_contiguous f n _ hmode]
    simp [Acc.hitsKept_read]
  simp only [planEng, planVec, planMem_go e k f hd hmode hend false hfmt hkept]
  rfl

end

/-- A contiguous form holds one range of the local store (R242). -/
theorem readRanges_memAccs (e : CEnv) (f : VMem) (sra : Nat) (hmode : f.mode = 0#2) (wr : Bool) :
    ∃ r, readRanges (memAccs e.L wr f sra) = (if wr then [] else [r]) ∧ writeRanges (memAccs e.L wr f sra) = if wr then [r] else [] := by
  obtain ⟨n, hn⟩ := e.exists_L
  rw [hn, memAccs_contiguous f n sra hmode]
  cases wr <;> simp [readRanges, writeRanges, lsRanges]

theorem length_filter_isLs_eq_zero {l : List Res} (h : ∀ x ∈ l, isLs x = false) : (l.filter isLs).length = 0 := by
  rw [List.filter_eq_nil_iff.mpr fun x hx => by simp [h x hx]]
  rfl

/-- A contiguous load runs and writes every lane with its element (R308). -/
theorem State.fresh.vld_contiguous {s : State} {c : CoreNo} (h : s.fresh c) (f : VMem) (hd : f.d = false) (hmode : f.mode = 0#2)
    (hfmt : f.fmt.toNat ≤ 3) (a w : Nat) (ha : a = 4 * (f.w1.toNat % 65536 + ((s.core c).cur.sreg f.ra.toNat).toNat % 65536))
    (hw : w = fmtBits f.fmt.toNat / 8) (hend : a + s.lanes * w ≤ 196608) :
    ∃ t, exec (.vld c f) s = .next t ∧ laneResult s t c f.v.toNat 0 (fun i =>
      loadFp32 f.fmt.toNat (RM.ofCode (f.modx.toNat % 4)) 0 (Memory.nat (s.core c).st.ls (a + i * w) w)) := by
  subst ha hw
  have hplan := planEng_vld (s.cenv c) (s.core c) f c hd hmode hend hfmt
  obtain ⟨r, hrd, hwr⟩ := readRanges_memAccs (s.cenv c) f ((s.core c).cur.sreg f.ra.toNat).toNat hmode false
  have hrun : s.VecRun c (.vld c f) (vldPlan (s.cenv c) (s.core c) f) := by
    obtain ⟨-, -, -, -, -, -, -, hord, -⟩ := h
    refine ⟨⟨hplan, ?_, rfl, rfl, Nat.le_of_lt hord⟩, rfl, rfl, rfl, ?_⟩
    · simp only [Plan.ranges, vldPlan, hrd, hwr, List.nil_append, if_false, Bool.false_eq_true, List.append_nil,
        length_filter_isLs_eq_zero (isLs_vres _ _ _)]
      exact Nat.le_trans (List.length_filter_le _ _) (by simp)
    · simp only [vldPlan, hwr, if_false, Bool.false_eq_true, List.append_nil]
      exact isLs_vres _ _ _
  refine hrun.lanesFlags h popReady (vldRun f) 0 f.v.toNat 0 _ rfl ?_
  rw [CoreArch.active_zero]
  simp only [vldRun, Plan.head, Plan.entry, vldPlan, Entry.q0, List.headD_nil, zipIdx_map_range, List.map_map, Function.comp_def,
    memLane_contiguous f _ _ hmode, Int.toNat_natCast, loadFp32_noF hfmt _ (modxF f.modx.toNat)]
  rfl

theorem planEng_vst (e : CEnv) (k : Core) (f : VMem) (c : CoreNo) (hd : f.d = false) (hmode : f.mode = 0#2) (hfmt : f.fmt = 0#3)
    (hend : 4 * (f.w1.toNat % 65536 + (k.cur.sreg f.ra.toNat).toNat % 65536) + 4 * e.L ≤ 196608)
    (hfree : ∀ i, i < e.L → inKept k.cur.kept ((4 * (f.w1.toNat % 65536 + (k.cur.sreg f.ra.toNat).toNat % 65536) + 4 * i) / 32) = false) :
    planEng e k k.st.ls (.vst c f) = some (.go (vstPlan e k f)) := by
  have hw : fmtBits f.fmt.toNat / 8 = 4 := by rw [hfmt]; rfl
  have hkept : (memAccs e.L true f (k.cur.sreg f.ra.toNat).toNat).any (Acc.hitsKept k.cur.kept) = false := by
    obtain ⟨n, hn⟩ := e.exists_L
    rw [hn] at hfree ⊢
    rw [memAccs_contiguous f n _ hmode]
    simp only [List.any_cons, List.any_nil, Bool.or_false, Acc.hitsKept, Bool.true_and, if_true, List.map_map, List.any_map, hw]
    refine List.any_eq_false.mpr fun i hi hany => ?_
    have hfi := hfree i (List.mem_range.mp hi)
    obtain ⟨x, hx, hm⟩ := List.any_eq_true.mp hany
    simp only [Function.comp_apply, memLane_contiguous f _ _ hmode, Int.toNat_natCast, hw, Bool.and_eq_true, decide_eq_true_eq] at hm
    simp only [inKept, List.any_eq_false, Bool.and_eq_true, decide_eq_true_eq] at hfi
    exact hfi x hx (by omega)
  have hmem := planMem_go e k f hd hmode (by rw [hw]; omega) true (by rw [hfmt]; decide) hkept k.st.ls
  simp only [planEng, planVec, hmem]
  rfl

/-- An entry that has run and left leaves the sequencer as after any issue (R301). -/
theorem State.enteredAs_drop (s : State) (c : Nat) (i : Instr) (p : Plan) (hen : (s.core c).run.entries = []) (hs : streamIds i = [])
    (hm : p.msgs = 0) : (s.enteredAs c i p).k.run.drop (p.head (s.cenv c) i (s.core c)).seq = (s.core c).run.issued 2 := by
  simp [State.enteredAs, Plan.entered, CRes.run, CRes.of, CoreRun.issued, CoreRun.drop, hen, hs, hm, takeIds, Plan.head, Plan.entry]

/-- The end of a vector instruction: its entry leaves, its local-store writes are no landing data any more, and its counters count. -/
theorem vecDone_eq (b : Nat) (h : Entry) (r : CRes) : ∃ pf ld fc', vecDone b h r =
    { r with k := { r.k with run := r.k.run.drop h.seq, st := { r.k.st with perf := pf, landing := ld } }, fc := fc' } :=
  ⟨_, _, _, rfl⟩

/-- The local store after a contiguous FP32 store of an operand's lanes from byte `a` on. -/
def Core.lsStored (k : Core) (L : Nat) (win : Sp Nat) (v a : Nat) : Memory :=
  (List.range L).foldl (fun m i => Memory.setNat m (a + 4 * i) 4 (k.cur.lane L win v i).toNat) k.st.ls

/-- The run of a contiguous FP32 store writes its lanes' words one after another. -/
theorem vstRun_contiguous (f : VMem) (e : CEnv) (h : Entry) (r : CRes) (sra : W64) (hmode : f.mode = 0#2) (hfmt : f.fmt = 0#3)
    (hops : h.ops = []) (hsr : h.sr = [sra]) :
    vstRun f e h r = vecDone 0 h (r.st fun x =>
      { x with ls := r.k.lsStored e.L h.win f.v.toNat (4 * (f.w1.toNat % 65536 + sra.toNat % 65536)) }) := by
  have hbytes : fmtBits f.fmt.toNat / 8 = 4 := by rw [hfmt]; rfl
  have hstored := storeElems_fp32 { fmt := f.fmt.toNat } (by rw [hfmt]; rfl) f r.k.st.ls r.k.st.ls (List.range e.L)
    (fun i => (0, { byte := (memLane e.L f sra.toNat i).toNat, hi := false, xbyte := 0 }))
    (fun i => r.k.cur.lane e.L h.win f.v.toNat i) (fun _ => rfl)
  have hbyte (i : Nat) : (memLane e.L f sra.toNat i).toNat = 4 * (f.w1.toNat % 65536 + sra.toNat % 65536) + 4 * i := by
    rw [memLane_contiguous f _ _ hmode, Int.toNat_natCast, hbytes, Nat.mul_comm i]
  simp only [vstRun, hops, hsr, List.headD_cons]
  rw [hstored]
  simp only [hbyte, CRes.flags_zero, Core.lsStored]

/-- A contiguous FP32 store runs and writes its lanes' words, and nothing else of the block (R308). -/
theorem State.fresh.vst_contiguous {s : State} {c : CoreNo} (h : s.fresh c) (f : VMem) (hd : f.d = false) (hmode : f.mode = 0#2)
    (hfmt : f.fmt = 0#3) (a : Nat) (ha : a = 4 * (f.w1.toNat % 65536 + ((s.core c).cur.sreg f.ra.toNat).toNat % 65536))
    (hend : a + 4 * s.lanes ≤ 196608) (hfree : ∀ i, i < s.lanes → inKept (s.core c).cur.kept ((a + 4 * i) / 32) = false) :
    ∃ t, exec (.vst c f) s = .next t ∧ onlyCore s t c
      ∧ t.core c = { s.core c with run := (s.core c).run.issued 2, st := { (s.core c).st with
          ls := (t.core c).st.ls, perf := (t.core c).st.perf, landing := (t.core c).st.landing } }
      ∧ (t.core c).st.ls = (s.core c).lsStored s.lanes (s.core c).cur.win f.v.toNat a := by
  subst ha
  have hplan := planEng_vst (s.cenv c) (s.core c) f c hd hmode hfmt hend hfree
  obtain ⟨r, hrd, hwr⟩ := readRanges_memAccs (s.cenv c) f ((s.core c).cur.sreg f.ra.toNat).toNat hmode true
  have hadm : s.admits c (.vst c f) (vstPlan (s.cenv c) (s.core c) f) := by
    obtain ⟨-, -, -, -, -, -, -, hord, -⟩ := h
    refine ⟨hplan, ?_, rfl, rfl, Nat.le_of_lt hord⟩
    simp only [Plan.ranges, vstPlan, hrd, hwr, if_true, List.append_nil, List.nil_append, length_filter_isLs_eq_zero (isLs_vres _ _ _)]
    rw [Nat.zero_add]
    exact Nat.le_trans (List.length_filter_le _ _) (by simp)
  have hexec := h.runs (ready := always) hadm rfl rfl (vstRun f)
  obtain ⟨-, -, hen, -, -, -, -, -, -, hlate⟩ := h
  let head := (vstPlan (s.cenv c) (s.core c) f).head (s.cenv c) (.vst c f) (s.core c)
  let entered := s.enteredAs c (.vst c f) (vstPlan (s.cenv c) (s.core c) f)
  let M := (s.core c).lsStored s.lanes (s.core c).cur.win f.v.toNat
    (4 * (f.w1.toNat % 65536 + ((s.core c).cur.sreg f.ra.toNat).toNat % 65536))
  have hrun : vstRun f (s.cenv c) head entered = vecDone 0 head (entered.st (fun x => { x with ls := M })) :=
    vstRun_contiguous f (s.cenv c) head entered ((s.core c).cur.sreg f.ra.toNat) hmode hfmt rfl rfl
  obtain ⟨pf, ld, fc', hdone⟩ := vecDone_eq 0 head (entered.st (fun x => { x with ls := M }))
  have hdrop : entered.k.run.drop head.seq = (s.core c).run.issued 2 := s.enteredAs_drop c _ _ hen rfl rfl
  have hran : s.ran c (.vst c f) (vstPlan (s.cenv c) (s.core c) f) (vstRun f)
      = { s.setCore c { s.core c with run := (s.core c).run.issued 2, st := { (s.core c).st with ls := M, perf := pf, landing := ld } }
          with fc := fc' } := by
    refine State.runCore_quiet s c _ _ fc' ?_ rfl hlate
    rw [← hdrop]
    exact hrun.trans hdone
  refine ⟨_, hexec, ?_⟩
  have hcore : (s.ran c (.vst c f) (vstPlan (s.cenv c) (s.core c) f) (vstRun f)).core c = _ :=
    (congrArg (fun t => State.core t c) hran).trans (State.core_setCore_same s c _)
  refine ⟨⟨by rw [hran]; rfl, fun d hd => by rw [hran]; exact State.core_setCore_ne s _ hd⟩, ?_, ?_⟩ <;> rw [hcore]

end Sys2Proof.Machine
end

section
open Sys2Proof Sys2Proof.Machine

/-- Settles O14: a load's lanes, and what a store's words leave. -/
theorem vectorContiguousMemory : Obligations.VectorContiguousMemory := by
  intro s c f h hd hmode
  refine ⟨fun hfmt hend => h.vld_contiguous f hd hmode hfmt _ _ rfl rfl hend, fun hfmt hend hfree => ?_⟩
  obtain ⟨t, hexec, honly, hcore, hls⟩ := h.vst_contiguous f hd hmode hfmt _ rfl hend fun i hi => hfree _ (by omega) (by omega)
  have hapart : (List.range s.lanes).Pairwise (fun i j =>
      4 * (f.w1.toNat % 65536 + ((s.core c).cur.sreg f.ra.toNat).toNat % 65536) + 4 * i + 4
        ≤ 4 * (f.w1.toNat % 65536 + ((s.core c).cur.sreg f.ra.toNat).toNat % 65536) + 4 * j
      ∨ 4 * (f.w1.toNat % 65536 + ((s.core c).cur.sreg f.ra.toNat).toNat % 65536) + 4 * j + 4
        ≤ 4 * (f.w1.toNat % 65536 + ((s.core c).cur.sreg f.ra.toNat).toNat % 65536) + 4 * i) :=
    List.nodup_range.imp fun hij => by omega
  obtain ⟨hread, hkeep⟩ := Memory.foldl_setNat _ (fun i => ((s.core c).cur.lane s.lanes (s.core c).cur.win f.v.toNat i).toNat) 4 _
    (s.core c).st.ls hapart
  refine ⟨t, hexec, honly, hcore, fun i hi => ?_, fun b hb => ?_⟩
  · rw [hls, Memory.w32, Core.lsStored, hread i (List.mem_range.mpr hi)]
    apply BitVec.eq_of_toNat_eq
    have := ((s.core c).cur.lane s.lanes (s.core c).cur.win f.v.toNat i).isLt
    simp only [BitVec.toNat_ofNat]
    omega
  · rw [hls]
    exact hkeep b fun i hi => by have := List.mem_range.mp hi; omega

end

section
/-! Reduction contexts and tile pops (R131, R144, R147 to R149). -/

namespace Sys2Proof.Machine

/-- FP32 sum of the elements of a list onto a start value, with the flags of the additions (R131). -/
theorem feedAll_sum (xs : List W32) : ∀ (cx : RCtx) (fl : Fl), cx.kind = 0 →
    let f := xs.foldl (fun (p : W32 × Fl) x =>
      let q := fp32Op2 .rne (FV.add .rne) p.1 x
      (q.1, p.2 ||| q.2)) (cx.a, fl)
    ({ (feedAll cx xs).1 with a := f.1 } = (feedAll cx xs).1 ∧ (feedAll cx xs).1 = { cx with a := f.1 })
      ∧ f.2 = fl ||| (feedAll cx xs).2.1 ∧ (feedAll cx xs).2.2 = false := by
  induction xs with
  | nil => intro cx fl _; simp [feedAll]
  | cons x xs ih =>
    intro cx fl hk
    have hone : feedOne cx x
        = some ({ cx with a := (fp32Op2 .rne (FV.add .rne) cx.a x).1 }, (fp32Op2 .rne (FV.add .rne) cx.a x).2) := by
      simp [feedOne, hk]
    obtain ⟨⟨-, h1⟩, h2, h3⟩ := ih { cx with a := (fp32Op2 .rne (FV.add .rne) cx.a x).1 }
      (fl ||| (fp32Op2 .rne (FV.add .rne) cx.a x).2) hk
    simp only [feedAll, hone, List.foldl_cons]
    refine ⟨⟨?_, h1⟩, h2.trans (BitVec.or_assoc _ _ _), h3⟩
    rw [h1]

/-- TPOP takes the oldest tile (R144). -/
theorem tpopRun_cons (arr : Bool) (g sm : Nat) (e : CEnv) (h : Entry) (r : CRes) (tile : FinTile) (rest : List FinTile)
    (hfin : r.k.cur.fin arr = tile :: rest) :
    tpopRun arr g sm e h r = vecDone 0 h (r.cur (fun a => ((a.setFin arr rest).setCache g
      (if tile.fmt = 0 then tile.elems.map (BitVec.ofNat 32) else pack16 tile.elems)).setSm sm tile.flag)) := by
  simp only [tpopRun, hfin]

/-- An instruction that has issued heads its queue, and nothing stands in its way: it is tried (R241). -/
theorem slotStep_entered (e : CEnv) (g : Eng) (i : Instr) (p : Plan) (r : CRes) (ready : ReadyF) (run : ExecF) (he : r.k.run.entries = [])
    (hf : r.k.run.fq = []) (hq : r.k.run.eq = []) (hc : r.k.run.current) (hg : p.eng = g) (h1 : issueOne e i r = p.entered e i r) :
    slotStep e g i ready run r
      = if ready e (p.head e i r.k) (p.entered e i r).k then run e (p.head e i r.k) (p.entered e i r)
        else if p.pops.isEmpty then p.entered e i r else (p.entered e i r).waitsQ e (p.head e i r.k).seq := by
  have hhead : headEntry g (p.entered e i r).k.run.entries = some (p.head e i r.k) := by
    simp [headEntry, Plan.entered, CRes.run, Plan.head, Plan.entry, hg]
  have hnone : headEntry g r.k.run.entries = none := by simp [headEntry, he]
  have hfree := free_entered p e i r hf hq hc
  have hdead : (p.head e i r.k).dead = false := rfl
  have hpushes : (p.head e i r.k).pushes = [] := rfl
  have hpops : (p.head e i r.k).pops = p.pops := rfl
  have hinstr : (p.head e i r.k).instr = i := rfl
  simp [slotStep, hnone, h1, hhead, hinstr, tryRun, hfree, hdead, hpushes, hpops]

/-- An admitted instruction that is not ready and pops no item stays in its queue (R143). -/
theorem State.fresh.stays {s : State} {c : Nat} (h : s.fresh c) {i : Instr} {p : Plan} (ha : s.admits c i p) {g : Eng} (hg : p.eng = g)
    (ready : ReadyF) (run : ExecF) (hpops : p.pops = [])
    (hr : ready (s.cenv c) (p.head (s.cenv c) i (s.core c)) (s.enteredAs c i p).k = false) :
    s.onCore c (fun e r => slotStep e g i ready run r) = .next (s.setCore c (s.enteredAs c i p).k) := by
  have hi := Instr.queued_of_planEng ha.1
  obtain ⟨hlive, hheld, hen, hfq, heq, -, -, -, hcur⟩ := h
  obtain ⟨hplan, hranges, hres, hadm, hord⟩ := ha
  have hissue := issueOne_eng (s.cenv c) i p (CRes.of (s.core c) s.fc) hheld hen hfq heq hcur (hi.scal _ _) (fun q => hi.dmv _ q _)
    hi.cwait hi.tswitch hplan hranges hres hadm hord
  have hstep := slotStep_entered (s.cenv c) g i p (CRes.of (s.core c) s.fc) ready run hen hfq heq hcur hg hissue
  rw [State.onCore_live _ _ _ hlive]
  congr 1
  refine State.runCore_quiet s c _ (s.enteredAs c i p).k s.fc ?_ rfl hcur.2
  rw [hstep, hpops]
  exact if_neg (Bool.eq_false_iff.mp hr)

end Sys2Proof.Machine
end

section
open Sys2Proof Sys2Proof.Machine

/-- Settles O15: each instruction runs on its context, or on its tile. -/
theorem reductionContexts : Obligations.ReductionContexts := by
  intro s c ctx va h k cx
  refine ⟨fun kind hkind => ?_, fun vm => ⟨fun hk => ?_, fun hfit => ?_⟩, fun vd sm comp => ⟨?_, fun hcomp => ?_⟩, fun arr g sm => ⟨fun tile rest hfin => ?_, fun hfin => ?_⟩⟩
  · have hk7 : kind.toNat ≠ 7 := fun hk => hkind (BitVec.eq_of_toNat_eq hk)
    have hp := Instr.VecPlan.ofRes (e := s.cenv c) (k := s.core c) (i := .rinit c ctx kind false va) [] [.rctx ctx.toNat] [] rfl
      (by simp) (by simp [isLs]) (by simp [planEng, planVec, hk7])
    obtain ⟨t, hexec, honly, hran, -⟩ := (hp.vecRun h).arch h always (rinitRun ctx.toNat kind.toNat false va.toNat) 0 0#6
      (k.setRctx ctx.toNat { kind := kind.toNat }) rfl (by rw [CRes.flags_zero]; rfl)
    exact ⟨t, hexec, honly, hran⟩
  · obtain ⟨⟨-, h1⟩, h2, h3⟩ := feedAll_sum ((k.active s.lanes vm.toNat).map (fun i => k.lane s.lanes k.win va.toNat i)) cx 0#6 hk
    rw [BitVec.zero_or] at h2
    exact Prod.ext h1 (Prod.ext h2.symm h3)
  · have hp := Instr.VecPlan.ofRes (e := s.cenv c) (k := s.core c) (i := .rfeed c ctx va vm)
      (vres (s.cenv c) (s.core c) va.toNat ++ maskRes vm.toNat) [.rctx ctx.toNat] [] rfl
      (fun x hx => (List.mem_append.mp hx).elim (isLs_vres _ _ _ x) (isLs_maskRes _ x)) (by simp [isLs]) rfl
    obtain ⟨t, hexec, honly, hran, -⟩ := (hp.vecRun h).arch h always (rfeedRun ctx.toNat va.toNat vm.toNat) 0
      (feedAll cx ((k.active s.lanes vm.toNat).map (fun i => k.lane s.lanes k.win va.toNat i))).2.1
      (k.setRctx ctx.toNat (feedAll cx ((k.active s.lanes vm.toNat).map (fun i => k.lane s.lanes k.win va.toNat i))).1) rfl (by
        exact if_neg (Bool.eq_false_iff.mp hfit))
    exact ⟨t, hexec, honly, hran⟩
  · have hp := Instr.VecPlan.ofRes (e := s.cenv c) (k := s.core c) (i := .rread c ctx true vd sm comp) [.rctx ctx.toNat]
      (vres (s.cenv c) (s.core c) vd.toNat) [] rfl (by simp [isLs]) (isLs_vres _ _ _) (by simp [planEng, planVec])
    obtain ⟨t, hexec, honly, ⟨hcore, -⟩, hcur⟩ := (hp.vecRun h).arch h always (rreadRun ctx.toNat true vd.toNat sm.toNat comp.toNat) 0
      (flAll ((rctxComps cx).map (·.2)))
      (k.setLanes s.lanes k.win vd.toNat ((List.range s.lanes).map (fun i => (i, (nthD (rctxComps cx) i (0#32, 0#6)).1)))) rfl (by simp only [rreadRun, if_true]; rfl)
    obtain ⟨-, hin, -⟩ := setLanes_spec k s.lanes k.win vd.toNat (List.range s.lanes) (fun i => (nthD (rctxComps cx) i (0#32, 0#6)).1)
      (fun j hj => Nat.lt_of_lt_of_le (List.mem_range.mp hj) (CEnv.L_le (s.cenv c))) List.nodup_range
    refine ⟨t, hexec, honly, fun i hi => ?_, by rw [hcur]; rfl, by rw [hcore]⟩
    rw [hcur]
    exact hin i (List.mem_range.mpr hi)
  · have hkind : issueKind (s.core c) ctx.toNat = cx.kind := by
      obtain ⟨-, -, hen, -⟩ := h
      simp [issueKind, hen, cx, k]
    have hp := Instr.VecPlan.ofRes (e := s.cenv c) (k := s.core c) (i := .rread c ctx false vd sm comp) [.rctx ctx.toNat]
      [.sm sm.toNat] [] rfl (by simp [isLs]) (by simp [isLs]) (by simp [planEng, planVec, hkind, Nat.not_le.mpr hcomp])
    obtain ⟨t, hexec, honly, hran, -⟩ := (hp.vecRun h).arch h always (rreadRun ctx.toNat false vd.toNat sm.toNat comp.toNat) 0
      (nthD (rctxComps cx) comp.toNat (0#32, 0#6)).2 (k.setSm sm.toNat (nthD (rctxComps cx) comp.toNat (0#32, 0#6)).1) rfl (by simp only [rreadRun]; rfl)
    exact ⟨t, hexec, honly, hran⟩
  · have hp := Instr.VecPlan.ofRes (e := s.cenv c) (k := s.core c) (i := .tpop c arr g sm) [] (cacheRes g.toNat 32 ++ [.sm sm.toNat]) [] rfl
      (by simp) (fun x hx => (List.mem_append.mp hx).elim (isLs_cacheRes _ _ x) (by simp +contextual [isLs])) rfl
    obtain ⟨t, hexec, honly, hran, -⟩ := (hp.vecRun h).arch h (tpopReady arr) (tpopRun arr g.toNat sm.toNat) 0 0#6
      (((k.setFin arr rest).setCache g.toNat
              (if tile.fmt = 0 then tile.elems.map (BitVec.ofNat 32) else pack16 tile.elems)).setSm sm.toNat tile.flag)
      (congrArg (fun l => !List.isEmpty l) hfin) (by
        rw [CRes.flags_zero]
        exact tpopRun_cons arr g.toNat sm.toNat _ _ _ tile rest hfin)
    exact ⟨t, hexec, honly, hran⟩
  · have hp := Instr.VecPlan.ofRes (e := s.cenv c) (k := s.core c) (i := .tpop c arr g sm) [] (cacheRes g.toNat 32 ++ [.sm sm.toNat]) [] rfl
      (by simp) (fun x hx => (List.mem_append.mp hx).elim (isLs_cacheRes _ _ x) (by simp +contextual [isLs])) rfl
    refine ⟨_, h.stays (hp.admits h) rfl (tpopReady arr) (tpopRun arr g.toNat sm.toNat) rfl
      (congrArg (fun l => !List.isEmpty l) hfin), ?_, ?_⟩ <;> rw [State.core_setCore_same] <;> rfl

end

section
/-! The matrix arrays in a core with nothing else unfinished: a multiply or a write-out alone in its array's queue (R92, R96, R105). -/

namespace Sys2Proof.Machine

/-- The one entry of an array is neither dispatched nor pushing, and no batch is open: the array joins it to a batch or tries it (R96,
R105). -/
theorem matrixExecute_alone (e : CEnv) (arr : Bool) (r : CRes) (h : Entry) (hen : r.k.run.entries = [h]) (heng : h.eng = .arr arr)
    (hgroup : h.group = none) (hpush : h.pushes = []) (hbatch : r.k.run.batch arr = none) :
    matrixExecute e arr r = match (asMMul h.instr).filter (fun x => x.2.2.batch) with
      | some (_, _, f) => batchJoin arr f e h r
      | none => tryRun e h popReady (arrRun arr h.instr) r := by
  have hp : pushingEntry r.k.run arr = none := by simp [pushingEntry, hen, hpush]
  have hg : firstGroup r.k.run arr = none := by simp [firstGroup, hen, hgroup]
  have hh : headEntry (.arr arr) r.k.run.entries = some h := by simp [headEntry, hen, heng, hgroup]
  have hd : dispatchBatch e arr r = r := by simp [dispatchBatch, hbatch]
  unfold matrixExecute
  simp only [hp, hg, hh, hd]
  cases (asMMul h.instr).filter (fun x => x.2.2.batch) with
  | none => rfl
  | some x => rfl

/-- With nothing else unfinished nothing stands in the one entry's way (R241, R290). -/
theorem free_alone (k : Core) (h : Entry) (hen : k.run.entries = [h]) (hfq : k.run.fq = []) (heq : k.run.eq = [])
    (hcur : k.run.current) : h.free k = true := by
  obtain ⟨hmarks, hlate⟩ := hcur
  simp [Entry.free, mustWait, CoreRun.holds, CoreRun.engHolds, CoreRun.behind, hen, hfq, heq, hmarks, hlate]

theorem State.time_cenv (s : State) (c : Nat) : (s.cenv c).time = s.aon.tb := rfl

/-- A core operation carried to the block is what it leaves of the core. -/
theorem State.runCore_congr {s : State} {c : Nat} {f g : CEnv → CRes → CRes}
    (h : f (s.cenv c) (CRes.of (s.core c) s.fc) = g (s.cenv c) (CRes.of (s.core c) s.fc)) : s.runCore c f = s.runCore c g := by
  simp only [State.runCore, h]

section
variable {s : State} {c : Nat} {i : Instr} {p : Plan} {arr : Bool} (h : s.fresh c) (ha : s.admits c i p) (hg : p.eng = .arr arr)
include h ha hg

/-- A matrix instruction that is admitted issues and is given to its array (R96). -/
theorem State.fresh.mmStep :
    s.onCore c (fun e r => mmStep e arr i r) = .next (s.runCore c fun e r =>
      match (asMMul i).filter (fun x => x.2.2.batch) with
      | some (_, _, f) => batchJoin arr f e (p.head e i r.k) (p.entered e i r)
      | none => tryRun e (p.head e i r.k) popReady (arrRun arr i) (p.entered e i r)) := by
  have hi := Instr.queued_of_planEng ha.1
  obtain ⟨hlive, hheld, hen, hfq, heq, hbA, hbB, -, hcur⟩ := h
  obtain ⟨hplan, hranges, hres, hadm, hord⟩ := ha
  have hissue := issueOne_eng (s.cenv c) i p (CRes.of (s.core c) s.fc) hheld hen hfq heq hcur (hi.scal _ _) (fun q => hi.dmv _ q _)
    hi.cwait hi.tswitch hplan hranges hres hadm hord
  have hnone : headEntry (.arr arr) (CRes.of (s.core c) s.fc).k.run.entries = none := by simp [headEntry, CRes.of, hen]
  have hhead : headEntry (.arr arr) (p.entered (s.cenv c) i (CRes.of (s.core c) s.fc)).k.run.entries
      = some (p.head (s.cenv c) i (s.core c)) := by
    simp [headEntry, Plan.entered, CRes.run, CRes.of, Plan.head, Plan.entry, hg]
  have hbatch : (p.entered (s.cenv c) i (CRes.of (s.core c) s.fc)).k.run.batch arr = none := by
    cases arr
    · exact hbA
    · exact hbB
  have halone := matrixExecute_alone (s.cenv c) arr (p.entered (s.cenv c) i (CRes.of (s.core c) s.fc)) (p.head (s.cenv c) i (s.core c)) rfl
    hg rfl rfl hbatch
  rw [State.onCore_live _ _ _ hlive]
  refine congrArg _ (State.runCore_congr ?_)
  unfold Machine.mmStep
  simp only [hnone, hissue, hhead]
  exact (if_pos rfl).trans halone

/-- One that is no column of a batch, and for which every item has arrived, runs at once (R92, R118, R287). -/
theorem State.fresh.runsMatrix (hbatch : (asMMul i).filter (fun x => x.2.2.batch) = none) (hr : s.readyNow c i p popReady) :
    s.onCore c (fun e r => Machine.mmStep e arr i r) = .next (s.ran c i p (arrRun arr i)) := by
  rw [h.mmStep ha hg]
  obtain ⟨-, -, -, hfq, heq, -, -, -, hcur⟩ := h
  have hfree := free_entered p (s.cenv c) i (CRes.of (s.core c) s.fc) hfq heq hcur
  refine congrArg _ (State.runCore_congr ?_)
  simp only [hbatch, tryRun, hfree]
  simp only [Bool.not_true, Bool.or_false]
  exact (if_neg (by simp [Plan.head, Plan.entry])).trans ((if_neg (by simp [Plan.head, Plan.entry])).trans (if_pos hr))

/-- The core after a column has opened a batch with its fill deadline (R105, R107). -/
def State.batchOpened (s : State) (c : Nat) (arr : Bool) (i : Instr) (p : Plan) (k : Core) : Core :=
  let r := (p.entered (s.cenv c) i (CRes.of k s.fc)).k.run
  let col := { p.head (s.cenv c) i k with group := some r.nextGroup }
  let deadline := s.aon.tb + (s.cenv c).ticks (s.cenv c).fillDl
  { k with run := ({ r with nextGroup := r.nextGroup + 1, entries := [col] } : CoreRun).setBatch arr (some (r.nextGroup, deadline)) }

/-- A column opens a batch where none is open and the fill deadline is not 0 (R105, R107). -/
theorem State.fresh.opensBatch {op : MOp} {f : MMul} (hi : asMMul i = some (arr, op, f)) (hf : f.batch = true)
    (hdl : (s.cenv c).fillDl ≠ 0) :
    s.onCore c (fun e r => Machine.mmStep e arr i r) = .next (s.updCore c (s.batchOpened c arr i p)) := by
  have hcol : (asMMul i).filter (fun x => x.2.2.batch) = some (arr, op, f) := by simp [hi, hf]
  rw [h.mmStep ha hg]
  obtain ⟨-, -, -, -, -, hbA, hbB, -, hmarks, hlate⟩ := h
  have hbatch : (p.entered (s.cenv c) i (CRes.of (s.core c) s.fc)).k.run.batch arr = none := by
    cases arr
    · exact hbA
    · exact hbB
  have hjoin : batchJoin arr f (s.cenv c) (p.head (s.cenv c) i (s.core c)) (p.entered (s.cenv c) i (CRes.of (s.core c) s.fc))
      = { k := s.batchOpened c arr i p (s.core c), fc := s.fc, outs := [] } := by
    have hbehind : (p.entered (s.cenv c) i (CRes.of (s.core c) s.fc)).k.run.behind (p.head (s.cenv c) i (s.core c)).seq = false := by
      simp [Plan.entered, CRes.run, CRes.of, CoreRun.behind, CoreRun.issued, hmarks]
    have hdead : (p.head (s.cenv c) i (s.core c)).dead = false := rfl
    simp only [batchJoin, hbatch, dispatchBatch, hbehind, hdead, List.any_nil, Bool.false_and, Bool.or_false, Bool.false_eq_true, if_false,
      hdl, Bool.and_false]
    cases arr <;> simp [CRes.run, CoreRun.setEntry, CoreRun.setBatch, State.batchOpened, Plan.entered, CRes.of, State.time_cenv]
  congr 1
  refine (State.runCore_quiet s c _ (s.batchOpened c arr i p (s.core c)) s.fc ?_ ?_ ?_).trans ?_
  · simp only [hcol]
    exact hjoin
  · cases arr <;> rfl
  · cases arr <;> exact hlate
  · rfl

end
end Sys2Proof.Machine
end

section
open Sys2Proof Sys2Proof.Machine

/-- Settles O17: each instruction's plan is one of its array. -/
theorem matrixRuns : Obligations.MatrixRuns := by
  intro s c arr f g p h
  have multiplies (i : Instr) (op : MOp) (hi : asMMul i = some (arr, op, f)) (hrun : arrRun arr i = mmulRun arr op f)
      (hplan : planEng (s.cenv c) (s.core c) (s.core c).st.ls i = some (planMMul (s.cenv c) (s.core c) (s.core c).st.ls arr op f))
      (ha : s.admits c i p) :
      (f.batch = false → s.readyNow c i p popReady →
        s.onCore c (fun e r => mmStep e arr i r) = .next (s.ran c i p (mmulRun arr op f)))
      ∧ (f.batch = true → (s.cenv c).fillDl ≠ 0 →
        s.onCore c (fun e r => mmStep e arr i r) = .next (s.updCore c (s.batchOpened c arr i p))) := by
    have heng := ha.eng hplan (planMMul_for _ _ _ _ _ _)
    refine ⟨fun hb hr => ?_, fun hb hdl => h.opensBatch ha heng hi hb hdl⟩
    rw [← hrun]
    exact h.runsMatrix ha heng (by simp [hi, hb]) hr
  refine ⟨?_, ?_, ?_, ?_, ?_, fun ha hr => ?_, fun ha hr => ?_⟩
  · exact multiplies (.mac c arr f) .mac rfl rfl rfl
  · exact multiplies (.sqd c arr f) .sqd rfl rfl rfl
  · exact multiplies (.abd c arr f) .abd rfl rfl rfl
  · exact multiplies (.minp c arr f) .minp rfl rfl rfl
  · exact multiplies (.maxp c arr f) .maxp rfl rfl rfl
  · exact h.runsMatrix ha (ha.eng rfl (planWOut_for _ _ _ _ _ _)) rfl hr
  · exact h.runsMatrix ha (ha.eng rfl (planWOut_for _ _ _ _ _ _)) rfl hr

end

section
/-! What a matrix multiply leaves in its array's accumulator (R89, R104, R111, R117, R120, R125). -/

namespace Sys2Proof.Machine

/-! ### Tiles and their elements -/

/-- Element (m, n) is among the covered ones of its tile (R89). -/
theorem mem_covered (base M N m n : Nat) (hm : m < M) (hn : n < N) : (m, n, posOf m n) ∈ covered base M N (tileOf base N m n) := by
  have hc : 0 < cdiv N 32 := by simp only [cdiv]; omega
  have hlt : n / 32 < cdiv N 32 := by simp only [cdiv]; omega
  have hsub : tileOf base N m n - base = n / 32 + m / 8 * cdiv N 32 := by simp only [tileOf]; omega
  have hdiv : (tileOf base N m n - base) / cdiv N 32 = m / 8 := by
    rw [hsub, Nat.add_mul_div_right _ _ hc, Nat.div_eq_of_lt hlt, Nat.zero_add]
  have hmod : (tileOf base N m n - base) % cdiv N 32 = n / 32 := by
    rw [hsub, Nat.add_mul_mod_self_right, Nat.mod_eq_of_lt hlt]
  simp only [covered, hdiv, hmod, List.mem_flatMap, List.mem_map, List.mem_range]
  exact ⟨m % 8, Nat.lt_min.mpr ⟨by omega, by omega⟩, n % 32, Nat.lt_min.mpr ⟨by omega, by omega⟩, by
    rw [Nat.div_add_mod, Nat.div_add_mod, posOf]⟩

/-- The tile of a covered element is one of the instruction's. -/
theorem tileOf_lt (base M N m n : Nat) (hm : m < M) (hn : n < N) : tileOf base N m n < base + tileCount M N := by
  have hlt : n / 32 < cdiv N 32 := by simp only [cdiv]; omega
  have hrow : m / 8 + 1 ≤ cdiv M 8 := by simp only [cdiv]; omega
  have hmul := Nat.mul_le_mul_right (cdiv N 32) hrow
  simp only [tileOf, tileCount]
  rw [Nat.add_mul, Nat.one_mul] at hmul
  omega

/-- Covered positions are positions of a tile. -/
theorem covered_pos_lt (base M N tile : Nat) : ∀ x ∈ covered base M N tile, x.2.2 < 256 := by
  intro x hx
  simp only [covered, List.mem_flatMap, List.mem_map, List.mem_range] at hx
  obtain ⟨i, hi, j, hj, rfl⟩ := hx
  have hi8 := (Nat.lt_min.mp hi).1
  have hj32 := (Nat.lt_min.mp hj).1
  dsimp only
  omega

/-- No position is covered twice. -/
theorem covered_nodup (base M N tile : Nat) : ((covered base M N tile).map (fun x => x.2.2)).Nodup := by
  simp only [covered, List.map_flatMap, List.map_map, Function.comp_def]
  refine List.pairwise_flatMap.mpr ⟨fun i _ => ?_, ?_⟩
  · exact List.Pairwise.map _ (fun a b h he => h (by omega)) List.nodup_range
  · refine List.nodup_range.imp fun hij => ?_
    simp only [List.mem_map, List.mem_range]
    rintro x ⟨a, ha, rfl⟩ y ⟨b, hb, rfl⟩ hab
    have ha32 := (Nat.lt_min.mp ha).1
    have hb32 := (Nat.lt_min.mp hb).1
    omega

/-- Accumulator elements of two places lie at two keys. -/
theorem accKey_inj {arr arr' : Bool} {tile tile' pos pos' : Nat} (ht : tile < 64) (ht' : tile' < 64) (hp : pos < 256) (hp' : pos' < 256)
    (h : accKey arr tile pos = accKey arr' tile' pos') : arr = arr' ∧ tile = tile' ∧ pos = pos' := by
  cases arr <;> cases arr' <;> simp only [accKey, if_true, Bool.false_eq_true, if_false] at h <;> refine ⟨?_, ?_, ?_⟩ <;>
    first | rfl | omega

theorem tfKey_inj {arr arr' : Bool} {tile tile' : Nat} (ht : tile < 64) (ht' : tile' < 64) (h : tfKey arr tile = tfKey arr' tile') :
    arr = arr' ∧ tile = tile' := by
  cases arr <;> cases arr' <;> simp only [tfKey, if_true, Bool.false_eq_true, if_false] at h <;> refine ⟨?_, ?_⟩ <;>
    first | rfl | omega

/-! ### One tile written -/

/-- What a multiply writes of one tile: the values it keeps, the covered elements and the flag word, which is then evaluated (R111, R125). -/
def CoreArch.putTile (a : CoreArch) (arr : Bool) (tile : Nat) (o : TileOut) (flag : W32) : CoreArch :=
  let acc1 := o.kept.foldl (fun m p => Sp.set 0#32 m (accKey arr tile p.1) p.2) a.acc
  let acc2 := o.els.foldl (fun m p => Sp.set 0#32 m (accKey arr tile p.1) p.2.t) acc1
  (({ a with acc := acc2 }).setTf arr tile flag).evalTile arr tile

/-- The positions a tile's outcome writes are positions of a tile, and no covered one is written twice. -/
structure TileOut.Placed (o : TileOut) : Prop where
  kept : ∀ p ∈ o.kept, p.1 < 256
  els : ∀ p ∈ o.els, p.1 < 256
  nodup : (o.els.map (·.1)).Nodup

theorem CoreArch.putTile_eq (a : CoreArch) (arr : Bool) (tile : Nat) (o : TileOut) (flag : W32) :
    a.putTile arr tile o flag = { a with acc := (a.putTile arr tile o flag).acc, tflag := (a.putTile arr tile o flag).tflag } := rfl

/-- Another tile's elements and flag word stay. -/
theorem CoreArch.putTile_other (a : CoreArch) (arr arr' : Bool) (tile tile' : Nat) (o : TileOut) (flag : W32) (ho : o.Placed)
    (ht : tile < 64) (ht' : tile' < 64) (hne : arr' ≠ arr ∨ tile' ≠ tile) :
    (∀ pos, pos < 256 → (a.putTile arr tile o flag).accAt arr' tile' pos = a.accAt arr' tile' pos)
      ∧ (a.putTile arr tile o flag).tfAt arr' tile' = a.tfAt arr' tile' := by
  obtain ⟨hkept, hels, -⟩ := ho
  refine ⟨fun pos hpos => ?_, ?_⟩
  · have hkey (p : Nat) (hp : p < 256) : accKey arr tile p ≠ accKey arr' tile' pos := fun he => by
      obtain ⟨h1, h2, -⟩ := accKey_inj ht ht' hp hpos he
      exact hne.elim (fun h => h h1.symm) (fun h => h h2.symm)
    simp only [CoreArch.putTile, CoreArch.evalTile, CoreArch.setTf, CoreArch.accAt]
    rw [foldl_set_other 0#32 (fun p : Nat × ElemOut => accKey arr tile p.1) (fun p => p.2.t) _ _ _ fun p hp => hkey _ (hels p hp),
      foldl_set_other 0#32 (fun p : Nat × W32 => accKey arr tile p.1) (fun p => p.2) _ _ _ fun p hp => hkey _ (hkept p hp)]
  · have hkey : tfKey arr' tile' ≠ tfKey arr tile := fun he => by
      obtain ⟨h1, h2⟩ := tfKey_inj ht' ht he
      exact hne.elim (fun h => h h1) (fun h => h h2)
    simp only [CoreArch.putTile, CoreArch.evalTile, CoreArch.setTf, CoreArch.tfAt, Sp.get_set_ne _ _ _ hkey]

theorem and_tfSc (x : W32) : x &&& tfSc = if x.getLsbD 2 then tfSc else 0#32 := by
  refine BitVec.eq_of_getLsbD_eq fun i hi => ?_
  have hbit : tfSc.getLsbD i = decide (i = 2) := by
    exact (by decide : ∀ i : Fin 32, tfSc.getLsbD i.val = decide (i.val = 2)) ⟨i, hi⟩
  rw [BitVec.getLsbD_and, hbit]
  by_cases h2 : i = 2
  · subst h2
    cases hx : x.getLsbD 2 <;> simp [tfSc]
  · cases hx : x.getLsbD 2 <;> simp [h2, hbit]

/-- Evaluating a flag word keeps its scale bit (R125). -/
theorem getLsbD_evalFlags (old : W32) (els : List W32) : (evalFlags old els).getLsbD 2 = old.getLsbD 2 := by
  have hif (b : Bool) (f : W32) (hf : f.getLsbD 2 = false) : (setIf b f).getLsbD 2 = false := by
    cases b
    · exact BitVec.getLsbD_zero
    · exact hf
  have hpos (n : Nat) : (BitVec.ofNat 32 (n * 256)).getLsbD 2 = false := by
    rw [BitVec.getLsbD_ofNat, show n * 256 = 2 ^ 8 * n from Nat.mul_comm _ _, Nat.testBit_two_pow_mul]
    rfl
  have hkeep : (tfSc ||| tfOvf ||| tfFlush ||| tfXblk).getLsbD 2 = true := by decide
  simp only [evalFlags, BitVec.getLsbD_or, BitVec.getLsbD_and, hkeep, hif _ tfNan (by decide), hif _ tfInf (by decide), Bool.and_true,
    Bool.or_false]
  have hposv : tfPosv.getLsbD 2 = false := by decide
  split
  · rw [BitVec.getLsbD_or, hposv, hpos, Bool.or_false, Bool.or_false]
  · rw [BitVec.getLsbD_zero, Bool.or_false]

/-- A covered element reads back, and the scale bit of the flag word is the one written (R125). -/
theorem CoreArch.putTile_same (a : CoreArch) (arr : Bool) (tile : Nat) (o : TileOut) (flag : W32) (ho : o.Placed) (ht : tile < 64) :
    (∀ p ∈ o.els, (a.putTile arr tile o flag).accAt arr tile p.1 = p.2.t)
      ∧ (a.putTile arr tile o flag).tfAt arr tile &&& tfSc = flag &&& tfSc := by
  obtain ⟨-, hels, hnodup⟩ := ho
  refine ⟨fun p hp => ?_, ?_⟩
  · simp only [CoreArch.putTile, CoreArch.evalTile, CoreArch.setTf, CoreArch.accAt]
    refine foldl_set_get 0#32 (fun p : Nat × ElemOut => accKey arr tile p.1) (fun p => p.2.t) _ _ p hp ?_
    refine List.pairwise_map.mpr ((List.pairwise_map.mp hnodup).imp_of_mem fun hx hy hne hxy => ?_)
    exact hne (accKey_inj ht ht (hels _ hx) (hels _ hy) hxy).2.2
  · simp only [CoreArch.putTile, CoreArch.evalTile, CoreArch.setTf, CoreArch.tfAt, Sp.get_set_same, and_tfSc, getLsbD_evalFlags]

/-! ### All the tiles of a multiply -/

theorem tileRun_placed (x : MRead) (op : MOp) (ls : Memory) (a : CoreArch) (arr add : Bool) (K r base M N tile : Nat)
    (bn : Nat → Nat → Nat → Nat) (sc fresh : Bool) : (tileRun x op ls a arr add K r base M N tile bn sc fresh).Placed := by
  refine ⟨fun p hp => ?_, fun p hp => ?_, ?_⟩
  · simp only [tileRun, List.mem_map] at hp
    obtain ⟨q, hq, rfl⟩ := hp
    cases fresh with
    | false => simp at hq
    | true => exact List.mem_range.mp (List.mem_filter.mp hq).1
  · simp only [tileRun, List.mem_map] at hp
    obtain ⟨y, hy, rfl⟩ := hp
    exact covered_pos_lt base M N tile y hy
  · simp only [tileRun, List.map_map]
    exact covered_nodup base M N tile

/-- The scale bit of a flag word (R125). -/
theorem bne_and_tfSc (x : W32) : (x &&& tfSc != 0#32) = x.getLsbD 2 := by
  rw [and_tfSc]
  cases x.getLsbD 2 <;> rfl

theorem getLsbD_setIf {f : W32} (hf : f.getLsbD 2 = false) (b : Bool) : (setIf b f).getLsbD 2 = false := by
  cases b
  · exact BitVec.getLsbD_zero
  · exact hf

/-- The scale a covered tile has when the instruction begins: of a tile it overwrites whole, 1 (R117). -/
def scaleBefore (a : CoreArch) (arr add : Bool) (base M N tile : Nat) : Bool :=
  (add || decide ((covered base M N tile).length ≠ 256)) && (a.tfAt arr tile &&& tfSc != 0#32)

/-- A tile ends at the scale its flag word then shows, its held values scaled where the instruction set that scale (R120). -/
theorem tileFinal_run (x : MRead) (op : MOp) (ls : Memory) (a : CoreArch) (arr add : Bool) (K r base M N tile : Nat)
    (bn : Nat → Nat → Nat → Nat) :
    let o := tileFinal x op ls a arr add K r base M N tile bn
    let sc := o.2.2 &&& tfSc != 0#32
    o.1 = tileRun x op ls a arr add K r base M N tile bn sc (sc && !scaleBefore a arr add base M N tile) := by
  have hovf := getLsbD_setIf (f := tfOvf) (by decide)
  have hflush := getLsbD_setIf (f := tfFlush) (by decide)
  have hxblk := getLsbD_setIf (f := tfXblk) (by decide)
  have hsc : tfSc.getLsbD 2 = true := by decide
  have hbefore : ((if !add && decide ((covered base M N tile).length = 256) then 0#32 else a.tfAt arr tile) &&& tfSc != 0#32)
      = scaleBefore a arr add base M N tile := by
    by_cases hw : (covered base M N tile).length = 256 <;> cases add <;> simp [scaleBefore, hw]
  simp only [tileFinal, hbefore]
  generalize hf0 : (if (!add && decide ((covered base M N tile).length = 256)) = true then 0#32 else a.tfAt arr tile) = f0 at hbefore ⊢
  generalize scaleBefore a arr add base M N tile = sc0 at hbefore ⊢
  rw [bne_and_tfSc] at hbefore
  by_cases hre : ((tileRun x op ls a arr add K r base M N tile bn sc0 false).ovf.isSome && !sc0 && !op.isCmp) = true
  · rw [if_pos hre]
    simp only [Bool.and_eq_true, Bool.not_eq_true'] at hre
    simp only [bne_and_tfSc, BitVec.getLsbD_or, hovf, hflush, hxblk, hsc, hre, Bool.or_true, Bool.or_false, Bool.not_false, Bool.and_true]
  · rw [if_neg hre]
    simp only [bne_and_tfSc, BitVec.getLsbD_or, hovf, hflush, hxblk, hbefore, Bool.or_false, Bool.and_not_self]

theorem tileFinal_placed (x : MRead) (op : MOp) (ls : Memory) (a : CoreArch) (arr add : Bool) (K r base M N tile : Nat)
    (bn : Nat → Nat → Nat → Nat) : (tileFinal x op ls a arr add K r base M N tile bn).1.Placed := by
  rw [tileFinal_run]
  exact tileRun_placed ..

/-- Writing a list of different tiles leaves each with its outcome, and every other tile as it was. -/
theorem foldl_putTile (arr : Bool) (out : Nat → TileOut) (flag : Nat → W32) (ho : ∀ t, (out t).Placed) :
    ∀ (tiles : List Nat) (a : CoreArch), tiles.Nodup → (∀ t ∈ tiles, t < 64) →
      let a' := tiles.foldl (fun a t => a.putTile arr t (out t) (flag t)) a
      a' = { a with acc := a'.acc, tflag := a'.tflag }
      ∧ (∀ arr' t, t < 64 → arr' ≠ arr ∨ t ∉ tiles →
          (∀ pos, pos < 256 → a'.accAt arr' t pos = a.accAt arr' t pos) ∧ a'.tfAt arr' t = a.tfAt arr' t)
      ∧ (∀ t ∈ tiles, (∀ p ∈ (out t).els, a'.accAt arr t p.1 = p.2.t) ∧ a'.tfAt arr t &&& tfSc = flag t &&& tfSc)
  | [], a, _, _ => ⟨rfl, fun _ _ _ _ => ⟨fun _ _ => rfl, rfl⟩, fun t ht => absurd ht List.not_mem_nil⟩
  | t :: tiles, a, hn, hlt => by
    rw [List.nodup_cons] at hn
    obtain ⟨hnot, hn⟩ := hn
    have ht := hlt t List.mem_cons_self
    obtain ⟨h1, h2, h3⟩ := foldl_putTile arr out flag ho tiles (a.putTile arr t (out t) (flag t)) hn
      (fun u hu => hlt u (List.mem_cons_of_mem _ hu))
    simp only [List.foldl_cons]
    refine ⟨?_, fun arr' u hu hne => ?_, fun u hu => ?_⟩
    · rw [h1, CoreArch.putTile_eq a]
    · have hne' : arr' ≠ arr ∨ u ≠ t := hne.imp id fun h he => h (he ▸ List.mem_cons_self)
      obtain ⟨hacc, htf⟩ := h2 arr' u hu (hne.imp id fun h hm => h (List.mem_cons_of_mem _ hm))
      obtain ⟨hacc0, htf0⟩ := a.putTile_other arr arr' t u (out t) (flag t) (ho t) ht hu hne'
      exact ⟨fun pos hpos => (hacc pos hpos).trans (hacc0 pos hpos), htf.trans htf0⟩
    · rcases List.mem_cons.mp hu with rfl | hu
      · obtain ⟨hacc, htf⟩ := h2 arr u ht (.inr hnot)
        obtain ⟨hacc0, htf0⟩ := a.putTile_same arr u (out u) (flag u) (ho u) ht
        exact ⟨fun p hp => (hacc p.1 ((ho u).els p hp)).trans (hacc0 p hp), (congrArg (· &&& tfSc) htf).trans htf0⟩
      · exact h3 u hu

/-- What a multiply makes of the architectural state, the items it pops apart (R92, R111). -/
def CoreArch.multiply (a : CoreArch) (x : MRead) (op : MOp) (ls : Memory) (arr : Bool) (f : MMul) (K U : Nat) : CoreArch :=
  let bn := beatNo f.slide U f.M f.N (cdiv K (mmR f.fmt.toNat))
  let out (t : Nat) := tileFinal x op ls a arr f.add K (mmR f.fmt.toNat) f.base.toNat f.M f.N t bn
  ((List.range (tileCount f.M f.N)).map (f.base.toNat + ·)).foldl (fun b t => b.putTile arr t (out t).1 (out t).2.2) a

/-- A covered element of a multiply from the value it held, where its tile ends at scale `sc` and began at scale `sc0` (R111, R117, R120). -/
def mmElem (x : MRead) (op : MOp) (ls : Memory) (f : MMul) (K m n : Nat) (sc sc0 : Bool) (old : W32) : ElemOut :=
  let start := if sc && !sc0 then (scaleHeld old).1 else old
  if op.isCmp then cmpElem x op ls K m n sc (if f.add then some start else none)
  else sumElem x op ls K (mmR f.fmt.toNat) m n sc (if f.add then start else 0#32)

/-- The elements of a tile's outcome are those of the multiply at the scale its flag word then shows (R120). -/
theorem tileFinal_els (x : MRead) (op : MOp) (ls : Memory) (a : CoreArch) (arr : Bool) (f : MMul) (K tile : Nat)
    (bn : Nat → Nat → Nat → Nat) :
    let o := tileFinal x op ls a arr f.add K (mmR f.fmt.toNat) f.base.toNat f.M f.N tile bn
    o.1.els = (covered f.base.toNat f.M f.N tile).map (fun y => (y.2.2,
      mmElem x op ls f K y.1 y.2.1 (o.2.2 &&& tfSc != 0#32) (scaleBefore a arr f.add f.base.toNat f.M f.N tile) (a.accAt arr tile y.2.2))) := by
  intro o
  have hrun : o.1 = _ := tileFinal_run x op ls a arr f.add K (mmR f.fmt.toNat) f.base.toNat f.M f.N tile bn
  rw [hrun]
  have hheld (b : Bool) (v : W32) : (if b then scaleHeld v else (v, false)).1 = if b then (scaleHeld v).1 else v := by
    cases b <;> rfl
  simp only [tileRun, mmElem, hheld]
  rfl

/-- What a multiply makes of the architectural state, for the tiles of its array (R92, R104, R111, R117, R120). -/
theorem CoreArch.multiply_spec (a : CoreArch) (x : MRead) (op : MOp) (ls : Memory) (arr : Bool) (f : MMul) (K U : Nat)
    (hfit : f.base.toNat + tileCount f.M f.N ≤ 64) :
    let b := a.multiply x op ls arr f K U
    b = { a with acc := b.acc, tflag := b.tflag }
      ∧ (∀ arr' tile, arr' ≠ arr ∨ tile < f.base.toNat ∨ f.base.toNat + tileCount f.M f.N ≤ tile → tile < 64 →
          (∀ pos, pos < 256 → b.accAt arr' tile pos = a.accAt arr' tile pos) ∧ b.tfAt arr' tile = a.tfAt arr' tile)
      ∧ (∀ m n, m < f.M → n < f.N →
          let tile := tileOf f.base.toNat f.N m n
          b.accAt arr tile (posOf m n) = (mmElem x op ls f K m n (b.tfAt arr tile &&& tfSc != 0#32)
            (scaleBefore a arr f.add f.base.toNat f.M f.N tile) (a.accAt arr tile (posOf m n))).t) := by
  intro b
  let bn := beatNo f.slide U f.M f.N (cdiv K (mmR f.fmt.toNat))
  let out (t : Nat) := tileFinal x op ls a arr f.add K (mmR f.fmt.toNat) f.base.toNat f.M f.N t bn
  have hmem (t : Nat) : t ∈ (List.range (tileCount f.M f.N)).map (f.base.toNat + ·) ↔ f.base.toNat ≤ t ∧ t < f.base.toNat + tileCount f.M f.N := by
    simp only [List.mem_map, List.mem_range]
    exact ⟨fun ⟨j, hj, he⟩ => by omega, fun h => ⟨t - f.base.toNat, by omega, by omega⟩⟩
  obtain ⟨hframe, hother, hsame⟩ := foldl_putTile arr (fun t => (out t).1) (fun t => (out t).2.2) (fun t => tileFinal_placed ..)
    ((List.range (tileCount f.M f.N)).map (f.base.toNat + ·)) a (List.Pairwise.map _ (fun i j h he => h (Nat.add_left_cancel he)) List.nodup_range)
    (fun t ht => by have := (hmem t).mp ht; omega)
  refine ⟨hframe, fun arr' tile hne ht => hother arr' tile ht (hne.imp id fun h hm => ?_), fun m n hm hn => ?_⟩
  · have := (hmem tile).mp hm
    omega
  · intro tile
    have htile : tile ∈ (List.range (tileCount f.M f.N)).map (f.base.toNat + ·) :=
      (hmem tile).mpr ⟨by simp only [tile, tileOf]; omega, tileOf_lt _ _ _ _ _ hm hn⟩
    obtain ⟨hels, htf⟩ := hsame tile htile
    have hcov := List.mem_map_of_mem (f := fun y : Nat × Nat × Nat => (y.2.2,
      mmElem x op ls f K y.1 y.2.1 ((out tile).2.2 &&& tfSc != 0#32) (scaleBefore a arr f.add f.base.toNat f.M f.N tile) (a.accAt arr tile y.2.2)))
      (mem_covered f.base.toNat f.M f.N m n hm hn)
    rw [← tileFinal_els x op ls a arr f K tile bn] at hcov
    exact (hels _ hcov).trans (by rw [← htf]; rfl)

/-! ### The run of a multiply -/

/-- The stopped executions of a multiply take free values and nothing else. -/
theorem stops_k (total : Nat) : ∀ (n : Nat) (l : List Nat) (r : CRes), ∃ fc', (stops total n l r).2 = { r with fc := fc' }
  | 0, _, r => ⟨r.fc, rfl⟩
  | n + 1, l, r => by
    cases hl : leastOf (l.map some) with
    | none => exact ⟨r.fc, by simp only [stops, hl]⟩
    | some b =>
      obtain ⟨fc', h⟩ := stops_k total n (l.filter (fun y => decide (b + (r.free 32).1 % 25 < y))) (r.free 32).2
      exact ⟨fc', by simp only [stops, hl]; exact h⟩

/-- The trap fires only where it is armed (R127). -/
theorem fireTrap_off (arr : Bool) (tile pos : Nat) (tag : W16) (r : CRes) (h : r.k.st.nantrap.getLsbD 0 = false) :
    fireTrap arr tile pos tag r = r := by
  rw [fireTrap, h]
  rfl

/-- `r'` is `r` but for the sticky flags, the event counters and the free values taken. -/
def CRes.Counted (r r' : CRes) : Prop :=
  ∃ fl pf fc', r' = { r with k := { r.k with st := { r.k.st with fmt := fl, perf := pf } }, fc := fc' }

theorem CRes.Counted.flags {r r' : CRes} (h : r.Counted r') (f : Fl) : r.Counted (r'.flags f) := by
  obtain ⟨fl, pf, fc', rfl⟩ := h
  exact ⟨fl ||| f, pf, fc', rfl⟩

theorem CRes.Counted.bump {r r' : CRes} (h : r.Counted r') (off n : Nat) : r.Counted (r'.bump off n) := by
  obtain ⟨fl, pf, fc', rfl⟩ := h
  exact ⟨fl, Sp.set 0#32 pf off (Sp.get 0#32 pf off + BitVec.ofNat 32 n), fc', rfl⟩

theorem CRes.Counted.bumpFree {r r' : CRes} (h : r.Counted r') (off : Nat) : r.Counted (r'.bumpFree off) := by
  obtain ⟨fl, pf, fc', rfl⟩ := h
  exact CRes.Counted.bump ⟨fl, pf, fc' + 1, rfl⟩ off _

theorem CRes.Counted.fireTrap_off {r r' : CRes} (h : r.Counted r') (hnt : r.k.st.nantrap.getLsbD 0 = false) (arr : Bool) (tile pos : Nat)
    (tag : W16) : r.Counted (fireTrap arr tile pos tag r') := by
  have hsame : r'.k.st.nantrap = r.k.st.nantrap := by
    obtain ⟨_, _, _, rfl⟩ := h
    rfl
  rw [Machine.fireTrap_off _ _ _ _ _ (by rw [hsame]; exact hnt)]
  exact h

/-- With the first-NaN trap not armed, a multiply leaves its accumulator, flags and counters (R92, R125, R127). -/
theorem mmRun_counted (x : MRead) (op : MOp) (f : MMul) (arr : Bool) (K : Nat) (tagOf : Nat → W16) (r : CRes)
    (hnt : r.k.st.nantrap.getLsbD 0 = false) :
    (r.cur fun a => a.multiply x op r.k.st.ls arr f K (r.k.st.units arr)).Counted (mmRun x op f arr K f.M f.N tagOf r) := by
  have hmul : ∀ r', (∃ fc', r' = { r with fc := fc' }) →
      (r.cur fun a => a.multiply x op r.k.st.ls arr f K (r.k.st.units arr)).Counted (r'.cur fun _ =>
        ((List.range (tileCount f.M f.N)).map (f.base.toNat + ·) |>.map (fun t => (t,
          tileFinal x op r.k.st.ls r.k.cur arr f.add K (mmR f.fmt.toNat) f.base.toNat f.M f.N t
            (beatNo f.slide (r.k.st.units arr) f.M f.N (cdiv K (mmR f.fmt.toNat)))))).foldl
          (fun (a : CoreArch) y => a.putTile arr y.1 y.2.1 y.2.2.2) r.k.cur) := by
    rintro r' ⟨fc', rfl⟩
    rw [List.foldl_map]
    exact ⟨r.k.st.fmt, r.k.st.perf, fc', rfl⟩
  unfold mmRun
  dsimp only
  split
  · exact (((((hmul _ (stops_k ..)).flags _).bump _ _).bump _ _).bumpFree _).bumpFree _
  · exact ((((((hmul _ (stops_k ..)).flags _).bump _ _).bump _ _).bumpFree _).bumpFree _).fireTrap_off hnt _ _ _ _

/-- A multiply without BATCH runs and is finished (R92, R287). -/
theorem mmulRun_eq (arr : Bool) (op : MOp) (f : MMul) (e : CEnv) (h : Entry) (r : CRes) (hnt : r.k.st.nantrap.getLsbD 0 = false) :
    ∃ fl pf ld qp fc', mmulRun arr op f e h r =
      { r with
        k := { r.k with
          cur := { r.k.cur.multiply (entryRead r.k f h []) op r.k.st.ls arr f h.depth (r.k.st.units arr) with qpop := qp },
          run := r.k.run.drop h.seq, st := { r.k.st with fmt := fl, perf := pf, landing := ld } },
        fc := fc' } := by
  obtain ⟨fl, pf, fc', hrun⟩ := mmRun_counted (entryRead r.k f h []) op f arr h.depth (fun _ => h.tag) r hnt
  refine ⟨fl, pf, (mmulRun arr op f e h r).k.st.landing, (mmulRun arr op f e h r).k.cur.qpop, fc', ?_⟩
  rw [mmulRun, hrun]
  rfl

/-- The block with another core `c` and another count of free values taken. -/
theorem onlyCore_setCore (s : State) (c : Nat) (k : Core) (n : Nat) :
    onlyCore s { s.setCore c k with fc := n } c ∧ ({ s.setCore c k with fc := n } : State).core c = k :=
  ⟨⟨rfl, fun _ hd => State.core_setCore_ne s k hd⟩, State.core_setCore_same s c k⟩

/-- What `multiplied` asks, of a core that a multiply has left. -/
theorem multiplied_of {s t : State} {c : Nat} (arr : Bool) (op : MOp) (f : MMul) (h : Entry) (honly : onlyCore s t c)
    (hfit : f.base.toNat + tileCount f.M f.N ≤ 64) (hls : (t.core c).st.ls = (s.core c).st.ls) (qp : Sp Nat)
    (hcur : (t.core c).cur = { (s.core c).cur.multiply (entryRead (s.core c) f h []) op (s.core c).st.ls arr f h.depth
      ((s.core c).st.units arr) with qpop := qp }) : multiplied s t c arr op f h := by
  obtain ⟨hframe, hother, hsame⟩ := (s.core c).cur.multiply_spec (entryRead (s.core c) f h []) op (s.core c).st.ls arr f h.depth
    ((s.core c).st.units arr) hfit
  refine ⟨honly, hls, ?_, ?_, ?_⟩
  · rw [hcur, hframe]
  · rw [hcur]
    exact hother
  · intro m n hm hn
    rw [hcur]
    exact (hsame m n hm hn).trans (by simp only [mmElem]; split <;> rfl)

theorem PlanR.Gives.pos {P : Plan → Prop} {c : Prop} [Decidable c] {a b : PlanR} (hc : c) (ha : a.Gives P) : (if c then a else b).Gives P := by
  rw [if_pos hc]
  exact ha

/-- An admitted multiply's tiles are tiles of the accumulator (R310). -/
theorem planMMul_fits (e : CEnv) (k : Core) (ls : Memory) (arr : Bool) (op : MOp) (f : MMul) (p : Plan)
    (hp : planMMul e k ls arr op f = .go p) : f.base.toNat + tileCount f.M f.N ≤ 64 := by
  refine Decidable.byContradiction fun hover => ?_
  have hover : 64 < f.base.toNat + tileCount f.M f.N := Nat.not_le.mp hover
  have hnone : (planMMul e k ls arr op f).Gives fun _ => False :=
    .ite .fault (.planOpnd fun s => .planOpnd fun b => .ite
      (.planOpnd fun d => .pos (.inr (.inr (.inr (.inr (.inr (.inr (.inr (.inl hover)))))))) .fault)
      (.pos (.inr (.inr (.inr (.inr (.inr (.inr (.inr (.inl hover)))))))) .fault))
  exact hnone p hp

end Sys2Proof.Machine
end

section
open Sys2Proof Sys2Proof.Machine

/-- Settles O18: a multiply runs at once, and what it makes of the tiles is `CoreArch.multiply`. -/
theorem matrixAccumulators : Obligations.MatrixAccumulators := by
  intro s c arr f p h hbatch hnt
  have leaves (i : Instr) (op : MOp) (hi : asMMul i = some (arr, op, f)) (hrun : arrRun arr i = mmulRun arr op f)
      (hplan : planEng (s.cenv c) (s.core c) (s.core c).st.ls i = some (planMMul (s.cenv c) (s.core c) (s.core c).st.ls arr op f))
      (ha : s.admits c i p) (hr : s.readyNow c i p popReady) :
      ∃ t, s.onCore c (fun e r => mmStep e arr i r) = .next t ∧ multiplied s t c arr op f (p.head (s.cenv c) i (s.core c)) := by
    have heng := ha.eng hplan (planMMul_for _ _ _ _ _ _)
    have hfit := planMMul_fits _ _ _ _ _ _ p (Option.some.inj (hplan.symm.trans ha.1))
    have hexec := h.runsMatrix ha heng (by simp [hi, hbatch]) hr
    obtain ⟨fl, pf, ld, qp, fc', hmul⟩ := mmulRun_eq arr op f (s.cenv c) (p.head (s.cenv c) i (s.core c)) (s.enteredAs c i p) hnt
    obtain ⟨-, -, -, -, -, -, -, -, -, hlate⟩ := h
    rw [hrun] at hexec
    have hran := State.runCore_quiet s c (fun e r => mmulRun arr op f e (p.head e i r.k) (p.entered e i r)) _ fc' hmul rfl hlate
    rw [State.ran, hran] at hexec
    obtain ⟨honly, hcore⟩ := onlyCore_setCore s c _ fc'
    refine ⟨_, hexec, multiplied_of arr op f _ honly hfit ?_ qp ?_⟩ <;> rw [hcore] <;> rfl
  refine ⟨?_, ?_, ?_, ?_, ?_⟩
  · exact leaves (.mac c arr f) .mac rfl rfl rfl
  · exact leaves (.sqd c arr f) .sqd rfl rfl rfl
  · exact leaves (.abd c arr f) .abd rfl rfl rfl
  · exact leaves (.minp c arr f) .minp rfl rfl rfl
  · exact leaves (.maxp c arr f) .maxp rfl rfl rfl

end

section
/-! The arrays' own events: a multiply at the head of its queue, the fill deadline, and finished tiles (R92, R106, R107, R143). -/

namespace Sys2Proof.Machine

/-! ### What a core operation leaves of its own core -/

/-- What the rest of the block does with an effect of a core changes of a core at most the credits returned to it (R288). -/
theorem State.core_out (s : State) (c : Nat) (o : Out) (d : Nat) :
    ∃ q, (s.out c o).core d = { s.core d with st := { (s.core d).st with qret := q } } := by
  have hcredit (m : CreditMsg) : ∃ q, (s.credit m).core d = { s.core d with st := { (s.core d).st with qret := q } } := by
    unfold State.credit
    split
    · exact ⟨_, rfl⟩
    · rename_i d' _
      by_cases h : d = d'
      · subst h
        exact ⟨_, State.core_setCore_same s d _⟩
      · exact ⟨(s.core d).st.qret, State.core_setCore_ne s _ h⟩
  cases o with
  | fault f => exact ⟨(s.core d).st.qret, rfl⟩
  | post t sem cnt ord seq tag => exact ⟨(s.core d).st.qret, rfl⟩
  | push q idx ord item =>
    refine ⟨(s.core d).st.qret, ?_⟩
    simp only [State.out]
    split <;> rfl
  | credits q n =>
    simp only [State.out]
    split
    · exact ⟨(s.core d).st.qret, rfl⟩
    · unfold State.sendCredit
      split
      · exact hcredit _
      · exact ⟨(s.core d).st.qret, rfl⟩

theorem State.core_foldl_out (c d : Nat) : ∀ (outs : List Out) (s : State),
    ∃ q, (outs.foldl (fun t o => t.out c o) s).core d = { s.core d with st := { (s.core d).st with qret := q } }
  | [], s => ⟨(s.core d).st.qret, rfl⟩
  | o :: outs, s => by
    obtain ⟨q1, h1⟩ := s.core_out c o d
    obtain ⟨q2, h2⟩ := State.core_foldl_out c d outs (s.out c o)
    exact ⟨q2, by rw [List.foldl_cons, h2, h1]⟩

theorem State.core_noteHalt (s : State) (c d : Nat) : (s.noteHalt c).core d = s.core d := by
  unfold State.noteHalt
  dsimp only
  split <;> rfl

/-- A core operation leaves its core as it says, the credits returned to it apart. -/
theorem State.core_runCore (s : State) (c : Nat) (f : CEnv → CRes → CRes) :
    ∃ q, (s.runCore c f).core c = let k := (f (s.cenv c) (CRes.of (s.core c) s.fc)).k.settle
      { k with st := { k.st with qret := q } } := by
  let r := f (s.cenv c) (CRes.of (s.core c) s.fc)
  obtain ⟨q, hq⟩ := State.core_foldl_out c c r.outs { (s.setCore c r.k.settle) with fc := r.fc }
  have hset : ({ (s.setCore c r.k.settle) with fc := r.fc } : State).core c = r.k.settle := State.core_setCore_same s c _
  refine ⟨q, ?_⟩
  simp only [State.runCore]
  split
  · rw [State.core_noteHalt, hq, hset]
  · rw [hq, hset]

/-! ### The fill deadline -/

/-- From `r` to `r'` the open batches, the waiting effects and the event counter at `o` stay. -/
def CRes.SameBatch (o : Nat) (r r' : CRes) : Prop :=
  (r'.k.run.late = r.k.run.late ∧ r'.k.run.batchA = r.k.run.batchA ∧ r'.k.run.batchB = r.k.run.batchB)
    ∧ Sp.get 0#32 r'.k.st.perf o = Sp.get 0#32 r.k.st.perf o

namespace CRes.SameBatch

variable {o : Nat} {r r' : CRes}

theorem refl (o : Nat) (r : CRes) : SameBatch o r r := ⟨⟨rfl, rfl, rfl⟩, rfl⟩

theorem trans {r'' : CRes} (h : SameBatch o r r') (h' : SameBatch o r' r'') : SameBatch o r r'' := by
  obtain ⟨⟨h1, h2, h3⟩, h4⟩ := h
  obtain ⟨⟨h1', h2', h3'⟩, h4'⟩ := h'
  exact ⟨⟨h1'.trans h1, h2'.trans h2, h3'.trans h3⟩, h4'.trans h4⟩

/-- A core operation that leaves the sequencer's registers and the event counters. -/
theorem of_same (hrun : r'.k.run = r.k.run) (hperf : r'.k.st.perf = r.k.st.perf) : SameBatch o r r' :=
  ⟨⟨by rw [hrun], by rw [hrun], by rw [hrun]⟩, by rw [hperf]⟩

/-- One that changes only the entries of the sequencer's registers. -/
theorem of_entries (es : List Entry) (hrun : r'.k.run = { r.k.run with entries := es }) (hperf : r'.k.st.perf = r.k.st.perf) :
    SameBatch o r r' :=
  ⟨⟨by rw [hrun], by rw [hrun], by rw [hrun]⟩, by rw [hperf]⟩

theorem bump (h : SameBatch o r r') {off : Nat} (hne : o ≠ off) (n : Nat) : SameBatch o r (r'.bump off n) :=
  h.trans ⟨⟨rfl, rfl, rfl⟩, Sp.get_set_ne _ _ _ hne⟩

theorem bumpFree (h : SameBatch o r r') {off : Nat} (hne : o ≠ off) : SameBatch o r (r'.bumpFree off) :=
  h.trans ⟨⟨rfl, rfl, rfl⟩, Sp.get_set_ne _ _ _ hne⟩

/-- A list of operations that each keep the batches. -/
theorem foldl {α : Type} (f : CRes → α → CRes) (hf : ∀ r x, SameBatch o r (f r x)) : ∀ (l : List α) (r : CRes), SameBatch o r (l.foldl f r)
  | [], r => refl o r
  | x :: l, r => (hf r x).trans (foldl f hf l (f r x))

theorem pushSome (o : Nat) (e : CEnv) : ∀ (l : List PushItem) (r : CRes), SameBatch o r (pushSome e l r).1
  | [], r => refl o r
  | p :: l, r => by
    unfold Machine.pushSome
    split
    · exact (of_same (r' := pushItem p r) rfl rfl).trans (pushSome o e l (pushItem p r))
    · exact refl o r

theorem pushAll (o : Nat) (e : CEnv) (h : Entry) (l : List PushItem) (r : CRes) : SameBatch o r (pushAll e h l r) := by
  unfold Machine.pushAll
  dsimp only
  split
  · exact (pushSome o e l r).trans (of_entries _ rfl rfl)
  · exact (pushSome o e l r).trans (of_entries _ rfl rfl)

theorem fireTrap (o : Nat) (arr : Bool) (tile pos : Nat) (tag : W16) (r : CRes) : SameBatch o r (fireTrap arr tile pos tag r) := by
  unfold Machine.fireTrap
  split
  · exact of_same rfl rfl
  · exact refl o r

/-- A multiply counts on the array's other event counters (R94, R101, R120). -/
theorem mmRun (arr : Bool) (x : MRead) (op : MOp) (f : MMul) (K M N : Nat) (tagOf : Nat → W16) (r : CRes) :
    SameBatch (arrOff arr + 0x20) r (mmRun x op f arr K M N tagOf r) := by
  have hcount : ∀ (r' : CRes), SameBatch (arrOff arr + 0x20) r r' → ∀ fl n1 n2, SameBatch (arrOff arr + 0x20) r
      (((((r'.flags fl).bump (arrOff arr + 0x10) n1).bump (arrOff arr + 0x24) n2).bumpFree (arrOff arr + 0x14)).bumpFree (arrOff arr + 0x18)) :=
    fun r' h fl n1 n2 =>
      ((((h.trans (of_same (r' := r'.flags fl) rfl rfl)).bump (by omega) n1).bump (by omega) n2).bumpFree (by omega)).bumpFree (by omega)
  have hstops : ∀ total n l (f : CoreArch → CoreArch), SameBatch (arrOff arr + 0x20) r ((stops total n l r).2.cur f) := by
    intro total n l f
    obtain ⟨fc', h⟩ := stops_k total n l r
    rw [h]
    exact of_same rfl rfl
  unfold Machine.mmRun
  dsimp only
  split
  · exact hcount _ (hstops _ _ _ _) _ _ _
  · exact (hcount _ (hstops _ _ _ _) _ _ _).trans (fireTrap _ _ _ _ _ _)

theorem batchDeliver (o : Nat) (e : CEnv) (arr : Bool) (f : MMul) (cols col : Nat) (h : Entry) (r : CRes) :
    SameBatch o r (batchDeliver e arr f cols col h r) := by
  unfold Machine.batchDeliver
  dsimp only
  split
  · exact of_entries _ rfl rfl
  · exact (of_same rfl rfl).trans (pushAll o e h _ _)

/-- Running a dispatched group keeps the open batches and the count of fill deadlines (R106, R107). -/
theorem groupRun (e : CEnv) (arr : Bool) (hs : List Entry) (r : CRes) : SameBatch (arrOff arr + 0x20) r (groupRun e arr hs r) := by
  unfold Machine.groupRun
  split
  · exact refl _ r
  · split
    · exact refl _ r
    · have hpops : ∀ ps r', SameBatch (arrOff arr + 0x20) r r' → SameBatch (arrOff arr + 0x20) r (doPops ps r') :=
        fun ps r' h => h.trans (of_same rfl rfl)
      exact (hpops _ _ (mmRun ..)).trans (foldl _ (fun r x => batchDeliver ..) _ _)

theorem runGroup (e : CEnv) (arr : Bool) (r : CRes) : SameBatch (arrOff arr + 0x20) r (runGroup e arr r) := by
  unfold Machine.runGroup
  split
  · exact refl _ r
  · dsimp only
    split
    · exact refl _ r
    · split
      · exact groupRun e arr _ r
      · refine foldl _ (fun r h => ?_) _ r
        split
        · exact refl _ r
        · exact of_entries _ rfl rfl

end CRes.SameBatch

theorem CoreRun.batch_setBatch_same (r : CoreRun) (arr : Bool) (b : Option (Nat × Nat)) : (r.setBatch arr b).batch arr = b := by
  cases arr <;> rfl

theorem CoreRun.batch_setBatch_other (r : CoreRun) (arr : Bool) (b : Option (Nat × Nat)) : (r.setBatch arr b).batch (!arr) = r.batch (!arr) := by
  cases arr <;> rfl

/-- The fill deadline closes the open batch and counts it (R106, R107). -/
theorem State.fillDeadline_passed (s : State) (c : Nat) (arr : Bool) (hlate : (s.core c).run.late = []) :
    let t := s.runCore c (fun e r => runGroup e arr (closeBatch arr (r.bump (arrOff arr + 0x20) 1)))
    (t.core c).run.batch arr = none ∧ (t.core c).run.batch (!arr) = (s.core c).run.batch (!arr)
      ∧ Sp.get 0#32 (t.core c).st.perf (arrOff arr + 0x20) = Sp.get 0#32 (s.core c).st.perf (arrOff arr + 0x20) + 1#32 := by
  let r0 := closeBatch arr ((CRes.of (s.core c) s.fc).bump (arrOff arr + 0x20) 1)
  obtain ⟨⟨hlate', hA, hB⟩, hperf⟩ := CRes.SameBatch.runGroup (s.cenv c) arr r0
  obtain ⟨q, hcore⟩ := s.core_runCore c (fun e r => runGroup e arr (closeBatch arr (r.bump (arrOff arr + 0x20) 1)))
  have hnone : (runGroup (s.cenv c) arr r0).k.run.late = [] := by
    rw [hlate']
    cases arr <;> exact hlate
  have hbatch : ∀ a, (runGroup (s.cenv c) arr r0).k.run.batch a = r0.k.run.batch a := by
    intro a
    cases a
    · exact hA
    · exact hB
  intro t
  rw [show t.core c = _ from hcore, Core.settle_none _ hnone]
  exact ⟨(hbatch arr).trans (CoreRun.batch_setBatch_same _ _ _), (hbatch (!arr)).trans (CoreRun.batch_setBatch_other _ _ _),
    hperf.trans (Sp.get_set_same _ _ _ _)⟩

section
variable {s : State} {c : Nat} {arr : Bool} {g dl : Nat} (hlive : s.livePaced c = true) (hb : (s.core c).run.batch arr = some (g, dl))
  (href : s.aon.refLost = false)
include hlive hb href

theorem State.fillDeadline_now (hdl : dl ≤ s.aon.tb) :
    (if s.aon.refLost then .next s else s.onCore c (fun e r => fillExpiry e arr r) : Host.Outcome State Fault Refusal)
      = .next (s.runCore c (fun e r => runGroup e arr (closeBatch arr (r.bump (arrOff arr + 0x20) 1)))) := by
  rw [if_neg (by simp [href]), State.onCore_live _ _ _ hlive]
  refine congrArg _ (State.runCore_congr ?_)
  have hb' : (CRes.of (s.core c) s.fc).k.run.batch arr = some (g, dl) := hb
  have hb'' : ((CRes.of (s.core c) s.fc).bump (arrOff arr + 0x20) 1).k.run.batch arr = some (g, dl) := hb
  simp only [fillExpiry, hb', State.time_cenv, hdl, if_true, dispatchBatch, hb'']

theorem State.fillDeadline_early (hdl : s.aon.tb < dl) (hlate : (s.core c).run.late = []) :
    (if s.aon.refLost then .next s else s.onCore c (fun e r => fillExpiry e arr r) : Host.Outcome State Fault Refusal)
      = .next { s.setCore c (s.core c) with fc := s.fc } := by
  rw [if_neg (by simp [href]), State.onCore_live _ _ _ hlive]
  refine congrArg _ (State.runCore_quiet s c _ (s.core c) s.fc ?_ rfl hlate)
  have hb' : (CRes.of (s.core c) s.fc).k.run.batch arr = some (g, dl) := hb
  simp only [fillExpiry, hb', State.time_cenv, Nat.not_le.mpr hdl, if_false]
  rfl

end

/-! ### A multiply at the head of its queue -/

section
variable {s : State} {c : Nat} {arr : Bool} {h : Entry} {op : MOp} {f : MMul} (hlive : s.livePaced c = true) (hcur : (s.core c).run.current)
  (hen : (s.core c).run.entries = [h]) (heng : h.eng = .arr arr) (hgroup : h.group = none) (hdead : h.dead = false)
  (hpush : h.pushes = []) (hfq : (s.core c).run.fq = []) (heq : (s.core c).run.eq = []) (hbatch : (s.core c).run.batch arr = none)
  (hi : asMMul h.instr = some (arr, op, f)) (hf : f.batch = false)
include hlive hcur hen heng hgroup hdead hpush hfq heq hbatch hi hf

/-- It runs once the items it pops have arrived, and else waits for them (R287, R288). -/
theorem State.matrixExecute_head :
    s.onCore c (fun e r => matrixExecute e arr r) = .next (s.runCore c fun e r =>
      if popsReady (s.core c) h.pops then mmulRun arr op f e h r else r.waitsQ e h.seq) := by
  have hrun : arrRun arr h.instr = mmulRun arr op f := by
    cases hx : h.instr <;> rw [hx] at hi <;> first | cases hi; rfl | cases hi
  have hfree := free_alone (s.core c) h hen hfq heq hcur
  have halone := matrixExecute_alone (s.cenv c) arr (CRes.of (s.core c) s.fc) h hen heng hgroup hpush hbatch
  rw [State.onCore_live _ _ _ hlive]
  refine congrArg _ (State.runCore_congr (halone.trans ?_))
  have hnone : (asMMul h.instr).filter (fun x => x.2.2.batch) = none := by simp [hi, hf]
  rw [hnone]
  have hpops : h.pops = [] → popsReady (s.core c) h.pops = true := fun he => by rw [he]; rfl
  simp only [tryRun, hdead, hfree, hpush, hrun, popReady, CRes.of]
  by_cases hr : popsReady (s.core c) h.pops = true
  · simp [hr]
  · have hne : h.pops ≠ [] := fun he => hr (hpops he)
    simp [hr, hne]

theorem State.matrixExecute_ready (hfit : f.base.toNat + tileCount f.M f.N ≤ 64) (hr : popsReady (s.core c) h.pops = true)
    (hnt : (s.core c).st.nantrap.getLsbD 0 = false) :
    ∃ t, s.onCore c (fun e r => matrixExecute e arr r) = .next t ∧ multiplied s t c arr op f h ∧ (t.core c).run.entries = [] := by
  have hexec := State.matrixExecute_head hlive hcur hen heng hgroup hdead hpush hfq heq hbatch hi hf
  obtain ⟨fl, pf, ld, qp, fc', hmul⟩ := mmulRun_eq arr op f (s.cenv c) h (CRes.of (s.core c) s.fc) hnt
  simp only [hr, if_true] at hexec
  rw [State.runCore_quiet s c (fun e r => mmulRun arr op f e h r) _ fc' hmul rfl hcur.2] at hexec
  obtain ⟨honly, hcore⟩ := onlyCore_setCore s c _ fc'
  refine ⟨_, hexec, multiplied_of arr op f h honly hfit ?_ qp ?_, ?_⟩
  · rw [hcore]
    rfl
  · rw [hcore]
    rfl
  · rw [hcore]
    simp [CoreRun.drop, CRes.of, hen]

theorem State.matrixExecute_waits (hr : popsReady (s.core c) h.pops = false) :
    ∃ t, s.onCore c (fun e r => matrixExecute e arr r) = .next t ∧ onlyCore s t c
      ∧ t.core c = { s.core c with run := { (s.core c).run with entries := [{ h with deadline := waitDeadline (s.cenv c) h.deadline }] } } := by
  have hexec := State.matrixExecute_head hlive hcur hen heng hgroup hdead hpush hfq heq hbatch hi hf
  simp only [hr, Bool.false_eq_true, if_false] at hexec
  rw [State.runCore_quiet s c (fun e r => r.waitsQ e h.seq) _ s.fc rfl rfl hcur.2] at hexec
  obtain ⟨honly, hcore⟩ := onlyCore_setCore s c _ s.fc
  refine ⟨_, hexec, honly, hcore.trans ?_⟩
  simp [CRes.of, CoreRun.setEntry, hen]

end

/-! ### Finished tiles -/

/-- Noting an overflow keeps the scale of every tile, and so every tile's values (R118). -/
theorem tileValue_noteOvf (arr arr' : Bool) (tile tile' : Nat) (f : Fl) (a : CoreArch) (pos : Nat) (v : FV) :
    tileValue (noteOvf arr tile f a) arr' tile' pos v = tileValue a arr' tile' pos v := by
  have hsc : (noteOvf arr tile f a).tfAt arr' tile' &&& tfSc = a.tfAt arr' tile' &&& tfSc := by
    unfold noteOvf
    split
    · by_cases hk : tfKey arr' tile' = tfKey arr tile
      · simp only [CoreArch.tfAt, CoreArch.setTf, hk, Sp.get_set_same, and_tfSc, BitVec.getLsbD_or]
        have hovf : tfOvf.getLsbD 2 = false := by decide
        rw [hovf, Bool.or_false]
      · simp only [CoreArch.tfAt, CoreArch.setTf, Sp.get_set_ne _ _ _ hk]
    · rfl
  have hacc : (noteOvf arr tile f a).acc = a.acc := by
    unfold noteOvf
    split <;> rfl
  simp only [tileValue, hsc, CoreArch.accAt, hacc]

/-- Noting overflows changes flag words only. -/
theorem foldl_noteOvf {α : Type} (arr : Bool) (tile : α → Nat) (fl : α → Fl) : ∀ (l : List α) (a : CoreArch),
    ∃ tf, l.foldl (fun a x => noteOvf arr (tile x) (fl x) a) a = { a with tflag := tf }
      ∧ ∀ arr' t pos v, tileValue { a with tflag := tf } arr' t pos v = tileValue a arr' t pos v
  | [], a => ⟨a.tflag, rfl, fun _ _ _ _ => rfl⟩
  | x :: l, a => by
    have hone : ∃ tf, noteOvf arr (tile x) (fl x) a = { a with tflag := tf } := by
      unfold noteOvf
      split
      · exact ⟨_, rfl⟩
      · exact ⟨a.tflag, rfl⟩
    obtain ⟨tf0, h0⟩ := hone
    obtain ⟨tf, h, hv⟩ := foldl_noteOvf arr tile fl l { a with tflag := tf0 }
    refine ⟨tf, by rw [List.foldl_cons, h0, h], fun arr' t pos v => (hv arr' t pos v).trans ?_⟩
    rw [← h0]
    exact tileValue_noteOvf _ _ _ _ _ _ _ _

/-- The elements that a plain write-out with scale 1 delivers of a tile (R118, R143). -/
def tileWords (a : CoreArch) (arr : Bool) (f : WOut) (tile : Nat) : List Nat :=
  (List.range 256).map (fun pos =>
    (((fmtFloat f.dfmt.toNat).getD .fp32).write (RM.ofCode f.rm.toNat) (tileValue a arr tile pos FV.one)).1)

/-- Tiles have entered the finished-tile queue, with flag words `tf` (R118, R143). -/
def CRes.tilesIn (r : CRes) (arr : Bool) (tf : Sp W32) (new : List FinTile) : CRes :=
  r.cur fun a => CoreArch.setFin { a with tflag := tf } arr (a.fin arr ++ new)

theorem CRes.tilesIn_nil (r : CRes) (arr : Bool) : r.tilesIn arr r.k.cur.tflag [] = r := by
  cases arr <;> simp [CRes.tilesIn, CRes.cur, CoreArch.setFin, CoreArch.fin]

theorem CRes.tilesIn_tilesIn (r : CRes) (arr : Bool) (tf tf' : Sp W32) (new new' : List FinTile) :
    (r.tilesIn arr tf new).tilesIn arr tf' new' = r.tilesIn arr tf' (new ++ new') := by
  cases arr <;> simp [CRes.tilesIn, CRes.cur, CoreArch.setFin, CoreArch.fin]

theorem CRes.fin_tilesIn (r : CRes) (arr : Bool) (tf : Sp W32) (new : List FinTile) :
    (r.tilesIn arr tf new).k.cur.fin arr = r.k.cur.fin arr ++ new := by
  cases arr <;> rfl

theorem CRes.tileValue_tilesIn (r : CRes) (arr : Bool) (tf : Sp W32) (new : List FinTile) (arr' : Bool) (u pos : Nat) (v : FV) :
    tileValue (r.tilesIn arr tf new).k.cur arr' u pos v = tileValue { r.k.cur with tflag := tf } arr' u pos v := by
  cases arr <;> rfl

/-- One tile enters the finished-tile queue (R143). -/
theorem enqueueTile_plain (arr : Bool) (f : WOut) (hw : f.wide = false) (h : Entry) (tile : Nat) (r : CRes) :
    ∃ tf t, enqueueTile false arr f h tile r
        = r.tilesIn arr tf [t]
      ∧ t.fmt = f.dfmt.toNat ∧ t.elems = tileWords r.k.cur arr f tile
      ∧ ∀ arr' u pos v, tileValue { r.k.cur with tflag := tf } arr' u pos v = tileValue r.k.cur arr' u pos v := by
  let els := (List.range 256).map (fun p => woutElem r.k h false arr f ((fmtFloat f.dfmt.toNat).getD .fp32) tile p FV.one)
  obtain ⟨tf, htf, hv⟩ := foldl_noteOvf arr (fun _ : Nat × Fl => tile) (fun x => x.2) els r.k.cur
  have hc (m : Nat) : woutScale r.k.st.ls (woutC f h) m = FV.one := by simp [woutC, hw, woutScale]
  refine ⟨tf, { fmt := f.dfmt.toNat, elems := els.map (·.1), flag := CoreArch.tfAt { r.k.cur with tflag := tf } arr tile }, ?_, rfl, ?_, hv⟩
  · unfold enqueueTile
    simp only [hc, ite_self]
    rw [show List.foldl _ r.k.cur _ = _ from htf]
    cases arr <;> rfl
  · simp [els, tileWords, woutElem]

/-- A waiting write-out enters as many of its tiles as there is room for, in order (R143). -/
theorem enqueueRoom_plain (arr : Bool) (f : WOut) (hw : f.wide = false) (h : Entry) : ∀ (n i : Nat) (r : CRes), ∃ tf new,
    let m := Nat.min (4 - (r.k.cur.fin arr).length) n
    new.map FinTile.fmt = List.replicate m f.dfmt.toNat
      ∧ new.map FinTile.elems = (List.range m).map (fun j => tileWords r.k.cur arr f (f.base.toNat + i + j))
      ∧ (m = n → enqueueRoom false arr f h n i r = (r.tilesIn arr tf new).done h.seq)
      ∧ (m < n → enqueueRoom false arr f h n i r = (r.tilesIn arr tf new).run (fun x => x.setEntry h.seq (fun y =>
          { y with eng := .wq arr, prog := i + m, rd := woutTiles false arr f (i + m) ++ y.rd.filter notTile })))
  | 0, i, r => ⟨r.k.cur.tflag, [], by
      intro m
      have hm : m = 0 := Nat.min_zero _
      rw [hm, r.tilesIn_nil]
      exact ⟨rfl, rfl, fun _ => rfl, fun h => absurd h (Nat.lt_irrefl 0)⟩⟩
  | n + 1, i, r => by
    by_cases hroom : (r.k.cur.fin arr).length < 4
    · obtain ⟨tf0, t, h0, hfmt, hels, hv⟩ := enqueueTile_plain arr f hw h (f.base.toNat + i) r
      obtain ⟨tf, new, hf, he, hall, hsome⟩ := enqueueRoom_plain arr f hw h n (i + 1) (r.tilesIn arr tf0 [t])
      have hlen : Nat.min (4 - (r.k.cur.fin arr).length) (n + 1)
          = Nat.min (4 - ((r.tilesIn arr tf0 [t]).k.cur.fin arr).length) n + 1 := by
        rw [CRes.fin_tilesIn, List.length_append, List.length_singleton]
        change min _ _ = min _ _ + 1
        omega
      have hstep : enqueueRoom false arr f h (n + 1) i r = enqueueRoom false arr f h n (i + 1) (r.tilesIn arr tf0 [t]) := by
        rw [enqueueRoom, if_pos hroom, h0]
      have hwords (u : Nat) : tileWords (r.tilesIn arr tf0 [t]).k.cur arr f u = tileWords r.k.cur arr f u := by
        simp only [tileWords, CRes.tileValue_tilesIn, hv]
      refine ⟨tf, t :: new, ?_⟩
      rw [hlen, hstep]
      rw [CRes.tilesIn_tilesIn] at hall hsome
      generalize Nat.min (4 - ((r.tilesIn arr tf0 [t]).k.cur.fin arr).length) n = m at hf he hall hsome ⊢
      refine ⟨by rw [List.map_cons, hf, hfmt, List.replicate_succ], ?_, fun hm => hall (by omega), fun hm => ?_⟩
      · rw [List.map_cons, he, hels, List.range_succ_eq_map, List.map_cons, List.map_map]
        exact congrArg _ (List.map_congr_left fun j _ => (hwords _).trans (congrArg _ (by simp only [Nat.succ_eq_add_one]; omega)))
      · rw [hsome (by omega), show i + 1 + m = i + (m + 1) by omega]
        rfl
    · refine ⟨r.k.cur.tflag, [], ?_⟩
      have hm : Nat.min (4 - (r.k.cur.fin arr).length) (n + 1) = 0 := by
        change min _ _ = 0
        omega
      rw [hm, r.tilesIn_nil]
      refine ⟨rfl, rfl, fun h => absurd h (by omega), fun _ => ?_⟩
      rw [enqueueRoom, if_neg hroom]
      rfl

/-- A core operation without effects on the rest of the block leaves its own core as it says. -/
theorem State.runCore_leaves {s : State} {c : Nat} {f : CEnv → CRes → CRes} {r : CRes} (h : f (s.cenv c) (CRes.of (s.core c) s.fc) = r)
    (ho : r.outs = []) (hh : r.k.run.halt = (s.core c).run.halt) (hl : r.k.run.late = []) :
    s.runCore c f = { s.setCore c r.k with fc := r.fc } := by
  refine State.runCore_quiet s c f r.k r.fc (h.trans ?_) hh hl
  rw [← ho]

/-- TILE_ENQUEUE for a plain write-out waiting at the head (R143). -/
theorem State.tileEnqueue_head {s : State} {c : Nat} {arr : Bool} {h : Entry} {f : WOut} {co : CoreNo} (hlive : s.livePaced c = true)
    (hlate : (s.core c).run.late = []) (hh : headEntry (.wq arr) (s.core c).run.entries = some h) (hi : h.instr = .wout co arr f)
    (hw : f.wide = false) :
    let m := Nat.min (4 - ((s.core c).cur.fin arr).length) (tileCount f.M f.N - h.prog)
    ∃ t new, s.onCore c (fun _ r => tileEnqueue arr r) = .next t ∧ onlyCore s t c ∧ (t.core c).cur.acc = (s.core c).cur.acc
      ∧ (t.core c).cur.fin arr = (s.core c).cur.fin arr ++ new ∧ (t.core c).cur.fin (!arr) = (s.core c).cur.fin (!arr)
      ∧ new.map FinTile.fmt = List.replicate m f.dfmt.toNat
      ∧ new.map FinTile.elems = (List.range m).map (fun j => tileWords (s.core c).cur arr f (f.base.toNat + h.prog + j))
      ∧ (m = tileCount f.M f.N - h.prog → (t.core c).run.entries = (s.core c).run.entries.filter (fun e => e.seq ≠ h.seq))
      ∧ (m < tileCount f.M f.N - h.prog → (∃ e ∈ (t.core c).run.entries, e.seq = h.seq ∧ e.prog = h.prog + m)
          ∧ (t.core c).run.entries.map (·.seq) = (s.core c).run.entries.map (·.seq)) := by
  intro m
  obtain ⟨tf, new, hfmt, hels, hall, hsome⟩ := enqueueRoom_plain arr f hw h (tileCount f.M f.N - h.prog) h.prog (CRes.of (s.core c) s.fc)
  have hstep : tileEnqueue arr (CRes.of (s.core c) s.fc) = enqueueRoom false arr f h (tileCount f.M f.N - h.prog) h.prog (CRes.of (s.core c) s.fc) := by
    have hh' : headEntry (.wq arr) (CRes.of (s.core c) s.fc).k.run.entries = some h := hh
    simp only [tileEnqueue, hh', hi, if_true]
  have hmem : h ∈ (s.core c).run.entries := List.mem_of_find?_eq_some hh
  have hle : m ≤ tileCount f.M f.N - h.prog := Nat.min_le_right _ _
  by_cases hm : m = tileCount f.M f.N - h.prog
  · have hexec := State.onCore_live s c (fun _ r => tileEnqueue arr r) hlive
    rw [State.runCore_leaves (hstep.trans (hall hm)) rfl rfl hlate] at hexec
    obtain ⟨honly, hcore⟩ := onlyCore_setCore s c _ _
    refine ⟨_, new, hexec, honly, ?_, ?_, ?_, hfmt, hels, fun _ => ?_, fun hlt => absurd hm (by omega)⟩ <;> rw [hcore]
    · cases arr <;> rfl
    · cases arr <;> rfl
    · cases arr <;> rfl
    · rfl
  · have hlt : m < tileCount f.M f.N - h.prog := by omega
    have hexec := State.onCore_live s c (fun _ r => tileEnqueue arr r) hlive
    rw [State.runCore_leaves (hstep.trans (hsome hlt)) rfl rfl hlate] at hexec
    obtain ⟨honly, hcore⟩ := onlyCore_setCore s c _ _
    refine ⟨_, new, hexec, honly, ?_, ?_, ?_, hfmt, hels, fun he => absurd he hm, fun _ => ⟨?_, ?_⟩⟩ <;> rw [hcore]
    · cases arr <;> rfl
    · cases arr <;> rfl
    · cases arr <;> rfl
    · refine ⟨_, List.mem_map_of_mem hmem, ?_, ?_⟩ <;> simp only [if_true]
      rfl
    · refine List.map_map.trans (List.map_congr_left fun e _ => ?_)
      simp only [Function.comp_apply]
      split <;> rfl

end Sys2Proof.Machine
end

section
open Sys2Proof Sys2Proof.Machine

/-- Settles O19: each event does what its core operation does at the head of its queue. -/
theorem matrixEvents : Obligations.MatrixEvents := by
  intro s c arr hlive hcur k
  refine ⟨fun h op f hen heng hgroup hdead hpush hfq heq hbatch hi hf hfit => ⟨fun hr hnt => ?_, fun hr => ?_⟩,
    fun g dl hb href => ⟨fun hdl => ?_, fun hdl => ?_⟩, ?_⟩
  · exact State.matrixExecute_ready hlive hcur hen heng hgroup hdead hpush hfq heq hbatch hi hf hfit hr hnt
  · exact State.matrixExecute_waits hlive hcur hen heng hgroup hdead hpush hfq heq hbatch hi hf hr
  · obtain ⟨hopen, hother, hcount⟩ := s.fillDeadline_passed c arr hcur.2
    exact ⟨_, State.fillDeadline_now hlive hb href hdl, hopen, hother, hcount, rfl⟩
  · obtain ⟨honly, hcore⟩ := onlyCore_setCore s c (s.core c) s.fc
    exact ⟨_, State.fillDeadline_early hlive hb href hdl hcur.2, hcore, honly⟩
  · intro h f hh hi hw hprog fm n elems
    obtain ⟨t, new, hexec, honly, hacc, hfin, hfin', hfmt, hels, hall, hsome⟩ := State.tileEnqueue_head hlive hcur.2 hh hi hw
    change n = _ → _ at hall
    change n < _ → _ at hsome
    exact ⟨t, new, hexec, honly, hacc, hfin, hfin', hfmt, hels, fun hm => hall (by omega), fun hm => hsome (by omega)⟩

end

section
/-! A plain write-out of FP32 tiles (R66, R118, R119). -/

namespace Sys2Proof.Machine

/-- The elements of an M by N result, row by row (R119). -/
def rectangle (M N : Nat) : List (Nat × Nat) := (List.range M).flatMap (fun m => (List.range N).map (fun n => (m, n)))

theorem mem_rectangle {M N m n : Nat} : (m, n) ∈ rectangle M N ↔ m < M ∧ n < N := by
  simp [rectangle]

theorem rectangle_nodup (M N : Nat) : (rectangle M N).Nodup := by
  refine List.pairwise_flatMap.mpr ⟨fun m _ => List.Pairwise.map _ (fun i j h he => h (congrArg Prod.snd he)) List.nodup_range, ?_⟩
  refine List.nodup_range.imp fun hij => ?_
  simp only [List.mem_map]
  rintro x ⟨a, -, rfl⟩ y ⟨b, -, rfl⟩ hab
  exact hij (congrArg Prod.fst hab)

/-- Elements of different places of an FP32 plane whose rows do not overlap do not overlap. -/
theorem plane_apart {N pitch eb m n m' n' : Nat} (hp : 4 * N ≤ pitch) (hn : n < N) (hn' : n' < N) (hne : (m, n) ≠ (m', n')) :
    eb + pitch * m + 4 * n + 4 ≤ eb + pitch * m' + 4 * n' ∨ eb + pitch * m' + 4 * n' + 4 ≤ eb + pitch * m + 4 * n := by
  rcases Nat.lt_trichotomy m m' with h | h | h
  · have := Nat.mul_le_mul_left pitch (Nat.succ_le_of_lt h)
    rw [Nat.mul_succ] at this
    omega
  · subst h
    have : n ≠ n' := fun he => hne (by rw [he])
    omega
  · have := Nat.mul_le_mul_left pitch (Nat.succ_le_of_lt h)
    rw [Nat.mul_succ] at this
    omega

/-- The value that a plain write-out with scale 1 rounds, and the word and flags it delivers (R118). -/
def woutWord (a : CoreArch) (arr : Bool) (f : WOut) (x : Nat × Nat) : Nat × Fl :=
  FFmt.fp32.write (RM.ofCode f.rm.toNat) (tileValue a arr (tileOf f.base.toNat f.N x.1 x.2) (posOf x.1 x.2) FV.one)

/-- The local store after a plain FP32 write-out to a descriptor's plane. -/
def woutStore (ls : Memory) (a : CoreArch) (arr : Bool) (f : WOut) (d : Opnd) : Memory :=
  (rectangle f.M f.N).foldl (fun m x => Memory.setNat m (d.eb + d.pitch * x.1 + 4 * x.2) 4 (woutWord a arr f x).1) ls

/-- A plain FP32 write-out to a descriptor stores its words, and ends (R118). -/
theorem woutRun_plain (arr : Bool) (f : WOut) (e : CEnv) (h : Entry) (r : CRes) (d : Opnd) (hdq : f.dq = false) (hw : f.wide = false)
    (hops : h.ops = [d]) (hq : d.qend = none) (hfmt : d.fmt = 0) :
    ∃ tf ld, woutRun false arr f e h r = { r with k := { r.k with
      cur := { r.k.cur with tflag := tf }, run := r.k.run.drop h.seq,
      st := { r.k.st with ls := woutStore r.k.st.ls r.k.cur arr f d, landing := ld } } } := by
  have hels : (List.range f.M).flatMap (fun m => (List.range f.N).map (fun n =>
      let t := tileOf f.base.toNat f.N m n
      ((m, n, t), woutElem r.k h false arr f ((fmtFloat 0).getD .fp32) t (posOf m n) FV.one)))
      = (rectangle f.M f.N).map (fun x => ((x.1, x.2, tileOf f.base.toNat f.N x.1 x.2), woutWord r.k.cur arr f x)) := by
    simp only [rectangle, List.map_flatMap, List.map_map]
    rfl
  obtain ⟨tf, htf, -⟩ := foldl_noteOvf arr (fun x : (Nat × Nat × Nat) × (Nat × Fl) => x.1.2.2) (fun x => x.2.2)
    ((rectangle f.M f.N).map (fun x => ((x.1, x.2, tileOf f.base.toNat f.N x.1 x.2), woutWord r.k.cur arr f x))) r.k.cur
  have hput (ls : Memory) : ((rectangle f.M f.N).map (fun x => ((x.1, x.2, tileOf f.base.toNat f.N x.1 x.2), woutWord r.k.cur arr f x))).foldl
      (fun m x => putElem m d.fmt (d.at_ 0 d.cols x.1.1 x.1.2.1) x.2.1) ls = woutStore ls r.k.cur arr f d := by
    rw [List.foldl_map]
    simp only [putElem, Opnd.at_, hq, hfmt]
    rfl
  have hd : nthD h.ops 0 {} = d := by simp [nthD, hops]
  have hc : woutC f h = none := by simp [woutC, hw]
  have hrun : woutRun false arr f e h r = ((r.cur fun a => { a with tflag := tf }).st fun x =>
      { x with ls := woutStore r.k.st.ls r.k.cur arr f d }).done h.seq := by
    simp only [woutRun, gateBad, Bool.false_and, Bool.false_eq_true, if_false, hdq, hd, hc, hq, woutScale]
    simp only [hfmt] at hput ⊢
    simp only [hels, hput, CRes.cur, htf]
    rfl
  exact ⟨tf, _, hrun⟩

end Sys2Proof.Machine
end

section
open Sys2Proof Sys2Proof.Machine

/-- Settles O20: the write-out runs at once, and its words do not overlap. -/
theorem writeOutStores : Obligations.WriteOutStores := by
  intro s c arr f p d h ha hdq hw hops hq hfmt hpitch k at_ value
  obtain ⟨heng, hpops⟩ := planWOut_gives _ _ _ _ _ _ p (Option.some.inj ha.1)
  have hexec := h.runsMatrix ha heng rfl (by
    simp [State.readyNow, popReady, popsReady, Plan.head, Plan.entry, hpops])
  obtain ⟨tf, ld, hrun⟩ := woutRun_plain arr f (s.cenv c) (p.head (s.cenv c) (.wout c arr f) (s.core c)) (s.enteredAs c (.wout c arr f) p) d
    hdq hw hops hq hfmt
  obtain ⟨-, -, -, -, -, -, -, -, -, hlate⟩ := h
  have hran := State.runCore_leaves (s := s) (c := c) (f := fun e r => woutRun false arr f e (p.head e (.wout c arr f) r.k) (p.entered e (.wout c arr f) r))
    hrun rfl rfl hlate
  rw [State.ran, show arrRun arr (.wout c arr f) = woutRun false arr f from rfl, hran] at hexec
  obtain ⟨honly, hcore⟩ := onlyCore_setCore s c _ _
  have hapart : (rectangle f.M f.N).Pairwise (fun x y => at_ x.1 x.2 + 4 ≤ at_ y.1 y.2 ∨ at_ y.1 y.2 + 4 ≤ at_ x.1 x.2) :=
    (rectangle_nodup f.M f.N).imp_of_mem fun {x y} hx hy hne =>
      plane_apart hpitch (mem_rectangle.mp hx).2 (mem_rectangle.mp hy).2 hne
  obtain ⟨hread, hkeep⟩ := Memory.foldl_setNat (fun x : Nat × Nat => at_ x.1 x.2) (fun x => (woutWord k.cur arr f x).1) 4 (rectangle f.M f.N)
    k.st.ls hapart
  refine ⟨_, hexec, honly, by rw [hcore]; rfl, fun m n hm hn => ?_, fun b hb => ?_⟩
  · rw [hcore]
    exact hread (m, n) (mem_rectangle.mpr ⟨hm, hn⟩)
  · rw [hcore]
    exact hkeep b fun x hx => hb x.1 x.2 (mem_rectangle.mp hx).1 (mem_rectangle.mp hx).2

end

section
/-! A bypass set in service is followed by a persistent record while firmware runs (R110, R474). -/

namespace Sys2Proof.Machine

/-- A block whose control space answers, with firmware running since before its timebase's last tick. -/
def firmwareRuns : State :=
  { State.reset with
    boot := { cold := false, blk := false, init := false, pgood := true }
    pwr := { on := true }
    roles := [(0, { logical := none, st := .spare })]
    aon := { tb := 1 }
    mgmt := { run := true } }

theorem firmwareRuns_bypass :
    exec (.matBypassWrite .mgmt 0 false 0 true) firmwareRuns = .next (firmwareRuns.updCore 0 (setBypass false 0)).persistNow := rfl

end Sys2Proof.Machine
end

section
open Sys2Proof Sys2Proof.Machine

/-- Refutes O21: while firmware runs, a bypass that takes effect at once is followed by a new persistent record (R474), so more of the
block than the core changes: the time of the last record of `firmwareRuns` goes from 0 to its timebase, 1. -/
theorem not_matrixRegisters : ¬ Obligations.MatrixRegisters := by
  intro h
  obtain ⟨-, -, hbypass, -⟩ := h firmwareRuns .mgmt 0 false 0 rfl
  obtain ⟨t, hexec, -, hsame, -⟩ := (hbypass rfl rfl).1 rfl
  rw [firmwareRuns_bypass] at hexec
  have ht : t = (firmwareRuns.updCore 0 (setBypass false 0)).persist := (Host.Outcome.next.inj hexec).symm
  have hnow : t.mgmt.persistAt = 1 := by rw [ht]; rfl
  have hthen : t.mgmt.persistAt = 0 := by rw [hsame]; rfl
  omega

end

section
/-! The instructions that act at issue outside the scalar slot (R166, R246, R249, R256, R270, R313). -/

namespace Sys2Proof.Machine

/-- What passing issue leaves of the sequencer where the long word held neither a fence nor a CWAIT. -/
def CoreRun.passed (r : CoreRun) (q : Nat) : CoreRun :=
  { r with fence := none, cwait := none, lastTag := 0#16, seq := q, resSince := none, ranSince := true }

theorem CoreRun.passed_issued (r : CoreRun) : r.passed (r.seq + 2) = r.issued 2 := rfl

/-- A long word of one instruction that names no stream passes issue. -/
theorem passIssue_one (i : Instr) (q : Nat) (r : CRes) (hs : streamIds i = []) (h2 : ∀ c a b, i ≠ .fence c a b) (h3 : ∀ c, i ≠ .cwait c) :
    passIssue (oneSlot i) q r = r.run (fun x => x.passed q) := by
  simp [passIssue, oneSlot, hs, takeIds, CoreRun.passed]

section
variable {s : State} {c : Nat} {i : Instr} (h : s.issues c) (hn : scalPlan (s.cenv c) (s.core c) i = none) (hs : streamIds i = [])
include h hn hs

/-- An instruction that leaves `r1` at issue, and nothing for the rest of the block, leaves that core. -/
theorem State.issues.onCore_slot (r1 : CRes)
    (ho : issueSlot (s.cenv c) (s.core c).st.ls ((s.core c).run.seq + 2) 0#16 i (CRes.of (s.core c) s.fc) = .ok r1)
    (hl : r1.k.run.lsUsed ≤ 64) (hi : r1.k.run.iq = (s.core c).run.iq) (hf : r1.k.run.iqOff = (s.core c).run.iqOff)
    (hout : r1.outs = []) (hhalt : r1.k.run.halt = (s.core c).run.halt) (hlate : r1.k.run.late = []) :
    s.onCore c (fun e r => issueOne e i r)
      = .next { s.setCore c (passIssue (oneSlot i) ((s.core c).run.seq + 2) r1).k with fc := r1.fc } := by
  obtain ⟨hlive, hheld, -, hcur⟩ := h
  rw [State.onCore_live s c _ hlive]
  congr 1
  exact State.runCore_leaves (issueOne_slot (s.cenv c) i (CRes.of (s.core c) s.fc) r1 hheld hcur hn hs ho hl hi hf) hout hhalt hlate

/-- An instruction that does `f` to the architectural state and `g` to the sequencer at issue. -/
theorem State.issues.acts (f : CoreArch → CoreArch) (g : CoreRun → CoreRun) (run : CoreRun)
    (ho : issueSlot (s.cenv c) (s.core c).st.ls ((s.core c).run.seq + 2) 0#16 i (CRes.of (s.core c) s.fc)
      = .ok { k := { s.core c with cur := f (s.core c).cur, run := run }, fc := s.fc, outs := [] })
    (hl : run.lsUsed = (s.core c).run.lsUsed) (hi : run.iq = (s.core c).run.iq) (hf : run.iqOff = (s.core c).run.iqOff)
    (hhalt : run.halt = (s.core c).run.halt) (hlate : run.late = (s.core c).run.late)
    (hp : ∀ x, (passIssue (oneSlot i) ((s.core c).run.seq + 2) { k := { s.core c with cur := x, run := run }, fc := s.fc, outs := [] }).k
      = { s.core c with cur := x, run := g ((s.core c).run.issued 2) }) :
    s.onCore c (fun e r => issueOne e i r) = .next (s.actedAt c f g) := by
  refine (h.onCore_slot hn hs _ ho (hl ▸ h.2.2.1) hi hf rfl hhalt (hlate.trans h.2.2.2.2)).trans ?_
  rw [hp]
  rfl

/-- An instruction whose one effect is `l`, which is no KEEP, takes it at once (R290). -/
theorem State.issues.acts_late (h2 : ∀ c a b, i ≠ .fence c a b) (h3 : ∀ c, i ≠ .cwait c) (l : Late) (f : CoreArch → CoreArch)
    (hw : (s.core c).run.waits ((s.core c).run.seq + 2) l = false)
    (ho : issueSlot (s.cenv c) (s.core c).st.ls ((s.core c).run.seq + 2) 0#16 i (CRes.of (s.core c) s.fc)
      = .ok ((CRes.of (s.core c) s.fc).late ((s.core c).run.seq + 2) l))
    (hl : l.apply (s.core c) = { s.core c with cur := f (s.core c).cur }) :
    s.onCore c (fun e r => issueOne e i r) = .next (s.actedAt c f) := by
  refine h.acts hn hs f id (s.core c).run ?_ rfl rfl rfl rfl rfl fun x => ?_
  · rw [ho, CRes.late_now _ _ _ hw]
    simp only [CRes.of, hl]
  · rw [passIssue_one i _ _ hs h2 h3]
    rfl

end

/-- The view of issue in a core where no effect waits. -/
theorem State.issues.seen {s : State} {c : Nat} (h : s.issues c) : (s.core c).seen = s.core c := Core.seen_none _ h.2.2.2.2

end Sys2Proof.Machine
end

section
open Sys2Proof Sys2Proof.Machine

/-- Settles O28: each instruction has one effect, which no commit mark holds back. -/
theorem counterAndSemaphoreMoves : Obligations.CounterAndSemaphoreMoves := by
  intro s c ctr sem ra h k a
  have hnow := fun l => CoreRun.waits_of_no_mark (s.core c).run ((s.core c).run.seq + 2) l h.2.2.2.1
  refine ⟨?_, ?_, ?_, ?_⟩
  · exact h.acts_late rfl rfl (by simp) (by simp) (.arr _ _) _ (hnow _ (by simp)) (by simp [issueSlot, issueDmv, CRes.of, h.seen]; rfl) rfl
  · exact h.acts_late rfl rfl (by simp) (by simp) (.arrSub _ _) _ (hnow _ (by simp)) (by simp [issueSlot, issueDmv, CRes.of, h.seen, a, k]) rfl
  · exact h.acts_late rfl rfl (by simp) (by simp) (.sem _ _) _ (hnow _ (by simp)) (by simp [issueSlot, issueDmv, CRes.of, h.seen]; rfl) rfl
  · exact h.acts_late rfl rfl (by simp) (by simp) (.sr _ _) _ (hnow _ (by simp)) (by simp [issueSlot, issueDmv, CRes.of, h.seen]) rfl

end

section
/-! Timed waits (R226, R247, R271). -/

namespace Sys2Proof.Machine

/-- A core that issues waits for nothing (R247, R271). -/
theorem State.issues.wait {s : State} {c : Nat} (h : s.issues c) : (s.core c).run.wait = none := by
  have hheld := h.2.1
  simp only [issueHeld, Bool.or_eq_false_iff] at hheld
  obtain ⟨⟨⟨⟨⟨⟨-, hw⟩, -⟩, -⟩, -⟩, -⟩, -⟩ := hheld
  exact Option.not_isSome_iff_eq_none.mp (by simp [hw])

theorem CoreRun.wait_none {r : CoreRun} (h : r.wait = none) : { r with wait := none } = r := by rw [← h]

/-- The deadline of a wait (R247). -/
theorem waitUntil_eq (s : State) (c : Nat) (ns : W32) :
    waitUntil (s.cenv c) ns.toNat = if ns = 0#32 then none else some (s.aon.tb + cdiv (ns.toNat * s.fref) 1000000000) := by
  have hz : (ns.toNat = 0) = (ns = 0#32) := by rw [← BitVec.toNat_inj]; rfl
  simp only [waitUntil, hz]
  rfl

theorem ofNat_wait_expired (v : W32) : BitVec.ofNat 64 (v.toNat + 2 ^ 32) = 1#32 ++ v := by
  refine BitVec.eq_of_toNat_eq ?_
  have hv := v.isLt
  rw [BitVec.toNat_append, ← Nat.shiftLeft_add_eq_or_of_lt hv, BitVec.toNat_ofNat, Nat.shiftLeft_eq]
  simp only [BitVec.toNat_ofNat]
  omega

/-- A fault with ACT 2 halts a core that runs, and its record is offered (R404). -/
theorem State.haltCore_running (s : State) (c : Nat) (f : CFault) (h : (s.core c).run.halt = none) :
    (s.haltCore c f).core c = { s.core c with run := { (s.core c).run with halt := some f.code } }
      ∧ ∃ r : FRec, r.code = f.code ∧ r.act = 2 ∧ (s.haltCore c f).fq.offered = s.fq.offered ++ [r] := by
  have heq : s.haltCore c f
      = ((s.offerCore c { f with act := 2 }).updRun c (fun r => { r with halt := some f.code })).noteHalt c := by
    simp [State.haltCore, h]
  constructor
  · rw [heq, State.core_noteHalt]
    exact State.core_updCore_same _ c _
  · rw [heq, State.noteHalt_eq]
    exact ⟨_, rfl, rfl, rfl⟩

section
variable {e : CEnv} {r : CRes} (hmarks : r.k.run.marks = [])
include hmarks

theorem issueAwait_met {ctr thr rd ns : Nat} (h : thr ≤ (Sp.get 0#32 r.k.cur.arr ctr).toNat) :
    issueAwait e ctr thr rd ns r = .ok (awaitDone ctr rd r) := by
  simp [issueAwait, hmarks, h]

theorem issueSemwait_met {sem rd ns : Nat} (h : 1 ≤ Sp.get 0 r.k.cur.sem sem) : issueSemwait e sem rd ns r = .ok (semDone sem rd r) := by
  simp [issueSemwait, hmarks, h]

end

theorem issueAwait_waits {e : CEnv} {r : CRes} {ctr thr rd ns : Nat} (h : ¬ thr ≤ (Sp.get 0#32 r.k.cur.arr ctr).toNat) :
    issueAwait e ctr thr rd ns r = .ok (r.run fun x => { x with wait := some (.arrive ctr thr rd (waitUntil e ns)) }) := by
  simp [issueAwait, h]

theorem issueSemwait_waits {e : CEnv} {r : CRes} {sem rd ns : Nat} (h : ¬ 1 ≤ Sp.get 0 r.k.cur.sem sem) :
    issueSemwait e sem rd ns r = .ok (r.run fun x => { x with wait := some (.sema sem rd (waitUntil e ns)) }) := by
  simp [issueSemwait, h]

section
variable {s : State} {c : Nat} {i : Instr} (h : s.issues c) (hn : scalPlan (s.cenv c) (s.core c) i = none) (hs : streamIds i = [])
  (h2 : ∀ c a b, i ≠ .fence c a b) (h3 : ∀ c, i ≠ .cwait c)
include h hn hs h2 h3

/-- A wait that issue finds satisfied writes the architectural state alone (R247, R271). -/
theorem State.issues.wait_met (f : CoreArch → CoreArch)
    (ho : issueSlot (s.cenv c) (s.core c).st.ls ((s.core c).run.seq + 2) 0#16 i (CRes.of (s.core c) s.fc)
      = .ok (((CRes.of (s.core c) s.fc).cur f).run fun x => { x with wait := none })) :
    s.onCore c (fun e r => issueOne e i r) = .next (s.actedAt c f) := by
  refine h.acts hn hs f id (s.core c).run (ho.trans ?_) rfl rfl rfl rfl rfl fun x => ?_
  · simp only [CRes.run, CRes.cur, CRes.of, CoreRun.wait_none h.wait]
  · rw [passIssue_one i _ _ hs h2 h3]; rfl

/-- Another holds issue. -/
theorem State.issues.wait_holds (w : Wait)
    (ho : issueSlot (s.cenv c) (s.core c).st.ls ((s.core c).run.seq + 2) 0#16 i (CRes.of (s.core c) s.fc)
      = .ok ((CRes.of (s.core c) s.fc).run fun x => { x with wait := some w })) :
    s.onCore c (fun e r => issueOne e i r) = .next (s.actedAt c id (fun r => { r with wait := some w })) :=
  h.acts hn hs id _ { (s.core c).run with wait := some w } ho rfl rfl rfl rfl rfl fun x => by
    rw [passIssue_one i _ _ hs h2 h3]; rfl

end

section
variable {s : State} {c : Nat} (hlive : s.live c = true) (hlate : (s.core c).run.late = []) (f : CEnv → CRes → CRes) (v : W64) (rd : Nat)
  (hf : f (s.cenv c) (CRes.of (s.core c) s.fc)
    = ((CRes.of (s.core c) s.fc).cur fun a => a.setSreg rd v).run fun x => { x with wait := none })
include hlive hlate hf

/-- A wait whose deadline has passed ends with `v` in SR[`rd`]. -/
theorem State.onCoreFree_expired :
    s.onCoreFree c f = .next (s.updCore c fun k => { k with cur := k.cur.setSreg rd v, run := { k.run with wait := none } }) := by
  rw [State.onCoreFree, if_pos hlive]
  congr 1
  exact State.runCore_leaves hf rfl rfl hlate

end

end Sys2Proof.Machine
end

section
open Sys2Proof Sys2Proof.Machine

/-- Settles O29: a wait is answered at issue where it is satisfied, and at its deadline otherwise. -/
theorem timedWaits : Obligations.TimedWaits := by
  intro s c ctr sem rt rd ns k thr v n dl
  refine ⟨fun h => ⟨?_, ?_⟩, fun d hlive hcur href hd => ⟨fun hwait => ?_, fun hwait => ?_⟩⟩
  · have hslot : issueSlot (s.cenv c) (s.core c).st.ls ((s.core c).run.seq + 2) 0#16 (.await c ctr rt rd ns) (CRes.of (s.core c) s.fc)
        = issueAwait (s.cenv c) ctr.toNat thr rd.toNat ns.toNat (CRes.of (s.core c) s.fc) := by
      simp only [issueSlot, issueDmv, CRes.of, h.seen]; rfl
    by_cases hv : thr ≤ v.toNat
    · rw [if_pos hv]
      exact h.wait_met rfl rfl (by simp) (by simp) _ (hslot.trans (issueAwait_met h.2.2.2.1 hv))
    · rw [if_neg hv]
      exact h.wait_holds rfl rfl (by simp) (by simp) _ (by rw [hslot, issueAwait_waits hv, waitUntil_eq])
  · have hslot : issueSlot (s.cenv c) (s.core c).st.ls ((s.core c).run.seq + 2) 0#16 (.semwait c sem rd ns) (CRes.of (s.core c) s.fc)
        = issueSemwait (s.cenv c) sem.toNat rd.toNat ns.toNat (CRes.of (s.core c) s.fc) := rfl
    by_cases hn : 1 ≤ n
    · rw [if_pos hn]
      exact h.wait_met rfl rfl (by simp) (by simp) _ (hslot.trans (issueSemwait_met h.2.2.2.1 hn))
    · rw [if_neg hn]
      exact h.wait_holds rfl rfl (by simp) (by simp) _ (by rw [hslot, issueSemwait_waits hn, waitUntil_eq])
  · have hexp := State.onCoreFree_expired hlive hcur.2 awaitTimeout (1#32 ++ v) rd.toNat (by
      have hd' : d ≤ (s.cenv c).time := hd
      simp only [awaitTimeout, CRes.of, hwait, hd', hcur.1, List.isEmpty_nil, decide_true, Bool.and_true, if_true, CRes.cur, ofNat_wait_expired]; rfl)
    have hexec : exec (.awaitTimeout c) s = .next (if s.pairWait c ctr.toNat then
        (s.updCore c fun k => { k with cur := k.cur.setSreg rd.toNat (1#32 ++ v), run := { k.run with wait := none } }).haltCore c
          { code := 0x36, unit := 0, tag := (s.core c).run.lastTag }
        else s.updCore c fun k => { k with cur := k.cur.setSreg rd.toNat (1#32 ++ v), run := { k.run with wait := none } }) := by
      show execAwaitTimeout c s = _
      simp only [execAwaitTimeout, href, hexp, hwait, State.core_updCore_same]
      rfl
    refine ⟨fun hpair => by rw [hexec, hpair]; rfl, fun hpair hhalt => ⟨_, hexec, ?_⟩⟩
    rw [if_pos hpair]
    have hcore := State.core_updCore_same s c fun k => { k with cur := k.cur.setSreg rd.toNat (1#32 ++ v), run := { k.run with wait := none } }
    obtain ⟨hhalted, hrec⟩ := State.haltCore_running _ c { code := 0x36, unit := 0, tag := (s.core c).run.lastTag } (by rw [hcore]; exact hhalt)
    rw [hcore] at hhalted
    exact ⟨by rw [hhalted], by rw [hhalted], hrec⟩
  · refine (if_neg (by simp [href])).trans (State.onCoreFree_expired hlive hcur.2 semTimeout (1#32 ++ 0#32) rd.toNat ?_)
    have hd' : d ≤ (s.cenv c).time := hd
    have hval : (1#32 ++ 0#32 : W64) = BitVec.ofNat 64 (2 ^ 32) := by decide
    simp only [semTimeout, CRes.of, hwait, hd', hcur.1, List.isEmpty_nil, decide_true, Bool.and_true, if_true, hval]

end

section
/-! Fences and kept ranges (R249, R250, R256). -/

namespace Sys2Proof.Machine

section
variable {s : State} {c : Nat} {i : Instr} (h : s.issues c) (hn : scalPlan (s.cenv c) (s.core c) i = none) (hs : streamIds i = [])
include h hn

/-- An instruction that its slot refuses halts the core's issue, and nothing of it takes effect (R302). -/
theorem State.issues.slot_faults (code : Nat)
    (ho : issueSlot (s.cenv c) (s.core c).st.ls ((s.core c).run.seq + 2) 0#16 i (CRes.of (s.core c) s.fc) = .fault code) :
    ∃ t, s.onCore c (fun e r => issueOne e i r) = .next t ∧ Machine.faultsAt s t c code := by
  obtain ⟨hlive, hheld, -, hcur⟩ := h
  refine ⟨_, State.onCore_live s c _ hlive, ?_⟩
  refine State.faultsAt_runCore s c _ { code := code, unit := 0, tag := 0#16 } (halt_none_of_not_issueHeld hheld) hcur.2 ?_
  have hseen : (CRes.of (s.core c) s.fc).k.seen = (CRes.of (s.core c) s.fc).k := Core.seen_none _ hcur.2
  have hheld' : issueHeld (CRes.of (s.core c) s.fc).k = false := hheld
  have hn' : scalPlan (s.cenv c) (CRes.of (s.core c) s.fc).k i = none := hn
  have ho' : issueSlot (s.cenv c) (CRes.of (s.core c) s.fc).k.st.ls ((CRes.of (s.core c) s.fc).k.run.seq + 1 + 1) 0#16 i
      (CRes.of (s.core c) s.fc) = .fault code := ho
  simp [issueOne, issueWord, oneSlot, hheld', hseen, hn', issueSlots, ho', issueFault]

include hs

/-- A KEEP that no earlier write of its range holds back writes its entry (R249). -/
theorem State.issues.keeps (h2 : ∀ c a b, i ≠ .fence c a b) (h3 : ∀ c, i ≠ .cwait c) (n : Nat) (ent : Kept)
    (hw : mustWait (s.core c).run.holds ((s.core c).run.seq + 2) [.ls ent.first (ent.first + ent.count)] [] = false)
    (ho : issueSlot (s.cenv c) (s.core c).st.ls ((s.core c).run.seq + 2) 0#16 i (CRes.of (s.core c) s.fc)
      = .ok ((CRes.of (s.core c) s.fc).late ((s.core c).run.seq + 2) (.keep n ent))) :
    s.onCore c (fun e r => issueOne e i r) = .next (s.actedAt c fun x => { x with kept := Sp.set {} x.kept n ent }) := by
  refine h.acts_late hn hs h2 h3 (.keep n ent) _ ?_ ho rfl
  obtain ⟨-, -, -, hmarks, hlate⟩ := h
  simp [CoreRun.waits, CoreRun.behind, hmarks, hlate, hw]

end

/-- The range of an entry that covers no granule waits for nothing. -/
theorem mustWait_empty (hs : List Hold) (q : Nat) : mustWait hs q [.ls 0 0] [] = false := by
  simp only [mustWait, List.any_eq_false, Res.anyMeet]
  intro x _
  have hmeets : ∀ a, Res.meets a (.ls 0 0) = false := by intro a; cases a <;> simp [Res.meets]
  simp [hmeets]

end Sys2Proof.Machine
end

section
open Sys2Proof Sys2Proof.Machine

/-- Settles O31: a fence marks its place, and a KEEP writes its entry. -/
theorem fencesAndKeptRanges : Obligations.FencesAndKeptRanges := by
  intro s c h e
  refine ⟨fun fq eq hq => ?_, ?_, fun n => ?_, fun n first count1 rb hen hfq heq => ?_⟩
  · have hsome : (!fq && !eq) = false := by cases fq <;> cases eq <;> simp_all
    refine h.acts rfl rfl id _ { (s.core c).run with fence := some (fq, eq, (s.core c).run.seq + 2) } ?_ rfl rfl rfl rfl rfl fun x => ?_
    · simp [issueSlot, issueDmv, issueFence, hsome, CRes.run, CRes.of]
    · simp [passIssue, oneSlot, takeIds, streamIds, CoreRun.issued, CRes.run]
  · exact h.slot_faults rfl 0x4F rfl
  · exact h.keeps rfl rfl (by simp) (by simp) n.toNat {} (mustWait_empty _ _) rfl
  · intro cnt a pte hrange hfree hpage hvalid hframe ent
    have hholds : (s.core c).run.holds = [] := by
      simp [CoreRun.holds, CoreRun.engHolds, hen, hfq, heq, h.2.2.2.2]
    refine h.keeps rfl rfl (by simp) (by simp) n.toNat ent (by rw [hholds]; rfl) ?_
    have hslot : issueSlot (s.cenv c) (s.core c).st.ls ((s.core c).run.seq + 2) 0#16 (.keep c n first rb count1) (CRes.of (s.core c) s.fc)
        = issueKeep e ((s.core c).run.seq + 2) n.toNat first.toNat rb.toNat cnt (CRes.of (s.core c) s.fc) := rfl
    have hany : ((s.core c).cur.kept.any fun x => x.1 != n.toNat && decide (first.toNat < x.2.first + x.2.count)
        && decide (x.2.first < first.toNat + cnt)) = false := by
      rw [List.any_eq_false]
      intro x hx
      rcases hfree x hx with h | h | h
      · simp [h]
      · simp [Nat.not_lt.mpr h]
      · simp [Nat.not_lt.mpr h]
    have hr : rangeBad first.toNat cnt = false := by simp [rangeBad, hrange]
    have hp : ¬ e.ptLen ≤ a / 2 ^ 21 := Nat.not_le.mpr hpage
    have hr' : ¬ (rangeBad first.toNat cnt = true ∨ ((s.core c).cur.kept.any fun x => x.1 != n.toNat
        && decide (first.toNat < x.2.first + x.2.count) && decide (x.2.first < first.toNat + cnt)) = true) := by
      simp only [hr, hany]; decide
    have hframe' : ¬ frameBad pte = true := Bool.eq_false_iff.mp hframe
    rw [hslot]
    simp only [issueKeep, CRes.of, h.seen]
    rw [if_neg hr', if_neg hp, if_neg (by rw [hvalid]; decide), if_neg hframe']

end

section
/-! SEMPOST at issue (R254, R255, R272, R377). -/

namespace Sys2Proof.Machine

/-! ### A post alone in the execute queue -/

/-- The transfer that a SEMPOST of core `k` enters, with its target where it goes to another core. -/
def postXfer (f : SemPostF) (k : Core) (dst : Option Nat) : Xfer :=
  { seq := k.run.seq + 2, tag := 0#16, gath := false, tgt := 1, lfirst := f.first.toNat, lcnt := f.gcnt1.toNat + 1,
    ordinal := k.run.ordinal, xidx := k.run.xord,
    post := some { tcore := dst, sem := f.sem.toNat, cnt := f.cnt1.toNat + 1 },
    wr := if f.rng then [.ls f.first.toNat (f.first.toNat + (f.gcnt1.toNat + 1))] else [] }

/-- The core once that transfer is alone in its execute queue. -/
def CRes.posting (r : CRes) (x : Xfer) (msgs : Nat) : CRes :=
  r.run (fun z => { z with eq := [x], ordinal := z.ordinal + msgs, xord := z.xord + 1 })

/-- A transfer is not in its own way (R241). -/
theorem CRes.posting_free (r : CRes) (x : Xfer) (msgs : Nat) (heq : r.k.run.eq = []) (hmarks : r.k.run.marks = []) :
    x.free (r.posting x msgs).k = !mustWait r.k.run.holds x.seq x.rd x.wr := by
  simp [Xfer.free, CRes.posting, CRes.run, CoreRun.behind, hmarks, mustWait, CoreRun.holds, CoreRun.engHolds, heq]

section
variable {r : CRes} {x : Xfer} {p : PostReq} (heq : r.k.run.eq = [x]) (hnew : x.started = false) (hpost : x.post = some p)
include heq hnew hpost

theorem postNext_now (hh : r.k.run.eHalt = false) (hf : x.free r.k = true) : postNext r = postNow x p r := by
  simp [postNext, nextXfer, heq, hnew, hpost, hf, hh]

theorem postNext_waits (hf : x.free r.k = false) : postNext r = r := by
  simp [postNext, nextXfer, heq, hnew, hpost, hf]

end

/-- Where issue admits the post, it enters the queue and takes place if it may. -/
theorem issueSempost_enters (e : CEnv) (f : SemPostF) (r : CRes) (dst : Option Nat) (msgs : Nat)
    (hin : f.self = false → e.part ≠ none ∧ f.tcore.toNat < e.ncores)
    (hfar : (dst = none ∧ msgs = 0 ∧ (f.self = true ∨ f.tcore.toNat = e.pidx))
      ∨ (dst = some f.tcore.toNat ∧ msgs = 1 ∧ f.self = false ∧ f.tcore.toNat ≠ e.pidx ∧ r.k.run.ordinal < maxMsgs))
    (hrng : f.rng = true → f.first.toNat + (f.gcnt1.toNat + 1) ≤ 6144) (heq : r.k.run.eq = []) :
    issueSempost e (r.k.run.seq + 2) 0#16 f r = .ok (postNext (r.posting (postXfer f r.k dst) msgs)) := by
  have hpart : ¬ ((!f.self) = true ∧ (e.part = none ∨ e.ncores ≤ f.tcore.toNat)) := by
    rintro ⟨hself, hout⟩
    obtain ⟨hsome, hlt⟩ := hin (by simpa using hself)
    exact hout.elim hsome (by omega)
  have hbad : (f.rng && rangeBad f.first.toNat (f.gcnt1.toNat + 1)) = false := by
    cases hr : f.rng with
    | false => rfl
    | true => simpa [rangeBad] using hrng hr
  have hqueue : ¬ 16 ≤ r.k.run.eq.length := by simp [heq]
  rcases hfar with ⟨rfl, rfl, hown⟩ | ⟨rfl, rfl, hself, hne, hroom⟩
  · have hnear : (!f.self && decide (f.tcore.toNat ≠ e.pidx)) = false := by rcases hown with h | h <;> simp [h]
    simp only [issueSempost, if_neg hpart, hnear, hbad, if_neg hqueue, Bool.false_and, Bool.false_eq_true, if_false]
    simp [CRes.posting, CRes.run, postXfer, heq]
  · have hfar : (!f.self && decide (f.tcore.toNat ≠ e.pidx)) = true := by simp [hself, hne]
    have hmsg : (true && decide (maxMsgs ≤ r.k.run.ordinal)) = false := by simpa using hroom
    simp only [issueSempost, if_neg hpart, hfar, hbad, if_neg hqueue, hmsg, Bool.false_eq_true, if_false, if_true]
    simp [CRes.posting, CRes.run, postXfer, heq]

end Sys2Proof.Machine
end

section
namespace Sys2Proof.Machine

/-- A range outside the store faults (R272). -/
theorem issueSempost_range (e : CEnv) (f : SemPostF) (r : CRes) (hin : f.self = false → e.part ≠ none ∧ f.tcore.toNat < e.ncores)
    (hroom : (f.self = true ∨ f.tcore.toNat = e.pidx ∧ (e.part ≠ none ∧ f.tcore.toNat < e.ncores)) ∨ r.k.run.ordinal < maxMsgs)
    (hrng : f.rng = true) (hbad : 6144 < f.first.toNat + (f.gcnt1.toNat + 1)) {q : Nat} {tag : W16} : issueSempost e q tag f r = .fault 0x25 := by
  have hpart : ¬ ((!f.self) = true ∧ (e.part = none ∨ e.ncores ≤ f.tcore.toNat)) := by
    rintro ⟨hself, hout⟩
    obtain ⟨hsome, hlt⟩ := hin (by simpa using hself)
    exact hout.elim hsome (by omega)
  have hmsg : ((!f.self && decide (f.tcore.toNat ≠ e.pidx)) && decide (maxMsgs ≤ r.k.run.ordinal)) = false := by
    rcases hroom with (h | h) | h
    · simp [h]
    · simp [h.1]
    · simp [Nat.not_le.mpr h]
  have hrange : (f.rng && rangeBad f.first.toNat (f.gcnt1.toNat + 1)) = true := by simpa [hrng, rangeBad] using hbad
  simp only [issueSempost, if_neg hpart, hmsg, hrange, Bool.false_eq_true, if_false, if_true]

/-! ### What a core operation leaves -/

theorem State.core_setCore_fc (s : State) (c : Nat) (k : Core) (n : Nat) : ({ s.setCore c k with fc := n } : State).core c = k :=
  State.core_setCore_same s c k

section
variable {s : State} {c : Nat} {f : CEnv → CRes → CRes} {r : CRes} (h : f (s.cenv c) (CRes.of (s.core c) s.fc) = r) (hlate : r.k.run.late = [])
include h hlate

/-- A core operation that leaves no effect waiting leaves its core as it says, the credits returned to it apart. -/
theorem State.core_leaves : ∃ q, (s.runCore c f).core c = { r.k with st := { r.k.st with qret := q } } := by
  obtain ⟨q, hq⟩ := s.core_runCore c f
  rw [h, Core.settle_none _ hlate] at hq
  exact ⟨q, hq⟩

/-- A core operation that halts nothing leaves to the block what its effects do there. -/
theorem State.runCore_outs (hhalt : r.k.run.halt = (s.core c).run.halt) :
    s.runCore c f = r.outs.foldl (fun t o => t.out c o) { (s.setCore c r.k) with fc := r.fc } := by
  simp only [State.runCore, h, Core.settle_none _ hlate]
  cases hx : (s.core c).run.halt <;> simp [hhalt, hx]

end

/-- A post leaves behind the other messages (R272). -/
theorem State.out_post (s : State) (c t sem cnt ord seq : Nat) (tag : W16) {p : Nat} (hp : s.partOf c = some p) :
    (s.out c (.post t sem cnt ord seq tag)).posts = s.posts ++ [{
      src := s.lcore c, seq := some seq, tag := tag, region := (s.core c).cur.region, ordinal := ord, part := p,
      dst := t, sp := c / 32, dp := s.slabAt p t, sem := sem, cnt := cnt }] := by
  simp only [State.out, hp]
  rfl

/-! ### Where the post goes -/

theorem wakeWait_none (r : CRes) (h : r.k.run.wait = none) : wakeWait r = r := by
  simp [wakeWait, h]

section
variable {r : CRes}

/-- A post to the core's own semaphore completes its transfer (R272). -/
theorem postNow_own {f : SemPostF} (heq : r.k.run.eq = []) :
     postNow (postXfer f r.k none) { tcore := none, sem := f.sem.toNat, cnt := f.cnt1.toNat + 1 }
        (r.posting (postXfer f r.k none) 0)
    = postSelf 0#16 f.sem.toNat (f.cnt1.toNat + 1) (r.run fun z => { z with xord := z.xord + 1 }) := by
  simp [postNow, CRes.posting, CRes.run, postXfer, heq]

/-- The transfer of a post that has left as a message. -/
def sentPost (x : Xfer) : Xfer := { x with started := true, allReq := true, open_ := 1, wr := [] }

/-- A post to another core leaves as a message, and its transfer holds its range no more (R272). -/
theorem postNow_far (r : CRes) (f : SemPostF) (t : Nat) :
    postNow (postXfer f r.k (some t)) { tcore := some t, sem := f.sem.toNat, cnt := f.cnt1.toNat + 1 }
        (r.posting (postXfer f r.k (some t)) 1)
      = (r.posting (sentPost (postXfer f r.k (some t))) 1).out
          (.post t f.sem.toNat (f.cnt1.toNat + 1) r.k.run.ordinal (r.k.run.seq + 2) 0#16) := by
  simp [postNow, CRes.posting, CRes.run, postXfer, sentPost]

theorem postSelf_fits (hwait : r.k.run.wait = none) {tag : W16} {sem cnt : Nat} (h : Sp.get 0 r.k.cur.sem sem + cnt ≤ 65535) :
    postSelf tag sem cnt r = r.cur (fun a => { a with sem := Sp.set 0 a.sem sem (Sp.get 0 r.k.cur.sem sem + cnt) }) := by
  have hno : ¬ 65535 < Sp.get 0 r.k.cur.sem sem + cnt := Nat.not_lt.mpr h
  have hmin : Nat.min (Sp.get 0 r.k.cur.sem sem + cnt) 65535 = Sp.get 0 r.k.cur.sem sem + cnt := Nat.min_eq_left h
  rw [postSelf, wakeWait_none]
  · simp [semAdd, hno, hmin, CRes.cur]
  · simp [semAdd, hno, CRes.cur, hwait]

/-- A post past 65,535 stays there and halts issue (R272). -/
theorem postSelf_past (hwait : r.k.run.wait = none) {tag : W16} {sem cnt : Nat} (h : 65535 < Sp.get 0 r.k.cur.sem sem + cnt) :
    postSelf tag sem cnt r = (r.cur (fun a => { a with sem := Sp.set 0 a.sem sem 65535 })).halt { code := 0x46, unit := 7, tag := tag } := by
  have hmin : Nat.min (Sp.get 0 r.k.cur.sem sem + cnt) 65535 = 65535 := Nat.min_eq_right (Nat.le_of_lt h)
  rw [postSelf, wakeWait_none]
  · simp [semAdd, h, hmin, CRes.cur]
  · simp [semAdd, h, CRes.cur, CRes.halt, CRes.run, CRes.out, hwait]

end

end Sys2Proof.Machine
end

section
open Sys2Proof Sys2Proof.Machine

/-- Settles O30: the post enters the execute queue alone, and takes place there if its range is free. -/
theorem semaphorePosts : Obligations.SemaphorePosts := by
  intro s c f h heq hhalt hls k e a m wr clear n inPart own far counts
  have hslot : issueSlot (s.cenv c) (s.core c).st.ls ((s.core c).run.seq + 2) 0#16 (.sempost c f) (CRes.of (s.core c) s.fc)
      = issueSempost e (k.run.seq + 2) 0#16 f (CRes.of k s.fc) := rfl
  have hin : own ∨ far → f.self = false → e.part ≠ none ∧ f.tcore.toNat < e.ncores := by
    rintro ((hself | ⟨-, hin⟩) | ⟨-, -, hin, -⟩) hnot
    · exact absurd hnot (by simp [hself])
    · exact hin
    · exact hin
  have hheld : issueHeld k = false := h.2.1
  have hstay (x : Xfer) (msgs : Nat) (hx : x.wr.length ≤ 1) (hrd : x.rd = []) : ((CRes.of k s.fc).posting x msgs).k.run.lsUsed ≤ 64 := by
    refine Nat.le_trans (?_ : _ ≤ k.run.lsUsed + 1) hls
    have hf : (x.wr.filter isLs).length ≤ 1 := Nat.le_trans (List.length_filter_le _ _) hx
    simp only [CoreRun.lsUsed, CoreRun.holds, CoreRun.engHolds, CRes.posting, CRes.run, CRes.of, heq, k, List.map_append, List.sum_append, List.append_nil]
    simp [hrd]
    omega
  have hwr : wr.length ≤ 1 := by simp only [wr]; split <;> simp
  have hfree (dst : Option Nat) (msgs : Nat) : (postXfer f k dst).free ((CRes.of k s.fc).posting (postXfer f k dst) msgs).k
      = !mustWait k.run.holds (k.run.seq + 2) [] wr := CRes.posting_free (CRes.of k s.fc) _ msgs heq h.2.2.2.1
  have hown_enters (hrng : f.rng = true → a + m ≤ 6144) (hown : own) := hslot.trans (issueSempost_enters e f (CRes.of k s.fc) none 0
    (hin (.inl hown)) (.inl ⟨rfl, rfl, hown.imp_right And.left⟩) hrng heq)
  have hfar_enters (hrng : f.rng = true → a + m ≤ 6144) (hfar : far) := hslot.trans (issueSempost_enters e f (CRes.of k s.fc)
    (some f.tcore.toNat) 1 (hin (.inr hfar)) (.inr ⟨rfl, rfl, hfar.1, hfar.2.1, hfar.2.2.2⟩) hrng heq)
  have hnow (dst : Option Nat) (msgs : Nat) (hclear : clear) := postNext_now (r := (CRes.of k s.fc).posting (postXfer f k dst) msgs)
    rfl rfl rfl hhalt ((hfree dst msgs).trans (by rw [hclear]; rfl))
  have hwait (dst : Option Nat) (msgs : Nat) (hbusy : ¬ clear) := postNext_waits (r := (CRes.of k s.fc).posting (postXfer f k dst) msgs)
    rfl rfl rfl ((hfree dst msgs).trans (by rw [Bool.of_not_eq_false hbusy]; rfl))
  have hpass (x : CRes) := passIssue_one (.sempost c f) (k.run.seq + 2) x rfl (by simp) (by simp)
  refine ⟨fun hrng hbad hto => ?_, fun hrng => ⟨fun hown hclear hn => ?_, fun hown hclear hn => ?_, fun hfar hclear => ?_, fun hto hbusy => ?_⟩, fun hself hout => ?_⟩
  · exact h.slot_faults rfl 0x25 (hslot.trans (issueSempost_range e f (CRes.of k s.fc) (hin hto) (hto.imp_right fun hf => hf.2.2.2) hrng hbad))
  · refine h.acts rfl rfl _ counts (counts k.run) ?_ rfl rfl rfl rfl rfl fun x => ?_
    · exact (hown_enters hrng hown).trans (congrArg SlotR.ok ((hnow none 0 hclear).trans ((postNow_own heq).trans (postSelf_fits h.wait hn))))
    · rw [hpass]
      rfl
  · have hone := issueOne_slot e (.sempost c f) (CRes.of k s.fc) _ hheld h.2.2.2 rfl rfl ((hown_enters hrng hown).trans
      (congrArg SlotR.ok ((hnow none 0 hclear).trans ((postNow_own heq).trans (postSelf_past h.wait hn))))) h.2.2.1 rfl rfl
    obtain ⟨q, hq⟩ := State.core_leaves (f := fun e r => issueOne e (.sempost c f) r) hone h.2.2.2.2
    exact ⟨_, State.onCore_live s c _ h.1, by rw [hq]; exact Sp.get_set_same 0 k.cur.sem f.sem.toNat 65535, by rw [hq]; rfl⟩
  · have hone := (issueOne_slot e (.sempost c f) (CRes.of k s.fc) _ hheld h.2.2.2 rfl rfl ((hfar_enters hrng hfar).trans
      (congrArg SlotR.ok ((hnow _ 1 hclear).trans (postNow_far (CRes.of k s.fc) f f.tcore.toNat)))) (hstay _ 1 (Nat.zero_le 1) rfl) rfl rfl).trans (hpass _)
    obtain ⟨p, hp⟩ := Option.ne_none_iff_exists'.mp hfar.2.2.1.1
    have hpart : s.partOf c = some p := hp
    obtain ⟨q, hq⟩ := State.core_leaves (f := fun e r => issueOne e (.sempost c f) r) hone h.2.2.2.2
    refine ⟨_, p, State.onCore_live s c _ h.1, hp, ?_, by rw [hq]; rfl, sentPost (postXfer f k (some f.tcore.toNat)), rfl, rfl, rfl, rfl, by rw [hq]; rfl⟩
    rw [State.runCore_outs (f := fun e r => issueOne e (.sempost c f) r) hone h.2.2.2.2 rfl]
    refine (State.out_post _ c _ _ _ _ _ _ (p := p) ?_).trans ?_
    · exact hpart
    · rw [State.core_setCore_fc]
      rfl
  · have hstays (dst : Option Nat) (msgs : Nat) (ho : issueSlot (s.cenv c) (s.core c).st.ls ((s.core c).run.seq + 2) 0#16 (.sempost c f)
        (CRes.of (s.core c) s.fc) = .ok (postNext ((CRes.of k s.fc).posting (postXfer f k dst) msgs))) :
        ∃ t x, exec (.sempost c f) s = .next t ∧ t.posts = s.posts ∧ (t.core c).cur = k.cur
          ∧ (t.core c).run.eq = [x] ∧ x.seq = k.run.seq + 2 ∧ x.started = false ∧ x.wr = wr := by
      have hexec := h.onCore_slot rfl rfl _ (ho.trans (congrArg SlotR.ok (hwait dst msgs hbusy))) (hstay _ _ hwr rfl) rfl rfl rfl rfl h.2.2.2.2
      rw [hpass] at hexec
      refine ⟨_, postXfer f k dst, hexec, rfl, ?_, ?_, rfl, rfl, rfl⟩
      · exact (congrArg Core.cur (State.core_setCore_fc s c _ _)).trans rfl
      · exact (congrArg (fun x : Core => x.run.eq) (State.core_setCore_fc s c _ _)).trans rfl
    exact hto.elim (fun hown => hstays none 0 (hown_enters hrng hown)) fun hfar => hstays _ 1 (hfar_enters hrng hfar)
  · refine h.slot_faults rfl 0x4A (hslot.trans (if_pos ⟨by simp [hself], ?_⟩))
    refine Classical.byContradiction fun hnot => ?_
    rw [not_or, Nat.not_le] at hnot
    exact hout hnot

end

section
/-! GATH in a region whose message ordinals lie past the last (R377). -/

namespace Sys2Proof.Machine

/-- A running block whose core 0, of partition 0, has counted 8,193 messages in its region. -/
def ordinalPast : State :=
  { State.reset with
    boot := { cold := false, blk := false, init := false, pgood := true }
    pwr := { on := true }
    roles := [(0, { logical := some 0, st := .active, part := some 0 })]
    lmap := [(0, some 0)]
    cast := { loaded := true, img := { kind := 1, parts := [{ first := 0, size := 1, qwait := 10 }] } }
    cores := [(0, { run := { ordinal := 8193 } })] }

theorem ordinalPast_issues : ordinalPast.issues 0 := by
  unfold State.issues
  decide

/-- A gather to the core's own store, of the record and the index tensor at byte 0. -/
def ownGather : GathF := { tgt := 0, dir := false, gr := 0, lfirst := 0, lcnt1 := 0 }

/-- Such a gather sends no message, and is refused with 0x49 there. -/
theorem ordinalPast_gath : ∃ t, exec (.gath 0 ownGather) ordinalPast = .next t ∧ faultsAt ordinalPast t 0 0x49 :=
  ordinalPast_issues.slot_faults rfl 0x49 (by decide +kernel)

end Sys2Proof.Machine
end

section
open Sys2Proof Sys2Proof.Machine

/-- Refutes O32: a core whose count of messages is past 8,192, which the statement does not exclude, refuses with 0x49 even a gather
that sends no message; so it enters no queue in `ordinalPast`. -/
theorem not_transfersEnterTheirQueue : ¬ Obligations.TransfersEnterTheirQueue := by
  intro h
  obtain ⟨-, hgath, -⟩ := h ordinalPast 0 ordinalPast_issues (by decide)
  obtain ⟨t, x, hexec, -, -, -, -, -, hcore⟩ := hgath ownGather (by decide) (by decide) (by decide) (by decide) (.inl rfl) (by decide) (by decide)
  obtain ⟨t', hexec', -, -, -, hrun, -⟩ := ordinalPast_gath
  obtain rfl : t = t' := Host.Outcome.next.inj (hexec.symm.trans hexec')
  have hhalt : (t.core 0).run.halt = some 0x49 := by rw [hrun]
  have hnone : (t.core 0).run.halt = none := by rw [show t.core 0 = _ from hcore]; rfl
  rw [hhalt] at hnone
  cases hnone

end

section
/-! The special-function slot (R153, R156 to R173, R312). -/

namespace Sys2Proof.Machine

/-- A core with nothing unfinished issues. -/
theorem State.fresh.issues {s : State} {c : Nat} (h : s.fresh c) : s.issues c := by
  obtain ⟨hlive, hheld, hen, hfq, heq, -, -, -, hcur⟩ := h
  refine ⟨hlive, hheld, ?_, hcur⟩
  simp [CoreRun.lsUsed, CoreRun.holds, CoreRun.engHolds, hen, hfq, heq, hcur.2]

/-! ### Running and finishing -/

/-- The end of an instruction that writes nothing of the local store and whose waits count in the event counter at `off`. -/
theorem done_bumpFree (h : Entry) (r : CRes) (off : Nat) (hl : ∀ e ∈ r.k.run.entries, ∀ x ∈ e.wr, isLs x = false) :
    ∃ pf fc', (r.done h.seq).bumpFree off
        = { r with k := { r.k with run := r.k.run.drop h.seq, st := { r.k.st with perf := pf } }, fc := fc' }
      ∧ ∀ o, o ∉ [off] → Sp.get 0#32 pf o = Sp.get 0#32 r.k.st.perf o := by
  have hu : unland ((r.k.run.entries.filter (fun e => e.seq = h.seq)).flatMap (·.wr)) r.k.st.landing = r.k.st.landing := by
    refine unland_none _ _ (fun x hx => ?_)
    obtain ⟨e, he, hx⟩ := List.mem_flatMap.mp hx
    exact hl e (List.mem_filter.mp he).1 x hx
  refine ⟨_, _, by simp only [CRes.bumpFree, CRes.bump, CRes.st, CRes.free, CRes.done, CRes.run, hu]; rfl, fun o ho => ?_⟩
  exact Sp.get_set_ne _ _ _ (by simpa using ho)

section
variable {s : State} {c : Nat} {i : Instr} {p : Plan}

/-- Alone in its queue, a special-function instruction has no table load before it (R153). -/
theorem sfReady_entered (hg : p.eng = .sfu) : s.readyNow c i p sfReady := by
  simp [State.readyNow, sfReady, Plan.entered, CRes.run, CRes.of, Plan.head, Plan.entry, hg]

/-- Alone in its queue, a table load has no special-function instruction before it (R153). -/
theorem tloadReady_entered (hg : p.eng = .tload) : s.readyNow c i p tloadReady := by
  simp [State.readyNow, tloadReady, Plan.entered, CRes.run, CRes.of, Plan.head, Plan.entry, hg]

/-- A special-function instruction whose run leaves architectural state `a` and flags `fl`, and then finishes, leaves just that. -/
theorem State.fresh.sfuArch (h : s.fresh c) (hp : Instr.PlanFor .sfu (s.cenv c) (s.core c) i p) (run : ExecF) (fl : Fl) (a : CoreArch) (n : Nat)
    (hrun : run (s.cenv c) (p.head (s.cenv c) i (s.core c)) (s.enteredAs c i p)
      = sfDone (p.head (s.cenv c) i (s.core c)) { (((s.enteredAs c i p).cur fun _ => a).flags fl) with fc := n }) :
    ∃ t, s.onCore c (fun e r => slotStep e .sfu i sfReady run r) = .next t
      ∧ onlyCore s t c ∧ ranOn (s.core c) (t.core c) fl [0x2014] (fun _ => a) ∧ (t.core c).cur = a := by
  refine ⟨_, h.runs (hp.admits h) hp.eng (sfReady_entered hp.eng) run, ?_⟩
  obtain ⟨-, -, hen, -, -, -, -, -, -, hlate⟩ := h
  obtain ⟨pf, fc', h1, h2⟩ := done_bumpFree (p.head (s.cenv c) i (s.core c)) { (((s.enteredAs c i p).cur fun _ => a).flags fl) with fc := n }
    0x2014 (by
      intro x hx
      simp only [State.enteredAs, Plan.entered, CRes.run, CRes.of, CRes.cur, CRes.flags, CRes.st, List.mem_singleton] at hx
      subst hx
      exact hp.noLsWrites)
  exact ran_quiet s c i p run a fl pf fc' [0x2014] _ hlate hen hp.ids hp.msgs (hrun.trans h1) rfl h2

end

/-! ### Banks -/

theorem planSfu_tload_for (e : CEnv) (k : Core) (c : CoreNo) (g : BitVec 13) : (planSfu e k (.tload c g)).For .tload := by
  unfold planSfu
  exact .checked rfl

theorem CoreArch.bankOf_setBank (a : CoreArch) (b : Nat) (v : Bank) : (a.setBank b v).bankOf b = v := by
  unfold CoreArch.setBank CoreArch.bankOf
  split <;> rfl

/-- A table load that starts marks its bank invalid, and writes nothing else of the core but its entry (R167). -/
theorem State.fresh.tloads {s : State} {c : Nat} {i : Instr} {p : Plan} (h : s.fresh c) (ha : s.admits c i p) (hg : p.eng = .tload) :
    ∃ t, s.onCore c (fun e r => slotStep e .tload i tloadReady tloadRun r) = .next t ∧ onlyCore s t c
      ∧ (t.core c).cur = (s.core c).cur.setBank p.bank { (s.core c).cur.bankOf p.bank with valid := false, id := 0#32 }
      ∧ (t.core c).st = (s.core c).st := by
  have hexec := h.runs ha hg (tloadReady_entered hg) tloadRun
  rw [State.ran, State.runCore_leaves rfl rfl rfl h.2.2.2.2.2.2.2.2.2] at hexec
  obtain ⟨honly, hcore⟩ := onlyCore_setCore s c (tloadRun (s.cenv c) (p.head (s.cenv c) i (s.core c)) (s.enteredAs c i p)).k s.fc
  exact ⟨_, hexec, honly, (congrArg Core.cur hcore).trans rfl, (congrArg Core.st hcore).trans rfl⟩

end Sys2Proof.Machine
end

section
open Sys2Proof Sys2Proof.Machine

/-- Settles O22: each instruction's plan is one of the special-function slot, and a table load starts at once. -/
theorem specialFunctionRuns : Obligations.SpecialFunctionRuns := by
  intro s c p h runs
  have hruns (i : Instr) (run : ExecF) (hplan : planEng (s.cenv c) (s.core c) (s.core c).st.ls i = some (planSfu (s.cenv c) (s.core c) i))
      (hfor : (planSfu (s.cenv c) (s.core c) i).For .sfu) (ha : s.admits c i p) :
      s.onCore c (fun e r => slotStep e .sfu i sfReady run r) = .next (s.ran c i p run) :=
    h.runs ha (ha.eng hplan hfor) (sfReady_entered (ha.eng hplan hfor)) run
  refine ⟨fun f => ?_, fun f => ?_, fun f => ?_, fun ctx a b d => ?_, fun ctx en rn sm eps => ?_, fun ctx => ?_, ?_, fun g ha => ?_⟩
  · exact hruns (.sfev c f) _ rfl (.ite .fault (.go rfl))
  · exact hruns (.gact c f) _ rfl (.ite .fault (.go rfl))
  · exact hruns (.smaxt c f) _ rfl (.ite .fault (.go rfl))
  · exact hruns (.smaxr c ctx a b d) _ rfl (.go rfl)
  · exact hruns (.rmsf c ctx en rn sm eps) _ rfl (.ite .fault (.go rfl))
  · have hp : Instr.PlanFor .sfu (s.cenv c) (s.core c) (.smaxi c ctx) { eng := .sfu } := ⟨rfl, rfl, rfl, rfl, rfl, by simp, by simp⟩
    obtain ⟨t, hexec, honly, hran, -⟩ := h.sfuArch hp (smaxiRun ctx.toNat) 0#6
      ((s.core c).cur.setSmctx ctx.toNat { m := 0xFF800000#32, s := 0#32 }) s.fc (by rw [CRes.flags_zero]; rfl)
    exact ⟨t, hexec, honly, hran⟩
  · have hnow := CoreRun.waits_of_no_mark (s.core c).run ((s.core c).run.seq + 2) .bank h.issues.2.2.2.1 (by simp)
    exact h.issues.acts_late rfl rfl (by simp) (by simp) .bank _ hnow rfl rfl
  · obtain ⟨t, hexec, honly, hcur, hst⟩ := h.tloads ha (ha.eng rfl (planSfu_tload_for _ _ c g))
    have hbank : (t.core c).cur.bankOf p.bank = { (s.core c).cur.bankOf p.bank with valid := false, id := 0#32 } := by
      rw [hcur, CoreArch.bankOf_setBank]
    exact ⟨t, hexec, honly, by rw [hbank], by rw [hbank]; exact hcur, hst⟩

end

section
namespace Sys2Proof.Machine

/-! ### The end of a table load -/

/-- A core operation that finishes its work, and where `b` reports a fault of ACT 0 (R402). -/
theorem State.runCore_report {s : State} {c : Nat} {f : CEnv → CRes → CRes} {r : CRes} {b : Bool} {x : CFault}
    (h : f (s.cenv c) (CRes.of (s.core c) s.fc) = if b then r.report x else r) (hlate : r.k.run.late = [])
    (hhalt : r.k.run.halt = (s.core c).run.halt) (hout : r.outs = []) :
    (s.runCore c f).core c = r.k ∧ (b = false → (s.runCore c f).fq = s.fq)
      ∧ (b = true → ∃ y : FRec, y.code = x.code ∧ y.act = x.act ∧ (s.runCore c f).fq.offered = s.fq.offered ++ [y]) := by
  have hcore := State.core_setCore_fc s c r.k r.fc
  cases b with
  | false =>
    rw [State.runCore_outs (h.trans (if_neg Bool.false_ne_true)) hlate hhalt, hout]
    exact ⟨hcore, fun _ => rfl, nofun⟩
  | true =>
    have hone : (r.report x).outs = [.fault x] := by simp [CRes.report, CRes.out, hout]
    rw [State.runCore_outs (h.trans (if_pos rfl)) hlate hhalt, hone]
    exact ⟨hcore, nofun, fun _ => ⟨_, rfl, rfl, rfl⟩⟩

/-- The core once the started table load `h` of the image at granule `g` has its bank (R157). -/
def tloadDelivered (h : Entry) (g : Nat) (r : CRes) : CRes :=
  (r.cur fun a => a.setBank h.bank (bankOfImage (lsPut [] 0 (lsBytesAt r.k.st.ls (32 * g) 6432)))).done h.seq

/-- The table load at the head ends: an image that fails validation is reported with 0x1A (R157). -/
theorem tloadDone_head (r : CRes) (h : Entry) (c : CoreNo) (g : BitVec 13) (hhead : headEntry .tload r.k.run.entries = some h)
    (hinstr : h.instr = .tload c g) (hprog : h.prog = 1) :
    tloadDone r = if !(bankOfImage (lsPut [] 0 (lsBytesAt r.k.st.ls (32 * g.toNat) 6432))).valid then
      (tloadDelivered h g.toNat r).report { code := 0x1A, unit := 4, tag := h.tag } else tloadDelivered h g.toNat r := by
  simp only [tloadDone, hhead, hinstr, hprog, if_true, tloadFinish]
  cases (bankOfImage (lsPut [] 0 (lsBytesAt r.k.st.ls (32 * g.toNat) 6432))).valid <;> rfl

end Sys2Proof.Machine
end

section
open Sys2Proof Sys2Proof.Machine

/-- Settles O23: the bank holds the image, and one that fails validation leaves a record. -/
theorem tableLoadCompletes : Obligations.TableLoadCompletes := by
  intro s c h g hlive hcur hhead hinstr hprog k img ok
  have hbank : bankOfImage img = { img := img, valid := ok, id := if ok then Memory.w32 img 4 else 0#32 } := rfl
  have hdone : tloadDone (CRes.of k s.fc) = if !(bankOfImage img).valid then
      (tloadDelivered h g.toNat (CRes.of k s.fc)).report { code := 0x1A, unit := 4, tag := h.tag }
      else tloadDelivered h g.toNat (CRes.of k s.fc) :=
    tloadDone_head (CRes.of k s.fc) h c g hhead hinstr hprog
  have hwritten : (tloadDelivered h g.toNat (CRes.of k s.fc)).k.cur
      = k.cur.setBank h.bank { img := img, valid := ok, id := if ok then Memory.w32 img 4 else 0#32 } := congrArg (k.cur.setBank h.bank) hbank
  clear_value ok
  have hvalid : (bankOfImage img).valid = ok := by rw [hbank]
  rw [hvalid] at hdone
  obtain ⟨hleft, hgood, hbad⟩ := State.runCore_report (f := fun _ r => tloadDone r) hdone hcur.2 rfl rfl
  refine ⟨_, State.onCore_live s c _ hlive, (congrArg Core.cur hleft).trans hwritten, by rw [hleft]; rfl, by rw [hleft]; rfl, ?_, ?_⟩
  · exact fun hok => hgood (by simp [hok])
  · exact fun hok => hbad (by simp [hok])

end

section
namespace Sys2Proof.Machine

/-! ### Evaluations of the active bank -/

theorem CoreArch.smreg_setSm (a : CoreArch) (i j : Nat) (v : W32) : (a.setSm i v).smreg j = if j = i then v else a.smreg j :=
  Sp.get_set ..

/-- An evaluation of a valid bank whose entry is not empty takes place (R168). -/
theorem sfGuard_ok (e : CEnv) (h : Entry) (dir : Nat) (r f : CRes) (hv : (r.k.cur.bankOf h.bank).valid = true)
    (hf : (dirEnt (r.k.cur.bankOf h.bank).reader dir).func ≠ 0) : sfGuard e h false dir r f = f := by
  have hnone : sfFault e r.k h false dir = none := by
    unfold CoreArch.bankOf at hv hf
    simp [sfFault, hv, hf]
  simp only [sfGuard, hnone]

end Sys2Proof.Machine
end

section
open Sys2Proof Sys2Proof.Machine

/-- Settles O24: both evaluations take place, each with the operand its context gives. -/
theorem softMaximumAndRms : Obligations.SoftMaximumAndRms := by
  intro s c h k b hvalid
  refine ⟨fun ctx sm ss sr hfunc h1 h2 h3 => ?_, fun ctx en rn sm eps hfunc hkind => ?_⟩
  · intro x
    let o := sfEval b.reader false (dirEnt b.reader 4) .fp32 .rne true s.fc (argFp32 x.s.toNat) none
    have hp : Instr.PlanFor .sfu (s.cenv c) (s.core c) (.smaxr c ctx sm ss sr)
        { eng := .sfu, bank := issueBank (s.core c), rd := [.bank (issueBank (s.core c))], wr := [.sm sm.toNat, .sm ss.toNat, .sm sr.toNat] } :=
      ⟨rfl, rfl, rfl, rfl, rfl, by simp [isLs], by simp [isLs]⟩
    obtain ⟨t, hexec, honly, -, hcur⟩ := h.sfuArch hp (smaxrRun ctx.toNat sm.toNat ss.toNat sr.toNat) o.fl
      (((k.setSm sm.toNat x.m).setSm ss.toNat x.s).setSm sr.toNat (BitVec.ofNat 32 o.bits)) (s.fc + sfFree)
      (sfGuard_ok _ _ 4 _ _ hvalid hfunc)
    have hne (a b : BitVec 3) (hab : a ≠ b) : a.toNat ≠ b.toNat := fun h => hab (BitVec.eq_of_toNat_eq h)
    refine ⟨t, hexec, honly, ?_, ?_, ?_, ?_, by rw [hcur]; rfl⟩
    · rw [hcur]; simp [CoreArch.smreg_setSm, hne _ _ h1, hne _ _ h3]
    · rw [hcur]; simp [CoreArch.smreg_setSm, hne _ _ h2]
    · intro o' ho'; rw [hcur, ho']; simp [CoreArch.smreg_setSm, o]
    · intro j j1 j2 j3; rw [hcur]; simp [CoreArch.smreg_setSm, j1, j2, j3]
  · intro n
    let q := divCount (nthD k.rctx ctx.toNat {}).a n
    let y := fp32Op2 .rne (FV.add .rne) q.1 eps
    let o := sfEval b.reader false (dirEnt b.reader en.toNat) .fp32 .rne true s.fc (argFp32 y.1.toNat) none
    let v : W32 × Fl := if n = 0 then (0x7FC00000#32, flNangen) else (BitVec.ofNat 32 o.bits, q.2 ||| y.2 ||| o.fl)
    have hsq : issueKind (s.core c) ctx.toNat = 1 := by
      obtain ⟨-, -, hen, -⟩ := h
      simpa [issueKind, hen] using hkind
    have hp : Instr.PlanFor .sfu (s.cenv c) (s.core c) (.rmsf c ctx en rn sm eps)
        { eng := .sfu, bank := issueBank (s.core c), rd := [.rctx ctx.toNat, .bank (issueBank (s.core c))], wr := [.sm sm.toNat],
          sr := [k.sreg rn.toNat] } :=
      ⟨rfl, by simp [planEng, planSfu, hsq, k], rfl, rfl, rfl, by simp [isLs], by simp [isLs]⟩
    obtain ⟨t, hexec, honly, -, hcur⟩ := h.sfuArch hp (rmsfRun ctx.toNat en.toNat sm.toNat eps) v.2 (k.setSm sm.toNat v.1) (s.fc + sfFree)
      (sfGuard_ok _ _ en.toNat _ _ hvalid hfunc)
    refine ⟨t, hexec, honly, fun hn => ?_, fun hn => ?_, fun j hj => ?_, by rw [hcur]; rfl⟩
    · rw [hcur]; simp [CoreArch.smreg_setSm, v, hn]
    · rw [hcur]; simp [CoreArch.smreg_setSm, v, Nat.ne_of_gt hn, o, y, q]
    · rw [hcur]; simp [CoreArch.smreg_setSm, hj]

end

section
/-! The carry slot in a core with nothing unfinished (R189 to R208, R219, R313). -/

namespace Sys2Proof.Machine

/-! ### Plans -/

/-- An instruction that is admitted has what its plan gives. -/
theorem State.admits.gives {s : State} {c : Nat} {i : Instr} {p : Plan} (h : s.admits c i p) {r : PlanR} {P : Plan → Prop}
    (hr : planEng (s.cenv c) (s.core c) (s.core c).st.ls i = some r) (hg : r.Gives P) : P p :=
  hg p (Option.some.inj (hr.symm.trans h.1))

theorem planCset_for (e : CEnv) (k : Core) (ls : Memory) (c : CoreNo) (f : CSetF) : (planCarry e k ls (.cset c f)).For .carry := by
  unfold planCarry
  exact .ite .fault (.ite (.withBlk fun _ => .ite .fault (.withIds (.checked rfl))) (.withIds (.checked rfl)))

theorem planCget_for (e : CEnv) (k : Core) (ls : Memory) (c : CoreNo) (f : CGetF) : (planCarry e k ls (.cget c f)).For .carry := by
  unfold planCarry
  exact .ite .fault (.withIds (.checked rfl))

theorem planCkgen_for (e : CEnv) (k : Core) (ls : Memory) (c : CoreNo) (blk : BitVec 13) (rt : BitVec 5) :
    (planCarry e k ls (.ckgen c blk rt)).For .carry := by
  unfold planCarry
  exact .withBlk fun _ => .ite .fault (.checked rfl)

theorem planCcmp_gives (e : CEnv) (k : Core) (ls : Memory) (c : CoreNo) (f : CCmpF) :
    (planCarry e k ls (.ccmp c f)).Gives fun p => p.eng = .carry ∧ p.sr = [k.cur.sreg f.rn.toNat] := by
  unfold planCarry
  exact .ite .fault (.checked ⟨rfl, rfl⟩)

theorem planCreset_for (e : CEnv) (k : Core) (ls : Memory) (c : CoreNo) (id : W16) : (planCarry e k ls (.creset c id)).For .carry := by
  unfold planCarry
  exact .withIds (.go rfl)

/-! ### Running and finishing -/

section
variable {s : State} {c : Nat} {i : Instr} {p : Plan} (h : s.fresh c) (ha : s.admits c i p) (hg : p.eng = .carry)
include h ha hg

/-- A carry instruction that is admitted runs at once (R55). -/
theorem State.fresh.runsCarry (run : ExecF) : s.onCarry c i run = .next (s.ran c i p run) :=
  (State.onCarry_paced h.1 run).trans (h.runs (ready := always) ha hg rfl run)

/-- One that offers nothing to the rest of the block and finishes leaves the core that its work left, with its decrements owed and its
counters counted (R215). -/
theorem State.fresh.finishesCarry (run : ExecF) (ids wrote : List Nat) (beats : Nat) (a : CoreArch) (st : CoreStore)
    (hrun : run (s.cenv c) (p.head (s.cenv c) i (s.core c)) (s.enteredAs c i p)
      = carryDone (p.head (s.cenv c) i (s.core c)) ids wrote beats (((s.enteredAs c i p).cur fun _ => a).st fun _ => st)) :
    ∃ t, s.onCarry c i run = .next t ∧ onlyCore s t c ∧ (t.core c).cur = a
      ∧ (t.core c).st = { st with perf := (t.core c).st.perf, landing := (t.core c).st.landing }
      ∧ (t.core c).run.qdec = (s.core c).run.qdec ++ ids ∧ (t.core c).run.entries = [] := by
  have hexec := h.runsCarry ha hg run
  obtain ⟨-, -, -, -, -, -, -, -, -, hlate⟩ := h
  rw [State.ran, State.runCore_leaves hrun rfl rfl hlate] at hexec
  obtain ⟨honly, hcore⟩ := onlyCore_setCore s c
    (carryDone (p.head (s.cenv c) i (s.core c)) ids wrote beats (((s.enteredAs c i p).cur fun _ => a).st fun _ => st)).k
    (carryDone (p.head (s.cenv c) i (s.core c)) ids wrote beats (((s.enteredAs c i p).cur fun _ => a).st fun _ => st)).fc
  refine ⟨_, hexec, honly, (congrArg Core.cur hcore).trans rfl, by rw [hcore]; rfl, by rw [hcore]; rfl, ?_⟩
  rw [hcore]
  change ([p.head (s.cenv c) i (s.core c)].filter fun e => e.seq ≠ (p.head (s.cenv c) i (s.core c)).seq) = []
  simp

end

end Sys2Proof.Machine
end

section
open Sys2Proof Sys2Proof.Machine

/-- Settles O25: each instruction's plan is one of the carry unit. -/
theorem carryRuns : Obligations.CarryRuns := by
  intro s c p h runs
  refine ⟨fun f ha => ?_, fun f ha => ?_, fun b rt ha => ?_, fun f ha => ?_, fun f ha => ?_, fun f ha => ?_, fun id ha => ?_, ?_⟩
  · exact h.runsCarry ha (ha.eng rfl (planStep_for _ _ _ false f)) _
  · exact h.runsCarry ha (ha.eng rfl (planStep_for _ _ _ true f)) _
  · exact h.runsCarry ha (ha.eng rfl (planCkgen_for _ _ _ c b rt)) _
  · exact h.runsCarry ha (ha.eng rfl (planCset_for _ _ _ c f)) _
  · exact h.runsCarry ha (ha.eng rfl (planCget_for _ _ _ c f)) _
  · exact h.runsCarry ha (ha.gives rfl (planCcmp_gives _ _ _ c f)).1 _
  · obtain ⟨t, hexec, honly, hcur, -, hdec, hentries⟩ := h.finishesCarry ha (ha.eng rfl (planCreset_for _ _ _ c id)) (cresetRun id.toNat)
      [id.toNat] [] 0 _ _ rfl
    exact ⟨t, hexec, honly, hcur, hdec, hentries⟩
  · refine h.issues.acts rfl rfl id _ { (s.core c).run with cwait := some ((s.core c).run.seq + 2) } rfl rfl rfl rfl rfl rfl fun x => ?_
    simp [passIssue, oneSlot, takeIds, streamIds, CoreRun.issued, CRes.run]

end

section
namespace Sys2Proof.Machine

/-! ### The state store -/

/-- Elements written one after another from `base`: each holds its value, every other element stays. -/
theorem foldl_storePut {ι : Type} (l : List ι) (v : ι → FV) : ∀ (m : Sp W40) (base : Nat),
    let m' := (l.zipIdx).foldl (fun m y => storePut m (base + y.2) (v y.1)) m
    (∀ i x, l[i]? = some x → Sp.get 0#40 m' (base + i) = BitVec.ofNat 40 (FFmt.os40.write .rne (v x)).1)
      ∧ ∀ j, j < base ∨ base + l.length ≤ j → Sp.get 0#40 m' j = Sp.get 0#40 m j := by
  induction l with
  | nil => exact fun _ _ => ⟨by simp, fun _ _ => rfl⟩
  | cons x l ih =>
    intro m base
    have hstep : ((x :: l).zipIdx).foldl (fun m y => storePut m (base + y.2) (v y.1)) m
        = (l.zipIdx).foldl (fun m y => storePut m (base + 1 + y.2) (v y.1)) (storePut m base (v x)) := by
      rw [List.zipIdx_cons, List.foldl_cons, List.zipIdx_succ, List.foldl_map]
      simp [Nat.add_assoc, Nat.add_comm 1]
    obtain ⟨hin, hout⟩ := ih (storePut m base (v x)) (base + 1)
    rw [hstep]
    refine ⟨fun i y hy => ?_, fun j hj => ?_⟩
    · cases i with
      | zero =>
        cases hy
        show Sp.get 0#40 _ base = _
        rw [hout base (.inl (Nat.lt_succ_self base)), storePut, Sp.get_set_same]
      | succ i => rw [← hin i y hy]; congr 1; omega
    · rw [hout j (by rw [List.length_cons] at hj; omega), storePut, Sp.get_set_ne]
      rw [List.length_cons] at hj
      omega

end Sys2Proof.Machine
end

section
namespace Sys2Proof.Machine

/-- What a constant fill writes (R206). -/
def fillValue (f : CSetF) : FV := if f.mode = 1#2 then FV.zero else FV.one

/-- A constant fill of a range of the state store. -/
theorem csetRun_fill (f : CSetF) (htgt : f.tgt = true) (hmode : f.mode = 1#2 ∨ f.mode = 2#2) (e : CEnv) (h : Entry) (r : CRes) :
    csetRun f e h r = carryDone h [] [] 0 ((r.cur fun a => { a with
      store := ((List.replicate (f.tail.toNat + 1) (fillValue f, 0#6)).zipIdx).foldl (fun m x => storePut m (f.elem.toNat + x.2) x.1.1) a.store }).flags
        (flAll (List.replicate (f.tail.toNat + 1) 0#6))) := by
  rcases hmode with hm | hm
  · simp [csetRun, htgt, csRange, fillValue, hm, List.map_const']
  · simp [csetRun, htgt, csRange, fillValue, hm, List.map_const']

/-- A move of a range of the state store to the local store as OS40 (R206). -/
theorem cgetRun_os40 (f : CGetF) (htgt : f.tgt = true) (hfmt : f.fmt = true) (e : CEnv) (h : Entry) (r : CRes) :
    ∃ fl, cgetRun f e h r = carryDone h [] [] 0 ((r.st fun s => { s with
      ls := (List.range (f.tail.toNat + 1)).foldl (fun m i => Memory.setNat m (4 * f.addr.toNat + 5 * i) 5
        (FFmt.os40.write (RM.ofCode f.rm.toNat) (storeAt r.k.cur.store (f.elem.toNat + i)).1).1) s.ls }).flags fl) := by
  exact ⟨_, by simp only [cgetRun, htgt, hfmt, csRange, csFmt, if_true, zipIdx_map_range, List.foldl_map]; rfl⟩

/-- A compare of one element of each range, neither a NaN (R207). -/
theorem ccmpRun_one (f : CCmpF) (e : CEnv) (h : Entry) (r : CRes) {ls : Memory} {fm : FFmt} {x y : FV} {bad : Bool} (hls : r.k.st.ls = ls)
    (hone : (h.sr.headD 0#64).toNat % 2 ^ 32 = 1) (hfm : crFmt f.fmt.toNat = fm)
    (hx : (fm.read (Memory.nat ls (4 * f.x.toNat) fm.bytes)).1 = x) (hy : (fm.read (Memory.nat ls (4 * f.y.toNat) fm.bytes)).1 = y)
    (hnx : x.isNan = false) (hny : y.isNan = false)
    (hb : FV.lt (FFmt.fp32.round .rne ((FV.max FV.zero x.abs).scale (-(f.r.toNat : Int)))).1
      (FFmt.fp32.round .rne (FV.sub .rne x y).abs).1 = bad) :
    ∃ dev fl, ccmpRun f e h r =
      let r1 := carryDone h [] [] 0 (((r.st fun s => { s with xchk0 := if bad then 0#32 else 0xFFFFFFFF#32, xchk1 := dev }).cur fun a =>
        a.setSm f.sm.toNat (if bad then 1#32 else 0#32)).flags fl)
      if bad && f.trap then r1.report { code := 0x1C, unit := 5, tag := h.tag } else r1 := by
  have hread (base : Nat) : fm.read (Memory.nat ls (4 * base + fm.bytes * 0) fm.bytes) = fm.read (Memory.nat ls (4 * base) fm.bytes) := rfl
  cases bad <;>
  exact ⟨_, _, by
    simp only [ccmpRun, hls, hone, hfm, hread, List.range_one, List.map_cons, List.map_nil, List.zip_cons_cons, List.zip_nil_right,
      List.foldl_cons, List.foldl_nil, hx, hy, hnx, hny, List.findIdx_cons, List.findIdx_nil, Bool.false_eq_true, if_false,
      bne_self_eq_false, Bool.false_or, hb]
    rfl⟩

/-- A finished instruction that wrote its checks, a summary register and its flags leaves the local store. -/
theorem carryDone_ls (h : Entry) (r : CRes) (x y : W32) (g : CoreArch → CoreArch) (fl : Fl) :
    (carryDone h [] [] 0 (((r.st fun s => { s with xchk0 := x, xchk1 := y }).cur g).flags fl)).k.st.ls = r.k.st.ls := rfl

end Sys2Proof.Machine
end

section
open Sys2Proof Sys2Proof.Machine

/-- Settles O27: the moves write their range, and a compare of one element has one verdict. -/
theorem carryMovesAndCompare : Obligations.CarryMovesAndCompare := by
  intro s c p h k
  refine ⟨fun f ha htgt hmode => ?_, fun f ha htgt hfmt => ?_, fun f ha hone => ?_⟩
  · intro n v
    obtain ⟨t, hexec, honly, hcur, hst, -⟩ := h.finishesCarry ha (ha.eng rfl (planCset_for _ _ _ c f)) (csetRun f) [] [] 0 _ _
      (csetRun_fill f htgt hmode _ _ _)
    have hv : v = BitVec.ofNat 40 (FFmt.os40.write .rne (fillValue f)).1 := by
      by_cases h1 : f.mode = 1#2
      · simp only [v, fillValue, if_pos h1]; decide
      · simp only [v, fillValue, if_neg h1]
    obtain ⟨hin, hout⟩ := foldl_storePut (List.replicate n (fillValue f, 0#6)) Prod.fst k.cur.store f.elem.toNat
    refine ⟨t, hexec, honly, fun j => ?_, by rw [hcur]; rfl, by rw [hst]; rfl⟩
    rw [hcur]
    split
    · next hj =>
      have hread := hin (j - f.elem.toNat) (fillValue f, 0#6) (List.getElem?_replicate_of_lt (by omega))
      rw [Nat.add_sub_cancel' hj.1] at hread
      exact hread.trans hv.symm
    · next hj => exact hout j (by rw [List.length_replicate]; omega)
  · intro n a
    obtain ⟨t, hexec, honly, hcur, hst, -⟩ := h.finishesCarry ha (ha.eng rfl (planCget_for _ _ _ c f)) (cgetRun f) [] [] 0 _ _
      (cgetRun_os40 f htgt hfmt _ _ _).choose_spec
    obtain ⟨hin, hout⟩ := Memory.foldl_setNat (fun i => a + 5 * i)
      (fun i => (FFmt.os40.write (RM.ofCode f.rm.toNat) (storeAt k.cur.store (f.elem.toNat + i)).1).1) 5 (List.range n) k.st.ls
      (List.pairwise_lt_range.imp fun hij => .inl (by omega))
    refine ⟨t, hexec, honly, hcur, fun i hi => ?_, fun j hj => ?_⟩
    · rw [hst]
      exact hin i (List.mem_range.mpr hi)
    · rw [hst]
      exact hout j fun i hi => by have := List.mem_range.mp hi; omega
  · intro fm x y hx hy thr bad
    obtain ⟨hg, hsr⟩ := ha.gives rfl (planCcmp_gives _ _ _ c f)
    have hcount : ((p.head (s.cenv c) (.ccmp c f) k).sr.headD 0#64).toNat % 2 ^ 32 = 1 := by
      simpa [Plan.head, Plan.entry, hsr] using hone
    obtain ⟨dev, fl, hrun⟩ := ccmpRun_one f (s.cenv c) (p.head (s.cenv c) (.ccmp c f) k) (s.enteredAs c (.ccmp c f) p)
      (ls := k.st.ls) (fm := fm) (x := x) (y := y) (bad := bad) rfl hcount rfl rfl rfl hx hy rfl
    clear_value bad
    obtain ⟨hleft, hgood, hbad⟩ := State.runCore_report (f := fun e r => ccmpRun f e (p.head e (.ccmp c f) r.k) (p.entered e (.ccmp c f) r))
      hrun h.2.2.2.2.2.2.2.2.2 rfl rfl
    change (s.ran c (.ccmp c f) p (ccmpRun f)).core c = _ at hleft
    have hst := congrArg Core.st hleft
    refine ⟨_, h.runsCarry ha hg _, (congrArg Core.cur hleft).trans rfl, (congrArg CoreStore.xchk0 hst).trans rfl,
      (congrArg CoreStore.ls hst).trans (carryDone_ls _ _ _ _ _ _), fun hok => hgood (Bool.and_eq_false_iff.mpr hok), fun hb htrap => ?_⟩
    obtain ⟨r, hcode, -, hoffered⟩ := hbad (Bool.and_eq_true_iff.mpr ⟨hb, htrap⟩)
    exact ⟨r, hcode, hoffered⟩

end

section
/-! One position of one stream (R180, R184, R189, R219). -/

namespace Sys2Proof.Machine

/-- What one position leaves of state `i`: `b` where the reset flag marks it, else a * h + b rounded once (R189, R219). -/
def stepResult (b : StepBlk) (curves : Memory) (store : Sp W40) (ls : Memory) (base : Nat) (flag : Bool) (i : Nat) : FV × Fl :=
  let bb := b.b.val curves store ls b.n i 0
  if flag then bb
  else
    let a := b.a.val curves store ls b.n i 0
    let x := storeAt store (base + i)
    let r := stepFma a.1 x.1 bb.1
    (r.1, a.2 ||| x.2 ||| bb.2 ||| r.2)

/-- The state store after that position. -/
def stepStore (b : StepBlk) (curves : Memory) (store : Sp W40) (ls : Memory) (base : Nat) (flag : Bool) : Sp W40 :=
  (((List.range b.size).map (stepResult b curves store ls base flag)).zipIdx).foldl (fun m y => storePut m (base + y.2) y.1.1) store

/-- The position of a stream without marks, D, readout and emission. -/
theorem cstepPos_plain (b : StepBlk) (curves : Memory) (s : CStream) (w : CWork) (hden : b.den = false) (hrden : b.rden = false)
    (hemen : b.emen = false) (hmken : b.mken = false) :
    ∃ seen fl, cstepPos b curves 1 0 0 (s, w)
      = ({ s with seen := seen }, { w with store := stepStore b curves w.store w.ls s.base s.flag, fl := fl }) := by
  obtain ⟨base, flag, d, seen, gf⟩ := s
  cases flag <;>
  exact ⟨_, _, by
    simp only [cstepPos, markBit, readouts, emits, stepD, hden, hrden, hemen, hmken, stepStore, List.zip_map', List.map_map,
      Function.comp_def, Bool.false_and, Bool.and_false, Bool.and_true, Bool.or_false, Bool.false_or, Bool.not_false, beq_self_eq_true,
      Bool.false_eq_true, if_true, if_false]
    rfl⟩

/-- A step of one position of one stream whose block asks for nothing else. -/
theorem cstepRun_plain (f : CStepF) (e : CEnv) (h : Entry) (r : CRes) {base : Nat} (hns : f.ns1 = 0#2) (hslots : h.slots = [base])
    (hone : (h.sr.headD 0#64).toNat % 2 ^ 32 = 1) (hfin : (stepBlk h.blk).finish = false) (hden : (stepBlk h.blk).den = false)
    (hrden : (stepBlk h.blk).rden = false) (hemen : (stepBlk h.blk).emen = false) (hmken : (stepBlk h.blk).mken = false) :
    ∃ beats fl, cstepRun f e h r = carryDone h [f.id.toNat] [f.id.toNat] beats
      ((r.cur fun a => ({ a with store := stepStore (stepBlk h.blk) (curveCopy r.k h) a.store r.k.st.ls base (a.view f.id.toNat).flag } : CoreArch).setView
        f.id.toNat { flag := false, pos := ((a.view f.id.toNat).pos + 1) % 2 ^ 48, stepped := true }).flags fl) := by
  have hids : stepIds f = [f.id.toNat] := by simp [stepIds, hns]
  obtain ⟨seen, fl, hpos⟩ := cstepPos_plain (stepBlk h.blk) (curveCopy r.k h)
    { base := base, flag := (r.k.cur.view f.id.toNat).flag, d := [], gf := [] } { store := r.k.cur.store, ls := r.k.st.ls, fl := 0#6 }
    hden hrden hemen hmken
  exact ⟨_, _, by
    simp only [cstepRun, hids, hslots, hone, hfin, hden, List.zip_cons_cons, List.zip_nil_right, List.zipIdx_cons, List.zipIdx_nil,
      List.map_cons, List.map_nil, runPositions, allStreams, Bool.false_eq_true, if_false, Bool.false_and, List.foldl_cons, List.foldl_nil]
    rw [show (0#6 ||| 0#6 : Fl) = 0#6 from rfl, hpos]
    rfl⟩

end Sys2Proof.Machine
end

section
namespace Sys2Proof.Machine

/-- What issue captures for a step (R301, R313). -/
theorem planCstep_gives (e : CEnv) (k : Core) (ls : Memory) (c : CoreNo) (f : CStepF) :
    (planCarry e k ls (.cstep c f)).Gives fun p => p.eng = .carry ∧ p.sr = [k.cur.sreg f.rt.toNat]
      ∧ p.bank = (if k.cur.curveAct then 1 else 0) ∧ p.slots = (stepIds f).map fun i => (stateBase e i).getD 0 := by
  unfold planCarry planStep
  exact .withBlk (ls := ls) fun _ => .ite .fault (.withIds (.checked ⟨rfl, rfl, rfl, rfl⟩))

theorem CoreArch.view_setView (a : CoreArch) (id : Nat) (v : StrView) : (a.setView id v).view id = v := Sp.get_set_same ..

end Sys2Proof.Machine
end

section
open Sys2Proof Sys2Proof.Machine

/-- Settles O26: the step writes its slice, and the stream's view moves on by one position. -/
theorem carryStepOnePosition : Obligations.CarryStepOnePosition := by
  intro s c f p h ha hns hT k ls b id base curves hfin hden hrden hemen hmken
  obtain ⟨hg, hsr, hbank, hslots⟩ := ha.gives rfl (planCstep_gives _ _ _ c f)
  have hhead : p.slots = [base] := by simp [base, hslots, stepIds, hns]
  have hcount : ((p.head (s.cenv c) (.cstep c f) (s.core c)).sr.headD 0#64).toNat % 2 ^ 32 = 1 := by
    simpa [Plan.head, Plan.entry, hsr] using hT
  have hcurve : curveCopy (s.enteredAs c (.cstep c f) p).k (p.head (s.cenv c) (.cstep c f) (s.core c)) = curves := by
    have hb : (p.head (s.cenv c) (.cstep c f) (s.core c)).bank = if k.curveAct then 1 else 0 := hbank
    simp only [curveCopy, hb, curves]
    cases k.curveAct <;> rfl
  obtain ⟨beats, fl, hrun⟩ := cstepRun_plain f (s.cenv c) (p.head (s.cenv c) (.cstep c f) (s.core c)) (s.enteredAs c (.cstep c f) p) hns hhead
    hcount hfin hden hrden hemen hmken
  rw [hcurve] at hrun
  obtain ⟨t, hexec, honly, hcur, hst, -⟩ := h.finishesCarry ha hg (cstepRun f) [id] [id] beats _ _ hrun
  obtain ⟨hin, hout⟩ := foldl_storePut ((List.range b.size).map (stepResult b curves k.store ls base (k.view id).flag)) Prod.fst k.store base
  refine ⟨t, hexec, honly, by rw [hst]; rfl, fun i hi => ?_, fun j hj => ?_, ?_, ?_⟩ <;> rw [hcur]
  · intro bb v
    have hv : (stepResult b curves k.store ls base (k.view id).flag i).1 = v := by
      simp only [stepResult, v, bb]
      split <;> rfl
    rw [← hv]
    exact hin i _ (by simp [hi])
  · exact hout j (by simpa using hj)
  · exact CoreArch.view_setView _ _ _
  · rfl

end

section
/-! Memories and the requests their ports accept (R12, R268, R398, R494). -/

namespace Sys2Proof.Machine

/-! ### Granules -/

/-- A second write of a granule leaves nothing of the first. -/
theorem Memory.setGranule_setGranule (m : Memory) (a : Nat) (g v : Granule) (h : Memory.wf m = true) :
    Memory.setGranule (Memory.setGranule m a g) a v = Memory.setGranule m a v := by
  refine Sp.ext_wf 0#8 _ _ (Memory.wf_setGranule _ a v (Memory.wf_setGranule m a g h)) (Memory.wf_setGranule m a v h) fun j => ?_
  change Memory.byte _ j = Memory.byte _ j
  by_cases hj : j < a ∨ a + 32 ≤ j
  · rw [Memory.byte_setGranule_ne _ a j v hj, Memory.byte_setGranule_ne _ a j g hj, Memory.byte_setGranule_ne _ a j v hj]
  · obtain ⟨i, rfl⟩ := Nat.exists_eq_add_of_le (Nat.le_of_not_lt (not_or.mp hj).1)
    have hi : i < 32 := by omega
    unfold Memory.setGranule
    rw [Memory.byte_setNat 32 _ a v.toNat i hi, Memory.byte_setNat 32 _ a v.toNat i hi]

/-- Bits gathered by alternation. -/
theorem getLsbD_foldl_or {w : Nat} (f : Nat → BitVec w) (j : Nat) : ∀ (l : List Nat) (g : BitVec w),
    (l.foldl (fun g i => g ||| f i) g).getLsbD j = (g.getLsbD j || l.any fun i => (f i).getLsbD j)
  | [], g => by simp
  | i :: l, g => by rw [List.foldl_cons, getLsbD_foldl_or f j l, BitVec.getLsbD_or, List.any_cons, Bool.or_assoc]

/-- Each word of a sum of words is the sum of theirs, modulo 2^32 (R268). -/
theorem extract_addWords (a b : Granule) (i : Nat) (hi : i < 8) :
    (addWords a b).extractLsb' (32 * i) 32 = a.extractLsb' (32 * i) 32 + b.extractLsb' (32 * i) 32 := by
  refine BitVec.eq_of_getLsbD_eq fun j hj => ?_
  rw [BitVec.getLsbD_extractLsb', addWords, getLsbD_foldl_or]
  have hword (k : Nat) (w : W32) : ((w.setWidth 256 : Granule) <<< (32 * k)).getLsbD (32 * i + j) = (decide (k = i) && w.getLsbD j) := by
    rw [BitVec.getLsbD_shiftLeft, BitVec.getLsbD_setWidth]
    by_cases hk : k = i
    · subst hk
      simp [show 32 * k + j < 256 by omega, show j < 256 by omega]
    · by_cases hlt : 32 * i + j < 32 * k
      · simp [hk, hlt]
      · have hge : 32 ≤ 32 * i + j - 32 * k := by omega
        simp [hk, BitVec.getLsbD_of_ge w _ hge]
  simp only [hword, hj, decide_true, Bool.true_and, BitVec.getLsbD_zero, Bool.false_or]
  rw [Bool.eq_iff_iff, List.any_eq_true]
  simp only [List.mem_range, Bool.and_eq_true, decide_eq_true_eq]
  exact ⟨fun ⟨x, _, he, hx⟩ => he ▸ hx, fun h => ⟨i, hi, rfl, h⟩⟩

/-- Byte `j` of a granule, little-endian. -/
theorem byte_of_granule (v : Granule) (j : Nat) : BitVec.ofNat 8 (v.toNat / 256 ^ j) = v.extractLsb' (8 * j) 8 := by
  apply BitVec.eq_of_toNat_eq
  rw [BitVec.extractLsb'_toNat, BitVec.toNat_ofNat, Nat.shiftRight_eq_div_pow, Nat.pow_mul]

/-! ### Slots (R398) -/

@[simp] theorem granule_toSlot (g : Granule) : (toSlot g).granule = g := by
  refine BitVec.eq_of_getLsbD_eq fun i hi => ?_
  rw [MemSlot.granule, BitVec.getLsbD_extractLsb', toSlot, BitVec.getLsbD_append]
  simp [hi]

theorem guard_toSlot (g : Granule) : (toSlot g).extractLsb' 256 16 = guardBits g := by
  refine BitVec.eq_of_getLsbD_eq fun i hi => ?_
  rw [BitVec.getLsbD_extractLsb', toSlot, BitVec.getLsbD_append, BitVec.getLsbD_append]
  simp [hi]

theorem reserved_toSlot (g : Granule) : (toSlot g).extractLsb' 272 16 = 0#16 := by
  refine BitVec.eq_of_getLsbD_eq fun i hi => ?_
  rw [BitVec.getLsbD_extractLsb', toSlot, BitVec.getLsbD_append, BitVec.getLsbD_append]
  simp [show ¬ 272 + i < 256 by omega, show ¬ 272 + i - 256 < 16 by omega]

theorem good_toSlot (g : Granule) : (toSlot g).good = true := by
  rw [MemSlot.good, granule_toSlot, guard_toSlot, beq_self_eq_true]

/-! ### Acceptance (R494) -/

@[simp] theorem State.tier_setTier (s : State) (b : Bool) (m : Memory) : (s.setTier b m).tier b = m := by
  cases b <;> rfl

/-- A granule put at an address is what is there. -/
theorem State.gran_putGran (s : State) (b : Bool) (a : Nat) (g : Granule) : (s.putGran b a g).gran b a = g := by
  rw [State.gran, State.putGran, State.tier_setTier, Memory.granule_setGranule]

theorem State.gran_withMemq (s : State) (q : List MemReq) (b : Bool) (a : Nat) : ({ s with memq := q } : State).gran b a = s.gran b a := by
  cases b <;> rfl

/-! ### Requesters -/

theorem State.byMgmt_host (s : State) : s.byMgmt .host = false := Bool.and_false _

theorem State.byHost_mgmt (s : State) : s.byHost .mgmt = false := Bool.and_false _

end Sys2Proof.Machine
end

section
open Sys2Proof Sys2Proof.Machine

/-- Settles O58: the laws of `Memory`, the parts of a slot, and what acceptance does by the request's kind. -/
theorem memoryReadsWhatWasWritten : Obligations.MemoryReadsWhatWasWritten := by
  intro m a v g
  refine ⟨Memory.granule_setGranule m a v, fun j hj => ?_, fun j hj => Memory.byte_setGranule_ne m a j v hj,
    Memory.wf_setGranule m a v, Memory.setGranule_setGranule m a g v, fun s r id => ⟨fun h => ?_, fun h i hi => ?_, fun h => ?_⟩,
    granule_toSlot g, good_toSlot g, reserved_toSlot g, guard_toSlot g⟩
  · rw [Memory.setGranule, Memory.byte_setNat 32 m a v.toNat j hj, byte_of_granule]
  · simp only [State.acceptReq, h, State.gran_withMemq, State.gran_putGran]
  · simp only [State.acceptReq, h, State.gran_withMemq, State.gran_putGran]
    exact extract_addWords _ _ i hi
  · simp only [State.acceptReq, h, true_and, if_true]
    intro x hx hs
    obtain ⟨y, -, rfl⟩ := List.mem_map.mp hx
    split at hs
    · next e => rw [if_pos e]
    · next e => exact absurd hs e

/-- Settles O60: the clauses are read off the reset state; its registers list the two values given. -/
theorem resetIsSound : Obligations.ResetIsSound := by
  refine ⟨rfl, ⟨rfl, rfl, rfl, rfl⟩, rfl, rfl, rfl, fun c => rfl, ?_, rfl, rfl⟩
  decide

/-- Settles O57: each command's guard on its requester answers the same state; the substitutions, the power states and the commands of
the driver take theirs from the function they share. -/
theorem wrongRequesterChangesNothing : Obligations.WrongRequesterChangesNothing := by
  intro s v slot parts k8 u u7 l sp i path ap ent id p
  have hm : s.byMgmt .host = false := State.byMgmt_host s
  have hh : s.byHost .mgmt = false := State.byHost_mgmt s
  simp only [List.mem_cons, List.not_mem_nil, or_false, forall_eq_or_imp, forall_eq]
  refine ⟨?_, ?_⟩
  · repeat' apply And.intro
    all_goals simp [exec, hm, State.psRequest, State.subcmd, execFqheadWrite, execEndcmd, execSubcmdSubstitute, execSubcmdMigrate,
      execSubcmdReplay, execSubcmdSpineRestart, execStrcmdSwapOut, execStrcmdSwapIn, execVreqWrite, execCeilreqWrite, execTemperWrite,
      execQcmdResume, execTmpcmdMeasure, execTmpcmdCommit, execTmpcmdAbort, execPscmdActive, execPscmdIdle, execPscmdRetention,
      execPscmdDeepSleep, execOtpPgmcmdGo, execLdcmdHandoffLoad, execIfverWrite, execWdkick, execStcmdStart, execStcmdAbort]
  · repeat' apply And.intro
    all_goals simp [exec, hh, State.command, execCastcmdLoadCasting, execCastcmdLoadPlating, execCastcmdEvict, execPlswSwitch,
      execPlswOff, execUpdcmdStart, execLdcmdColdLoad, execCmdAck, execCmdEnd, execCmdUpdate, execCmdPolicy, execCmdSave,
      execKeycmdLoad, execKeycmdErase, execSeedcmdLoad, execSeedcmdErase, execSealcmdClear, execRegcmdInval, execSqtailWrite,
      execCqheadWrite]
end

section
/-! Fetching, and what issue leaves of a core's place in its stream (R281, R284, R285). -/

namespace Sys2Proof.Machine

/-! ### What a fetch adds -/

/-- `r'` is `r` with bytes fetched behind those it held: nothing else of it differs. -/
def CoreRun.Fetched (r r' : CoreRun) : Prop :=
  ∃ iq pre fetch qadm more, r' = { r with iq := iq, pre := pre, fetch := fetch, qadm := qadm } ∧ iq ++ pre = r.iq ++ r.pre ++ more

theorem CoreRun.Fetched.refl (r : CoreRun) : r.Fetched r := ⟨_, _, _, _, [], rfl, by simp⟩

theorem CoreRun.Fetched.trans {a b c : CoreRun} (hab : a.Fetched b) (hbc : b.Fetched c) : a.Fetched c := by
  obtain ⟨iq, pre, fetch, qadm, more, rfl, h⟩ := hab
  obtain ⟨iq', pre', fetch', qadm', more', rfl, h'⟩ := hbc
  exact ⟨iq', pre', fetch', qadm', more ++ more', rfl, by rw [h']; simp [h]⟩

/-- The fetch engine moves bytes from the fetched ones to the issue queue, in order (R215). -/
theorem placeWords_fetched (v64 : Bool) (len : Nat) : ∀ (n : Nat) (r : CoreRun),
    ∃ iq pre qadm, placeWords v64 len r n = { r with iq := iq, pre := pre, qadm := qadm } ∧ iq ++ pre = r.iq ++ r.pre
  | 0, r => ⟨_, _, _, rfl, rfl⟩
  | n + 1, r => by
    simp only [placeWords]
    split
    · exact ⟨_, _, _, rfl, rfl⟩
    · split
      · split
        · obtain ⟨iq, pre, qadm, h, happ⟩ := placeWords_fetched v64 len n _
          exact ⟨iq, pre, qadm, h, happ.trans (by simp)⟩
        · exact ⟨_, _, _, rfl, rfl⟩
      · exact ⟨_, _, _, rfl, by simp⟩
      · split
        · exact ⟨_, _, _, rfl, by simp⟩
        · exact ⟨_, _, _, rfl, rfl⟩

/-- A granule's bytes enter behind those fetched before (R281). -/
theorem CoreRun.take_fetched (r : CoreRun) (v64 : Bool) (len : Nat) (bytes : List Byte) :
    ∃ iq pre qadm, r.take v64 len bytes = { r with iq := iq, pre := pre, fetch := none, qadm := qadm }
      ∧ iq ++ pre = r.iq ++ r.pre ++ bytes.drop ((r.iqOff + r.iq.length + r.pre.length) % 32) := by
  obtain ⟨iq, pre, qadm, h, happ⟩ := placeWords_fetched v64 len 512
    { r with pre := r.pre ++ bytes.drop ((r.iqOff + r.iq.length + r.pre.length) % 32), fetch := none }
  exact ⟨iq, pre, qadm, h, by rw [happ, List.append_assoc]⟩

/-- `t` is `s` after a fetch for core `c`: of that core bytes entered, and of the block host requests. -/
def State.FetchedFor (s t : State) (c : Nat) : Prop :=
  ∃ r, (s.core c).run.Fetched r ∧ (∀ d, t.core d = if d = c then { s.core c with run := r } else s.core d)
    ∧ t = { s with cores := t.cores, hostReqs := t.hostReqs }

theorem State.FetchedFor.refl (s : State) (c : Nat) : s.FetchedFor s c :=
  ⟨_, CoreRun.Fetched.refl _, fun d => by split <;> simp_all, rfl⟩

theorem State.FetchedFor.trans {s t u : State} {c : Nat} (h : s.FetchedFor t c) (h' : t.FetchedFor u c) : s.FetchedFor u c := by
  obtain ⟨r, hr, hcore, ht⟩ := h
  obtain ⟨r', hr', hcore', hu⟩ := h'
  have hc : t.core c = { s.core c with run := r } := by rw [hcore, if_pos rfl]
  rw [hc] at hr' hcore'
  refine ⟨r', hr.trans hr', fun d => ?_, by rw [hu, ht]⟩
  rw [hcore' d]
  split
  · rfl
  · next hd => rw [hcore d, if_neg hd]

/-- An update of core `c`'s place that is a fetch, with any requests of the host port. -/
theorem State.fetchedFor_updRun (s : State) (c : Nat) (f : CoreRun → CoreRun) (q : List HostReq) (h : (s.core c).run.Fetched (f (s.core c).run)) :
    s.FetchedFor (({ s with hostReqs := q } : State).updRun c f) c := by
  refine ⟨_, h, fun d => ?_, rfl⟩
  by_cases hd : d = c
  · rw [if_pos hd, hd]
    exact State.core_updCore_same _ c _
  · rw [if_neg hd]
    exact State.core_updCore_ne _ _ hd

/-- A core waits for a granule: one that another core reads, or one it asks for where a tag is free. -/
theorem State.fetchedFor_ask (s : State) (c off : Nat) (b : BoundStream) (o : Option Nat) :
    s.FetchedFor (if s.hostReqs.any (fun q => q.sub = b.sub ∧ q.off = off ∧ q.own = o) then s.updRun c (fun x => { x with fetch := some off })
      else if !s.hostUp then s
      else match freeTag s.hostReqs with
        | none => s
        | some t => ({ s with hostReqs := s.hostReqs ++ [{ tag := t, addr := b.addr + off, sub := b.sub, off := off, own := o }] } : State).updRun c
            (fun x => { x with fetch := some off })) c := by
  have hwant (q : List HostReq) : s.FetchedFor (({ s with hostReqs := q } : State).updRun c fun x => { x with fetch := some off }) c :=
    s.fetchedFor_updRun c _ q ⟨_, _, _, _, [], rfl, by simp⟩
  split
  · exact hwant s.hostReqs
  · split
    · exact State.FetchedFor.refl s c
    · split
      · exact State.FetchedFor.refl s c
      · exact hwant _

/-- Fetching for a core only fetches. -/
theorem State.fetchN_fetchedFor (c : Nat) : ∀ (n : Nat) (s : State), s.FetchedFor (s.fetchN c n) c
  | 0, s => State.FetchedFor.refl s c
  | n + 1, s => by
    simp only [State.fetchN]
    split
    · exact State.FetchedFor.refl s c
    · next b _ =>
      split
      · exact State.FetchedFor.refl s c
      · next off _ =>
        have hask := s.fetchedFor_ask c off b
        cases (s.core c).run.own || (s.subBuf b.sub).isNone with
        | true => exact hask (some c)
        | false =>
          rw [if_neg Bool.false_ne_true]
          split
          · next g _ =>
            obtain ⟨iq, pre, qadm, htake, happ⟩ := (s.core c).run.take_fetched s.v64 b.len (natBytes 32 g.toNat)
            exact (s.fetchedFor_updRun c _ s.hostReqs ⟨iq, pre, none, qadm, _, htake, happ⟩).trans (State.fetchN_fetchedFor c n _)
          · exact hask none

theorem State.fetchNext_fetchedFor (s : State) (c : Nat) : s.FetchedFor (s.fetchNext c) c := State.fetchN_fetchedFor c 65 s

/-- What a fetch leaves of the core it is for. -/
theorem State.FetchedFor.core {s t : State} {c : Nat} (h : s.FetchedFor t c) :
    ∃ r, (s.core c).run.Fetched r ∧ t.core c = { s.core c with run := r } := by
  obtain ⟨r, hr, hcore, -⟩ := h
  exact ⟨r, hr, by rw [hcore, if_pos rfl]⟩

theorem State.FetchedFor.core_ne {s t : State} {c d : Nat} (h : s.FetchedFor t c) (hd : d ≠ c) : t.core d = s.core d := by
  obtain ⟨r, hr, hcore, -⟩ := h
  rw [hcore, if_neg hd]

/-! ### A core's place in its stream -/

/-- The bytes that wait for issue, where they stand in the stream, and the last long word issued. -/
def CoreRun.place (r : CoreRun) : List Byte × List Byte × Nat × Nat × W16 × Option Nat :=
  (r.iq, r.pre, r.iqOff, r.seq, r.lastTag, r.branch)

theorem Late.apply_place (l : Late) (k : Core) : (l.apply k).run.place = k.run.place := by cases l <;> rfl

@[simp] theorem CRes.late_place (r : CRes) (q : Nat) (l : Late) : (r.late q l).k.run.place = r.k.run.place := by
  simp only [CRes.late]
  split
  · rfl
  · exact l.apply_place r.k

/-- Settling a core's waiting effects leaves its place. -/
theorem Core.settle_place (k : Core) : k.settle.run.place = k.run.place := by
  have hfold : ∀ (l : List (Nat × Late)) (k : Core),
      (l.foldl (fun k x => if k.run.waits x.1 x.2 then k.delay x.1 x.2 else x.2.apply k) k).run.place = k.run.place := by
    intro l
    induction l with
    | nil => intro k; rfl
    | cons x l ih =>
      intro k
      rw [List.foldl_cons, ih]
      split
      · rfl
      · exact x.2.apply_place k
  unfold Core.settle
  split
  · rfl
  · exact hfold _ _

theorem CRes.lateOpt_place (r : CRes) (q : Nat) (l : Option Late) : (r.lateOpt q l).k.run.place = r.k.run.place := by
  cases l with
  | none => rfl
  | some l => exact r.late_place q l

theorem ScalEff.apply_place (f : ScalEff) (q : Nat) (r : CRes) : (f.apply q r).k.run.place = r.k.run.place := by
  rw [ScalEff.apply, CRes.lateOpt_place, CRes.lateOpt_place, CRes.lateOpt_place]

theorem wakeWait_place (r : CRes) : (wakeWait r).k.run.place = r.k.run.place := by
  unfold wakeWait
  split
  · rfl
  · split
    · split <;> rfl
    · split <;> rfl
    · rfl

theorem postSelf_place (tag : W16) (sem cnt : Nat) (r : CRes) : (postSelf tag sem cnt r).k.run.place = r.k.run.place := by
  rw [postSelf, wakeWait_place]
  split <;> rfl

theorem postNext_place (r : CRes) : (postNext r).k.run.place = r.k.run.place := by
  unfold postNext
  split
  · split
    · split
      · unfold postNow
        split
        · rw [postSelf_place]
          rfl
        · rfl
      · rfl
    · rfl
  · rfl

theorem enterXfer_place {e : CEnv} {q : Nat} {tag : W16} {dir : Bool} {x : Xfer} {accs : List Acc} {msg : Bool} {res : Nat} {r r1 : CRes}
    (h : enterXfer e q tag dir x accs msg res r = .ok r1) : r1.k.run.place = r.k.run.place := by
  simp only [enterXfer] at h
  repeat' split at h
  all_goals cases h
  all_goals rfl

/-- An instruction of the data-movement slot that issues leaves the core's place. -/
theorem issueDmv_place {e : CEnv} {q : Nat} {tag : W16} {i : Instr} {r r1 : CRes} (h : issueDmv e q tag i r = some (.ok r1)) :
    r1.k.run.place = r.k.run.place := by
  unfold issueDmv at h
  split at h
  case h_1 =>
    simp only [Option.some.injEq, issueXfer] at h
    split at h
    · cases h
    · exact enterXfer_place h
  case h_2 =>
    simp only [Option.some.injEq, issueGath] at h
    split at h
    · cases h
    · exact enterXfer_place h
  case h_3 =>
    simp only [Option.some.injEq, issueFence] at h
    split at h <;> cases h
    rfl
  case h_4 =>
    simp only [Option.some.injEq, issueAwait] at h
    split at h <;> cases h <;> rfl
  case h_7 =>
    simp only [Option.some.injEq, issueSemwait] at h
    split at h <;> cases h <;> rfl
  case h_8 =>
    simp only [Option.some.injEq, issueSempost] at h
    repeat' split at h
    all_goals cases h
    all_goals exact postNext_place _
  case h_11 =>
    simp only [Option.some.injEq, issueKeep] at h
    repeat' split at h
    all_goals cases h
    exact CRes.late_place ..
  case h_13 => cases h
  all_goals
    cases h
    exact CRes.late_place ..

theorem issueSlot_place {e : CEnv} {ls : Memory} {q : Nat} {tag : W16} {i : Instr} {r r1 : CRes} (h : issueSlot e ls q tag i r = .ok r1) :
    r1.k.run.place = r.k.run.place := by
  unfold issueSlot at h
  split at h
  · next hd =>
    rw [h] at hd
    exact issueDmv_place hd
  · split at h
    · cases h
      exact CRes.late_place ..
    · cases h
      rfl
    · split at h
      · cases h
      · cases h
      · cases h
      · simp only [enterPlan] at h
        split at h <;> cases h
        rfl

/-- The slots that issue leave the core's place. -/
theorem issueSlots_place (e : CEnv) (ls : Memory) (tag : W16) : ∀ (is : List Instr) (q : Nat) (r r1 : CRes),
    issueSlots e ls tag q is r = .ok r1 → r1.k.run.place = r.k.run.place
  | [], _, _, _, h => by cases h; rfl
  | i :: is, q, r, r1, h => by
    simp only [issueSlots] at h
    split at h
    · next hs => rw [issueSlots_place e ls tag is _ _ _ h, issueSlot_place hs]
    · next hx => exact absurd h (hx r1)

/-! ### What issue does with a long word -/

/-- `k'` is core `k` past long word `lw`: its bytes are gone from the issue queue, or a branch was taken. -/
def Core.Passed (lw : LongWord) (k k' : Core) : Prop :=
  k'.run.lastTag = lw.tag ∧ k.run.seq < k'.run.seq
    ∧ ((k'.run.iq = k.run.iq.drop lw.size ∧ k'.run.pre = k.run.pre ∧ k'.run.iqOff = k.run.iqOff + lw.size)
      ∨ k'.run.branch = some k'.run.iqOff)

/-- Issue ends a long word's attempt without it: it waits, or it halts (R284, R302). -/
def StaysAtIssue (r r' : CRes) : Prop :=
  r' = r ∨ (∃ x, r' = r.run fun z => { z with resSince := x }) ∨ (issueHeld r.k = false ∧ ∃ code tag, r' = issueFault code tag r)

theorem Core.Passed.of_place {lw : LongWord} {k k1 k2 : Core} (h : k2.run.place = k1.run.place) (h1 : k.Passed lw k1) : k.Passed lw k2 := by
  simp only [CoreRun.place, Prod.mk.injEq] at h
  obtain ⟨hiq, hpre, hoff, hseq, htag, hbr⟩ := h
  simpa only [Core.Passed, hiq, hpre, hoff, hseq, htag, hbr] using h1

/-- The effects of the scalar slot, the branch and the mark take a core past its long word (R285, R290). -/
theorem Core.passed_of_effects {lw : LongWord} {k : Core} {r : CRes} (f : ScalEff) (q : Nat) (v64 b : Bool) (m : Mark)
    (htag : r.k.run.lastTag = lw.tag) (hseq : k.run.seq < r.k.run.seq) (hiq : r.k.run.iq = k.run.iq.drop lw.size)
    (hpre : r.k.run.pre = k.run.pre) (hoff : r.k.run.iqOff = k.run.iqOff + lw.size) :
    k.Passed lw (((f.apply q r).branchTo v64 f.br).marked b m).k := by
  have hplace := f.apply_place q r
  have hmark (x : CRes) : (x.marked b m).k.run.place = x.k.run.place := by cases b <;> rfl
  refine Core.Passed.of_place (hmark _) ?_
  cases f.br with
  | none => exact Core.Passed.of_place hplace ⟨htag, hseq, .inl ⟨hiq, hpre, hoff⟩⟩
  | some t =>
    simp only [CoreRun.place, Prod.mk.injEq] at hplace
    obtain ⟨-, -, -, hseq', htag', -⟩ := hplace
    exact ⟨htag'.trans htag, hseq'.symm ▸ hseq, .inr rfl⟩

/-- A long word issues whole, or waits or halts with nothing done (R284, R302). -/
theorem issueWord_stays_or_passes (e : CEnv) (lw : LongWord) (r : CRes) :
    StaysAtIssue r (issueWord e lw r) ∨ r.k.Passed lw (issueWord e lw r).k := by
  simp only [issueWord]
  cases hheld : issueHeld r.k with
  | true => exact .inl (.inl rfl)
  | false =>
    have hfault (code : Nat) : StaysAtIssue r (issueFault code lw.tag r) := .inr (.inr ⟨hheld, code, lw.tag, rfl⟩)
    rw [if_neg Bool.false_ne_true]
    split
    · exact .inl (hfault _)
    · exact .inl (.inl rfl)
    · split
      · exact .inl (hfault _)
      · exact .inl (.inl rfl)
      · next r1 hslots =>
        split
        · exact .inl (.inr (.inl ⟨_, rfl⟩))
        · split
          · exact .inl (.inl rfl)
          · split
            · exact .inl (.inl rfl)
            · right
              have hplace := issueSlots_place _ _ _ _ _ _ _ hslots
              simp only [CoreRun.place, Prod.mk.injEq] at hplace
              obtain ⟨hiq, hpre, -⟩ := hplace
              exact Core.passed_of_effects _ _ _ _ _ rfl (Nat.lt_of_lt_of_le (Nat.lt_succ_self _) (Nat.le_add_right _ _))
                (congrArg (List.drop lw.size) hiq) hpre rfl

theorem longWord_stays_or_passes (e : CEnv) (c : CoreNo) (r : CRes) :
    StaysAtIssue r (longWord e c r)
      ∨ ∃ lw, decodeLongWord e.v64 c r.k.run.iq = .word lw ∧ r.k.Passed lw (longWord e c r).k := by
  simp only [longWord]
  cases hheld : issueHeld r.k with
  | true => exact .inl (.inl rfl)
  | false =>
    rw [if_neg Bool.false_ne_true]
    split
    · exact .inl (.inl rfl)
    · split
      · split
        · exact .inl (.inr (.inr ⟨hheld, _, _, rfl⟩))
        · exact .inl (.inl rfl)
      · exact .inl (.inr (.inr ⟨hheld, _, _, rfl⟩))
      · next lw hlw =>
        rcases issueWord_stays_or_passes e lw r with hstay | hpass
        · exact .inl hstay
        · exact .inr ⟨lw, hlw, hpass⟩

/-- Bytes that are no long word fault at issue (R302). -/
theorem longWord_fault {e : CEnv} {c : CoreNo} {r : CRes} {code : Nat} {tag : W16} (hheld : issueHeld r.k = false) (hrun : r.k.run.run.isSome)
    (hlw : decodeLongWord e.v64 c r.k.run.iq = .fault code tag) : longWord e c r = issueFault code tag r := by
  obtain ⟨b, hb⟩ := Option.isSome_iff_exists.mp hrun
  simp [longWord, hheld, hb, hlw]

/-! ### What the block adds -/

/-- A halt at issue leaves the core halted and otherwise as it was. -/
theorem State.core_runCore_fault {s : State} {c : Nat} {f : CEnv → CRes → CRes} {code : Nat} {tag : W16} (hlate : (s.core c).run.late = [])
    (hheld : issueHeld (s.core c) = false) (hf : f (s.cenv c) (CRes.of (s.core c) s.fc) = issueFault code tag (CRes.of (s.core c) s.fc)) :
    (s.runCore c f).core c = (s.core c).halted code := by
  rw [State.runCore_halt s c f _ (halt_none_of_not_issueHeld hheld) hlate hf, State.core_noteHalt]
  exact State.core_setCore_same s c _

/-- An attempt that ends at issue leaves the core but for its halt and the time its streams are missed from. -/
theorem State.core_runCore_stays {s : State} {c : Nat} {f : CEnv → CRes → CRes} (hlate : (s.core c).run.late = [])
    (h : StaysAtIssue (CRes.of (s.core c) s.fc) (f (s.cenv c) (CRes.of (s.core c) s.fc))) :
    ∃ x y, (s.runCore c f).core c = { s.core c with run := { (s.core c).run with halt := x, resSince := y } } := by
  rcases h with h | ⟨x, h⟩ | ⟨hheld, code, tag, h⟩
  · refine ⟨(s.core c).run.halt, (s.core c).run.resSince, ?_⟩
    rw [State.runCore_leaves h rfl rfl hlate]
    exact State.core_setCore_fc s c _ _
  · refine ⟨(s.core c).run.halt, x, ?_⟩
    rw [State.runCore_leaves h rfl rfl hlate]
    exact State.core_setCore_fc s c _ _
  · exact ⟨_, _, State.core_runCore_fault hlate hheld h⟩

theorem State.core_noteBranch (s : State) (c : Nat) :
    ∃ own, (s.noteBranch c).core c = { s.core c with run := { (s.core c).run with own := own } } := by
  unfold State.noteBranch
  dsimp only
  split
  · exact ⟨true, State.core_updCore_same s c _⟩
  · exact ⟨_, rfl⟩

/-- A long word's issue is the core's own step, whose fetch goes on. -/
theorem State.exec_longWordIssue {s : State} {c : CoreNo} (hlive : s.livePaced c = true) :
    ∃ t own r, exec (.longWordIssue c) s = .next t
      ∧ ({ ((s.runCore c fun e r => longWord e c r).core c).run with own := own } : CoreRun).Fetched r
      ∧ t.core c = { (s.runCore c fun e r => longWord e c r).core c with run := r } := by
  obtain ⟨own, hown⟩ := (s.runCore c fun e r => longWord e c r).core_noteBranch c
  obtain ⟨r, hr, hcore⟩ := (State.fetchNext_fetchedFor ((s.runCore c fun e r => longWord e c r).noteBranch c) c).core
  rw [hown] at hr hcore
  exact ⟨_, own, r, if_pos hlive, hr, hcore⟩

/-- One ADD in a long word: its sum, and the mark of a COMMIT or STOP (R303, R305, R290). -/
theorem longWord_add {e : CEnv} {c : CoreNo} {r : CRes} {lw : LongWord} {rd ra rb : BitVec 5} (hheld : issueHeld r.k = false)
    (hrun : r.k.run.run.isSome) (hlw : decodeLongWord e.v64 c r.k.run.iq = .word lw) (hslots : lw.slots = [.add c rd ra rb])
    (hls : r.k.run.lsUsed ≤ 64) (hmarks : r.k.run.marks = []) (hlate : r.k.run.late = []) :
    ∃ r1 : CoreRun, r1.iq = r.k.run.iq.drop lw.size ∧ r1.pre = r.k.run.pre ∧ r1.iqOff = r.k.run.iqOff + lw.size
      ∧ r1.late = [] ∧ r1.halt = r.k.run.halt ∧ (r1.marks ≠ [] ↔ lw.commit = true ∨ lw.stop = true)
      ∧ (lw.commit = true ∨ lw.stop = true → r1.ordinal = 0)
      ∧ longWord e c r = { r with k := { r.k with
          cur := r.k.cur.setSreg rd.toNat (r.k.cur.sreg ra.toNat + r.k.cur.sreg rb.toNat), run := r1 } } := by
  obtain ⟨b, hbound⟩ := Option.isSome_iff_exists.mp hrun
  have hseen : r.k.seen = r.k := Core.seen_none _ hlate
  have hw (x : CoreRun) (q : Nat) (v : W64) (hx : x.marks = []) : x.waits q (.sr rd.toNat v) = false :=
    CoreRun.waits_of_no_mark x q _ hx (by simp)
  have hword : longWord e c r = (((passIssue lw (r.k.run.seq + 1) r).run fun x => { x with iq := x.iq.drop lw.size, iqOff := r.k.run.iqOff + lw.size }).late
      (r.k.run.seq + 1) (.sr rd.toNat (r.k.cur.sreg ra.toNat + r.k.cur.sreg rb.toNat))).marked (lw.commit || lw.stop)
        { seq := r.k.run.seq + 1, stop := lw.stop, next := r.k.run.iqOff + lw.size } := by
    simp [longWord, hheld, hbound, hlw, issueWord, hslots, scalPlan, scalReg, hseen, issueSlots, streamIds, notResident, admitted,
      Nat.not_lt.mpr hls, ScalEff.apply, CRes.lateOpt, CRes.branchTo, opAdd]
  rw [CRes.late_now] at hword
  case h => exact hw _ _ _ hmarks
  refine ⟨(longWord e c r).k.run, ?_⟩
  rw [hword, ← Bool.or_eq_true]
  cases lw.commit || lw.stop with
  | false => exact ⟨rfl, rfl, rfl, hlate, rfl, ⟨fun h => absurd hmarks h, nofun⟩, nofun, rfl⟩
  | true => exact ⟨rfl, rfl, rfl, hlate, rfl, ⟨fun _ => rfl, fun _ => List.append_ne_nil_of_right_ne_nil _ (List.cons_ne_nil _ _)⟩, fun _ => rfl, rfl⟩

end Sys2Proof.Machine
end

section
open Sys2Proof Sys2Proof.Machine

/-- Settles O38: a long word's attempt stays at issue or passes, and the fetch that follows only adds bytes. -/
theorem longWordsIssueWhole : Obligations.LongWordsIssueWhole := by
  intro s c hlive hlate k fetched same
  obtain ⟨t, own, r, hexec, hr, hcore⟩ := State.exec_longWordIssue hlive
  obtain ⟨iq, pre, fetch, qadm, more, rfl, happ⟩ := hr
  have hstays {x y : Option Nat} (h : (s.runCore c fun e r => longWord e c r).core c = { k with run := { k.run with halt := x, resSince := y } }) :
      same t := by
    rw [h] at hcore happ
    simp only [same, fetched, hcore, true_and, and_true]
    exact ⟨more, happ⟩
  refine ⟨⟨t, hexec, ?_⟩, fun code tag hheld hrun hlw => ⟨t, hexec, ?_⟩, fun lw rd ra rb hheld hrun hlw hslots hls hmarks => ⟨t, hexec, ?_⟩⟩
  · rcases longWord_stays_or_passes (s.cenv c) c (CRes.of k s.fc) with hstay | ⟨lw, hlw, hpass⟩
    · obtain ⟨x, y, h⟩ := State.core_runCore_stays (f := fun e r => longWord e c r) hlate hstay
      exact .inl (hstays h)
    · right
      obtain ⟨q, hq⟩ := s.core_runCore c fun e r => longWord e c r
      have hplace : ((s.runCore c fun e r => longWord e c r).core c).run.place = (longWord (s.cenv c) c (CRes.of k s.fc)).k.run.place := by
        rw [hq]
        exact Core.settle_place _
      obtain ⟨htag, hseq, hway⟩ := Core.Passed.of_place hplace hpass
      refine ⟨lw, hlw, by rw [hcore]; exact htag, by rw [hcore]; exact hseq, ?_⟩
      rcases hway with ⟨hiq, hpre, hoff⟩ | hbr
      · left
        simp only [fetched, hcore]
        dsimp only at happ
        rw [hiq, hpre] at happ
        exact ⟨⟨more, happ⟩, hoff⟩
      · right
        simp only [hcore]
        exact hbr
  · have h := State.core_runCore_fault (f := fun e r => longWord e c r) hlate hheld
      (longWord_fault (e := s.cenv c) (r := CRes.of k s.fc) hheld hrun hlw)
    exact ⟨hstays (y := k.run.resSince) h, by rw [hcore, h]; rfl⟩
  · obtain ⟨r1, hiq, hpre, hoff, hlate1, hhalt, hmark, hord, hword⟩ :=
      longWord_add (e := s.cenv c) (r := CRes.of k s.fc) hheld hrun hlw hslots hls hmarks hlate
    have h := State.runCore_leaves (f := fun e r => longWord e c r) hword rfl hhalt hlate1
    rw [h, State.core_setCore_fc] at hcore happ
    simp only [fetched, hcore]
    dsimp only at happ
    rw [hiq, hpre] at happ
    exact ⟨rfl, ⟨more, happ⟩, hoff, hmark, hord⟩
end

section
/-! Commit points (R290). -/

namespace Sys2Proof.Machine

/-- A commit point of a core without an open batch or a waiting effect: the oldest mark's, once its instructions are complete. -/
theorem commitPoint_head {e : CEnv} {r : CRes} {m : Mark} {ms : List Mark} (hm : r.k.run.marks = m :: ms) (hlate : r.k.run.late = [])
    (ha : r.k.run.batchA = none) (hb : r.k.run.batchB = none) :
    (commitPoint e r).1 = if allDone r.k.run m.seq then commitCore m r else r := by
  have hsettle : { r with k := r.k.settle } = r := by rw [Core.settle_none _ hlate]
  have hbatch (arr : Bool) : dispatchBatch e arr r = r := by cases arr <;> simp [dispatchBatch, CoreRun.batch, ha, hb]
  simp only [commitPoint, hm, hsettle, hbatch]
  split <;> rfl

/-- The core once a commit point of mark `m` has taken effect (Table 5 of Programming model). -/
def Core.committed (k : Core) (m : Mark) : Core :=
  { k with
    cur := { k.cur with region := (k.cur.region + 1) % 2 ^ 48 }, rp := { k.cur with region := (k.cur.region + 1) % 2 ^ 48 },
    run := { k.run with
      marks := k.run.marks.tail, wrote := [], rpOff := m.next, failed := [], recov := if k.run.recov = 3 then 0 else k.run.recov,
      run := if m.stop then none else k.run.run, iq := if m.stop then [] else k.run.iq, pre := if m.stop then [] else k.run.pre,
      fetch := if m.stop then none else k.run.fetch, branch := if m.stop then none else k.run.branch, own := !m.stop && k.run.own },
    st := { k.st with arrSince := [], semSince := [] } }

/-- A commit point of a core with nothing waiting and nothing popped (R288, R290). -/
theorem commitCore_eq (m : Mark) (r : CRes) (hlate : r.k.run.late = []) (hwait : r.k.run.wait = none) (hpop : r.k.cur.qpop = []) :
    commitCore m r = { r with k := r.k.committed m } := by
  have hout : creditOuts r.k = [] := by simp [creditOuts, hpop]
  have hsettle : (r.k.committed m).settle = r.k.committed m := Core.settle_none _ hlate
  change wakeWait { r with outs := r.outs ++ creditOuts r.k, k := (r.k.committed m).settle } = _
  rw [hsettle, hout, List.append_nil]
  exact wakeWait_none _ hwait

/-! ### What a commit point does outside its core -/

/-- With no entry of the core in the log, none is released (R291). -/
theorem State.releaseLog_none (s : State) (c : Nat) (h : ∀ d ∈ s.dlog, d.core ≠ c) : ∀ n, s.releaseLog c n = s
  | 0 => rfl
  | n + 1 => by
    have hno : s.dlog.filter (fun d => decide (d.core = c) && d.released && !d.sent) = [] :=
      List.filter_eq_nil_iff.mpr fun d hd => by simp [h d hd]
    simp only [State.releaseLog, hno, List.map_nil]
    rfl

/-- What a commit point leaves of every core once its own part is done: architectural state, local store, marks and stream. -/
def Core.KeptPast (k k' : Core) : Prop :=
  k'.cur = k.cur ∧ k'.rp = k.rp ∧ k'.st.ls = k.st.ls ∧ k'.run.marks = k.run.marks ∧ k'.run.rpOff = k.run.rpOff ∧ k'.run.run = k.run.run

theorem Core.KeptPast.refl (k : Core) : k.KeptPast k := ⟨rfl, rfl, rfl, rfl, rfl, rfl⟩

theorem Core.KeptPast.trans {a b c : Core} (h : a.KeptPast b) (h' : b.KeptPast c) : a.KeptPast c := by
  obtain ⟨h1, h2, h3, h4, h5, h6⟩ := h
  obtain ⟨g1, g2, g3, g4, g5, g6⟩ := h'
  exact ⟨g1.trans h1, g2.trans h2, g3.trans h3, g4.trans h4, g5.trans h5, g6.trans h6⟩

theorem State.keptPast_updCore (s : State) (c : Nat) (f : Core → Core) (h : ∀ k : Core, k.KeptPast (f k)) (e : Nat) :
    (s.core e).KeptPast ((s.updCore c f).core e) := by
  by_cases he : e = c
  · rw [he, State.core_updCore_same]
    exact h _
  · rw [State.core_updCore_ne _ _ he]
    exact Core.KeptPast.refl _

theorem State.keptPast_updRun (s : State) (c : Nat) (f : CoreRun → CoreRun)
    (h : ∀ r, (f r).marks = r.marks ∧ (f r).rpOff = r.rpOff ∧ (f r).run = r.run) (e : Nat) : (s.core e).KeptPast ((s.updRun c f).core e) :=
  s.keptPast_updCore c (fun k => { k with run := f k.run }) (fun k => ⟨rfl, rfl, rfl, h k.run⟩) e

theorem State.keptPast_foldl_updSt (f : CoreStore → CoreStore) (h : ∀ st, (f st).ls = st.ls) (e : Nat) : ∀ (l : List Nat) (s : State),
    (s.core e).KeptPast ((l.foldl (fun t d => t.updSt d f) s).core e)
  | [], _ => Core.KeptPast.refl _
  | d :: l, s => (s.keptPast_updCore d (fun k => { k with st := f k.st }) (fun k => ⟨rfl, rfl, h k.st, rfl, rfl, rfl⟩) e).trans (State.keptPast_foldl_updSt f h e l _)

/-- A fetch leaves what a commit point leaves. -/
theorem State.FetchedFor.keptPast {s t : State} {c : Nat} (h : s.FetchedFor t c) (e : Nat) : (s.core e).KeptPast (t.core e) := by
  obtain ⟨r, ⟨_, _, _, _, _, rfl, _⟩, hcore, _⟩ := h
  rw [hcore]
  split
  · next he => rw [he]; exact ⟨rfl, rfl, rfl, rfl, rfl, rfl⟩
  · exact Core.KeptPast.refl _

/-- What a commit point does outside its core, where the core has no entry in the log, wrote no stream, and no map change is planned. -/
theorem State.keptPast_afterCommit (s : State) (c : Nat) (old : Core) (m : Mark) (hlog : ∀ d ∈ s.dlog, d.core ≠ c) (hsub : s.subst = none)
    (hw : old.run.wrote = []) (e : Nat) : (s.core e).KeptPast ((s.afterCommit c old m).core e) := by
  have hmap : s.dlog.map (fun (d : LogEnt) => if d.core = c then { d with released := true } else d) = s.dlog :=
    (List.map_congr_left fun d hd => if_neg (hlog d hd)).trans (List.map_id _)
  have hsub2 (f : CoreStore → CoreStore) : ∀ (l : List Nat) (s : State), (l.foldl (fun t d => t.updSt d f) s).subst = s.subst := by
    intro l
    induction l with
    | nil => intro s; rfl
    | cons d l ih => intro s; exact ih _
  simp only [State.afterCommit, hmap, hw, State.bumpGen, List.foldl_nil, State.releaseLog_none s c hlog]
  generalize ht2 : List.foldl _ _ _ = t2
  have h2 : (s.core e).KeptPast (t2.core e) := by
    rw [← ht2]
    apply State.keptPast_foldl_updSt
    exact fun _ => rfl
  have hs2 : t2.subst = none := by rw [← ht2, hsub2, hsub]
  refine h2.trans ?_
  cases m.stop with
  | false =>
    simp only [Bool.false_eq_true, if_false, hs2, State.migrateReady]
    exact (State.fetchNext_fetchedFor t2 c).keptPast e
  | true =>
    simp only [if_true]
    generalize ht3 : State.updRun _ _ _ = t3
    have h3 : (t2.core e).KeptPast (t3.core e) := by
      rw [← ht3]
      apply State.keptPast_updRun
      exact fun _ => ⟨rfl, rfl, rfl⟩
    have hs3 : t3.subst = none := by rw [← ht3]; exact hs2
    simp only [hs3, State.migrateReady]
    exact h3.trans ((State.fetchNext_fetchedFor t3 c).keptPast e)

end Sys2Proof.Machine
end

section
open Sys2Proof Sys2Proof.Machine

/-- Settles O39: the core's own part of a commit point, and that its rest leaves every core's state. -/
theorem commitPoints : Obligations.CommitPoints := by
  intro s c m ms hlive hm hlate hwait hA hB k
  have hexec (t : State) (h : s.runCore c (fun e r => (commitPoint e r).1) = t) : exec (.commitPoint c) s =
      .next (if (t.core c).cur.region = k.cur.region then t else t.afterCommit c k m) := by
    simp only [exec, execCommitPoint, hlive, hm, h]
    rfl
  have hcp := commitPoint_head (e := s.cenv c) (r := CRes.of k s.fc) hm hlate hA hB
  refine ⟨fun hdone hlog hsub hw hpop => ?_, fun hdone => ?_⟩
  · intro a hreg
    have hrun := State.runCore_leaves (f := fun e r => (commitPoint e r).1)
      (hcp.trans ((if_pos hdone).trans (commitCore_eq m _ hlate hwait hpop))) rfl rfl hlate
    have ht := hexec _ hrun
    rw [State.core_setCore_fc, if_neg] at ht
    case hnc => exact hreg
    have hkept := State.keptPast_afterCommit { s.setCore c (k.committed m) with fc := s.fc } c k m hlog hsub hw
    obtain ⟨hcur, hrp, hls, hmarks, hoff, hrun⟩ := hkept c
    rw [State.core_setCore_fc] at hcur hrp hls hmarks hoff hrun
    refine ⟨_, ht, hcur, hrp, hmarks.trans (congrArg List.tail hm), hoff, hls, fun hs => ?_, fun hs => ?_, fun d hd => ?_⟩
    · exact hrun.trans (if_pos hs)
    · exact hrun.trans (if_neg (by rw [hs]; exact Bool.false_ne_true))
    · obtain ⟨hcur', hrp', -⟩ := hkept d
      have hcore : ({ s.setCore c (k.committed m) with fc := s.fc } : State).core d = s.core d := State.core_setCore_ne s _ hd
      rw [hcore] at hcur' hrp'
      exact ⟨hcur', hrp'⟩
  · have hrun := State.runCore_leaves (f := fun e r => (commitPoint e r).1)
      (hcp.trans (if_neg (Bool.eq_false_iff.mp hdone))) rfl rfl hlate
    have ht := hexec _ hrun
    rw [State.core_setCore_fc, if_pos] at ht
    case hc => rfl
    exact ⟨_, ht, State.core_setCore_fc s c k s.fc, (onlyCore_setCore s c k s.fc).1⟩
end

section
/-! Streams start and are fetched (R280 to R282). -/

namespace Sys2Proof.Machine

/-- The low bytes of a number alone are its first bytes. -/
theorem natBytes_mod : ∀ (n v : Nat), natBytes n (v % 256 ^ n) = natBytes n v
  | 0, _ => rfl
  | n + 1, v => by
    have hlow : BitVec.ofNat 8 (v % 256 ^ (n + 1)) = BitVec.ofNat 8 v :=
      BitVec.eq_of_toNat_eq (by
        rw [BitVec.toNat_ofNat, BitVec.toNat_ofNat, Nat.mod_mod_of_dvd v ⟨256 ^ n, Nat.pow_succ'⟩])
    rw [natBytes, natBytes, hlow, ← natBytes_mod n (v / 256), Nat.pow_succ', Nat.mod_mul_right_div_self]

/-- Steps for other cores leave core `c`. -/
theorem State.core_foldl_ne {f : State → Nat → State} (hf : ∀ t d e, e ≠ d → (f t d).core e = t.core e) {c : Nat} (l : List Nat) (hc : c ∉ l)
    (s : State) : (l.foldl f s).core c = s.core c := by
  induction l generalizing s with
  | nil => rfl
  | cons d l ih => rw [List.foldl_cons, ih (List.not_mem_of_not_mem_cons hc), hf s d c (List.ne_of_not_mem_cons hc)]

/-- A step for each listed core, each of which leaves the other cores: core `c` sees its own step alone. -/
theorem State.core_foldl_once {f : State → Nat → State} (hf : ∀ t d e, e ≠ d → (f t d).core e = t.core e) {c : Nat} (l : List Nat)
    (hnd : l.Nodup) (hc : c ∈ l) (s : State) : ∃ t, t.core c = s.core c ∧ (l.foldl f s).core c = (f t c).core c := by
  induction l generalizing s with
  | nil => cases hc
  | cons d l ih =>
    obtain ⟨hd, hl⟩ := List.nodup_cons.mp hnd
    by_cases hcd : c = d
    · subst hcd
      exact ⟨s, rfl, State.core_foldl_ne hf l hd _⟩
    · obtain ⟨t, ht, heq⟩ := ih hl ((List.mem_cons.mp hc).resolve_left hcd) (f s d)
      exact ⟨t, ht.trans (hf s d c hcd), heq⟩

theorem State.waiters_nodup (s : State) (q : HostReq) (h : (s.cores.map (·.1)).Nodup) : (s.waiters q).Nodup := by
  unfold State.waiters
  split
  · split
    · exact List.pairwise_singleton _ _
    · exact List.nodup_nil
  · exact h.sublist (List.Sublist.map _ List.filter_sublist)

theorem State.core_haltCore_ne (s : State) (c e : Nat) (f : CFault) (h : e ≠ c) : (s.haltCore c f).core e = s.core e := by
  simp only [State.haltCore]
  split
  · rfl
  · rw [State.core_noteHalt]
    exact State.core_updCore_ne _ _ h

/-- What a core holds once a granule has entered and its fetch has gone on. -/
theorem CoreRun.fetched_take {r r' : CoreRun} {v64 : Bool} {len : Nat} {bytes : List Byte} (h : (r.take v64 len bytes).Fetched r') :
    ∃ iq pre fetch qadm more, r' = { r with iq := iq, pre := pre, fetch := fetch, qadm := qadm }
      ∧ iq ++ pre = r.iq ++ r.pre ++ bytes.drop ((r.iqOff + r.iq.length + r.pre.length) % 32) ++ more := by
  obtain ⟨iq, pre, qadm, htake, happ⟩ := r.take_fetched v64 len bytes
  rw [htake] at h
  obtain ⟨iq', pre', fetch', qadm', more, rfl, happ'⟩ := h
  exact ⟨iq', pre', fetch', qadm', more, rfl, happ'.trans (congrArg (· ++ more) happ)⟩

/-- An answered granule enters the bytes of every core that waits for it (R281). -/
theorem State.deliver_core (s : State) (q : HostReq) (g : Granule) {c : Nat} (hnd : (s.cores.map (·.1)).Nodup) (hc : c ∈ s.waiters q) :
    ∃ r, ((s.core c).run.take s.v64 (((s.core c).run.run.map (·.len)).getD 0) (natBytes 32 g.toNat)).Fetched r
      ∧ (s.deliver q g).core c = { s.core c with run := r } := by
  simp only [State.deliver]
  generalize ht : (if q.own.isSome = true then s else _ : State) = t
  have htc : t.core c = s.core c := by rw [← ht]; split <;> rfl
  have hstep : ∀ (t : State) (d e : Nat), e ≠ d → ((t.updRun d fun r =>
      r.take s.v64 ((r.run.map (·.len)).getD 0) (natBytes 32 g.toNat)).fetchNext d).core e = t.core e := fun t d e he => by
    rw [(State.fetchNext_fetchedFor _ d).core_ne he]
    exact State.core_updCore_ne _ _ he
  obtain ⟨u, hu, heq⟩ := State.core_foldl_once hstep _ (s.waiters_nodup q hnd) hc t
  obtain ⟨r, hr, hcore⟩ := (State.fetchNext_fetchedFor (u.updRun c fun r =>
    r.take s.v64 ((r.run.map (·.len)).getD 0) (natBytes 32 g.toNat)) c).core
  have hupd : (u.updRun c fun r => r.take s.v64 ((r.run.map (·.len)).getD 0) (natBytes 32 g.toNat)).core c = { s.core c with
      run := (s.core c).run.take s.v64 (((s.core c).run.run.map (·.len)).getD 0) (natBytes 32 g.toNat) } := by
    rw [← hu.trans htc]
    exact State.core_updCore_same _ c _
  rw [hupd] at hr hcore
  exact ⟨r, hr, heq.trans hcore⟩

/-- A read that ends in error halts every core that waits for it (R282). -/
theorem State.readError_core (s : State) (q : HostReq) {c : Nat} (hnd : (s.cores.map (·.1)).Nodup) (hc : c ∈ s.waiters q)
    (hh : (s.core c).run.halt = none) :
    (s.readError q).core c = { s.core c with run := { (s.core c).run with fetch := none, halt := some 0x2C } } := by
  have hstep : ∀ (t : State) (d e : Nat), e ≠ d →
      ((t.updRun d fun r => { r with fetch := none }).haltCore d { code := 0x2C, unit := 0 }).core e = t.core e := fun t d e he => by
    rw [State.core_haltCore_ne _ _ _ _ he]
    exact State.core_updCore_ne _ _ he
  obtain ⟨t, ht, heq⟩ := State.core_foldl_once hstep _ (s.waiters_nodup q hnd) hc s
  have hupd : (t.updRun c fun r => { r with fetch := none }).core c = { s.core c with run := { (s.core c).run with fetch := none } } := by
    rw [← ht]
    exact State.core_updCore_same _ c _
  refine heq.trans ?_
  rw [(State.haltCore_running _ c _ (by rw [hupd]; exact hh)).1, hupd]

/-- A core at the start of its stream, with no other request of the host port: it asks for the first granule (R280, R281). -/
theorem State.fetchNext_first (s : State) (c : Nat) (b : BoundStream) (hrun : (s.core c).run.run = some b) (hiq : (s.core c).run.iq = [])
    (hpre : (s.core c).run.pre = []) (hoff : (s.core c).run.iqOff = 0) (hfetch : (s.core c).run.fetch = none)
    (hrec : (s.core c).run.recov = 0) (hhalt : (s.core c).run.halt = none) (hown : (s.core c).run.own = false) (hlen : 0 < b.len)
    (hreqs : s.hostReqs = []) (hlost : s.lost = []) (hbuf : ∀ m, s.subBuf b.sub = some m → m.find? (fun g => g.1 = 0) = none) :
    s.fetchNext c = ({ s with hostReqs := [{ tag := 0, addr := b.addr, sub := b.sub, off := 0, own := if (s.subBuf b.sub).isNone then some c else none }] } : State).updRun c
      (fun x => { x with fetch := some 0 }) := by
  have hinc : (s.core c).run.incWaits s.v64 = false := by simp [CoreRun.incWaits, hpre, decodeLongWord]
  have hnext : (s.core c).run.nextOff s.v64 b = some 0 := by
    simp [CoreRun.nextOff, hiq, hpre, hoff, hfetch, hrec, hhalt, hinc, Nat.ne_of_gt hlen]
  have htag : freeTag ([] : List HostReq) = some 0 := by decide
  have hup : s.hostUp = true := by simp [State.hostUp, hlost]
  have hnone : (s.subBuf b.sub).bind (fun m => (m.find? (fun g => g.1 = 0)).map (·.2)) = none := by
    cases hm : s.subBuf b.sub with
    | none => rfl
    | some m => simp [hbuf m hm]
  simp [State.fetchNext, State.fetchN, hrun, hnext, hown, hnone, hreqs, htag, hup]

/-- An answer to an outstanding read takes effect while the port's clock runs (R59, R499). -/
theorem State.exec_hostAnswer (s : State) {tag : BitVec 8} {err : Bool} {data : BitVec 512} {q : HostReq}
    (hfind : s.hostReqs.find? (fun q => q.tag = tag.toNat) = some q) (hans : s.tagAnswered tag = false) (hup : s.lost.contains .host = false) :
    exec (.hostMasterResponse tag err data) s = .next (s.hostAnswer tag err data) := by
  have hany : s.hostReqs.any (fun q => q.tag = tag.toNat) = true := by
    rw [List.any_eq_true]
    exact ⟨q, List.mem_of_find?_eq_some hfind, by simpa using List.find?_some hfind⟩
  simp only [exec, execHostMasterResponse, hany, hans, State.hostUp, hup, Bool.not_true, Bool.or_self, Bool.not_false, Bool.false_eq_true,
    if_false]

theorem State.hostAnswer_error (s : State) {tag : BitVec 8} {data : BitVec 512} {q : HostReq}
    (hfind : s.hostReqs.find? (fun q => q.tag = tag.toNat) = some q) :
    s.hostAnswer tag true data = ({ s with hostReqs := s.hostReqs.filter (fun x => x.tag ≠ tag.toNat) } : State).readError q := by
  simp only [State.hostAnswer, hfind, if_true]

theorem State.hostAnswer_data (s : State) {tag : BitVec 8} {data : BitVec 512} {q : HostReq}
    (hfind : s.hostReqs.find? (fun q => q.tag = tag.toNat) = some q) :
    s.hostAnswer tag false data = ({ s with hostReqs := s.hostReqs.filter (fun x => x.tag ≠ tag.toNat) } : State).deliver q (BitVec.ofNat 256 data.toNat) := by
  simp only [State.hostAnswer, hfind, Bool.false_eq_true, if_false]

end Sys2Proof.Machine
end

section
open Sys2Proof Sys2Proof.Machine

/-- Settles O37: the start asks for the first granule; an answer reaches each waiting core once. -/
theorem streamFetching : Obligations.StreamFetching := by
  intro s c hnd r
  refine ⟨fun b rest hrun hlist hlive hheld hhalt hrec hsw hlen hreqs hlost hbuf => ?_, fun tag data q hfind hwait hans hup => ⟨?_, fun hh => ?_⟩,
    fun q hq hwait hh hup => ?_, fun tag err data hfind => ?_⟩
  · let t := s.updRun c.val fun x =>
      { x with list := rest, run := some b, iq := [], pre := [], iqOff := 0, rpOff := 0, fetch := none, branch := none, own := false }
    have hcore : t.core c = { s.core c with run := { r with
        list := rest, run := some b, iq := [], pre := [], iqOff := 0, rpOff := 0, fetch := none, branch := none, own := false } } :=
      State.core_updCore_same s c _
    have hexec : exec (.streamStart c) s = .next (t.fetchNext c) := by
      simp [exec, execStreamStart, hrun, hlist, hlive, hheld, hhalt, hrec, hsw, r, t]
    have hfetch := t.fetchNext_first c b (by rw [hcore]) (by rw [hcore]) (by rw [hcore]) (by rw [hcore]) (by rw [hcore])
      (by rw [hcore]; exact hrec) (by rw [hcore]; exact hhalt) (by rw [hcore]) hlen hreqs hlost hbuf
    have hlast : (t.fetchNext c).core c = { t.core c with run := { (t.core c).run with fetch := some 0 } } := by
      rw [hfetch]
      exact State.core_updCore_same _ c _
    refine ⟨_, hexec, by rw [hlast, hcore], by rw [hlast, hcore], by rw [hlast, hcore], by rw [hlast, hcore], by rw [hlast],
      by rw [hlast, hcore], by rw [hfetch]; rfl, by rw [hlast, hcore], fun d hd => ?_⟩
    rw [(State.fetchNext_fetchedFor t c).core_ne hd]
    exact State.core_updCore_ne s _ hd
  · have hexec := s.exec_hostAnswer (err := false) (data := data) hfind hans hup
    obtain ⟨r', hr', hcore⟩ := State.deliver_core { s with hostReqs := s.hostReqs.filter fun x => x.tag ≠ tag.toNat } q (BitVec.ofNat 256 data.toNat)
      hnd hwait
    rw [← s.hostAnswer_data hfind] at hcore
    obtain ⟨iq, pre, fetch, qadm, more, rfl, happ⟩ := CoreRun.fetched_take hr'
    have hbytes : natBytes 32 (BitVec.ofNat 256 data.toNat).toNat = natBytes 32 data.toNat := by
      rw [BitVec.toNat_ofNat]
      exact natBytes_mod 32 data.toNat
    rw [hbytes] at happ
    exact ⟨_, more, hexec, by rw [hcore]; exact happ, by rw [hcore]; rfl, by rw [hcore]; rfl⟩
  · have hexec := s.exec_hostAnswer (err := true) (data := data) hfind hans hup
    have hcore := State.readError_core { s with hostReqs := s.hostReqs.filter fun x => x.tag ≠ tag.toNat } q hnd hwait hh
    rw [← s.hostAnswer_error hfind] at hcore
    exact ⟨_, hexec, by rw [hcore], by rw [hcore]; rfl, by rw [hcore]; rfl, by rw [hcore]; rfl⟩
  · have hsome : (s.hostReqs.find? fun q => (s.waiters q).contains c.val).isSome :=
      List.find?_isSome.mpr ⟨q, hq, List.contains_iff_mem.mpr hwait⟩
    obtain ⟨q', hq'⟩ := Option.isSome_iff_exists.mp hsome
    have hwait' : c.val ∈ s.waiters q' := by simpa using List.find?_some hq'
    have hcore := State.readError_core { s with hostReqs := s.hostReqs.filter fun x => x.tag ≠ q'.tag } q' hnd hwait' hh
    have hexec : exec (.streamReadError c) s = .next (({ s with hostReqs := s.hostReqs.filter (fun x => x.tag ≠ q'.tag) } : State).readError q') := by
      simp only [exec, execStreamReadError, State.hostUp, hup, Bool.not_false, if_true, hq']
    exact ⟨_, hexec, by rw [hcore], by rw [hcore], by rw [hcore]; rfl⟩
  · have hany : s.hostReqs.any (fun q => q.tag = tag.toNat) = false := by
      rw [List.any_eq_false]
      exact fun q hq => List.find?_eq_none.mp hfind q hq
    simp only [exec, execHostMasterResponse, hany, Bool.not_false, Bool.true_or, if_true]
end

section
/-! The fault queue (R402, R403, R471). -/

namespace Sys2Proof.Machine

/-- Reading after a run of writes from key `k` upward. -/
theorem Sp.get_setMany {α : Type} [DecidableEq α] (d : α) (j : Nat) : ∀ (vs : List α) (m : Sp α) (k : Nat),
    Sp.get d (Sp.setMany d m k vs) j = if k ≤ j ∧ j < k + vs.length then vs.getD (j - k) d else Sp.get d m j
  | [], m, k => by rw [if_neg (by simp)]; rfl
  | v :: vs, m, k => by
    rw [Sp.setMany, Sp.get_setMany d j vs _ (k + 1), Sp.get_set, List.length_cons]
    by_cases h : k + 1 ≤ j ∧ j < k + 1 + vs.length
    · obtain ⟨i, rfl⟩ := Nat.exists_eq_add_of_le h.1
      rw [if_pos h, if_pos (by omega), show k + 1 + i - k = i + 1 by omega, List.getD_cons_succ, Nat.add_sub_cancel_left]
    · rw [if_neg h]
      by_cases hj : j = k
      · rw [if_pos hj, if_pos (by omega), hj, Nat.sub_self, List.getD_cons_zero]
      · rw [if_neg hj, if_neg (by omega)]

/-- A record has eight words; the first and the last hold no free value (Table 1). -/
theorem State.recWords_words (s : State) (f : FRec) (seq : Nat) : ∃ w1 w2 w3 w4 w5 w6,
    (s.recWords f seq).1 = [f.code % 256 + 256 * (f.act % 8) + 2048 * b2n f.esc + 65536 * f.tag.toNat, w1, w2, w3, w4, w5, w6,
      seq % 65536 + 65536 * (f.region % 65536)] := ⟨_, _, _, _, _, _, rfl⟩

theorem State.recWords_state (s : State) (f : FRec) (seq : Nat) : (s.recWords f seq).2 = { s with fc := (s.recWords f seq).2.fc } := by
  simp only [State.recWords]
  cases f.info0 <;> cases f.info1 <;> rfl

/-- A record that finds room goes to the tail, with the next SEQ (R403). -/
theorem State.exec_faultRecordPlace (s : State) {n : Nat} {f : FRec} (hf : s.fq.offered[n]? = some f) (hroom : s.fq.count < 512) :
    exec (.faultRecordPlace n) s = .next { s with
      fc := (s.recWords f s.fq.seq).2.fc,
      fq := { s.fq with
        words := Sp.setMany 0#32 s.fq.words (8 * ((s.fq.head + s.fq.count) % 512)) ((s.recWords f s.fq.seq).1.map (BitVec.ofNat 32)),
        count := s.fq.count + 1, seq := (s.fq.seq + 1) % 65536, offered := s.fq.offered.eraseIdx n } } := by
  simp only [exec, execFaultRecordPlace, hf]
  rw [if_pos hroom, State.recWords_state]

/-- A record consumed leaves the queue (R471). -/
theorem State.consume_fq (s : State) : s.consume.fq = { s.fq with head := (s.fq.head + 1) % 512, count := s.fq.count - 1 } := rfl

theorem State.consume_cores (s : State) : s.consume.cores = s.cores := by
  change (s.log _ _ _).cores = s.cores
  rw [State.log_eq]

/-- Firmware consumes `n` records of those the queue holds. -/
theorem State.consumeN_fq : ∀ (n : Nat) (s : State), n ≤ s.fq.count → s.fq.head < 512 →
    (s.consumeN n).fq = { s.fq with head := (s.fq.head + n) % 512, count := s.fq.count - n } ∧ (s.consumeN n).cores = s.cores
  | 0, s, _, hh => ⟨by rw [State.consumeN, Nat.add_zero, Nat.mod_eq_of_lt hh, Nat.sub_zero], rfl⟩
  | n + 1, s, hn, hh => by
    have hc : s.consume.fq.count = s.fq.count - 1 := rfl
    obtain ⟨hfq, hcores⟩ := State.consumeN_fq n s.consume (by omega) (Nat.mod_lt _ (by decide))
    rw [State.consumeN, if_neg (by omega)]
    refine ⟨hfq.trans ?_, hcores.trans s.consume_cores⟩
    rw [State.consume_fq]
    simp only [Nat.mod_add_mod, Nat.sub_sub, Nat.add_assoc, Nat.add_comm 1 n]

end Sys2Proof.Machine
end

section
open Sys2Proof Sys2Proof.Machine

/-- Settles O46: a placed record is a run of eight words; the other cases are the branches of the placement. -/
theorem faultQueueOrder : Obligations.FaultQueueOrder := by
  intro s n f v hf q i
  refine ⟨fun hroom => ?_, fun hfull ha he => ?_, fun hfull h => ?_, ?_, fun m hans hhead hm hm512 hv => ?_⟩
  · obtain ⟨w1, w2, w3, w4, w5, w6, hw⟩ := s.recWords_words f q.seq
    have hget := fun j => Sp.get_setMany 0#32 j ((s.recWords f q.seq).1.map (BitVec.ofNat 32)) q.words i
    rw [hw] at hget
    refine ⟨_, s.exec_faultRecordPlace hf hroom, rfl, rfl, rfl, rfl, rfl, rfl, rfl, ?_, ?_, fun j hj => ?_⟩
    · rw [hw]
      exact (hget i).trans (by simp)
    · rw [hw]
      exact (hget (i + 7)).trans (by simp)
    · rw [hw]
      exact (hget j).trans (if_neg (by simp only [List.map_cons, List.map_nil, List.length_cons, List.length_nil]; omega))
  · simp only [exec, execFaultRecordPlace, hf]
    rw [if_neg (Nat.not_lt.mpr hfull), if_pos ⟨ha, by rw [he]; rfl⟩]
  · simp only [exec, execFaultRecordPlace, hf]
    rw [if_neg (Nat.not_lt.mpr hfull), if_neg]
    rintro ⟨ha, he⟩
    rcases h with h | h
    · exact h ha
    · simp [h] at he
  · simp [exec, execFqheadWrite, s.byMgmt_host]
  · have hn : (v.toNat % 512 + 512 - s.fq.head) % 512 = m := by
      rw [hv]
      change ((s.fq.head + m) % 512 + 512 - s.fq.head) % 512 = m
      change s.fq.head < 512 at hhead
      omega
    obtain ⟨hfq, hcores⟩ := State.consumeN_fq m s hm hhead
    refine ⟨s.consumeN m, ?_, hfq, hcores⟩
    simp only [exec, execFqheadWrite, State.byMgmt, hans, hn]
    exact congrArg _ (if_pos hm)
end

section
/-! Limits, ageing and temper passes (R47 to R50, R422, R428 to R437). -/

namespace Sys2Proof.Machine

/-! ### What the named operations of Power.lean leave -/

theorem State.age_setAge (s : State) (u w : Nat) (a : UnitAge) : (s.setAge u a).age w = if w = u then a else s.age w :=
  Sp.get_set ({} : UnitAge) s.ages u w a

@[simp] theorem State.age_setAge_same (s : State) (u : Nat) (a : UnitAge) : (s.setAge u a).age u = a := by
  rw [State.age_setAge, if_pos rfl]

theorem State.age_setAge_ne (s : State) {u w : Nat} (a : UnitAge) (h : w ≠ u) : (s.setAge u a).age w = s.age w := by
  rw [State.age_setAge, if_neg h]

/-- Forwarding the request touches the power and always-on domains alone (R47). -/
theorem State.forward_eq (s : State) : s.forward = { s with pwr := s.forward.pwr, aon := s.forward.aon } := by
  simp only [State.forward]
  split <;> rfl

@[simp] theorem State.forward_ages (s : State) : s.forward.ages = s.ages := by rw [State.forward_eq]
@[simp] theorem State.forward_roles (s : State) : s.forward.roles = s.roles := by rw [State.forward_eq]
@[simp] theorem State.forward_temper (s : State) : s.forward.temper = s.temper := by rw [State.forward_eq]
@[simp] theorem State.forward_fq (s : State) : s.forward.fq = s.fq := by rw [State.forward_eq]
@[simp] theorem State.forward_otp (s : State) : s.forward.otp = s.otp := by rw [State.forward_eq]
@[simp] theorem State.forward_mgmt (s : State) : s.forward.mgmt = s.mgmt := by rw [State.forward_eq]
@[simp] theorem State.forward_cores (s : State) : s.forward.cores = s.cores := by rw [State.forward_eq]
@[simp] theorem State.forward_age (s : State) (u : Nat) : s.forward.age u = s.age u := by rw [State.forward_eq]; rfl
@[simp] theorem State.forward_role (s : State) (l : Nat) : s.forward.role l = s.role l := by rw [State.forward_eq]; rfl

/-- FWD follows the request (R422). -/
@[simp] theorem State.forward_fwd (s : State) : s.forward.pwr.fwd = s.fwdNow := by
  simp only [State.forward]
  split
  · next h => exact h.symm
  · rfl

theorem State.forward_pwr (s : State) : s.forward.pwr.quench = s.pwr.quench ∧ s.forward.pwr.ps = s.pwr.ps ∧ s.forward.pwr.req = s.pwr.req := by
  simp only [State.forward]
  split
  · exact ⟨rfl, rfl, rfl⟩
  · exact ⟨rfl, rfl, rfl⟩

/-- Forwarding changes nothing that the request depends on. -/
theorem State.forward_fwdNow (s : State) : s.forward.fwdNow = s.fwdNow := by
  obtain ⟨hq, hps, hreq⟩ := s.forward_pwr
  have hfloor : s.forward.floor = s.floor := by
    rw [State.forward_eq]
    rfl
  have hmax : s.forward.vmaxEff = s.vmaxEff := by
    rw [State.forward_eq]
    rfl
  simp only [State.fwdNow, State.fwdActive, hq, hps, hreq, hfloor, hmax]

theorem State.persistNow_eq (s : State) : s.persistNow = { s with
    fc := s.persistNow.fc, hostOut := s.persistNow.hostOut, mgmt := s.persistNow.mgmt, irqs := s.persistNow.irqs } := by
  unfold State.persistNow
  split
  · exact s.persist_eq
  · rfl

@[simp] theorem State.persistNow_temper (s : State) : s.persistNow.temper = s.temper := by rw [State.persistNow_eq]
@[simp] theorem State.persistNow_age (s : State) (u : Nat) : s.persistNow.age u = s.age u := by rw [State.persistNow_eq]; rfl
@[simp] theorem State.persistNow_role (s : State) (l : Nat) : s.persistNow.role l = s.role l := by rw [State.persistNow_eq]; rfl

/-- A unit takes written values: raises at once, and shortenings where R49 does not hold them. -/
theorem State.writeAge_age (s : State) (u off fl : Nat) :
    (∀ w, w ≠ u → (s.writeAge u off fl).age w = s.age w)
    ∧ (s.writeAge u off fl).age u = { s.age u with
        offset := if (s.age u).offset ≤ off ∨ s.mayShorten u then off else (s.age u).offset,
        heldOff := if (s.age u).offset ≤ off ∨ s.mayShorten u then none else some off,
        floor := if (s.age u).floor ≤ fl ∨ s.mayShorten u then fl else (s.age u).floor,
        heldFloor := if (s.age u).floor ≤ fl ∨ s.mayShorten u then none else some fl } := by
  refine ⟨fun w hw => ?_, ?_⟩
  · rw [State.writeAge, State.forward_age, State.age_setAge_ne _ _ hw]
  · rw [State.writeAge, State.forward_age, State.age_setAge_same]
    split <;> split <;> rfl

theorem State.driftOf_state (s : State) (u rcount : Nat) (temp : Int) :
    (s.driftOf u rcount temp).2 = { s with fc := (s.driftOf u rcount temp).2.fc } := by
  simp only [State.driftOf]
  repeat' split
  all_goals rfl

theorem State.driftOf_none (s : State) (u rcount : Nat) (temp : Int) (h : s.otp.sh.base = none) : (s.driftOf u rcount temp).1 = 0 := by
  simp only [State.driftOf, h]

/-- A record about a unit joins those offered; nothing else changes. -/
theorem State.offerUnit_offers (s : State) (u code : Nat) (esc : Bool) : ∃ f : FRec, f.code = code
    ∧ s.offerUnit u code esc = { s with fq := { s.fq with offered := s.fq.offered ++ [f] } } := by
  simp only [State.offerUnit]
  split
  · exact ⟨_, rfl, rfl⟩
  · exact ⟨_, rfl, rfl⟩

/-- The end of a measurement that leaves `t`: a unit that drifts, or that canaries have raised three times, is told of once (R430). -/
def State.patinaTold (s t : State) (u : Nat) : State :=
  let a := t.age u
  let big := s.otp.sh.base.isSome && decide ((s.regN oDriftTh % 1024 : Int) < a.drift - a.tdrift)
  if !a.told && (big || decide (3 ≤ a.auto)) then (t.setAge u { a with told := true }).offerUnit u 0x74 false else t

theorem State.patinaTold_age (s t : State) (u : Nat) : ∃ b, (s.patinaTold t u).age u = { t.age u with told := b } := by
  simp only [State.patinaTold]
  split
  · obtain ⟨f, -, hf⟩ := (t.setAge u { t.age u with told := true }).offerUnit_offers u 0x74 false
    rw [hf]
    exact ⟨true, State.age_setAge_same t u _⟩
  · exact ⟨_, rfl⟩

/-- A unit not told of yet, and raised three times, is recorded with 0x74 (R430). -/
theorem State.patinaTold_third (s t : State) (u : Nat) (hold : (t.age u).told = false) (h3 : 3 ≤ (t.age u).auto) :
    ((s.patinaTold t u).age u).told = true ∧ ∃ f : FRec, f.code = 0x74 ∧ (s.patinaTold t u).fq.offered = t.fq.offered ++ [f] := by
  obtain ⟨f, hcode, hf⟩ := (t.setAge u { t.age u with told := true }).offerUnit_offers u 0x74 false
  have hsome : s.patinaTold t u = (t.setAge u { t.age u with told := true }).offerUnit u 0x74 false := by
    simp [State.patinaTold, hold, h3]
  rw [hsome, hf]
  exact ⟨congrArg UnitAge.told (State.age_setAge_same t u _), f, hcode, rfl⟩

/-- A unit once measured (R428). -/
def State.measured (s : State) (u : Nat) (rcount temp : W16) : State :=
  { s with fc := (s.driftOf u rcount.toNat temp.toInt).2.fc }.setAge u
    { s.age u with drift := (s.driftOf u rcount.toNat temp.toInt).1, rcount := rcount, meas := s.aon.tb }

theorem State.measured_age (s : State) (u : Nat) (rcount temp : W16) : (s.measured u rcount temp).age u
    = { s.age u with drift := (s.driftOf u rcount.toNat temp.toInt).1, rcount := rcount, meas := s.aon.tb } :=
  State.age_setAge_same _ u _

/-- A failing canary raises a unit that is not full and not being tempered by one (R429). -/
theorem State.canary_raises (s : State) (u : Nat) (hm : ¬ (s.temper.busy = true ∧ s.temper.unit = u)) (hfull : s.codeFull u = false) :
    (s.canary u).fq = s.fq ∧ (s.canary u).age u
      = { s.age u with cfail := true, offset := Nat.min 31 ((s.age u).offset + 1), auto := Nat.min 15 ((s.age u).auto + 1) } := by
  have hbusy : (s.temper.busy && s.temper.unit == u) = false := by
    rw [Bool.eq_false_iff]
    simpa using hm
  have heq : s.canary u = (s.setAge u { s.age u with cfail := true }).setAge u
      { s.age u with cfail := true, offset := Nat.min 31 ((s.age u).offset + 1), auto := Nat.min 15 ((s.age u).auto + 1) } := by
    simp only [State.canary, hbusy, hfull, Bool.false_eq_true, if_false]
  rw [heq]
  exact ⟨rfl, State.age_setAge_same _ u _⟩

theorem State.exec_patina (s : State) (u : UnitNo) (rcount temp : W16) (fails : Bool) (hinit : s.boot.init = false) (hps : s.pwr.ps < 2)
    (hdue : s.due ((s.age u).meas + s.us 1000) = true) :
    exec (.patinaMeasurement u rcount temp fails) s
      = .next (s.patinaTold (if fails then (s.measured u rcount temp).canary u else s.measured u rcount temp) u) := by
  have hguard : ¬ (s.boot.init || decide (2 ≤ s.pwr.ps) || !s.due ((s.age u.val).meas + s.us 1000)) = true := by
    simp [hinit, hdue, Nat.not_le.mpr hps]
  have hm : (s.driftOf u.val rcount.toNat temp.toInt).2.setAge u.val { (s.driftOf u.val rcount.toNat temp.toInt).2.age u.val with
      drift := (s.driftOf u.val rcount.toNat temp.toInt).1, rcount := rcount, meas := s.aon.tb } = s.measured u rcount temp := by
    rw [s.driftOf_state]
    rfl
  simp only [exec, execPatinaMeasurement]
  rw [if_neg hguard, hm]
  exact (apply_ite Host.Outcome.next _ _ _).symm

/-- A search that fails ends the pass, is recorded with 0x75, and retires a slab (R434, R435). -/
theorem State.searchFail_spec (s : State) (r : Nat) :
    (s.searchFail r).temper = { s.temper with busy := false, result := r, ready := false } ∧ (s.searchFail r).ages = s.ages
      ∧ (∃ f : FRec, f.code = 0x75 ∧ (s.searchFail r).fq.offered = s.fq.offered ++ [f])
      ∧ (s.temper.unit < 68 → (s.searchFail r).role s.temper.unit = { logical := none, st := .retiredService, part := none }) := by
  simp only [State.searchFail]
  split
  · obtain ⟨f, hcode, hf⟩ := ((({ s with temper := { s.temper with busy := false, result := r, ready := false } } : State).setRole s.temper.unit
      { logical := none, st := .retiredService, part := none }).forward).offerUnit_offers s.temper.unit 0x75 false
    rw [hf]
    refine ⟨by simp, by simp, ⟨f, hcode, by simp⟩, fun _ => ?_⟩
    exact (State.forward_role _ _).trans ((State.role_setRole _ _ _ _).trans (if_pos rfl))
  · next h =>
    obtain ⟨f, hcode, hf⟩ := ({ s with temper := { s.temper with busy := false, result := r, ready := false } } : State).offerUnit_offers
      s.temper.unit 0x75 true
    rw [hf]
    exact ⟨rfl, rfl, ⟨f, hcode, rfl⟩, fun hlt => absurd hlt h⟩

/-- A unit's ageing state as the result of a pass leaves it, its offset and floor apart (R433). -/
def State.temperedAge (s : State) (u : Nat) : UnitAge :=
  { s.age u with tdrift := s.temper.drift, cfail := false, auto := 0, told := false }

/-- The result of a slab's pass takes effect (R435, R436). -/
def State.commitSlab (s : State) (u : Nat) : State :=
  let a : UnitAge := { s.temperedAge u with offset := s.temper.newOff, floor := s.temper.newFloor, heldOff := none, heldFloor := none }
  let t := ({ s with temper := { s.temper with ready := false, last := u } } : State).setAge u a
  ((t.setRole u { s.role u with st := .spare }).forward).persistNow

/-- The result of a hub's pass takes effect, or waits in PEND (R435). -/
def State.commitHub (s : State) (u : Nat) : State :=
  let a := s.temperedAge u
  let t := ({ s with temper := { s.temper with ready := false, last := u } } : State).setAge u
    (if a.offset ≤ s.temper.newOff then { a with offset := s.temper.newOff, pend := 0 } else { a with pend := s.temper.newOff })
  (t.writeAge u (t.age u).offset s.temper.newFloor).persistNow

theorem State.exec_tmpcmdCommit (s : State) (u : BitVec 7) (hby : s.byMgmt .mgmt = true) (hready : s.temper.ready = true)
    (hres : s.temper.result = 0) (hunit : s.temper.unit = u.toNat) :
    exec (.tmpcmdCommit .mgmt u) s = .next (if u.toNat < 68 then s.commitSlab u.toNat else s.commitHub u.toNat) := by
  have hguard : (!s.byMgmt .mgmt || !s.temper.ready || s.temper.result != 0 || s.temper.unit != u.toNat) = false := by
    simp [hby, hready, hres, hunit]
  simp only [exec, execTmpcmdCommit, hguard, Bool.false_eq_true, if_false]
  exact (apply_ite Host.Outcome.next _ _ _).symm

theorem State.commitSlab_spec (s : State) (u : Nat) : (s.commitSlab u).temper.ready = false ∧ ((s.commitSlab u).role u).st = .spare
    ∧ (s.commitSlab u).age u = { s.temperedAge u with offset := s.temper.newOff, floor := s.temper.newFloor, heldOff := none, heldFloor := none } := by
  refine ⟨?_, ?_, ?_⟩
  · rw [State.commitSlab, State.persistNow_temper, State.forward_temper]
    rfl
  · rw [State.commitSlab, State.persistNow_role, State.forward_role, State.role_setRole, if_pos rfl]
  · rw [State.commitSlab, State.persistNow_age, State.forward_age]
    exact State.age_setAge_same _ u _

theorem State.commitHub_spec (s : State) (u : Nat) : (s.commitHub u).temper.ready = false
    ∧ ∃ fl h, (s.commitHub u).age u = { s.temperedAge u with
        offset := if (s.age u).offset ≤ s.temper.newOff then s.temper.newOff else (s.age u).offset,
        pend := if (s.age u).offset ≤ s.temper.newOff then 0 else s.temper.newOff, heldOff := none, floor := fl, heldFloor := h } := by
  refine ⟨?_, ?_⟩
  · rw [State.commitHub, State.persistNow_temper, State.writeAge, State.forward_temper]
    rfl
  · rw [State.commitHub, State.persistNow_age]
    generalize ht : State.setAge _ _ _ = t
    have hage : t.age u = if (s.age u).offset ≤ s.temper.newOff then { s.temperedAge u with offset := s.temper.newOff, pend := 0 }
        else { s.temperedAge u with pend := s.temper.newOff } := by
      rw [← ht]
      exact State.age_setAge_same _ u _
    obtain ⟨-, hsame⟩ := t.writeAge_age u (t.age u).offset s.temper.newFloor
    have hstay : (t.age u).offset ≤ (t.age u).offset ∨ t.mayShorten u = true := .inl (Nat.le_refl _)
    rw [if_pos hstay, if_pos hstay] at hsame
    refine ⟨((t.writeAge u (t.age u).offset s.temper.newFloor).age u).floor, ((t.writeAge u (t.age u).offset s.temper.newFloor).age u).heldFloor, ?_⟩
    rw [hsame, hage]
    by_cases h : (s.age u).offset ≤ s.temper.newOff
    · simp only [if_pos h]
    · simp only [if_neg h]
      rfl

/-- A unit's written offset `off`, floor `fl` and reference `d` take effect; a floor above its limit is clamped and recorded (R431). -/
def State.temperWritten (s : State) (u off fl : Nat) (d : Int) : State :=
  let t := (s.setAge u { s.age u with tdrift := d }).writeAge u off (Nat.min fl s.otp.sh.vfloorMax)
  if s.otp.sh.vfloorMax < fl then t.clamped else t

theorem State.exec_temperWrite (s : State) (u : UnitNo) (v : W32) (hans : s.answers = true) (hslab : u.val < 68 → s.slabAnswers u = true)
    (hm : ¬ (s.temper.busy = true ∧ s.temper.unit = u.val)) :
    exec (.temperWrite .mgmt u v) s = .next (s.temperWritten u (fld v.toNat 4 0) (fld v.toNat 14 5) (sext 11 (fld v.toNat 25 15))) := by
  have hguard : ¬ (!s.byMgmt .mgmt || (decide (u.val < 68) && !s.slabAnswers u.val)) = true := by
    simpa [State.byMgmt, hans] using hslab
  have hbusy : ¬ (s.temper.busy && s.temper.unit == u.val) = true := by simpa using hm
  simp only [exec, execTemperWrite]
  rw [if_neg hguard, if_neg hbusy]
  rfl

/-- What a written unit holds (R49, R431), and that the others stay. -/
theorem State.temperWritten_spec (s : State) (u off fl : Nat) (d : Int) :
    (∀ w, w ≠ u → (s.temperWritten u off fl d).age w = s.age w)
      ∧ (s.temperWritten u off fl d).pwr.fwd = (s.temperWritten u off fl d).fwdNow
      ∧ (s.temperWritten u off fl d).age u = { s.age u with
        tdrift := d,
        offset := if (s.age u).offset ≤ off ∨ s.mayShorten u then off else (s.age u).offset,
        heldOff := if (s.age u).offset ≤ off ∨ s.mayShorten u then none else some off,
        floor := if (s.age u).floor ≤ Nat.min fl s.otp.sh.vfloorMax ∨ s.mayShorten u then Nat.min fl s.otp.sh.vfloorMax else (s.age u).floor,
        heldFloor := if (s.age u).floor ≤ Nat.min fl s.otp.sh.vfloorMax ∨ s.mayShorten u then none
          else some (Nat.min fl s.otp.sh.vfloorMax) } := by
  let t1 := (s.setAge u { s.age u with tdrift := d }).writeAge u off (Nat.min fl s.otp.sh.vfloorMax)
  have ht : s.temperWritten u off fl d = { t1 with fq := (s.temperWritten u off fl d).fq } := by
    simp only [State.temperWritten]
    split <;> rfl
  obtain ⟨hne, hsame⟩ := (s.setAge u { s.age u with tdrift := d }).writeAge_age u off (Nat.min fl s.otp.sh.vfloorMax)
  have hmay : (s.setAge u { s.age u with tdrift := d }).mayShorten u = s.mayShorten u := rfl
  rw [State.age_setAge_same, hmay] at hsame
  have hage (w : Nat) : (s.temperWritten u off fl d).age w = t1.age w := by rw [ht]; rfl
  refine ⟨fun w hw => ?_, ?_, ?_⟩
  · rw [hage, hne w hw, State.age_setAge_ne _ _ hw]
  · have h1 : t1.pwr.fwd = t1.fwdNow := (State.forward_fwd _).trans (State.forward_fwdNow _).symm
    rw [ht]
    exact h1
  · rw [hage]
    exact hsame

end Sys2Proof.Machine
end

section
open Sys2Proof Sys2Proof.Machine

/-- Settles O49: each command's result through what it leaves of the unit, the pass and the fault queue. -/
theorem ageingAndTempering : Obligations.AgeingAndTempering := by
  intro s u u7 v hans hslab hu7 a mine recorded
  have hby : s.byMgmt .mgmt = true := by simp [State.byMgmt, hans]
  obtain ⟨hinit, -, -, hps⟩ : s.boot.init = false ∧ s.boot.cold = false ∧ s.boot.blk = false ∧ s.pwr.ps < 2 := by
    simpa [State.answers, and_assoc] using hans
  have hu72 : ¬ 72 ≤ u7.toNat := by rw [hu7]; exact Nat.not_le.mpr u.isLt
  refine ⟨fun hmine => ?_, fun hmine => ?_, fun hshort => ?_, fun hshort => ?_, fun rcount temp => ?_, fun hbusy => ?_, fun hbusy hu => ⟨?_, ?_⟩,
    fun htrans m => ?_, fun hmine htrans => ⟨fun m => ?_, ?_⟩, fun hmine => ?_, fun hready hres hunit => ?_, fun hready => ?_⟩
  · obtain ⟨hne, hfwd, hsame⟩ := s.temperWritten_spec u.val (fld v.toNat 4 0) (fld v.toNat 14 5) (sext 11 (fld v.toNat 25 15))
    have hoff : fld v.toNat 4 0 = v.toNat % 32 := rfl
    have hfl : fld v.toNat 14 5 = v.toNat / 32 % 1024 := congrArg (· % 1024) (Nat.shiftRight_eq_div_pow v.toNat 5)
    have hd : sext 11 (fld v.toNat 25 15) = sext 11 (v.toNat / 2 ^ 15) := by rw [fld, Nat.shiftRight_eq_div_pow]; simp [sext]
    refine ⟨_, s.exec_temperWrite u v hans hslab hmine, hne, by rw [hsame, hd], ⟨fun h => ?_, fun h hs => ?_⟩, ?_, hfwd⟩
    · rw [hsame, hoff]
      exact ⟨if_pos (.inl h), if_pos (.inl h)⟩
    · rw [hsame, hoff]
      have : ¬ (a.offset ≤ v.toNat % 32 ∨ s.mayShorten u.val = true) := by simp [hs, h]
      exact ⟨if_neg this, if_neg this⟩
    · intro fl
      rw [hsame, hfl]
      refine ⟨fun h => ⟨if_pos (.inl h), if_pos (.inl h)⟩, fun h hs => ?_⟩
      have : ¬ (a.floor ≤ fl ∨ s.mayShorten u.val = true) := by simp [hs, h]
      exact ⟨if_neg this, if_neg this⟩
  · have hbusy : (s.temper.busy && s.temper.unit == u.val) = true := by simpa using hmine
    simp [exec, execTemperWrite, hbusy]
  · simp [exec, execHeldShorteningApply, hshort]
  · refine ⟨_, if_pos hshort, ?_⟩
    rw [State.forward_age, State.age_setAge_same]
  · intro due
    refine ⟨fun hdue fails => ?_, fun hdue => ?_, fun hdue hmine hfull => ?_⟩
    · have hdue' : s.due ((s.age u.val).meas + s.us 1000) = false := hdue
      simp [exec, execPatinaMeasurement, hdue']
    · obtain ⟨b, hb⟩ := s.patinaTold_age (s.measured u rcount temp) u
      rw [State.measured_age] at hb
      refine ⟨_, s.exec_patina u rcount temp false hinit hps hdue, ?_⟩
      rw [if_neg Bool.false_ne_true, hb]
      exact ⟨rfl, rfl, rfl, fun hbase => s.driftOf_none _ _ _ hbase⟩
    · obtain ⟨hfq, hage⟩ := (s.measured u rcount temp).canary_raises u hmine
        ((by simp only [State.codeFull, State.measured_age]; rfl : (s.measured u rcount temp).codeFull u = s.codeFull u).trans hfull)
      obtain ⟨b, hb⟩ := s.patinaTold_age ((s.measured u rcount temp).canary u) u
      rw [hage, State.measured_age] at hb
      refine ⟨_, s.exec_patina u rcount temp true hinit hps hdue, ?_⟩
      rw [if_pos rfl]
      refine ⟨by rw [hb], by rw [hb], by rw [hb], fun htold hauto => ?_⟩
      obtain ⟨ht, f, hcode, hf⟩ := s.patinaTold_third ((s.measured u rcount temp).canary u) u (by rw [hage, State.measured_age]; exact htold)
        (by
          rw [hage, State.measured_age]
          exact Nat.le_min.mpr ⟨by decide, Nat.succ_le_succ hauto⟩)
      exact ⟨ht, f, hcode, hf.trans (by rw [hfq]; rfl)⟩
  · simp [exec, execTmpcmdMeasure, hby, hbusy, hu7, Nat.not_le.mpr u.isLt]
  · intro hst
    have hcond : ¬ (u7.toNat < 68 ∧ (s.role u7.toNat).st ≠ .spare ∧ (s.role u7.toNat).st ≠ .tempering) := by
      rw [hu7]
      rintro ⟨-, h1, h2⟩
      exact hst.elim h1 h2
    have hlt : u7.toNat < 68 := by rw [hu7]; exact hu
    have hexec : exec (.tmpcmdMeasure .mgmt u7) s = .next (({ s with temper := { busy := true, unit := u7.toNat, last := u7.toNat } } : State).setRole
        u7.toNat { s.role u7.toNat with st := .tempering }) := by
      simp only [exec, execTmpcmdMeasure, hby, hbusy, decide_eq_false hu72, Bool.not_true, Bool.or_self, Bool.false_eq_true, if_false]
      rw [if_neg hcond, if_pos hlt]
    exact ⟨_, hexec, rfl, hu7, hu7, by rw [State.role_setRole, hu7, if_pos rfl]⟩
  · intro h1 h2
    have hcond : u7.toNat < 68 ∧ (s.role u7.toNat).st ≠ .spare ∧ (s.role u7.toNat).st ≠ .tempering := by
      rw [hu7]
      exact ⟨hu, h1, h2⟩
    have hexec : exec (.tmpcmdMeasure .mgmt u7) s
        = .next { s with temper := { s.temper with result := 1, unit := u7.toNat, last := u7.toNat, ready := false } } := by
      simp only [exec, execTmpcmdMeasure, hby, hbusy, decide_eq_false hu72, Bool.not_true, Bool.or_self, Bool.false_eq_true, if_false]
      rw [if_pos hcond]
    exact ⟨_, hexec, rfl, hu7, hbusy, rfl⟩
  · simp [exec, execMarginSearchComplete, htrans]
  · obtain ⟨hbusy, hunit⟩ := hmine
    intro fl
    have hguard : (!s.temper.busy || s.pwr.trans) = false := by rw [hbusy, htrans]; rfl
    refine ⟨fun hfl => ?_, fun hfl => ?_⟩
    · simp only [exec, execMarginSearchComplete, hguard, hunit, Bool.false_eq_true, if_false]
      exact if_neg (Nat.not_lt.mpr hfl)
    · obtain ⟨htemper, -, hrec, -⟩ := s.searchFail_spec 4
      refine ⟨s.searchFail 4, ?_, by rw [htemper], hrec⟩
      simp only [exec, execMarginSearchComplete, hguard, hunit, Bool.false_eq_true, if_false]
      exact if_pos hfl
  · obtain ⟨hbusy, hunit⟩ := hmine
    obtain ⟨htemper, hages, hrec, hrole⟩ := s.searchFail_spec 3
    rw [hunit] at hrole
    refine ⟨s.searchFail 3, ?_, by rw [htemper], by rw [htemper], hrec, fun hu => ⟨by rw [hrole hu], by rw [hrole hu]⟩, hages⟩
    simp [exec, execMarginSearchComplete, hbusy, htrans]
  · obtain ⟨hbusy, hunit⟩ := hmine
    have hexec : exec (.tmpcmdAbort .mgmt u7) s = .next ({ s with temper := { s.temper with last := u7.toNat } } : State).endTemper := by
      simp [exec, execTmpcmdAbort, hby, hbusy, hunit, hu7]
    refine ⟨_, hexec, ?_⟩
    simp only [State.endTemper, hbusy, hunit, Bool.not_true, Bool.false_eq_true, if_false]
    split
    · exact ⟨rfl, rfl, fun _ => by rw [State.role_setRole, if_pos rfl], rfl⟩
    · next h => exact ⟨rfl, rfl, fun hlt => absurd hlt h, rfl⟩
  · have hexec := s.exec_tmpcmdCommit u7 hby hready hres (hunit.trans hu7.symm)
    rw [hu7] at hexec
    by_cases hu : u.val < 68
    · rw [if_pos hu] at hexec
      obtain ⟨hr, hst, hage⟩ := s.commitSlab_spec u.val
      refine ⟨_, hexec, hr, by rw [hage]; rfl, by rw [hage]; rfl, by rw [hage]; rfl, fun _ => ⟨by rw [hage], by rw [hage], hst⟩,
        fun h => absurd hu (Nat.not_lt.mpr h), fun h => absurd hu (Nat.not_lt.mpr h)⟩
    · rw [if_neg hu] at hexec
      obtain ⟨hr, fl, h, hage⟩ := s.commitHub_spec u.val
      refine ⟨_, hexec, hr, by rw [hage]; rfl, by rw [hage]; rfl, by rw [hage]; rfl, fun h => absurd h hu, fun _ hle => ?_, fun _ hlt => ?_⟩
      · rw [hage, if_pos hle, if_pos hle]
        exact ⟨rfl, rfl⟩
      · rw [hage, if_neg (Nat.not_le.mpr hlt), if_neg (Nat.not_le.mpr hlt)]
        exact ⟨rfl, rfl⟩
  · simp [exec, execTmpcmdCommit, hready]
end

section
/-! Limits, the pace governor, sensors and the quench (R51 to R53, R422 to R426, R503). -/

namespace Sys2Proof.Machine

/-! ### The pace governor -/

/-- A pace level found is the lowest from `k0` that meets R52. -/
theorem paceLevel_some {ceil demand k0 k : Nat} (h : paceLevel ceil demand k0 = some k) :
    meetsR52 ceil demand k = true ∧ k0 ≤ k ∧ k < 16 ∧ ∀ j, k0 ≤ j → j < k → meetsR52 ceil demand j = false := by
  obtain ⟨hp, hmem, hlow⟩ := List.find?_range_eq_some.mp h
  obtain ⟨hle, hmeets⟩ := Bool.and_eq_true_iff.mp hp
  refine ⟨hmeets, of_decide_eq_true hle, List.mem_range.mp hmem, fun j hj hlt => ?_⟩
  simpa [hj] using hlow j hlt

theorem paceLevel_none {ceil demand k0 : Nat} (h : paceLevel ceil demand k0 = none) (j : Nat) (hj : k0 ≤ j) (hj16 : j < 16) :
    meetsR52 ceil demand j = false := by
  have := List.find?_eq_none.mp h j (List.mem_range.mpr hj16)
  simpa [hj] using this

/-- What a window's end sets (R53). -/
theorem State.exec_paceWindowEnd (s : State) (beats want : List W32) (hinit : s.boot.init = false) (hps : s.pwr.ps = 0)
    (hdue : s.paceDue (s.pwr.winAt + s.us 1) = true) :
    let n : Nat × Bool :=
      match if s.pwr.holdNext then none else paceLevel s.ceiling (s.powerOf (want.map (·.toNat))) (s.pwr.level - 1) with
      | some k => (k, false)
      | none => (15, true)
    ∃ w, exec (.paceWindowEnd beats want) s = .next { s with pwr := { s.pwr with
      ceilWin := s.ceiling, est := BitVec.ofNat 16 (Nat.min 65535 (s.powerOf (beats.map (·.toNat)))), windows := w, level := n.1, hold := n.2,
      holdNext := false, winAt := s.aon.tb, chkAt := s.aon.tb, chkN := 0 } } := by
  have hguard : ¬ (s.boot.init || decide (2 ≤ s.pwr.ps) || !s.paceDue (s.pwr.winAt + s.us 1)) = true := by simp [hinit, hps, hdue]
  exact ⟨_, if_neg hguard⟩

/-- What a check sets (R53). -/
theorem State.exec_paceCheck (s : State) (beats want : List W32) (hinit : s.boot.init = false) (hps : s.pwr.ps = 0)
    (hdue : s.paceDue (s.pwr.chkAt + s.ns 125) = true) :
    exec (.paceCheck beats want) s =
      if s.powerOf (s.toWindow beats) ≤ 8 * s.pwr.ceilWin then .next { s with pwr := { s.pwr with chkAt := s.aon.tb, chkN := s.pwr.chkN + 1 } }
      else match paceLevel s.pwr.ceilWin (s.powerOf (s.toWindow want)) s.pwr.level with
        | some k => .next { s with pwr := { s.pwr with chkAt := s.aon.tb, chkN := s.pwr.chkN + 1, level := k } }
        | none => .next { s with pwr := { s.pwr with chkAt := s.aon.tb, chkN := s.pwr.chkN + 1, level := 15, holdNext := true } } := by
  have hguard : ¬ (s.boot.init || decide (2 ≤ s.pwr.ps) || !s.paceDue (s.pwr.chkAt + s.ns 125)) = true := by simp [hinit, hps, hdue]
  simp only [exec, execPaceCheck]
  exact if_neg hguard

/-! ### The quench -/

theorem State.endTemper_fq (s : State) : s.endTemper.fq = s.fq ∧ s.endTemper.pwr = s.pwr := by
  simp only [State.endTemper]
  repeat' split
  all_goals exact ⟨rfl, rfl⟩

/-- The block once it quenches (R425). -/
theorem State.quenchNow_spec (s : State) (inval : Bool) : (s.quenchNow inval).pwr.quench = true ∧ (s.quenchNow inval).pwr.cool = false
    ∧ (s.quenchNow inval).pwr.inval = inval ∧ (s.quenchNow inval).pwr.trips = Nat.min 65535 (s.pwr.trips + 1)
    ∧ (s.quenchNow inval).pwr.fwd = (s.quenchNow inval).floor
    ∧ ∃ f : FRec, f.code = 0x72 ∧ f.act = 4 ∧ f.esc = true ∧ (s.quenchNow inval).fq.offered = s.fq.offered ++ [f] := by
  obtain ⟨hfq, hpwr⟩ := s.endTemper_fq
  simp only [State.quenchNow]
  generalize ht : State.offer _ _ = t
  have hq : t.pwr.quench = true := by rw [← ht]; rfl
  have hcool : t.pwr.cool = false := by rw [← ht]; rfl
  have hinval : t.pwr.inval = inval := by rw [← ht]; rfl
  have htrips : t.pwr.trips = Nat.min 65535 (s.pwr.trips + 1) := by rw [← ht, ← hpwr]; rfl
  have hf : ∃ f : FRec, f.code = 0x72 ∧ f.act = 4 ∧ f.esc = true ∧ t.fq.offered = s.fq.offered ++ [f] := by
    rw [← ht, ← hfq]
    exact ⟨_, rfl, rfl, rfl, rfl⟩
  have hkeep : t.forward.pwr.cool = false ∧ t.forward.pwr.inval = t.pwr.inval ∧ t.forward.pwr.trips = t.pwr.trips := by
    simp only [State.forward]
    split
    · exact ⟨hcool, rfl, rfl⟩
    · refine ⟨?_, rfl, rfl⟩
      simp [State.settle, hcool]
  refine ⟨t.forward_pwr.1.trans hq, hkeep.1, hkeep.2.1.trans hinval, hkeep.2.2.trans htrips, ?_, ?_⟩
  · have hnow : t.forward.fwdNow = t.forward.floor := if_pos (by simp [t.forward_pwr.1.trans hq])
    rw [State.forward_fwd, ← t.forward_fwdNow, hnow]
  · rw [State.forward_fq]
    exact hf

/-! ### Sensors -/

/-- Held arm bits touch the sensor comparators alone (R447). -/
theorem State.armSc_eq (s : State) : s.armSc = { s with aon := { s.aon with sc := s.armSc.aon.sc } } := by
  have hfold : ∀ (l : List Nat) (s : State) (f : State → Nat → State),
      (∀ t k, f t k = { t with aon := { t.aon with sc := (f t k).aon.sc } }) →
      l.foldl f s = { s with aon := { s.aon with sc := (l.foldl f s).aon.sc } } := by
    intro l
    induction l with
    | nil => intro s f _; rfl
    | cons k l ih =>
      intro s f hf
      rw [List.foldl_cons, ih (f s k) f hf]
      rw [hf s k]
  refine hfold _ s _ fun t k => ?_
  dsimp only
  split
  · split <;> rfl
  · rfl

theorem State.settle_eq (s : State) : s.settle = { s with pwr := s.settle.pwr, aon := { s.aon with venv := s.settle.aon.venv, vOut := s.settle.aon.vOut } } :=
  rfl

theorem State.sensor_settle (s : State) (k : Nat) : s.settle.sensor k = s.sensor k := rfl

theorem State.sensor_armSc (s : State) (k : Nat) : s.armSc.sensor k = s.sensor k := by
  rw [State.armSc_eq]
  rfl

/-- Reading a sensor source after one has been written. -/
theorem sensor_set (s : State) (src k : Nat) (y : Sensor) :
    ({ s with aon := { s.aon with sens := Sp.set {} s.aon.sens src y } } : State).sensor k = if k = src then y else s.sensor k :=
  Sp.get_set ({} : Sensor) s.aon.sens src k y

end Sys2Proof.Machine
end

section
open Sys2Proof Sys2Proof.Machine

/-- Settles O48: the request follows its clamps, a pace level is found by the first that meets R52, a trip is one quench. -/
theorem powerPaceAndHeat : Obligations.PowerPaceAndHeat := by
  intro s v hinit hcold hblk hps
  have hby : s.byMgmt .mgmt = true := by simp [State.byMgmt, State.answers, hinit, hcold, hblk, hps]
  refine ⟨?_, fun hle => ?_, fun beats want => ⟨fun hdue => ?_, fun hdue => ?_⟩, fun beats want => ⟨fun hdue => ?_, fun hdue => ?_⟩,
    ⟨fun h n => ?_, fun h n => ?_⟩, fun src x => ⟨fun h => ⟨?_, ?_⟩, fun h => ⟨?_, fun hseen hstale hdue => ?_⟩⟩, fun h hq hh hle => ?_, fun hq => ?_,
    fun t0 h0 hcool hdue => ?_, fun hq => ⟨fun hcool => ?_, fun hcool => ?_⟩⟩
  · let t := ({ s with pwr := { s.pwr with req := v.toNat % 1024 } } : State).forward
    have hmax : t.vmaxEff = s.vmaxEff := by
      simp only [t]
      rw [State.forward_eq]
      rfl
    have hexec : exec (.vreqWrite .mgmt v) s = .next (if s.vmaxEff < v.toNat % 1024 then t.clamped else t) := by
      rw [← hmax]
      simp only [exec, execVreqWrite, hby, Bool.not_true, Bool.false_eq_true, if_false]
      rfl
    have hpwr : (if s.vmaxEff < v.toNat % 1024 then t.clamped else t).pwr = t.pwr := by split <;> rfl
    obtain ⟨-, -, hreq⟩ := State.forward_pwr { s with pwr := { s.pwr with req := v.toNat % 1024 } }
    have hfwd := State.forward_fwd { s with pwr := { s.pwr with req := v.toNat % 1024 } }
    refine ⟨_, hexec, by rw [hpwr]; exact hreq, fun hq => ?_, fun hq => ?_, fun hlt => ?_, fun hle => ?_⟩
    · rw [hpwr]
      refine hfwd.trans (if_neg ?_)
      simp [hq, hps]
    · rw [hpwr]
      refine hfwd.trans (if_pos ?_)
      simp [hq]
    · rw [if_pos hlt]
      have hfq : t.fq = s.fq := State.forward_fq _
      exact ⟨_, rfl, by rw [← hfq]; rfl⟩
    · rw [if_neg (Nat.not_lt.mpr hle)]
      exact State.forward_fq _
  · have hlt : ¬ s.ceilTop < v.toNat % 1024 := Nat.not_lt.mpr hle
    simp only [exec, execCeilreqWrite, hby, hlt, Bool.not_true, Bool.false_eq_true, if_false]
  · simp [exec, execPaceWindowEnd, hdue]
  · intro demand
    obtain ⟨w, hexec⟩ := s.exec_paceWindowEnd beats want hinit hps hdue
    refine ⟨_, hexec, rfl, rfl, rfl, rfl, rfl, rfl, rfl, rfl, ?_⟩
    cases hn : s.pwr.holdNext with
    | true => exact ⟨nofun, fun _ => ⟨rfl, .inl rfl⟩, fun _ => rfl⟩
    | false =>
      simp only [Bool.false_eq_true, if_false]
      cases hlev : paceLevel s.ceiling demand (s.pwr.level - 1) with
      | some k =>
        obtain ⟨hmeets, hle, hlt, hlow⟩ := paceLevel_some hlev
        exact ⟨fun _ => ⟨hmeets, hle, hlt, hlow⟩, nofun, nofun⟩
      | none =>
        have hnone := fun j => paceLevel_none hlev j
        exact ⟨nofun, fun _ => ⟨rfl, .inr hnone⟩, nofun⟩
  · simp [exec, execPaceCheck, hdue]
  · intro after demand
    have hexec := s.exec_paceCheck beats want hinit hps hdue
    refine ⟨fun hle => hexec.trans (if_pos hle), fun hlt => ?_⟩
    rw [if_neg (Nat.not_le.mpr hlt)] at hexec
    cases hlev : paceLevel s.pwr.ceilWin (s.powerOf (s.toWindow want)) s.pwr.level with
    | some k =>
      obtain ⟨hmeets, hle, hk, hlow⟩ := paceLevel_some hlev
      rw [hlev] at hexec
      exact .inl ⟨k, hle, Nat.le_of_lt_succ hk, hmeets, hlow, hexec⟩
    | none =>
      rw [hlev] at hexec
      exact .inr ⟨fun j => paceLevel_none hlev j, hexec⟩
  · simp [State.paceDue, h]
  · simp [State.paceDue, State.due, h]
  · exact if_pos h
  · exact if_pos h
  · let y : Sensor := { val := x, seen := true, stale := false, time := s.aon.tb,
                        bad := if tempValid x || src.toNat == 8 then none else some ((s.sensor src.toNat).bad.getD s.aon.tb) }
    let t : State := { s with aon := { s.aon with sens := Sp.set {} s.aon.sens src.toNat y } }
    have hexec : exec (.sensorReading src x) s = .next t.settle.armSc := by
      simp only [exec, execSensorReading]
      rw [if_neg (Nat.not_lt.mpr h), hcold]
      rfl
    have hread (k : Nat) : t.settle.armSc.sensor k = if k = src.toNat then y else s.sensor k := by
      rw [State.sensor_armSc, State.sensor_settle]
      exact sensor_set s src.toNat k y
    refine ⟨_, hexec, ?_, ?_, ?_, ?_, fun k hk => by rw [hread, if_neg hk], by rw [State.armSc_eq]; rfl⟩
    all_goals rw [hread, if_pos rfl]
  · have hexec : exec (.sensorStale src) s = .next ({ s with aon := { s.aon with
        sens := Sp.set {} s.aon.sens src.toNat { s.sensor src.toNat with stale := true } } } : State).settle := by
      simp only [exec, execSensorStale]
      rw [if_neg (Nat.not_lt.mpr h), hseen, hstale, hdue]
      rfl
    refine ⟨_, hexec, ?_⟩
    rw [State.sensor_settle, sensor_set, if_pos rfl]
  · obtain ⟨hquench, hcool, hinval, htrips, hfwd, hrec⟩ := s.quenchNow_spec false
    have hexec : exec .thermalTrip s = .next (s.quenchNow false) := by
      simp [exec, execThermalTrip, hcold, hq, hps, hh, hle]
    exact ⟨_, hexec, hquench, hcool, hinval, htrips, hfwd, by simp [State.running, hquench], hrec⟩
  · simp [exec, execThermalTrip, hq]
  · simp [exec, execCoolCondition, h0, hcool, hdue]
  · simp [exec, execQcmdResume, hcool]
  · let t : State := { s with pwr := { s.pwr with quench := false, resuming := true } }
    have hexec : exec (.qcmdResume .mgmt) s = .next t.forward.settle := if_pos (by simp [hby, hq, hcool])
    have hfwd : t.fwdNow = Nat.max s.floor (Nat.min s.pwr.req s.vmaxEff) := if_neg (by simp [t, hps])
    exact ⟨_, hexec, t.forward_pwr.1, t.forward_fwd.trans hfwd⟩
end

section
/-! The power states (R449 to R455, R504). -/

namespace Sys2Proof.Machine

/-! ### Folds and sparse stores -/

/-- What every step of a fold leaves, the fold leaves. -/
theorem foldl_leaves {α β γ : Type} (p : α → γ) {f : α → β → α} (h : ∀ a b, p (f a b) = p a) (l : List β) (a : α) :
    p (l.foldl f a) = p a := by
  induction l generalizing a with
  | nil => rfl
  | cons b l ih => rw [List.foldl_cons, ih, h]

/-- Reading a store whose values are mapped. -/
theorem Sp.get_map {α : Type} (d : α) (g : α → α) (h : g d = d) (j : Nat) : ∀ m : Sp α,
    Sp.get d (m.map fun c => (c.1, g c.2)) j = g (Sp.get d m j)
  | [] => h.symm
  | (a, v) :: m => by
    simp only [List.map_cons, Sp.get]
    split
    · rfl
    · exact Sp.get_map d g h j m

/-- Reading a store of which the keys that meet `p` are kept. -/
theorem Sp.get_filter {α : Type} (d : α) (p : Nat → Bool) (j : Nat) : ∀ m : Sp α,
    Sp.get d (m.filter fun c => p c.1) j = if p j then Sp.get d m j else d
  | [] => by simp [Sp.get]
  | (a, v) :: m => by
    have ih := Sp.get_filter d p j m
    by_cases ha : p a = true
    · rw [List.filter_cons_of_pos (p := fun c : Nat × α => p c.1) ha]
      simp only [Sp.get]
      by_cases haj : a = j
      · rw [if_pos haj, if_pos haj, ← haj, if_pos ha]
      · rw [if_neg haj, if_neg haj, ih]
    · rw [List.filter_cons_of_neg (p := fun c : Nat × α => p c.1) ha, ih]
      by_cases haj : a = j
      · rw [← haj, if_neg ha, if_neg ha]
      · simp only [Sp.get, if_neg haj]

/-- With nothing waiting, a step is the idle step (log 50). -/
theorem step_idle (s : State) (hp : s.pending = []) (ht : s.treqs = []) : step s = .next (idle s) := by
  have hreqs : (idle s).treqs = [] := by rw [idle_eq]; exact ht
  simp [step, hp, idleStep, hreqs, State.pumpTarget]

/-! ### Requests -/

section
variable {s : State} (hby : s.byMgmt .mgmt = true) (hstep : s.pwr.step = .none_)
include hby hstep

/-- A request is refused while work is in progress (R450). -/
theorem State.psRequest_refused (deep : Bool) (f : State → State)
    (h : (s.pwr.quench || s.busyWork || (deep && s.busyDeep)) = true) :
    s.psRequest .mgmt deep f = { s with pwr := { s.pwr with psResult := 1 } } := by
  simp only [State.psRequest]
  rw [if_neg (by simp [hby, hstep]), if_pos h]

/-- A request is accepted otherwise. -/
theorem State.psRequest_accepted (deep : Bool) (f : State → State)
    (h : (s.pwr.quench || s.busyWork || (deep && s.busyDeep)) = false) :
    s.psRequest .mgmt deep f = f { s with pwr := { s.pwr with psResult := 0 } } := by
  simp only [State.psRequest]
  rw [if_neg (by simp [hby, hstep]), if_neg (by simp [h])]

end

/-- Forwarding keeps the power state and the last request's result. -/
theorem State.forward_ps (s : State) : s.forward.pwr.ps = s.pwr.ps ∧ s.forward.pwr.psResult = s.pwr.psResult := by
  simp only [State.forward]
  split <;> exact ⟨rfl, rfl⟩

/-! ### Waking -/

theorem State.loadOtp_spec (s : State) : s.loadOtp.otp.sh = otpShadow s.otp.arr ∧ s.loadOtp.boot = s.boot := by
  simp only [State.loadOtp]
  constructor
  · rw [foldl_leaves State.otp]
    exact fun _ _ => rfl
  · rw [foldl_leaves State.boot]
    exact fun _ _ => rfl

/-- Taps are loaded into the ageing state alone. -/
theorem State.loadTaps_leaves {γ : Type} (p : State → γ) (h : ∀ (t : State) a, p { t with ages := a } = p t) (s : State) : p s.loadTaps = p s :=
  (foldl_leaves p (fun _ _ => h _ _) _ _).trans (h s [])

/-- A block reset keeps the OTP; its cores are reset and its initialisation is to come (R478). -/
theorem State.blockReset_spec (s : State) (cause : Nat) : (s.blockReset cause).otp = s.otp ∧ (s.blockReset cause).boot.init = true
    ∧ (s.blockReset cause).boot.cause = cause ∧ (s.blockReset cause).cores = [] := ⟨rfl, rfl, rfl, rfl⟩

/-- A wake from deep sleep acts as a block reset with CAUSE 3 on a reloaded shadow (R454). -/
theorem State.wakeOn_deep (s : State) (h : s.pwr.target = 3) : s.wakeOn.pwr.on = true ∧ s.wakeOn.pwr.step = .waking
    ∧ s.wakeOn.boot.init = true ∧ s.wakeOn.boot.cause = 3 ∧ s.wakeOn.otp.sh = otpShadow s.otp.arr ∧ s.wakeOn.cores = [] := by
  simp only [State.wakeOn, if_pos h]
  obtain ⟨hotp, hinit, hcause, hcores⟩ := s.loadOtp.blockReset_spec 3
  generalize s.loadOtp.blockReset 3 = u at hotp hinit hcause hcores ⊢
  have hb : ({ u with ages := [] } : State).loadTaps.boot = u.boot := State.loadTaps_leaves State.boot (fun _ _ => rfl) _
  have ho : ({ u with ages := [] } : State).loadTaps.otp = u.otp := State.loadTaps_leaves State.otp (fun _ _ => rfl) _
  have hc : ({ u with ages := [] } : State).loadTaps.cores = u.cores := State.loadTaps_leaves State.cores (fun _ _ => rfl) _
  generalize ({ u with ages := [] } : State).loadTaps = t at hb ho hc ⊢
  exact ⟨rfl, rfl, by rw [← hinit, ← hb]; rfl, by rw [← hcause, ← hb]; rfl, by rw [← s.loadOtp_spec.1, ← hotp, ← ho]; rfl, hc.trans hcores⟩

theorem State.wakeOn_retention (s : State) (h : s.pwr.target ≠ 3) : s.wakeOn = { s with pwr := { s.pwr with
    step := .waking, on := true, fwd := s.fwdActive, trans := true, ceilWin := Nat.max 200 s.otp.sh.pceil } } := by
  simp only [State.wakeOn, if_neg h]
  rfl

/-! ### The initialisation -/

theorem State.mapSlabs_leaves {γ : Type} (p : State → γ) (hrole : ∀ (t : State) l r, p (t.setRole l r) = p t)
    (hmap : ∀ (t : State) m, p { t with lmap := m } = p t) (hroles : ∀ (t : State) r, p { t with roles := r } = p t) (s : State) :
    p s.mapSlabs = p s := by
  have h := foldl_leaves (fun x : State × Nat => p x.1) (f := fun (x : State × Nat) q =>
    let r := roleAfter (Sp.get 2 s.otp.sh.roles q) x.2
    let t := x.1.setRole q r.1
    (match r.1.logical with
      | some l => { t with lmap := Sp.set none t.lmap l (some q) }
      | none => t, r.2)) (fun x q => by
        dsimp only
        split
        · rw [hmap, hrole]
        · rw [hrole]) (List.range 68) ({ s with roles := [], lmap := [] }, 0)
  exact h.trans ((hmap { s with roles := [] } []).trans (hroles s []))

theorem State.loadBypass_leaves {γ : Type} (p : State → γ) (h : ∀ (t : State) c f, p (t.updSt c f) = p t) (s : State) : p s.loadBypass = p s :=
  foldl_leaves p (fun _ _ => h _ _ _) _ s

/-- The initialisation begins: the slabs are mapped, and taps and bypasses loaded (R480). -/
theorem State.startInit_spec (s : State) : s.startInit.pwr = s.pwr ∧ s.startInit.boot = { s.boot with initRun := true } := by
  have hpwr : (s.mapSlabs.loadTaps.loadBypass).pwr = s.pwr := by
    rw [State.loadBypass_leaves State.pwr (fun _ _ _ => rfl), State.loadTaps_leaves State.pwr (fun _ _ => rfl)]
    exact State.mapSlabs_leaves State.pwr (fun _ _ _ => rfl) (fun _ _ => rfl) (fun _ _ => rfl) s
  have hboot : (s.mapSlabs.loadTaps.loadBypass).boot = s.boot := by
    rw [State.loadBypass_leaves State.boot (fun _ _ _ => rfl), State.loadTaps_leaves State.boot (fun _ _ => rfl)]
    exact State.mapSlabs_leaves State.boot (fun _ _ _ => rfl) (fun _ _ => rfl) (fun _ _ => rfl) s
  exact ⟨hpwr, congrArg (fun b => ({ b with initRun := true } : Boot)) hboot⟩

/-! ### Retention -/

/-- A log entry leaves the watchdog and the run of the management core. -/
theorem State.log_mgmt (s : State) (type : Nat) (esc : Bool) (p : List Nat) :
    (s.log type esc p).mgmt.wdKick = s.mgmt.wdKick ∧ (s.log type esc p).mgmt.run = s.mgmt.run := by
  dsimp only [State.log]
  split
  · exact ⟨rfl, rfl⟩
  split
  · split <;> exact ⟨rfl, rfl⟩
  · dsimp only [State.logPut]
    split
    · rw [State.irq_eq]
      exact ⟨rfl, rfl⟩
    · exact ⟨rfl, rfl⟩

/-- What retention leaves of a core (Table 2). -/
theorem State.core_afterRetention (s : State) (c : Nat) : s.afterRetention.core c = coreAfterRetention (s.core c) :=
  Sp.get_map ({} : Core) coreAfterRetention rfl c s.cores

theorem State.age_afterRetention (s : State) (u : Nat) : s.afterRetention.age u = ageAfterRetention (s.age u) :=
  Sp.get_map ({} : UnitAge) ageAfterRetention rfl u s.ages

theorem State.reg_afterRetention (s : State) (o : Nat) :
    s.afterRetention.reg o = if 0x00100000 ≤ o ∧ o < 0x00800000 then s.reg o else regReset o := by
  have h := Sp.get_filter (regReset o) (fun x => decide (0x00100000 ≤ x) && decide (x < 0x00800000)) o s.regs
  rw [← Bool.decide_and] at h
  simp only [decide_eq_true_eq] at h
  exact h

end Sys2Proof.Machine
end

section
open Sys2Proof Sys2Proof.Machine

/-- Settles O51: the requests share their refusal; a wake and power-good are read off what each keeps. -/
theorem powerStates : Obligations.PowerStates := by
  intro s hcold hblk
  refine ⟨fun hinit hps hstep => ?_, fun hp ht hstep hpgm hmem => ?_, fun h => ?_, fun h => ?_,
    fun h0 hs => ?_, fun hl h0 => ?_, fun hl => ?_, fun hw => ?_, fun hw hs ht => ?_, fun hw hs ht => ?_, fun hw hs h1 hq => ?_, fun hs h2 hi => ?_,
    fun hs h3 => ?_⟩
  · have hby : s.byMgmt .mgmt = true := by simp [State.byMgmt, State.answers, hinit, hcold, hblk, hps]
    refine ⟨fun h => ?_, fun hq hw => ⟨?_, ?_, fun hd => ?_, fun hd => ?_⟩⟩
    · have hr (deep : Bool) (f : State → State) := State.psRequest_refused hby hstep deep f (by rcases h with h | h <;> simp [h])
      exact ⟨congrArg Host.Outcome.next (hr _ _), congrArg Host.Outcome.next (hr _ _), congrArg Host.Outcome.next (hr _ _), congrArg Host.Outcome.next (hr _ _)⟩
    · have ha (f : State → State) := State.psRequest_accepted hby hstep false f (by simp [hq, hw])
      refine ⟨_, congrArg Host.Outcome.next (ha _), (State.forward_ps _).1, (State.forward_ps _).2, (State.forward_fwd _).trans (if_neg ?_)⟩
      simp [hq]
    · have ha (f : State → State) := State.psRequest_accepted hby hstep false f (by simp [hq, hw])
      exact ⟨_, congrArg Host.Outcome.next (ha _), (State.forward_ps _).1, (State.forward_ps _).2, (State.forward_fwd _).trans (if_pos (by simp))⟩
    · have hr (f : State → State) := State.psRequest_refused hby hstep true f (by simp [hd])
      exact ⟨congrArg Host.Outcome.next (hr _), congrArg Host.Outcome.next (hr _)⟩
    · have ha (f : State → State) := State.psRequest_accepted hby hstep true f (by simp [hq, hw, hd])
      exact ⟨congrArg Host.Outcome.next (ha _), congrArg Host.Outcome.next (ha _)⟩
  · have hentry : (tickEntry (tickIrq (tickTime s))).pwr
        = { s.pwr with step := .offWait false, on := false, ps := s.pwr.target, offAt := (tickIrq (tickTime s)).aon.tb } := by
      have hpwr : (tickIrq (tickTime s)).pwr = s.pwr := by rw [tickIrq_eq, tickTime_eq]
      have hotp : (tickIrq (tickTime s)).otp.pgm = none := by rw [tickIrq_eq, tickTime_eq]; exact hpgm
      have hq : (tickIrq (tickTime s)).memq = [] := by rw [tickIrq_eq, tickTime_eq]; exact hmem
      simp only [tickEntry, hpwr, hstep, hotp, hq]
      rfl
    have hpwr : (idle s).pwr = (tickEntry (tickIrq (tickTime s))).pwr := by
      simp only [idle]
      rw [tickHour_eq]
    have htb : (idle s).aon = (tickIrq (tickTime s)).aon := by
      simp only [idle]
      rw [tickHour_eq, tickEntry_eq]
    exact ⟨idle s, step_idle s hp ht, by rw [hpwr, hentry, htb]⟩
  · have hexec : exec .powerGoodDeassert s
        = .next { s with boot := { s.boot with pgood := false }, pwr := { s.pwr with step := .off } } := by
      simp only [exec, execPowerGoodDeassert, h]
    exact ⟨_, hexec, rfl, rfl, rfl⟩
  · simp only [exec, execHostWake, if_pos h, State.wakeSource]
    rw [if_neg (by omega)]
  · have hwake (f : Aon → Aon) : s.wakeSource f = s := if_pos ⟨h0, by simp [hs]⟩
    refine ⟨?_, ?_⟩
    · simp [exec, execHostWake, h0]
    · simp only [exec, execLinkActivity, hwake, ite_self]
  · simp [exec, execLinkActivity, hl, State.wakeSource, h0]
  · simp [exec, execLinkActivity, hl]
  · simp [exec, execWake, hw]
  · have hexec : exec .wake s = .next ({ s with aon := { s.aon with wakeReq := false } } : State).wakeOn := by
      simp [exec, execWake, hw, hs]
    rw [State.wakeOn_retention _ (by simp [ht])] at hexec
    exact ⟨_, hexec, rfl, rfl, rfl, rfl, rfl, rfl⟩
  · have hexec : exec .wake s = .next ({ s with aon := { s.aon with wakeReq := false } } : State).wakeOn := by
      simp [exec, execWake, hw, hs]
    exact ⟨_, hexec, State.wakeOn_deep _ ht⟩
  · have hexec : exec .wake s = .next ({ s with aon := { s.aon with wakeReq := false }, pwr := { s.pwr with ps := 0, psResult := 0 } } : State).forward := by
      simp [exec, execWake, hw, hs, h1]
    refine ⟨_, hexec, (State.forward_ps _).1, (State.forward_fwd _).trans (if_neg ?_)⟩
    simp [hq]
  · have hexec : exec .powerGood s = .next (({ s with boot := { s.boot with pgood := true } } : State).afterRetention.log 4 false
        [b2n s.aon.wDl + 2 * b2n s.aon.wSc + 4 * b2n s.aon.wHost + 8 * b2n s.aon.wLink + 16 * b2n s.aon.linkWake + 32 * b2n s.aon.vecEn
          + 64 * s.aon.vec]) := by
      simp [exec, execPowerGood, hs, h2, hi]
    generalize [b2n s.aon.wDl + 2 * b2n s.aon.wSc + 4 * b2n s.aon.wHost + 8 * b2n s.aon.wLink + 16 * b2n s.aon.linkWake + 32 * b2n s.aon.vecEn
          + 64 * s.aon.vec] = ws at hexec
    generalize hv : ({ s with boot := { s.boot with pgood := true } } : State) = v at hexec
    have hcore (c : Nat) : v.core c = s.core c := by rw [← hv]; rfl
    have hreg (o : Nat) : v.reg o = s.reg o := by rw [← hv]; rfl
    have hage (u : Nat) : v.age u = s.age u := by rw [← hv]; rfl
    obtain ⟨hkick, hrun⟩ := v.afterRetention.log_mgmt 4 false ws
    refine ⟨_, hexec, ?_, ?_, fun c => ?_, fun o => ?_, ?_, ?_, ?_, fun u => ?_, ?_, ?_⟩
    · rw [State.log_eq]; rfl
    · rw [State.log_eq]; rfl
    · rw [State.log_eq]
      have h := v.core_afterRetention c
      rw [hcore] at h
      change (v.afterRetention.core c).st.ls = _ ∧ (v.afterRetention.core c).rp.store = _ ∧ (v.afterRetention.core c).run = _
      rw [h]
      exact ⟨rfl, rfl, rfl⟩
    · rw [State.log_eq, ← hreg]
      exact v.reg_afterRetention o
    · rw [State.log_eq, ← hv]; rfl
    · rw [State.log_eq, ← hv]; rfl
    · rw [State.log_eq]; rfl
    · rw [State.log_eq]
      have h := v.age_afterRetention u
      rw [hage] at h
      change (v.afterRetention.age u).offset = _ ∧ (v.afterRetention.age u).floor = _ ∧ (v.afterRetention.age u).tdrift = _
        ∧ (v.afterRetention.age u).pend = _ ∧ (v.afterRetention.age u).drift = _ ∧ (v.afterRetention.age u).auto = _
        ∧ (v.afterRetention.age u).heldOff = _
      rw [h]
      exact ⟨rfl, rfl, rfl, rfl, rfl, rfl, rfl⟩
    · rw [hkick, ← hv]; rfl
    · rw [hrun, ← hv]; rfl
  · obtain ⟨hpwr, hboot⟩ := State.startInit_spec { s with boot := { s.boot with pgood := true }, pwr := { s.pwr with ps := 0, target := 0, step := .none_ } }
    have hexec : exec .powerGood s = .next ({ s with
        boot := { s.boot with pgood := true }, pwr := { s.pwr with ps := 0, target := 0, step := .none_ } } : State).startInit := by
      simp [exec, execPowerGood, hs, h3, hblk]
    exact ⟨_, hexec, by rw [hpwr], by rw [hboot], by rw [hboot]⟩
end

section
/-! The OTP (chapter 21) and the resets (chapter 23): bytes programmed into blank bits read back, whatever leaves them outside stays; what each
reset keeps and its release loads (R457 to R463, R478 to R480). -/

namespace Sys2Proof.Machine

/-! ### Bytes read as a number -/

theorem bytesNat_lt : ∀ l : List Byte, bytesNat l < 256 ^ l.length
  | [] => Nat.one_pos
  | b :: l => by
    have hl := bytesNat_lt l
    have hb := b.isLt
    simp only [bytesNat, List.length_cons, Nat.pow_succ] at *
    omega

theorem bytesNat_eq_zero : ∀ {l : List Byte}, bytesNat l = 0 → l.all (· = 0#8) = true
  | [], _ => rfl
  | b :: l, h => by
    simp only [bytesNat] at h
    have hb : b = 0#8 := BitVec.eq_of_toNat_eq (by simp; omega)
    have hl := bytesNat_eq_zero (l := l) (by omega)
    simp [hb, hl]

theorem bytesNat_natBytes : ∀ (n v : Nat), bytesNat (natBytes n v) = v % 256 ^ n
  | 0, v => by simp [natBytes, bytesNat, Nat.mod_one]
  | n + 1, v => by
    rw [natBytes, bytesNat, bytesNat_natBytes n, BitVec.toNat_ofNat, Nat.pow_succ 256, Nat.mul_comm (256 ^ n) 256, Nat.mod_mul]

theorem length_natBytes : ∀ (n v : Nat), (natBytes n v).length = n
  | 0, _ => rfl
  | n + 1, v => congrArg Nat.succ (length_natBytes n (v / 256))

/-- Bytes of a memory that are those of a list read as the list's number. -/
theorem Memory.nat_of_bytes : ∀ (l : List Byte) (m : Memory) (a : Nat),
    (∀ i, i < l.length → Memory.byte m (a + i) = l.getD i 0#8) → Memory.nat m a l.length = bytesNat l
  | [], _, _, _ => rfl
  | b :: l, m, a, h => by
    have h0 : Memory.byte m a = b := h 0 (Nat.zero_lt_succ _)
    have hl := Memory.nat_of_bytes l m (a + 1) (fun i hi => by
      rw [Nat.add_assoc, Nat.add_comm 1]
      exact h (i + 1) (Nat.succ_lt_succ hi))
    rw [List.length_cons, Memory.nat, h0, hl, bytesNat]

/-- A number that reads 0 has no byte set. -/
theorem Memory.byte_of_nat_zero (m : Memory) : ∀ (n a : Nat), Memory.nat m a n = 0 → ∀ i, i < n → Memory.byte m (a + i) = 0#8
  | n + 1, a, h, i, hi => by
    rw [Memory.nat] at h
    match i with
    | 0 => exact BitVec.eq_of_toNat_eq (by simp; omega)
    | i + 1 =>
      have := Memory.byte_of_nat_zero m n (a + 1) (by omega) i (by omega)
      rwa [show a + 1 + i = a + (i + 1) by omega] at this

/-- A part of a number that reads 0 reads 0. -/
theorem Memory.nat_part_zero (m : Memory) (a n j k : Nat) (h : Memory.nat m a n = 0) (hk : j + k ≤ n) : Memory.nat m (a + j) k = 0 := by
  have hz : ∀ (k b : Nat), (∀ i, i < k → Memory.byte m (b + i) = 0#8) → Memory.nat m b k = 0 := by
    intro k
    induction k with
    | zero => exact fun _ _ => rfl
    | succ k ih =>
      intro b hb
      rw [Memory.nat, ih (b + 1) (fun i hi => by rw [Nat.add_assoc, Nat.add_comm 1]; exact hb (i + 1) (by omega))]
      rw [show Memory.byte m b = 0#8 from hb 0 (Nat.zero_lt_succ k)]
      rfl
  refine hz k (a + j) fun i hi => ?_
  rw [Nat.add_assoc]
  exact Memory.byte_of_nat_zero m n a h (j + i) (by omega)

/-! ### The check of a generation -/

theorem guardLoop_lt (v : Nat) : ∀ (n r : Nat), r < 65536 → guardLoop v n r < 65536
  | 0, _, h => h
  | n + 1, r, _ => guardLoop_lt v n _ (Nat.xor_lt_two_pow (n := 16) (Nat.mod_lt _ (by decide)) (by split <;> decide))

theorem guard16_lt (n v : Nat) : guard16 n v < 65536 :=
  Nat.xor_lt_two_pow (n := 16) (guardLoop_lt v n 0 (by decide)) (by decide)

theorem guardLoop_zero : ∀ n, guardLoop 0 n 0 = 0
  | 0 => rfl
  | n + 1 => by
    have h0 : (2 * 0 % 65536 ^^^ if (Nat.testBit 0 15 != Nat.testBit 0 n) = true then 0x8005 else 0) = 0 := by simp
    rw [guardLoop, h0]
    exact guardLoop_zero n

/-- The check of data that are all 0 (R398) is not 0: the generation is programmed. -/
theorem guard16_zero (n : Nat) : guard16 n 0 = 0xFFFF := by rw [guard16, guardLoop_zero, Nat.zero_xor]

/-! ### Programming -/

/-- Setting bits in blank bytes writes the bytes; every other byte stays (R457). -/
theorem byte_foldl_or (a : Nat) : ∀ (l : List Byte) (k : Nat) (m : Memory), (∀ i, i < l.length → Memory.byte m (a + (k + i)) = 0#8) →
    ∀ x, Memory.byte ((l.zipIdx k).foldl (fun m y => Memory.setByte m (a + y.2) (Memory.byte m (a + y.2) ||| y.1)) m) x
      = if a + k ≤ x ∧ x < a + k + l.length then l.getD (x - (a + k)) 0#8 else Memory.byte m x
  | [], k, m, _, x => by rw [if_neg (by simp)]; rfl
  | b :: l, k, m, h, x => by
    have h0 : Memory.byte m (a + k) = 0#8 := h 0 (Nat.zero_lt_succ _)
    have hrest : ∀ i, i < l.length →
        Memory.byte (Memory.setByte m (a + k) (Memory.byte m (a + k) ||| b)) (a + (k + 1 + i)) = 0#8 := fun i hi => by
      rw [Memory.byte_setByte, if_neg (by omega), show k + 1 + i = k + (i + 1) by omega]
      exact h (i + 1) (Nat.succ_lt_succ hi)
    rw [List.zipIdx_cons, List.foldl_cons, byte_foldl_or a l (k + 1) _ hrest, Memory.byte_setByte, h0, List.length_cons]
    rcases Nat.lt_trichotomy x (a + k) with hx | rfl | hx
    · rw [if_neg (by omega), if_neg (by omega), if_neg (by omega)]
    · rw [if_neg (by omega), if_pos rfl, if_pos (by omega), Nat.sub_self]
      exact BitVec.zero_or
    · by_cases hin : x < a + k + (l.length + 1)
      · rw [if_pos (by omega), if_pos (by omega), show x - (a + k) = x - (a + (k + 1)) + 1 by omega]
        rfl
      · rw [if_neg (by omega), if_neg (by omega), if_neg (by omega)]

/-- A generation holds its data and its check (Table 1 of the OTP). -/
theorem otpLen_le_otpSize {f : Nat} (hf : f ≤ 6) : otpLen f + 2 ≤ otpSize f := by
  exact (by decide : ∀ i : Fin 7, otpLen i.val + 2 ≤ otpSize i.val) ⟨f, Nat.lt_succ_of_le hf⟩

theorem otpWrite_eq (m : Memory) (f g : Nat) (data : List Byte) (check : Nat) (hlen : data.length = otpLen f) :
    otpWrite m f g data check = ((data ++ natBytes 2 check).zipIdx 0).foldl (fun m y =>
      Memory.setByte m (otpBase f + g * otpSize f + y.2) (Memory.byte m (otpBase f + g * otpSize f + y.2) ||| y.1)) m := by
  rw [otpWrite, ← hlen, List.take_length, Nat.sub_self, List.replicate_zero, List.append_nil]

section
variable {m : Memory} {f g : Nat} {data : List Byte} {check : Nat} (hf : f ≤ 6) (hlen : data.length = otpLen f)
  (hblank : ∀ i, i < otpSize f → Memory.byte m (otpBase f + g * otpSize f + i) = 0#8)
include hf hlen hblank

/-- The bytes of a generation programmed into blank bits, and all others. -/
theorem byte_otpWrite (x : Nat) : Memory.byte (otpWrite m f g data check) x =
    if otpBase f + g * otpSize f ≤ x ∧ x < otpBase f + g * otpSize f + (otpLen f + 2)
      then (data ++ natBytes 2 check).getD (x - (otpBase f + g * otpSize f)) 0#8 else Memory.byte m x := by
  have hsize := otpLen_le_otpSize hf
  have hl : (data ++ natBytes 2 check).length = otpLen f + 2 := by rw [List.length_append, hlen, length_natBytes]
  have h := byte_foldl_or (otpBase f + g * otpSize f) (data ++ natBytes 2 check) 0 m
    (fun i hi => by rw [Nat.zero_add]; exact hblank i (by omega)) x
  rw [otpWrite_eq m f g data check hlen, h, hl, Nat.add_zero]

theorem byte_otpWrite_outside (x : Nat) (hx : x < otpBase f + g * otpSize f ∨ otpBase f + g * otpSize f + otpSize f ≤ x) :
    Memory.byte (otpWrite m f g data check) x = Memory.byte m x := by
  have hsize := otpLen_le_otpSize hf
  rw [byte_otpWrite hf hlen hblank, if_neg (by omega)]

theorem otpData_otpWrite : otpData (otpWrite m f g data check) f g = bytesNat data := by
  rw [otpData, ← hlen]
  refine Memory.nat_of_bytes data _ _ fun i hi => ?_
  rw [byte_otpWrite hf hlen hblank, if_pos (by omega), Nat.add_sub_cancel_left, List.getD_eq_getElem?_getD,
    List.getElem?_append_left hi, List.getD_eq_getElem?_getD]

theorem otpCheck_otpWrite (hc : check < 65536) : otpCheck (otpWrite m f g data check) f g = check := by
  have h := Memory.nat_of_bytes (natBytes 2 check) (otpWrite m f g data check) (otpBase f + g * otpSize f + otpLen f) fun i hi => by
    rw [length_natBytes] at hi
    rw [byte_otpWrite hf hlen hblank, if_pos (by omega), Nat.add_assoc, Nat.add_sub_cancel_left,
      List.getD_eq_getElem?_getD, List.getElem?_append_right (by omega), hlen, Nat.add_sub_cancel_left, List.getD_eq_getElem?_getD]
  rw [length_natBytes, bytesNat_natBytes] at h
  rw [otpCheck, h]
  exact Nat.mod_eq_of_lt hc

/-- A generation some of whose data or check is not 0 is programmed. -/
theorem otpProg_otpWrite (hc : check < 65536) (hne : bytesNat data ≠ 0 ∨ check ≠ 0) : otpProg (otpWrite m f g data check) f g = true := by
  have hsize := otpLen_le_otpSize hf
  rw [otpProg, bne_iff_ne]
  intro hz
  have hdata := Memory.nat_part_zero _ _ _ 0 (otpLen f) hz (by omega)
  have hcheck := Memory.nat_part_zero _ _ _ (otpLen f) 2 hz (by omega)
  rw [Nat.add_zero] at hdata
  rcases hne with h | h
  · exact h ((otpData_otpWrite hf hlen hblank).symm.trans hdata)
  · exact h ((otpCheck_otpWrite hf hlen hblank hc).symm.trans hcheck)

end

theorem otpGood_eq {f : Nat} {data : List Byte} (hlen : data.length = otpLen f) : otpGood f data = guard16 (8 * otpLen f) (bytesNat data) := by
  have h := bytesNat_lt data
  rw [hlen] at h
  rw [otpGood, ← hlen, List.take_length, hlen, Nat.mod_eq_of_lt]
  rwa [Nat.pow_mul]

/-- The check that an interrupted programming leaves: it differs from the right one, and the generation is programmed (R463). -/
def otpBad (good x : Nat) (data : List Byte) : Nat := if data.all (· = 0#8) then 1 else good ^^^ (1 + x % 65535)

theorem otpBad_lt {good x : Nat} {data : List Byte} (h : good < 65536) : otpBad good x data < 65536 := by
  rw [otpBad]
  split
  · decide
  · exact Nat.xor_lt_two_pow (n := 16) h (by omega)

theorem otpBad_ne {f x : Nat} {data : List Byte} (hlen : data.length = otpLen f) (h0 : data.all (· = 0#8) = true → bytesNat data = 0) :
    otpBad (otpGood f data) x data ≠ guard16 (8 * otpLen f) (bytesNat data) := by
  rw [otpGood_eq hlen, otpBad]
  split
  · next h =>
    rw [h0 h, guard16_zero]
    decide
  · intro h
    have := congrArg (guard16 (8 * otpLen f) (bytesNat data) ^^^ ·) h
    simp only [← Nat.xor_assoc, Nat.xor_self, Nat.zero_xor] at this
    omega

theorem bytesNat_of_all_zero : ∀ {l : List Byte}, l.all (· = 0#8) = true → bytesNat l = 0
  | [], _ => rfl
  | b :: l, h => by
    rw [List.all_cons, Bool.and_eq_true, decide_eq_true_eq] at h
    rw [bytesNat, bytesNat_of_all_zero h.2, h.1]
    rfl

theorem State.otpAbort_none (s : State) (h : s.otp.pgm = none) : s.otpAbort = s := by
  rw [State.otpAbort, h]

theorem State.otpAbort_some (s : State) {p : Pgm} (h : s.otp.pgm = some p) : ∃ fc x, s.otpAbort = { s with
    fc := fc, otp := { s.otp with arr := otpWrite s.otp.arr p.field p.gen p.data (otpBad (otpGood p.field p.data) x p.data), pgm := none } } := by
  rw [State.otpAbort, h]
  exact ⟨_, _, rfl⟩

/-- A programming that is interrupted changes the OTP array alone. -/
theorem State.otpAbort_leaves (s : State) : s.otpAbort.tierA = s.tierA ∧ s.otpAbort.tierB = s.tierB ∧ s.otpAbort.hostOut = s.hostOut := by
  rw [State.otpAbort]
  split <;> exact ⟨rfl, rfl, rfl⟩

/-! ### The release of the resets -/

/-- The records of the fields of which no generation passes, each with ESC (R461). -/
theorem State.foldl_offer_7B : ∀ (l : List Nat) (t : State), ∃ fs, fs.length = l.length ∧ (∀ f ∈ fs, FRec.code f = 0x7B ∧ f.esc = true)
    ∧ l.foldl (fun u f => u.offer { code := 0x7B, info0 := some f }) t = { t with fq := { t.fq with offered := t.fq.offered ++ fs } }
  | [], t => ⟨[], rfl, by simp, by simp⟩
  | i :: l, t => by
    obtain ⟨fs, hlen, hfs, heq⟩ := State.foldl_offer_7B l (t.offer { code := 0x7B, info0 := some i })
    refine ⟨{ code := 0x7B, info0 := some i, time := t.aon.tb, esc := true } :: fs, congrArg Nat.succ hlen,
      List.forall_mem_cons.mpr ⟨⟨rfl, rfl⟩, hfs⟩, ?_⟩
    rw [List.foldl_cons, heq]
    simp only [State.offer, List.append_assoc]
    rfl

theorem State.loadOtp_eq (s : State) : ∃ fs, fs.length = (otpShadow s.otp.arr).fail.length ∧ (∀ f ∈ fs, FRec.code f = 0x7B ∧ f.esc = true)
    ∧ s.loadOtp = { s with
        otp := { s.otp with raw := s.otp.arr, loaded := true, sh := otpShadow s.otp.arr }
        v64 := (otpShadow s.otp.arr).v64.getD Config.buildV64
        fq := { s.fq with offered := s.fq.offered ++ fs } } := by
  simp only [State.loadOtp]
  generalize otpShadow s.otp.arr = sh
  obtain ⟨fs, hlen, hfs, heq⟩ := State.foldl_offer_7B sh.fail { s with
    otp := { s.otp with raw := s.otp.arr, loaded := true, sh := sh }, v64 := sh.v64.getD Config.buildV64 }
  exact ⟨fs, hlen, hfs, heq⟩

/-- The floor of every unit after the taps are loaded (R480). -/
theorem State.loadTaps_floor (s : State) (u : Nat) (hu : u < 72) : (s.loadTaps.age u).floor = s.otp.sh.rstFloor := by
  have h : ∀ (l : List Nat) (t : State), (u ∈ l ∨ (t.age u).floor = s.otp.sh.rstFloor) → ((l.foldl (fun t v =>
      t.setAge v { offset := if 68 ≤ v && (s.age v).pend != 0 then (s.age v).pend else s.otp.sh.rstOff, floor := s.otp.sh.rstFloor }) t).age u).floor
        = s.otp.sh.rstFloor := by
    intro l
    induction l with
    | nil => exact fun t h => h.resolve_left (List.not_mem_nil)
    | cons v l ih =>
      intro t h
      refine ih _ ?_
      rw [State.age_setAge]
      by_cases hv : u = v
      · exact .inr (by rw [if_pos hv])
      · rw [if_neg hv]
        exact h.imp_left fun h => (List.mem_cons.mp h).resolve_left hv
  exact h _ _ (.inl (List.mem_range.mpr hu))

theorem State.coldRelease_spec (s : State) (ta tb : Bool) (hc : s.boot.cold = true) (hv : s.boot.vaon = true) :
    ∃ t fs, exec (.coldResetRelease ta tb) s = .next t ∧ t.boot.cold = false ∧ t.aon.tb = 0
      ∧ t.boot.ea = ta ∧ t.boot.eb = tb ∧ t.otp = { s.otp with raw := s.otp.arr, loaded := true, sh := otpShadow s.otp.arr }
      ∧ t.pwr.on = true ∧ t.pwr.trans = true ∧ t.pwr.fwd = Nat.max t.floor (Nat.min s.pwr.req t.vmaxEff)
      ∧ (∀ u, u < 72 → (t.age u).floor = (otpShadow s.otp.arr).rstFloor) ∧ t.cores = s.cores
      ∧ t.fq.offered = s.fq.offered ++ fs ∧ fs.length = (otpShadow s.otp.arr).fail.length
      ∧ ∀ f ∈ fs, FRec.code f = 0x7B ∧ f.esc = true := by
  have hexec : exec (.coldResetRelease ta tb) s = .next (({ s with
      boot := { s.boot with cold := false, ea := ta, eb := tb }, aon := { s.aon with tb := 0 } } : State).loadOtp.loadTaps.vcoreOn) :=
    if_neg (by simp [hc, hv])
  obtain ⟨fs, hlen, hfs, hload⟩ := State.loadOtp_eq { s with
    boot := { s.boot with cold := false, ea := ta, eb := tb }, aon := { s.aon with tb := 0 } }
  generalize ({ s with boot := { s.boot with cold := false, ea := ta, eb := tb }, aon := { s.aon with tb := 0 } } : State).loadOtp = u
    at hexec hload
  have hboot : u.loadTaps.boot = u.boot := State.loadTaps_leaves State.boot (fun _ _ => rfl) _
  have haon : u.loadTaps.aon = u.aon := State.loadTaps_leaves State.aon (fun _ _ => rfl) _
  have hotp : u.loadTaps.otp = u.otp := State.loadTaps_leaves State.otp (fun _ _ => rfl) _
  have hpwr : u.loadTaps.pwr = u.pwr := State.loadTaps_leaves State.pwr (fun _ _ => rfl) _
  have hcores : u.loadTaps.cores = u.cores := State.loadTaps_leaves State.cores (fun _ _ => rfl) _
  have hfq : u.loadTaps.fq = u.fq := State.loadTaps_leaves State.fq (fun _ _ => rfl) _
  have hfloor := u.loadTaps_floor
  generalize u.loadTaps = v at *
  subst hload
  refine ⟨_, fs, hexec, by rw [State.vcoreOn, hboot], by rw [State.vcoreOn, haon], by rw [State.vcoreOn, hboot], by rw [State.vcoreOn, hboot],
    hotp, rfl, rfl, ?_, hfloor, hcores, congrArg FaultQ.offered hfq, hlen, hfs⟩
  rw [← congrArg Pwr.req hpwr]
  rfl

theorem State.mem_irq (s : State) (v : Nat) : v ∈ (s.irq v).irqs := by
  rw [State.irq]
  split
  · next h => exact List.contains_iff_mem.mp h
  · exact List.mem_append_right _ (List.mem_singleton_self v)

theorem State.initComplete_spec (s : State) (hr : s.boot.initRun = true) (hi : s.boot.init = true) (hb : s.boot.blk = false)
    (hc : s.boot.cold = false) (hk : ∀ k, k < 9 → (s.sensor k).seen = true) : ∃ t, exec .initComplete s = .next t
      ∧ t.boot = { s.boot with init := false, initRun := false }
      ∧ (s.boot.cause = 3 → s.aon.vecEn = true → s.aon.vec ∈ t.irqs) ∧ (s.boot.cause ≠ 3 → t.irqs = s.irqs)
      ∧ t.pwr.fwd = s.fwdNow ∧ t.cores = s.cores ∧ t.roles = s.roles := by
  have hexec : exec .initComplete s = .next (
      let t := ({ s with boot := { s.boot with init := false, initRun := false } } : State).forward
      if s.boot.cause = 3 && s.aon.vecEn then t.irq s.aon.vec else t) := if_pos (by
    simp only [hr, hi, hb, hc, Bool.and_eq_true, List.all_eq_true, List.mem_range]
    exact ⟨by decide, hk⟩)
  have hfwd := State.forward_fwd { s with boot := { s.boot with init := false, initRun := false } }
  have heq := State.forward_eq { s with boot := { s.boot with init := false, initRun := false } }
  generalize ({ s with boot := { s.boot with init := false, initRun := false } } : State).forward = t at hexec hfwd heq
  have hstay : ∀ v, (t.irq v).boot = t.boot ∧ (t.irq v).pwr = t.pwr ∧ (t.irq v).cores = t.cores ∧ (t.irq v).roles = t.roles := fun v => by
    rw [State.irq_eq]
    exact ⟨rfl, rfl, rfl, rfl⟩
  refine ⟨_, hexec, ?_, fun h3 hv => ?_, fun h3 => ?_, ?_, ?_, ?_⟩
  · dsimp only
    rw [apply_ite State.boot, (hstay _).1, ite_self, heq]
  · simp only [h3, hv, decide_true, Bool.and_self, if_true]
    exact State.mem_irq _ _
  · simp only [h3, decide_false, Bool.false_and, Bool.false_eq_true, if_false]
    rw [heq]
  · dsimp only
    rw [apply_ite State.pwr, (hstay _).2.1, ite_self, hfwd]
    rfl
  · dsimp only
    rw [apply_ite State.cores, (hstay _).2.2.1, ite_self, heq]
  · dsimp only
    rw [apply_ite State.roles, (hstay _).2.2.2, ite_self, heq]

/-! ### The programming commands -/

/-- The bytes of OTP_PGMDATA, written as numbers and as fields. -/
theorem otpData_words (m : Sp W32) : (List.range 146).map (fun i => BitVec.ofNat 8 ((Sp.get 0#32 m (i / 4)).toNat / 256 ^ (i % 4)))
    = (List.range 146).map (fun i => (Sp.get 0#32 m (i / 4)).extractLsb' (8 * (i % 4)) 8) := by
  refine List.map_congr_left fun i _ => ?_
  generalize Sp.get 0#32 m (i / 4) = w
  generalize i % 4 = j
  apply BitVec.eq_of_toNat_eq
  rw [BitVec.extractLsb'_toNat, BitVec.toNat_ofNat, Nat.shiftRight_eq_div_pow, Nat.pow_mul]

theorem State.pgmcmd_spec (s : State) (ha : s.answers = true) (hn : s.otp.pgm = none) (f : BitVec 3) (data : List Byte)
    (hdata : (List.range 146).map (fun i => BitVec.ofNat 8 ((Sp.get 0#32 s.otp.data (i / 4)).toNat / 256 ^ (i % 4))) = data) :
    (f ≠ 4#3 → exec (.otpPgmcmdGo .mgmt f) s = .next { s with otp := { s.otp with result := 2 } })
    ∧ (otpNext s.otp.arr 4 = none → exec (.otpPgmcmdGo .mgmt 4#3) s = .next { s with otp := { s.otp with result := 1 } })
    ∧ (∀ g, otpNext s.otp.arr 4 = some g →
      (repairOk s (bytesNat data) = true →
        exec (.otpPgmcmdGo .mgmt 4#3) s = .next { s with otp := { s.otp with pgm := some { field := 4, gen := g, data := data } } })
      ∧ (repairOk s (bytesNat data) = false → exec (.otpPgmcmdGo .mgmt 4#3) s = .next { s with otp := { s.otp with result := 3 } })) := by
  have hby : s.byMgmt .mgmt = true := by simp [State.byMgmt, ha]
  have h4 : ¬ (4#3 : BitVec 3).toNat ≠ 4 := by decide
  simp only [exec, execOtpPgmcmdGo, hby, hn, hdata, Bool.not_true, Bool.false_eq_true, if_false, Option.isSome_none]
  refine ⟨fun hf => if_pos fun h => hf (BitVec.eq_of_toNat_eq h), fun hnone => ?_, fun g hg => ⟨fun hok => ?_, fun hok => ?_⟩⟩
  · rw [if_neg h4, hnone]
  · rw [if_neg h4, hg]
    exact if_neg (by simp [hok])
  · rw [if_neg h4, hg]
    exact if_pos (by simp [hok])

theorem State.pgmcmd_busy (s : State) (f : BitVec 3) (hp : s.otp.pgm.isSome = true) : exec (.otpPgmcmdGo .mgmt f) s = .next s := by
  by_cases hby : s.byMgmt .mgmt = true
  · exact (if_neg (by simp [hby])).trans (if_pos hp)
  · exact if_pos (by simp [hby])

theorem State.testProgram_spec (s : State) (f : BitVec 3) (data : List Byte) :
    (s.otp.testmode = false ∨ otpLocked s.otp.arr = true → exec (.otpTestProgram f data) s = .next s)
    ∧ (∀ g, f.toNat ≤ 6 → s.boot.vaon = true → s.otp.testmode = true → s.otp.pgm = none → otpLocked s.otp.arr = false →
        otpNext s.otp.arr f.toNat = some g → exec (.otpTestProgram f data) s
          = .next { s with otp := { s.otp with pgm := some { field := f.toNat, gen := g, data := data } } })
    ∧ (f.toNat ≤ 6 → s.boot.vaon = true → s.otp.testmode = true → s.otp.pgm = none → otpLocked s.otp.arr = false →
        otpNext s.otp.arr f.toNat = none → exec (.otpTestProgram f data) s = .next { s with otp := { s.otp with result := 1 } }) := by
  have hgo : f.toNat ≤ 6 → s.boot.vaon = true → s.otp.testmode = true → s.otp.pgm = none → otpLocked s.otp.arr = false →
      exec (.otpTestProgram f data) s = match otpNext s.otp.arr f.toNat with
        | none => .next { s with otp := { s.otp with result := 1 } }
        | some g => .next { s with otp := { s.otp with pgm := some { field := f.toNat, gen := g, data := data } } } :=
    fun hf hv ht hp hl => if_neg (by simp [hv, ht, hp, hl]; omega)
  refine ⟨fun h => if_pos (by rcases h with h | h <;> simp [h]), fun g hf hv ht hp hl hg => ?_, fun hf hv ht hp hl hg => ?_⟩
  · rw [hgo hf hv ht hp hl, hg]
  · rw [hgo hf hv ht hp hl, hg]

/-- A generation programmed into blank bits reads back with its check, and one that fails in programming does not pass (R463). -/
theorem State.programComplete_spec (s : State) (p : Pgm) (hp : s.otp.pgm = some p) (hf : p.field ≤ 6) (hlen : p.data.length = otpLen p.field) :
    let lo := otpBase p.field + p.gen * otpSize p.field
    (∀ i, i < otpSize p.field → Memory.byte s.otp.arr (lo + i) = 0#8) →
    let outside (t : State) : Prop := ∀ x, x < lo ∨ lo + otpSize p.field ≤ x → Memory.byte t.otp.arr x = Memory.byte s.otp.arr x
    (∃ t, exec (.otpProgramComplete true) s = .next t ∧ t.otp.pgm = none ∧ t.otp.result = 0 ∧ t.otp.gen = p.gen
      ∧ otpPass t.otp.arr p.field p.gen = true ∧ otpData t.otp.arr p.field p.gen = bytesNat p.data ∧ t.otp.sh = s.otp.sh ∧ outside t)
    ∧ (∃ t, exec (.otpProgramComplete false) s = .next t ∧ t.otp.pgm = none ∧ t.otp.result = 4 ∧ t.otp.gen = p.gen
      ∧ otpProg t.otp.arr p.field p.gen = true ∧ otpPass t.otp.arr p.field p.gen = false ∧ t.otp.sh = s.otp.sh ∧ outside t) := by
  intro lo hblank outside
  have hgood := otpGood_eq hlen
  have hlt : otpGood p.field p.data < 65536 := hgood ▸ guard16_lt _ _
  have hexec : ∀ ok, exec (.otpProgramComplete ok) s = if ok then .next { s with otp := { s.otp with
      arr := otpWrite s.otp.arr p.field p.gen p.data (otpGood p.field p.data), pgm := none, result := 0, gen := p.gen } }
      else .next { s.otpAbort with otp := { s.otpAbort.otp with result := 4, gen := p.gen } } := fun ok => by
    show execOtpProgramComplete ok s = _
    rw [execOtpProgramComplete, hp]
  constructor
  · refine ⟨_, hexec true, rfl, rfl, rfl, ?_, otpData_otpWrite hf hlen hblank, rfl, byte_otpWrite_outside hf hlen hblank⟩
    have hprog : otpProg (otpWrite s.otp.arr p.field p.gen p.data (otpGood p.field p.data)) p.field p.gen = true := by
      refine otpProg_otpWrite hf hlen hblank hlt ?_
      by_cases h0 : bytesNat p.data = 0
      · exact .inr (by rw [hgood, h0, guard16_zero]; decide)
      · exact .inl h0
    rw [otpPass, hprog, otpCheck_otpWrite hf hlen hblank hlt, otpData_otpWrite hf hlen hblank, hgood]
    simp
  · obtain ⟨fc, x, habort⟩ := s.otpAbort_some hp
    have hx := otpBad_lt (x := x) (data := p.data) hlt
    have hne := otpBad_ne (x := x) hlen bytesNat_of_all_zero
    rw [habort] at hexec
    refine ⟨_, hexec false, rfl, rfl, rfl, ?_, ?_, rfl, byte_otpWrite_outside hf hlen hblank⟩
    · refine otpProg_otpWrite hf hlen hblank hx ?_
      by_cases h0 : bytesNat p.data = 0
      · exact .inr (by rw [otpBad, if_pos (bytesNat_eq_zero h0)]; decide)
      · exact .inl h0
    · show otpPass (otpWrite s.otp.arr p.field p.gen p.data (otpBad (otpGood p.field p.data) x p.data)) p.field p.gen = false
      rw [otpPass, otpCheck_otpWrite hf hlen hblank hx, otpData_otpWrite hf hlen hblank, beq_eq_false_iff_ne.mpr hne, Bool.and_false]

/-- One slab mapped by ROLE (R25): the state, and the next logical number. -/
def mapSlab (roles : Sp Nat) (x : State × Nat) (p : Nat) : State × Nat :=
  let r := roleAfter (Sp.get 2 roles p) x.2
  let t := x.1.setRole p r.1
  (match r.1.logical with
    | some l => { t with lmap := Sp.set none t.lmap l (some p) }
    | none => t, r.2)

theorem State.mapSlabs_eq (s : State) : s.mapSlabs = ((List.range 68).foldl (mapSlab s.otp.sh.roles) ({ s with roles := [], lmap := [] }, 0)).1 :=
  rfl

/-- The map of the slabs does not depend on the reset block. -/
theorem State.mapSlabs_boot (s : State) (b : Boot) : ({ s with boot := b } : State).mapSlabs = { s.mapSlabs with boot := b } := by
  rw [State.mapSlabs_eq, State.mapSlabs_eq]
  have h := List.foldl_hom (l := List.range 68) (fun x : State × Nat => (({ x.1 with boot := b } : State), x.2))
    (g₁ := mapSlab s.otp.sh.roles) (g₂ := mapSlab s.otp.sh.roles) (init := ({ s with roles := [], lmap := [] }, 0)) (fun x p => by
      simp only [mapSlab]
      split <;> rfl)
  exact congrArg Prod.fst h

theorem State.startInit_map (s : State) : s.startInit.lmap = s.mapSlabs.lmap ∧ s.startInit.roles = s.mapSlabs.roles := by
  constructor
  · exact (State.loadBypass_leaves State.lmap (fun _ _ _ => rfl) _).trans (State.loadTaps_leaves State.lmap (fun _ _ => rfl) _)
  · exact (State.loadBypass_leaves State.roles (fun _ _ _ => rfl) _).trans (State.loadTaps_leaves State.roles (fun _ _ => rfl) _)

end Sys2Proof.Machine
end

section
open Sys2Proof Sys2Proof.Machine

/-- Settles O52: each reset is read off what it keeps; programming is read off the bytes it writes. -/
theorem resetsAndOtp : Obligations.ResetsAndOtp := by
  unfold Obligations.ResetsAndOtp
  intro s b ta tb o kept
  obtain ⟨hta, htb, hho⟩ := s.otpAbort_leaves
  refine ⟨fun h => ?_, fun h => ?_, fun h => ?_, ?_, fun hc hv => ?_, fun h => ?_, fun h => ?_, fun h => ?_, fun hb hp hc hl hps => ?_,
    fun hb hp => ?_, fun h => ?_, fun hr hi hb hc hk => ?_, fun hk => ?_, ?_, ?_, ?_, fun h ok => ?_⟩
  · exact congrArg (fun t : State => t.otp.arr) (s.otpAbort_none h)
  · exact ⟨_, if_neg (by simp [h]), rfl, rfl, rfl, rfl, rfl, rfl, rfl, rfl, rfl, rfl, hta, htb, hho⟩
  · exact if_pos h
  · exact ⟨_, rfl, rfl, rfl, rfl, rfl, rfl, rfl, rfl, rfl, hta, htb⟩
  · exact s.coldRelease_spec ta tb hc hv
  · exact if_pos (by rcases h with h | h <;> simp [h])
  · exact ⟨_, if_neg (by simp [h]), rfl, rfl, rfl, rfl, rfl, rfl, rfl, rfl, rfl, rfl, rfl, rfl, rfl, rfl, rfl,
      (State.reg_setReg s.bare oRefFreq oRefFreq (s.reg oRefFreq)).trans (if_pos rfl), fun x hx => (State.reg_setReg s.bare oRefFreq x (s.reg oRefFreq)).trans (if_neg hx)⟩
  · exact if_pos h
  · have hexec : exec .blockResetRelease s = .next ({ s with boot := { s.boot with blk := false } } : State).startInit := by
      refine (if_neg (by simp [hb])).trans (congrArg Host.Outcome.next (if_pos ?_))
      simp [hp, hc, hps, show s.otp.loaded = true from hl]
    obtain ⟨hpwr, hboot⟩ := State.startInit_spec { s with boot := { s.boot with blk := false } }
    obtain ⟨hlmap, hroles⟩ := State.startInit_map { s with boot := { s.boot with blk := false } }
    rw [State.mapSlabs_boot] at hlmap hroles
    exact ⟨_, hexec, hboot, hlmap, hroles, hpwr⟩
  · refine (if_neg (by simp [hb])).trans (congrArg Host.Outcome.next (if_neg ?_))
    simp [hp]
  · exact if_pos (by simp [h])
  · exact s.initComplete_spec hr hi hb hc hk
  · refine if_neg ?_
    obtain ⟨k, hk9, hk⟩ := hk
    simp only [Bool.and_eq_true, List.all_eq_true, List.mem_range]
    exact fun h => by simp [h.2 k hk9] at hk
  · intro f data
    exact ⟨if_pos (by rw [State.byMgmt_host]; rfl), fun ha hn => s.pgmcmd_spec ha hn f _ (otpData_words _), fun hp => s.pgmcmd_busy f hp⟩
  · exact s.testProgram_spec
  · exact s.programComplete_spec
  · show execOtpProgramComplete ok s = _
    rw [execOtpProgramComplete, show s.otp.pgm = none from h]

end

section
/-! The management core (chapter 22): a core restored to its last commit point, a stream ended by firmware, commands, loads and the watchdog
(R465 to R477). -/

namespace Sys2Proof.Machine

/-! ### A core restored to its last commit point -/

/-- What no write of a store changes, restoring a core's granules leaves (R251). -/
theorem State.restoreGranules_leaves {γ : Type} (p : State → γ) (c : Nat) (h : ∀ (t : State) f, p (t.updSt c f) = p t) (s : State) :
    p ((s.refill c).zeroFailed c) = p s := by
  have hgran : ∀ (t : State) g, p (t.refillGran c g) = p t := fun t g => by
    rw [State.refillGran]
    split
    · rfl
    · exact h _ _
  have hrefill : p (s.refill c) = p s :=
    foldl_leaves p (fun t x => foldl_leaves p (fun t i => hgran t _) _ _) _ _
  refine (foldl_leaves p (fun t g => ?_) _ _).trans hrefill
  split
  · rfl
  · exact h _ _

/-- The restored core holds the state of its last commit point; its restore point and its run stay, and so does every other core (R406). -/
theorem State.restoreCore_spec (s : State) (c : Nat) :
    ((s.restoreCore c).core c).cur = (restored (s.core c)).1 ∧ ((s.restoreCore c).core c).rp = (s.core c).rp
    ∧ ((s.restoreCore c).core c).run = (s.core c).run ∧ (∀ d, d ≠ c → (s.restoreCore c).core d = s.core d) := by
  refine ⟨?_, ?_, ?_, fun d hd => ?_⟩
  · refine (State.restoreGranules_leaves (fun t => (t.core c).cur) c (fun t f => ?_) _).trans ?_
    · rw [State.updSt, State.core_updCore_same]
    · rw [State.core_updCore_same]
  · refine (State.restoreGranules_leaves (fun t => (t.core c).rp) c (fun t f => ?_) _).trans ?_
    · rw [State.updSt, State.core_updCore_same]
    · rw [State.core_updCore_same]
  · refine (State.restoreGranules_leaves (fun t => (t.core c).run) c (fun t f => ?_) _).trans ?_
    · rw [State.updSt, State.core_updCore_same]
    · rw [State.core_updCore_same]
  · refine (State.restoreGranules_leaves (fun t => t.core d) c (fun t f => ?_) _).trans ?_
    · rw [State.updSt, State.core_updCore_ne _ _ hd]
    · rw [State.core_updCore_ne _ _ hd]

/-- Restoring a core changes cores alone. -/
theorem State.restoreCore_leaves {γ : Type} (p : State → γ) (h : ∀ (t : State) c k, p (t.setCore c k) = p t) (s : State) (c : Nat) :
    p (s.restoreCore c) = p s :=
  (State.restoreGranules_leaves p c (fun _ _ => h _ _ _) _).trans (h _ _ _)

/-! ### A stream ended by firmware -/

/-- Core `c` of `s` after its stream has been ended (R472): not halted, without a stream, at its last commit point with the next region. -/
def State.EndedAt (s t : State) (c : Nat) : Prop :=
  (t.core c).run.halt = none ∧ (t.core c).run.run = none
    ∧ (t.core c).cur = { (restored (s.core c)).1 with region := ((s.core c).rp.region + 1) % 2 ^ 48 }
    ∧ (t.core c).rp = { (s.core c).rp with region := ((s.core c).rp.region + 1) % 2 ^ 48 }
    ∧ (∀ d, d ≠ c → t.core d = s.core d) ∧ ∀ e ∈ t.dlog, e.core = c → e.released = true

theorem State.endedAt_endStream (s : State) (c : Nat) : s.EndedAt (s.endStream c) c := by
  have hkeep : ∀ (u : State) (l : List Sub), s.EndedAt u c → s.EndedAt { u with subs := l } c := fun _ _ h => h
  have hmain : ∀ f : CoreRun → CoreRun, (∀ r, (f r).halt = none ∧ (f r).run = none) →
      s.EndedAt (((((s.dropLog c).updRun c f).restoreCore c).updCore c (fun x =>
        let g := ((s.core c).rp.region + 1) % 2 ^ 48
        { x with cur := { x.cur with region := g }, rp := { x.rp with region := g } })).endRecovery c) c := by
    intro f hf
    have hlog : (((s.dropLog c).updRun c f).restoreCore c).dlog = (s.dropLog c).dlog :=
      State.restoreCore_leaves State.dlog (fun _ _ _ => rfl) _ _
    obtain ⟨hcur, hrp, hrun, hother⟩ := ((s.dropLog c).updRun c f).restoreCore_spec c
    rw [State.updRun, State.core_updCore_same] at hcur hrp hrun
    rw [← State.updRun] at hcur hrp hrun
    refine ⟨?_, ?_, ?_, ?_, fun d hd => ?_, fun e he hc => ?_⟩
    · rw [State.endRecovery, State.updRun, State.core_updCore_same, State.core_updCore_same]
      exact (congrArg CoreRun.halt hrun).trans (hf _).1
    · rw [State.endRecovery, State.updRun, State.core_updCore_same, State.core_updCore_same]
      exact (congrArg CoreRun.run hrun).trans (hf _).2
    · rw [State.endRecovery, State.updRun, State.core_updCore_same, State.core_updCore_same]
      dsimp only
      rw [hcur]
      rfl
    · rw [State.endRecovery, State.updRun, State.core_updCore_same, State.core_updCore_same]
      dsimp only
      rw [hrp]
      rfl
    · rw [State.endRecovery, State.updRun, State.core_updCore_ne _ _ hd, State.core_updCore_ne _ _ hd, hother d hd, State.updRun,
        State.core_updCore_ne _ _ hd]
      rfl
    · have he' : e ∈ (s.dropLog c).dlog := hlog ▸ he
      simp only [State.dropLog, List.mem_filter, hc, bne_self_eq_false, Bool.false_or] at he'
      exact he'.2
  simp only [State.endStream]
  split
  · exact hmain _ fun _ => ⟨rfl, rfl⟩
  · exact hkeep _ _ (hmain _ fun _ => ⟨rfl, rfl⟩)

/-! ### Commands -/

/-- The driver's command, answered by firmware: `f` is what firmware does. -/
theorem State.command_runs (s : State) (op : Nat) (v : W32) (f : State → State × Nat) (ha : s.answers = true) (hb : s.mgmt.cmdBusy = false)
    (hr : s.mgmt.run = true) (hu : s.mgmt.updating = false) :
    s.command .host op v f =
      let r := f { s with mgmt := { s.mgmt with cmdArg := v, cmdOp := op, cmdBusy := true } }
      { r.1 with mgmt := { r.1.mgmt with cmdBusy := false, cmdResult := r.2 } } := by
  simp only [State.command, State.byHost, ha, hb, hr, hu, Bool.and_self, beq_self_eq_true, Bool.not_true, Bool.or_self, Bool.false_eq_true,
    if_false]

theorem State.command_updating (s : State) (op : Nat) (v : W32) (f : State → State × Nat) (ha : s.answers = true) (hb : s.mgmt.cmdBusy = false)
    (hr : s.mgmt.run = true) (hu : s.mgmt.updating = true) :
    s.command .host op v f = { s with mgmt := { s.mgmt with cmdArg := v, cmdOp := op, cmdBusy := false, cmdResult := 1 } } := by
  simp only [State.command, State.byHost, ha, hb, hr, hu, Bool.and_self, beq_self_eq_true, Bool.not_true, Bool.or_self, Bool.false_eq_true,
    if_false, if_true]

theorem State.command_waits (s : State) (op : Nat) (v : W32) (f : State → State × Nat) (ha : s.answers = true) (hb : s.mgmt.cmdBusy = false)
    (hr : s.mgmt.run = false) :
    s.command .host op v f = { s with mgmt := { s.mgmt with cmdArg := v, cmdOp := op, cmdBusy := true } } := by
  simp only [State.command, State.byHost, ha, hb, hr, Bool.and_self, beq_self_eq_true, Bool.not_true, Bool.or_self, Bool.false_eq_true,
    if_false, Bool.not_false, if_true]

theorem State.command_busy (s : State) (op : Nat) (v : W32) (f : State → State × Nat) (hb : s.mgmt.cmdBusy = true) :
    s.command .host op v f = s := if_pos (by simp [hb])

/-! ### The log ring -/

/-- A log entry changes the ring's registers of the management core alone; one that is not of type 1 takes the next number. -/
theorem State.log_mgmt_eq (s : State) (type : Nat) (esc : Bool) (p : List Nat) (h1 : type ≠ 1) : ∃ ta he,
    (s.log type esc p).mgmt = { s.mgmt with logTail := ta, logSeq := s.mgmt.logSeq + 1, logHeld := he } := by
  dsimp only [State.log]
  rw [if_neg (by simp [h1])]
  split
  · split
    · exact ⟨_, _, rfl⟩
    · exact ⟨s.mgmt.logTail, s.mgmt.logHeld, rfl⟩
  · dsimp only [State.logPut]
    split
    · rw [State.irq_eq]
      exact ⟨_, s.mgmt.logHeld, rfl⟩
    · exact ⟨_, s.mgmt.logHeld, rfl⟩

theorem State.log_mgmt_keeps (s : State) (type : Nat) (esc : Bool) (p : List Nat) : ∃ ta se he dr,
    (s.log type esc p).mgmt = { s.mgmt with logTail := ta, logSeq := se, logHeld := he, logDrop := dr } := by
  by_cases h1 : type = 1
  · dsimp only [State.log]
    split
    · exact ⟨s.mgmt.logTail, s.mgmt.logSeq, s.mgmt.logHeld, _, rfl⟩
    split
    · split
      · exact ⟨s.mgmt.logTail, _, _, s.mgmt.logDrop, rfl⟩
      · exact ⟨s.mgmt.logTail, _, s.mgmt.logHeld, s.mgmt.logDrop, rfl⟩
    · dsimp only [State.logPut]
      split
      · rw [State.irq_eq]
        exact ⟨_, _, s.mgmt.logHeld, s.mgmt.logDrop, rfl⟩
      · exact ⟨_, _, s.mgmt.logHeld, s.mgmt.logDrop, rfl⟩
  · obtain ⟨ta, he, h⟩ := s.log_mgmt_eq type esc p h1
    exact ⟨ta, _, he, s.mgmt.logDrop, h⟩

section
variable (s : State) (type : Nat) (esc : Bool) (p : List Nat)

@[simp] theorem State.log_fq : (s.log type esc p).fq = s.fq := by rw [State.log_eq]
@[simp] theorem State.log_cores : (s.log type esc p).cores = s.cores := by rw [State.log_eq]
@[simp] theorem State.log_sram : (s.log type esc p).mgmt.sram = s.mgmt.sram := by
  obtain ⟨_, _, _, _, h⟩ := s.log_mgmt_keeps type esc p
  rw [h]
@[simp] theorem State.log_run : (s.log type esc p).mgmt.run = s.mgmt.run := (s.log_mgmt type esc p).2
@[simp] theorem State.log_cause : (s.log type esc p).mgmt.cause = s.mgmt.cause := by
  obtain ⟨_, _, _, _, h⟩ := s.log_mgmt_keeps type esc p
  rw [h]
@[simp] theorem State.log_policy : (s.log type esc p).mgmt.policy = s.mgmt.policy := by
  obtain ⟨_, _, _, _, h⟩ := s.log_mgmt_keeps type esc p
  rw [h]
@[simp] theorem State.log_load : (s.log type esc p).mgmt.load = s.mgmt.load := by
  obtain ⟨_, _, _, _, h⟩ := s.log_mgmt_keeps type esc p
  rw [h]
@[simp] theorem State.log_imgLen : (s.log type esc p).mgmt.imgLen = s.mgmt.imgLen := by
  obtain ⟨_, _, _, _, h⟩ := s.log_mgmt_keeps type esc p
  rw [h]

end

theorem State.persist_mgmt (s : State) : ∃ ta he,
    s.persist.mgmt = { s.mgmt with logTail := ta, logSeq := s.mgmt.logSeq + 1, logHeld := he, persistAt := s.aon.tb } := by
  obtain ⟨ta, he, h⟩ := State.log_mgmt_eq (((s.free 32).2.free 32).2.free 13).2 2 false
    [(s.free 32).1, ((s.free 32).2.free 32).1, (((s.free 32).2.free 32).2.free 13).1] (by decide)
  refine ⟨ta, he, ?_⟩
  simp only [State.persist]
  rw [h]
  rfl

theorem State.persist_cores (s : State) : s.persist.cores = s.cores := by rw [State.persist_eq]

/-! ### Loads and the watchdog -/

/-- What the SRAM holds of an image that passes its header's check: the image, and above it what a handoff keeps (R467, R476). -/
theorem State.fwStart_sram (s : State) (img : List Byte) (handoff : Bool) (hok : fwImageOk img = true) :
    let t := s.fwStart img handoff
    (∀ i x, i < t.mgmt.imgLen → img[i]? = some x → Memory.byte t.mgmt.sram i = x)
    ∧ (∀ i, t.mgmt.imgLen ≤ i → Memory.byte t.mgmt.sram i = if handoff = true ∧ 0xFC000 ≤ i then Memory.byte s.mgmt.sram i else 0#8)
    ∧ t.mgmt.imgLen ≤ 0xFC000 := by
  intro t
  obtain ⟨hmax, hlen⟩ : t.mgmt.imgLen ≤ 786432 ∧ t.mgmt.imgLen ≤ img.length := by
    simp only [fwImageOk, Bool.and_eq_true, decide_eq_true_eq] at hok
    exact ⟨hok.1.1.1.1.1.2, hok.2⟩
  have hbyte : ∀ i, Memory.byte t.mgmt.sram i = if i < t.mgmt.imgLen then (img.take t.mgmt.imgLen).getD i 0#8
      else Memory.byte (if handoff then s.mgmt.sram.filter (fun c => decide (0xFC000 ≤ c.1)) else []) i := fun i => by
    have h := Memory.byte_lsPut (img.take t.mgmt.imgLen) (if handoff then s.mgmt.sram.filter (fun c => decide (0xFC000 ≤ c.1)) else []) 0 i
    rw [List.length_take, Nat.min_eq_left hlen, Nat.zero_add, Nat.sub_zero] at h
    exact h.trans (ite_congr (propext (by omega)) (fun _ => rfl) (fun _ => rfl))
  refine ⟨fun i x hi hx => ?_, fun i hi => ?_, by omega⟩
  · rw [hbyte, if_pos hi, List.getD_eq_getElem?_getD, List.getElem?_take_of_lt hi, hx]
    rfl
  · rw [hbyte, if_neg (by omega)]
    cases handoff with
    | false => rfl
    | true =>
      rw [if_pos rfl, Memory.byte, Sp.get_filter (0#8 : Byte) (fun j => decide (0xFC000 ≤ j)) i s.mgmt.sram]
      simp [Memory.byte]

theorem State.abortSelfTest_leaves (s : State) : s.abortSelfTest.fq = s.fq ∧ s.abortSelfTest.mgmt = s.mgmt ∧ s.abortSelfTest.cores = s.cores := by
  rw [State.abortSelfTest]
  split <;> exact ⟨rfl, rfl, rfl⟩

/-- A restart of the management core keeps its SRAM; a damaged image leaves it held (R475). -/
theorem State.mgmtRestart_spec (s : State) (code cause : Nat) (bad : Bool) :
    (∃ f : FRec, f.code = code ∧ f.esc = true ∧ (s.mgmtRestart code cause bad).fq.offered = s.fq.offered ++ [f])
    ∧ (s.mgmtRestart code cause bad).mgmt.sram = s.mgmt.sram ∧ (s.mgmtRestart code cause bad).mgmt.run = !bad
    ∧ (s.mgmtRestart code cause bad).mgmt.cause = (if bad then 5 else cause) ∧ (s.mgmtRestart code cause bad).cores = s.cores := by
  obtain ⟨hfq, hmgmt, hcores⟩ := s.abortSelfTest_leaves
  simp only [State.mgmtRestart]
  generalize s.abortSelfTest = u at hfq hmgmt hcores
  rw [← hfq, ← hmgmt, ← hcores]
  refine ⟨⟨{ code := code, esc := true, unit := 13, time := u.aon.tb }, rfl, rfl, ?_⟩, ?_⟩
  · split
    · rfl
    · rw [State.log_eq]
      rfl
  cases bad with
  | true => exact ⟨rfl, rfl, rfl, rfl⟩
  | false =>
    simp only [Bool.false_eq_true, if_false]
    exact ⟨State.log_sram _ _ _ _, State.log_run _ _ _ _, State.log_cause _ _ _ _, State.log_cores _ _ _ _⟩

/-- A load that completes: a bad image leaves the core held; a cold load starts afresh, a handoff keeps the upper SRAM (R467, R476). -/
theorem State.firmwareLoad_spec (s : State) (read : List Byte) (ok : Bool) (op : Nat) (hl : s.mgmt.load = some op)
    (hlost : s.lost.contains .host = false) :
    let m := s.mgmt
    let img := read.take (s.regN oLoadLen)
    (fwImageOk img = false → exec (.firmwareLoadComplete read ok) s = .next { s with mgmt := { m with load := none, ldResult := 2, run := false } })
    ∧ (fwImageOk img = true → ∃ t, exec (.firmwareLoadComplete read ok) s = .next t ∧ t.mgmt.run = true ∧ t.mgmt.load = none
      ∧ (∀ i x, i < t.mgmt.imgLen → img[i]? = some x → Memory.byte t.mgmt.sram i = x)
      ∧ (∀ i, t.mgmt.imgLen ≤ i → i < 0xFC000 → Memory.byte t.mgmt.sram i = 0#8)
      ∧ (op = 1 → (∀ i, t.mgmt.imgLen ≤ i → Memory.byte t.mgmt.sram i = 0#8) ∧ t.mgmt.cause = 1 ∧ t.mgmt.policy = 2 ∧ t.mgmt.unack = [])
      ∧ (op ≠ 1 → t.mgmt.cause = 4 ∧ (∀ a, 0xFC000 ≤ a → Memory.byte t.mgmt.sram a = Memory.byte m.sram a)
          ∧ (ok = true → t.mgmt.policy = m.policy ∧ t.fq = s.fq)
          ∧ (ok = false → ∃ f : FRec, f.code = 0x79 ∧ f.esc = true ∧ t.fq.offered = s.fq.offered ++ [f]))) := by
  intro m img
  have hup : (!s.hostUp) = false := by rw [State.hostUp, hlost]; rfl
  have hexec : ∀ r, (if !fwImageOk img then .next { s with mgmt := { s.mgmt with load := none, ldResult := 2, run := false } }
      else if op = 1 then .next { s.fwStart img false with mgmt := (s.fwStart img false).mgmt.fresh }
      else if ok then .next ((({ s.fwStart img true with mgmt := { (s.fwStart img true).mgmt with updating := false } } : State).ackCarried).log 6 false
        [s.mgmt.ifver.toNat % 65536, (s.fwStart img true).mgmt.imgIfver, 1])
      else .next (((({ s.fwStart img true with mgmt := (s.fwStart img true).mgmt.fresh } : State).offer
        { code := 0x79, esc := true, unit := 13 })).log 6 false [s.mgmt.ifver.toNat % 65536, (s.fwStart img true).mgmt.imgIfver, 0])) = r →
      exec (.firmwareLoadComplete read ok) s = r := by
    rintro r rfl
    show execFirmwareLoadComplete read ok s = _
    rw [execFirmwareLoadComplete, hl]
    exact if_neg (by rw [hup]; decide)
  refine ⟨fun hbad => hexec _ (if_pos (by rw [hbad]; rfl)), fun hgood => ?_⟩
  have hng : ¬ (!fwImageOk img) = true := by rw [hgood]; decide
  by_cases h1 : op = 1
  · obtain ⟨himg, habove, hmax⟩ := s.fwStart_sram img false hgood
    have h0 : ∀ i, (s.fwStart img false).mgmt.imgLen ≤ i → Memory.byte (s.fwStart img false).mgmt.sram i = 0#8 := fun i hi =>
      (habove i hi).trans (if_neg (by simp))
    exact ⟨_, hexec _ ((if_neg hng).trans (if_pos h1)), rfl, rfl, himg, fun i hi _ => h0 i hi, fun _ => ⟨h0, rfl, rfl, rfl⟩, fun h => absurd h1 h⟩
  · obtain ⟨himg, habove, hmax⟩ := s.fwStart_sram img true hgood
    have h0 : ∀ i, (s.fwStart img true).mgmt.imgLen ≤ i → i < 0xFC000 → Memory.byte (s.fwStart img true).mgmt.sram i = 0#8 := fun i hi hlt =>
      (habove i hi).trans (if_neg (by omega))
    have hkeep : ∀ i, 0xFC000 ≤ i → Memory.byte (s.fwStart img true).mgmt.sram i = Memory.byte s.mgmt.sram i := fun i hi =>
      (habove i (Nat.le_trans hmax hi)).trans (if_pos ⟨rfl, hi⟩)
    cases ok with
    | true =>
      refine ⟨_, hexec _ ((if_neg hng).trans ((if_neg h1).trans (if_pos rfl))), ?_⟩
      simp only [State.log_run, State.log_load, State.log_imgLen, State.log_sram, State.log_cause, State.log_policy, State.log_fq]
      exact ⟨rfl, rfl, himg, h0, fun h => absurd h h1, fun _ => ⟨rfl, hkeep, fun _ => ⟨rfl, rfl⟩, fun h => absurd h (by decide)⟩⟩
    | false =>
      refine ⟨_, hexec _ ((if_neg hng).trans ((if_neg h1).trans (if_neg (by decide)))), ?_⟩
      simp only [State.log_run, State.log_load, State.log_imgLen, State.log_sram, State.log_cause, State.log_policy, State.log_fq]
      exact ⟨rfl, rfl, himg, h0, fun h => absurd h h1, fun _ => ⟨rfl, hkeep, fun h => absurd h (by decide), fun _ => ⟨_, rfl, rfl, rfl⟩⟩⟩

end Sys2Proof.Machine
end

section
open Sys2Proof Sys2Proof.Machine

/-- Settles O53: the commands share the driver's handshake; a load is read off the bytes it writes. -/
theorem managementCore : Obligations.ManagementCore := by
  unfold Obligations.ManagementCore
  intro s v ha m q done ended
  have hmg : s.byMgmt .mgmt = true := by simp [State.byMgmt, ha]
  have hho : s.byHost .host = true := by simp [State.byHost, ha]
  refine ⟨fun hb => ?_, fun hb hr => ?_, fun hb hr hu => ?_, fun hb hr hu => ?_, fun l i p hp => ?_, fun hl => ?_, fun op read ok hl hlost => ?_,
    ?_, ?_, ?_, fun bad => ?_⟩
  · refine ⟨?_, congrArg _ (s.command_busy _ _ _ hb), congrArg _ (s.command_busy _ _ _ hb), congrArg _ (s.command_busy _ _ _ hb),
      congrArg _ (s.command_busy _ _ _ hb)⟩
    exact (if_neg (by simp [show s.mgmt.cmdBusy = true from hb])).trans (congrArg _ (s.command_busy _ _ _ hb))
  · exact congrArg _ (s.command_waits _ _ _ ha hb hr)
  · exact ⟨congrArg _ (s.command_updating _ _ _ ha hb hr hu), congrArg _ (s.command_updating _ _ _ ha hb hr hu),
      if_pos (by simp [hho, show s.mgmt.cmdBusy = false from hb, show s.mgmt.run = true from hr, show s.mgmt.updating = true from hu])⟩
  · refine ⟨?_, congrArg Host.Outcome.next ((s.command_runs _ _ _ ha hb hr hu).trans ?_),
      congrArg Host.Outcome.next ((s.command_runs _ _ _ ha hb hr hu).trans ?_), fun hv => ?_, fun hv p hp => ?_⟩
    · refine (if_neg (by simp [show s.mgmt.updating = false from hu])).trans
        (congrArg Host.Outcome.next ((s.command_runs _ _ _ ha hb hr hu).trans ?_))
      by_cases hc : s.mgmt.unack.contains (v.toNat % 65536) = true
      · simp only [m, q, if_pos hc]
        rfl
      · simp only [m, q, if_neg hc]
        rfl
    · by_cases h4 : 4 ≤ v.toNat
      · simp only [if_pos h4, if_neg (Nat.not_lt.mpr h4)]
        rfl
      · simp only [if_neg h4, if_pos (Nat.lt_of_not_le h4)]
        rfl
    · by_cases h0 : v = 0#32
      · simp only [if_neg (Classical.not_not.mpr h0), if_pos h0]
        rfl
      · simp only [if_pos h0, if_neg h0]
        rfl
    · refine ⟨_, congrArg Host.Outcome.next (s.command_runs _ _ _ ha hb hr hu), ?_⟩
      obtain ⟨ta, he, h⟩ := State.persist_mgmt { s with mgmt := { s.mgmt with cmdArg := 0#32, cmdOp := 5, cmdBusy := true } }
      simp only [ne_eq, hv, not_true_eq_false, if_false]
      exact ⟨trivial, trivial, congrArg Mgmt.logSeq h, State.persist_cores _⟩
    · intro c
      have hlt : v.toNat / 2 ^ 11 = 0 := hv
      have h31 : fld v.toNat 31 11 = 0 := congrArg (· % 2 ^ 21) ((Nat.shiftRight_eq_div_pow v.toNat 11).trans hlt)
      have h5 : fld v.toNat 5 0 = v.toNat % 64 := rfl
      have h10 : fld v.toNat 10 6 = v.toNat / 64 := by
        rw [fld, Nat.shiftRight_eq_div_pow]
        omega
      have hcmd : ∀ r : State × Nat, (if (s.core c).run.halt.isNone then
            (({ s with mgmt := { s.mgmt with cmdArg := v, cmdOp := 2, cmdBusy := true } } : State), 3)
          else (({ s with mgmt := { s.mgmt with cmdArg := v, cmdOp := 2, cmdBusy := true } } : State).endStream c, 0)) = r →
          exec (.cmdEnd .host v) s = .next { r.1 with mgmt := { r.1.mgmt with cmdBusy := false, cmdResult := r.2 } } := by
        rintro r rfl
        refine congrArg Host.Outcome.next ((s.command_runs _ _ _ ha hb hr hu).trans ?_)
        dsimp only
        rw [if_neg (by rw [h31]; decide), h5]
        have hp' : ({ s with mgmt := { s.mgmt with cmdArg := v, cmdOp := 2, cmdBusy := true } } : State).phys (v.toNat % 64) = some p := hp
        rw [hp']
        dsimp only
        rw [h10]
        rfl
      refine ⟨fun hh => ?_, fun hh => ?_⟩
      · exact hcmd _ (if_pos (by rw [hh]; rfl))
      · refine ⟨_, hcmd _ (if_neg (by rw [← Option.not_isSome, hh]; decide)), ?_, rfl⟩
        exact State.endedAt_endStream ({ s with mgmt := { s.mgmt with cmdArg := v, cmdOp := 2, cmdBusy := true } } : State) c
  · intro c
    have hcmd : exec (.endcmd .mgmt l i) s = if (s.core c).run.halt.isNone then .next { s with mgmt := { s.mgmt with endResult := true } }
        else .next { s.endStream c with mgmt := { (s.endStream c).mgmt with endResult := false } } := by
      refine (if_neg (by simp [hmg])).trans ?_
      rw [show s.phys l.toNat = some p from hp]
    refine ⟨fun hh => hcmd.trans (if_pos (by rw [hh]; rfl)), fun hh => ⟨_, hcmd.trans (if_neg ?_), s.endedAt_endStream c, rfl⟩⟩
    rw [← Option.not_isSome, hh]
    decide
  · refine ⟨fun hr => ?_, fun hr => ?_, fun hr => ?_⟩
    · exact (if_neg (by simp [hho, show s.mgmt.load = none from hl])).trans (if_pos hr)
    · exact (if_neg (by simp [hho, show s.mgmt.load = none from hl])).trans (if_neg (by simp [show s.mgmt.run = false from hr]))
    · exact if_neg (by simp [hmg, show s.mgmt.load = none from hl, show s.mgmt.run = true from hr])
  · exact s.firmwareLoad_spec read ok op hl hlost
  · exact if_pos hmg
  · exact if_pos hmg
  · exact if_neg (by rw [State.byMgmt_host]; decide)
  · exact ⟨fun h => if_neg (by simp [h]), fun h => ⟨_, if_pos h, s.mgmtRestart_spec 0x70 2 bad⟩⟩

end

section
/-! The update engine's memory (chapter 15): a page's parameters each live in bytes of their own, so a page is updated parameter by parameter
(R339, R343, R344). -/

namespace Sys2Proof.Machine

/-! ### Numbers in memory -/

/-- A number in memory stays when another is written in bytes that it does not hold. -/
theorem Memory.nat_setNat_ne (m : Memory) (a b n k v : Nat) (h : b + k ≤ a ∨ a + n ≤ b) :
    Memory.nat (Memory.setNat m a n v) b k = Memory.nat m b k :=
  Memory.nat_congr _ _ k b fun i hi => Memory.byte_setNat_ne n m a v (b + i) (by omega)

/-- A number in memory stays when bytes are put where it has none. -/
theorem Memory.nat_lsPut_ne (m : Memory) (a b k : Nat) (bs : List Byte) (h : b + k ≤ a ∨ a + bs.length ≤ b) :
    Memory.nat (lsPut m a bs) b k = Memory.nat m b k :=
  Memory.nat_congr _ _ k b fun i hi => by rw [Memory.byte_lsPut, if_neg (by omega)]

theorem Memory.byte_clear (m : Memory) (lo n b : Nat) :
    Memory.byte (Sp.clear m lo n) b = if lo ≤ b ∧ b < lo + n then 0#8 else Memory.byte m b := by
  refine (Sp.get_filter (0#8 : Byte) (fun j => decide (j < lo) || decide (lo + n ≤ j)) b m).trans ?_
  by_cases h : lo ≤ b ∧ b < lo + n
  · rw [if_pos h, if_neg (by simp; omega)]
  · rw [if_neg h, if_pos (by simp; omega)]
    rfl

/-- A written number differs nowhere between memories that agree. -/
theorem Memory.byte_setNat_agree (m m' : Memory) (a n v b : Nat) (h : Memory.byte m b = Memory.byte m' b) :
    Memory.byte (Memory.setNat m a n v) b = Memory.byte (Memory.setNat m' a n v) b := by
  by_cases hb : a ≤ b ∧ b < a + n
  · obtain ⟨i, rfl⟩ := Nat.exists_eq_add_of_le hb.1
    rw [Memory.byte_setNat n m a v i (by omega), Memory.byte_setNat n m' a v i (by omega)]
  · rw [Memory.byte_setNat_ne n m a v b (by omega), Memory.byte_setNat_ne n m' a v b (by omega), h]

/-! ### Steps that each have bytes of their own -/

/-- `step m i` writes and reads only the bytes that are `own i`. -/
structure LocalStep (step : Memory → Nat → Memory) (own : Nat → Nat → Prop) : Prop where
  outside : ∀ m i b, ¬ own i b → Memory.byte (step m i) b = Memory.byte m b
  inside : ∀ m m' i, (∀ b, own i b → Memory.byte m b = Memory.byte m' b) → ∀ b, own i b → Memory.byte (step m i) b = Memory.byte (step m' i) b

variable {step : Memory → Nat → Memory} {own : Nat → Nat → Prop}

theorem LocalStep.foldl_outside (hs : LocalStep step own) (b : Nat) : ∀ (l : List Nat) (m : Memory), (∀ i ∈ l, ¬ own i b) →
    Memory.byte (l.foldl step m) b = Memory.byte m b
  | [], _, _ => rfl
  | i :: l, m, h => by
    rw [List.foldl_cons, hs.foldl_outside b l _ fun j hj => h j (List.mem_cons_of_mem _ hj)]
    exact hs.outside m i b (h i List.mem_cons_self)

/-- Where the steps' bytes are apart, each step's are as if it ran alone. -/
theorem LocalStep.foldl_inside (hs : LocalStep step own) (i : Nat) : ∀ (l : List Nat) (m : Memory), l.Nodup → i ∈ l →
    (∀ j ∈ l, j ≠ i → ∀ b, own i b → ¬ own j b) → ∀ b, own i b → Memory.byte (l.foldl step m) b = Memory.byte (step m i) b
  | j :: l, m, hnd, hi, hap, b, hb => by
    rw [List.foldl_cons]
    by_cases hj : j = i
    · subst hj
      exact hs.foldl_outside b l _ fun k hk => hap k (List.mem_cons_of_mem _ hk) (fun h => (List.nodup_cons.mp hnd).1 (h ▸ hk)) b hb
    · have hi' : i ∈ l := (List.mem_cons.mp hi).resolve_left (Ne.symm hj)
      rw [hs.foldl_inside i l (step m j) (List.nodup_cons.mp hnd).2 hi' (fun k hk => hap k (List.mem_cons_of_mem _ hk)) b hb]
      exact hs.inside _ _ i (fun c hc => hs.outside m j c (hap j List.mem_cons_self hj c hc)) b hb

/-! ### One parameter -/

/-- The bytes of parameter `i` of page `p`: without APPLY its accumulator's, with APPLY its master's and its moments' too (R339). -/
def paramOwn (u : Upd) (p i b : Nat) : Prop :=
  (u.abase + p * (3 * 2 ^ 20) + 6 * i ≤ b ∧ b < u.abase + p * (3 * 2 ^ 20) + 6 * i + 6)
  ∨ u.apply = true ∧ ((u.mbase + p * 2 ^ 21 + 4 * i ≤ b ∧ b < u.mbase + p * 2 ^ 21 + 4 * i + 4)
    ∨ (u.m1base + p * 2 ^ 20 + 2 * i ≤ b ∧ b < u.m1base + p * 2 ^ 20 + 2 * i + 2)
    ∨ (u.m2base + p * 2 ^ 20 + 2 * i ≤ b ∧ b < u.m2base + p * 2 ^ 20 + 2 * i + 2))

theorem localStep_paramStep (u : Upd) (k : RuleK) (p : Nat) (led : Nat → Nat) :
    LocalStep (fun m i => paramStep u k p (led i) i m) (paramOwn u p) where
  outside m i b hb := by
    simp only [paramOwn, not_or, not_and] at hb
    obtain ⟨hacc, hrest⟩ := hb
    simp only [paramStep]
    split
    · next hap =>
      obtain ⟨hmas, hm1, hm2⟩ := hrest hap
      rw [Memory.byte_setNat_ne _ _ _ _ _ (by omega), Memory.byte_setNat_ne _ _ _ _ _ (by omega), Memory.byte_setNat_ne _ _ _ _ _ (by omega),
        Memory.byte_setNat_ne _ _ _ _ _ (by omega)]
    · exact Memory.byte_setNat_ne _ _ _ _ _ (by omega)
  inside m m' i hag b hb := by
    have hnat : ∀ a n, (∀ j, j < n → paramOwn u p i (a + j)) → Memory.nat m a n = Memory.nat m' a n := fun a n h =>
      Memory.nat_congr _ _ _ _ fun j hj => hag _ (h j hj)
    have hacc := hnat (u.abase + p * (3 * 2 ^ 20) + 6 * i) 6 fun j hj => .inl (by omega)
    simp only [paramStep]
    split
    · next hap =>
      have hmas := hnat (u.mbase + p * 2 ^ 21 + 4 * i) 4 fun j hj => .inr ⟨hap, .inl (by omega)⟩
      have hm1 := hnat (u.m1base + p * 2 ^ 20 + 2 * i) 2 fun j hj => .inr ⟨hap, .inr (.inl (by omega))⟩
      have hm2 := hnat (u.m2base + p * 2 ^ 20 + 2 * i) 2 fun j hj => .inr ⟨hap, .inr (.inr (by omega))⟩
      rw [hacc, hmas, hm1, hm2]
      exact Memory.byte_setNat_agree _ _ _ _ _ _ (Memory.byte_setNat_agree _ _ _ _ _ _ (Memory.byte_setNat_agree _ _ _ _ _ _
        (Memory.byte_setNat_agree _ _ _ _ _ _ (hag b hb))))
    · rw [hacc]
      exact Memory.byte_setNat_agree _ _ _ _ _ _ (hag b hb)

/-- The parameters of page `p`, updated with the ledger values `led`. -/
def pageStep (u : Upd) (k : RuleK) (p : Nat) (led : Nat → Nat) (m : Memory) : Memory :=
  (List.range pageParams).foldl (fun m i => paramStep u k p (led i) i m) m

/-- A number of parameter `i`, after the page: as after the parameter alone. -/
theorem nat_pageStep (u : Upd) (k : RuleK) (p : Nat) (led : Nat → Nat) (m : Memory) (i a n : Nat) (hi : i < pageParams)
    (hown : ∀ j, j < n → paramOwn u p i (a + j))
    (hap : ∀ j, j < pageParams → j ≠ i → ∀ b, paramOwn u p i b → ¬ paramOwn u p j b) :
    Memory.nat (pageStep u k p led m) a n = Memory.nat (paramStep u k p (led i) i m) a n :=
  Memory.nat_congr _ _ _ _ fun j hj => (localStep_paramStep u k p led).foldl_inside i _ m List.nodup_range (List.mem_range.mpr hi)
    (fun j hj => hap j (List.mem_range.mp hj)) _ (hown j hj)

theorem wrap_lt (w : Nat) (i : Int) : wrap w i < 2 ^ w := by
  have hpos : (0 : Int) < ((2 ^ w : Nat) : Int) := by exact_mod_cast Nat.two_pow_pos w
  have h1 := Int.emod_nonneg i (Int.ne_of_gt hpos)
  have h2 := Int.emod_lt_of_pos i hpos
  rw [wrap]
  omega

theorem accAdd_mod (a led : Nat) : accAdd a led % 256 ^ 6 = accAdd a led := Nat.mod_eq_of_lt (wrap_lt 48 _)

/-- Without APPLY each accumulator gains its ledger value, and nothing else changes (R343). -/
theorem pageStep_accumulates (u : Upd) (k : RuleK) (p : Nat) (led : Nat → Nat) (m : Memory) (hap : u.apply = false) :
    (∀ i, i < pageParams → Memory.nat (pageStep u k p led m) (u.abase + p * (3 * 2 ^ 20) + 6 * i) 6
      = accAdd (Memory.nat m (u.abase + p * (3 * 2 ^ 20) + 6 * i) 6) (led i))
    ∧ ∀ b, b < u.abase + p * (3 * 2 ^ 20) + 6 * 0 ∨ u.abase + p * (3 * 2 ^ 20) + 6 * pageParams ≤ b →
      Memory.byte (pageStep u k p led m) b = Memory.byte m b := by
  have hown : ∀ i b, paramOwn u p i b → u.abase + p * (3 * 2 ^ 20) + 6 * i ≤ b ∧ b < u.abase + p * (3 * 2 ^ 20) + 6 * i + 6 := fun i b h =>
    h.resolve_right (by simp [hap])
  refine ⟨fun i hi => ?_, fun b hb => ?_⟩
  · rw [nat_pageStep u k p led m i _ 6 hi (fun j hj => .inl (by omega)) (fun j hj hne b hb hb' => by
      have h1 := hown _ _ hb
      have h2 := hown _ _ hb'
      omega)]
    simp only [paramStep, hap, Bool.false_eq_true, if_false]
    rw [Memory.nat_setNat, accAdd_mod]
  · refine (localStep_paramStep u k p led).foldl_outside b _ m fun i hi h => ?_
    have h1 := hown _ _ h
    have hi' := List.mem_range.mp hi
    omega

/-! ### A page with APPLY -/

theorem encodeBlock_length (k : ObKind) (xs : List FV) : (k.encodeBlock xs).2.1.length = xs.length := by
  simp only [ObKind.encodeBlock]
  split
  · exact List.length_map _
  · split
    · split
      · exact List.length_map _
      · simp
    · exact List.length_map _

theorem length_flatMap_const {α β : Type} (f : α → List β) (n : Nat) : ∀ l : List α, (∀ x ∈ l, (f x).length = n) → (l.flatMap f).length = l.length * n
  | [], _ => by simp
  | x :: l, h => by
    rw [List.flatMap_cons, List.length_append, h x List.mem_cons_self, length_flatMap_const f n l fun y hy => h y (List.mem_cons_of_mem _ hy),
      List.length_cons, Nat.succ_mul, Nat.add_comm]

/-- The elements and exponents of a page in obelisk blocks. -/
theorem length_blockImage (k : ObKind) (w : Nat → FV) :
    let bs := (List.range (pageParams / k.block)).map (fun b => k.encodeBlock ((List.range k.block).map (fun i => w (k.block * b + i))))
    (bs.flatMap (fun b => b.2.1.map k.bits)).length = pageParams ∧ bs.length = pageParams / k.block := by
  intro bs
  have hlen : bs.length = pageParams / k.block := by simp [bs]
  refine ⟨?_, hlen⟩
  rw [length_flatMap_const _ k.block bs fun x hx => ?_, hlen]
  · cases h : k.blk32 <;> simp [ObKind.block, h, pageParams]
  · obtain ⟨b, _, rfl⟩ := List.mem_map.mp hx
    rw [List.length_map, encodeBlock_length, List.length_map, List.length_range]

/-- The working image of a page fits in its place (R344). -/
theorem pageImage_length (u : Upd) (l : Layer) (m : Memory) (p : Nat) : (pageImage u l m p).length ≤ l.imgBytes := by
  have h2 : ∀ f : Nat → Nat, ((List.range pageParams).flatMap fun i => natBytes 2 (f i)).length = pageParams * 2 := fun f => by
    rw [length_flatMap_const _ 2 _ fun i _ => length_natBytes 2 (f i), List.length_range]
  simp only [pageImage]
  split
  · next h => exact Nat.le_of_eq (by rw [h2, Layer.imgBytes, if_neg (by omega), if_neg (by omega), Nat.mul_comm])
  split
  · next h => exact Nat.le_of_eq (by rw [h2, Layer.imgBytes, if_neg (by omega), if_neg (by omega), Nat.mul_comm])
  · obtain ⟨hes, hbs⟩ := length_blockImage { four := l.wfmt == 5, uns := l.sgn, blk32 := l.blk }
      (fun i => (FFmt.fp32.read (Memory.nat m (u.mbase + p * 2 ^ 21 + 4 * i) 4)).1)
    rw [List.length_append, List.length_map, hbs, apply_ite List.length, List.length_map, List.length_range, List.length_map, hes]
    simp only [ObKind.block, Layer.imgBytes, beq_iff_eq]
    cases l.blk <;> simp only [Bool.false_eq_true, if_false, if_true, pageParams]
    all_goals
      repeat' split
      all_goals omega

/-- The arrays of a page that an APPLY step changes share no byte. -/
def PageApart (u : Upd) (p : Nat) : Prop :=
  let acc := u.abase + p * (3 * 2 ^ 20)
  let mas := u.mbase + p * 2 ^ 21
  let m1 := u.m1base + p * 2 ^ 20
  let m2 := u.m2base + p * 2 ^ 20
  (mas + 2 ^ 21 ≤ m1 ∨ m1 + 2 ^ 20 ≤ mas) ∧ (mas + 2 ^ 21 ≤ m2 ∨ m2 + 2 ^ 20 ≤ mas) ∧ (mas + 2 ^ 21 ≤ acc ∨ acc + 3 * 2 ^ 20 ≤ mas)
    ∧ (m1 + 2 ^ 20 ≤ m2 ∨ m2 + 2 ^ 20 ≤ m1) ∧ (m1 + 2 ^ 20 ≤ acc ∨ acc + 3 * 2 ^ 20 ≤ m1) ∧ (m2 + 2 ^ 20 ≤ acc ∨ acc + 3 * 2 ^ 20 ≤ m2)

/-- With APPLY each parameter moves by the rule, and its accumulator ends at zero (R343). -/
theorem pageStep_applies (u : Upd) (k : RuleK) (p : Nat) (led : Nat → Nat) (m : Memory) (hap : u.apply = true) (hpart : PageApart u p)
    (i : Nat) (hi : i < pageParams) :
    let acc := u.abase + p * (3 * 2 ^ 20) + 6 * i
    let mas := u.mbase + p * 2 ^ 21 + 4 * i
    let m1 := u.m1base + p * 2 ^ 20 + 2 * i
    let m2 := u.m2base + p * 2 ^ 20 + 2 * i
    let r := updParam k (sext 48 (accAdd (Memory.nat m acc 6) (led i))) (FFmt.fp32.read (Memory.nat m mas 4)).1
      (FFmt.bf16.read (Memory.nat m m1 2)).1 (FFmt.bf16.read (Memory.nat m m2 2)).1
    Memory.nat (pageStep u k p led m) mas 4 = (FFmt.fp32.write .rne r.1).1 % 2 ^ 32
      ∧ Memory.nat (pageStep u k p led m) m1 2 = (FFmt.bf16.write .rne r.2.1).1 % 2 ^ 16
      ∧ Memory.nat (pageStep u k p led m) m2 2 = (FFmt.bf16.write .rne r.2.2).1 % 2 ^ 16
      ∧ Memory.nat (pageStep u k p led m) acc 6 = 0 := by
  intro acc mas m1 m2 r
  obtain ⟨h12, h13, h1a, h23, h2a, h3a⟩ := hpart
  have hi' : i < 524288 := hi
  have hsep : ∀ j, j < pageParams → j ≠ i → ∀ b, paramOwn u p i b → ¬ paramOwn u p j b := fun j hj hne b hb hb' => by
    have hj' : j < 524288 := hj
    simp only [paramOwn, hap, true_and] at hb hb'
    omega
  have hone : ∀ a n, (∀ j, j < n → paramOwn u p i (a + j)) →
      Memory.nat (pageStep u k p led m) a n = Memory.nat (paramStep u k p (led i) i m) a n := fun a n hown =>
    nat_pageStep u k p led m i a n hi hown hsep
  have hacc : acc = u.abase + p * (3 * 2 ^ 20) + 6 * i := rfl
  have hmas : mas = u.mbase + p * 2 ^ 21 + 4 * i := rfl
  have hm1 : m1 = u.m1base + p * 2 ^ 20 + 2 * i := rfl
  have hm2 : m2 = u.m2base + p * 2 ^ 20 + 2 * i := rfl
  have hstep : paramStep u k p (led i) i m = Memory.setNat (Memory.setNat (Memory.setNat (Memory.setNat m mas 4
      (FFmt.fp32.write .rne r.1).1) m1 2 (FFmt.bf16.write .rne r.2.1).1) m2 2 (FFmt.bf16.write .rne r.2.2).1) acc 6 0 := if_pos hap
  clear_value r acc mas m1 m2
  refine ⟨?_, ?_, ?_, ?_⟩
  · rw [hone mas 4 fun j hj => .inr ⟨hap, .inl (by omega)⟩, hstep, Memory.nat_setNat_ne _ _ _ _ _ _ (by omega),
      Memory.nat_setNat_ne _ _ _ _ _ _ (by omega), Memory.nat_setNat_ne _ _ _ _ _ _ (by omega)]
    exact Memory.nat_setNat _ _ _ _
  · rw [hone m1 2 fun j hj => .inr ⟨hap, .inr (.inl (by omega))⟩, hstep, Memory.nat_setNat_ne _ _ _ _ _ _ (by omega),
      Memory.nat_setNat_ne _ _ _ _ _ _ (by omega)]
    exact Memory.nat_setNat _ _ _ _
  · rw [hone m2 2 fun j hj => .inr ⟨hap, .inr (.inr (by omega))⟩, hstep, Memory.nat_setNat_ne _ _ _ _ _ _ (by omega)]
    exact Memory.nat_setNat _ _ _ _
  · rw [hone acc 6 fun j hj => .inl (by omega), hstep, Memory.nat_setNat, Nat.zero_mod]

end Sys2Proof.Machine
end

section
/-! Self-test (R484 to R488) and the update engine's steps (R338 to R348). -/

namespace Sys2Proof.Machine

/-! ### Self-test -/

/-- Retiring slabs retires each of them, and changes no other. -/
theorem State.role_foldl_retire (x : Nat) : ∀ (l : List Nat) (s : State),
    (l.foldl State.retire s).role x = if x ∈ l then { logical := none, st := .retiredService, part := none } else s.role x
  | [], s => by simp
  | p :: l, s => by
    rw [List.foldl_cons, State.role_foldl_retire x l, State.retire, State.role_setRole]
    by_cases hl : x ∈ l
    · rw [if_pos hl, if_pos (List.mem_cons_of_mem _ hl)]
    · by_cases hp : x = p
      · rw [if_neg hl, if_pos hp, if_pos (hp ▸ List.mem_cons_self)]
      · rw [if_neg hl, if_neg hp, if_neg (by simp [hl, hp])]

/-- A spare that takes a number is no retired slab. -/
theorem State.remap_keeps_retired (s : State) (l x : Nat) (h : (s.role x).st = .retiredService) : ((s.remap l).role x).st = .retiredService := by
  rw [State.remap]
  split
  · exact h
  · next q hq =>
    have hspare := List.find?_some hq
    have hne : x ≠ q := fun e => by
      rw [← e, h] at hspare
      exact absurd hspare (by decide)
    exact (congrArg Role.st ((State.role_setRole s q x { logical := some l, st := .active, part := none }).trans (if_neg hne))).trans h

theorem State.foldl_remap_keeps_retired (x : Nat) : ∀ (l : List Nat) (s : State), (s.role x).st = .retiredService →
    ((l.foldl State.remap s).role x).st = .retiredService
  | [], _, h => h
  | n :: l, s, h => State.foldl_remap_keeps_retired x l _ (s.remap_keeps_retired n x h)

theorem State.remap_mapgen (s : State) (l : Nat) : (s.remap l).mapgen = s.mapgen := by
  rw [State.remap]
  split <;> rfl

/-- The slabs that a self-test retires. -/
def State.failedSlabs (s : State) (slabs : List SlabNo) : List Nat :=
  (List.range 68).filter (fun p => !(s.role p).st.retired && (slabs.any (fun x => x.val = p) || ([] : List CoreNo).any (fun c => c.val / 32 = p)))

theorem State.mem_failedSlabs (s : State) (slabs : List SlabNo) (x : SlabNo) (hx : x ∈ slabs) (hr : (s.role x.val).st.retired = false) :
    x.val ∈ s.failedSlabs slabs := by
  refine List.mem_filter.mpr ⟨List.mem_range.mpr x.isLt, ?_⟩
  rw [hr, Bool.not_false, Bool.true_and, Bool.or_eq_true]
  exact .inl (List.any_eq_true.mpr ⟨x, hx, decide_eq_true rfl⟩)

theorem State.failedSlabs_nil (s : State) : s.failedSlabs [] = [] := by
  simp [State.failedSlabs]

/-- What the retirement of the failed slabs does to the map. -/
def State.retireAll (s : State) (bad : List Nat) : State :=
  if bad.isEmpty then s else s.mapChange (fun t => (bad.filterMap (fun p => (s.role p).logical)).foldl State.remap (bad.foldl State.retire t))

theorem State.retireAll_spec (s : State) (bad : List Nat) (x : Nat) (hx : x ∈ bad) :
    ((s.retireAll bad).role x).st = .retiredService ∧ (s.retireAll bad).mapgen = (s.mapgen + 2) % 2 ^ 32 := by
  have hne : bad.isEmpty = false := by
    rw [List.isEmpty_eq_false_iff]
    exact List.ne_nil_of_mem hx
  simp only [State.retireAll, hne, Bool.false_eq_true, if_false, State.mapChange]
  constructor
  · refine State.foldl_remap_keeps_retired x _ (bad.foldl State.retire _) ?_
    rw [State.role_foldl_retire, if_pos hx]
  · rw [foldl_leaves State.mapgen State.remap_mapgen, foldl_leaves State.mapgen (f := State.retire) (fun _ _ => rfl)]
    show ((s.mapgen + 1) % 2 ^ 32 + 1) % 2 ^ 32 = _
    omega

theorem State.foldl_offerHub_leaves {γ : Type} (p : State → γ) (h : ∀ (t : State) f, p (t.offer f) = p t) (hubs : List (BitVec 2)) (s : State) :
    p (hubs.foldl (fun t h => t.offer { code := 0x28, esc := true, unit := 10, hub := h.toNat }) s) = p s :=
  foldl_leaves p (fun _ _ => h _ _) hubs s

theorem State.selfTestComplete_spec (s : State) (slabs : List SlabNo) (hubs : List (BitVec 2)) (hact : s.boot.stActive = true) :
    ∃ t, exec (.selfTestComplete slabs [] hubs) s = .next t ∧ t.boot.stActive = false ∧ t.boot.stDone = true
      ∧ (∀ x ∈ slabs, (s.role (x : SlabNo).val).st.retired = false → (t.role x.val).st = .retiredService ∧ x.val ∈ t.boot.stFail
          ∧ t.mapgen = (s.mapgen + 2) % 2 ^ 32 ∧ t.boot.stResult = 1)
      ∧ (slabs = [] → hubs = [] → t.boot.stResult = 0 ∧ t.mapgen = s.mapgen ∧ t.roles = s.roles ∧ t.fq = s.fq) := by
  let bad := s.failedSlabs slabs
  let t3 := hubs.foldl (fun t h => t.offer { code := 0x28, esc := true, unit := 10, hub := h.toNat }) (s.retireAll bad)
  have hexec : exec (.selfTestComplete slabs [] hubs) s = .next ({ t3 with boot := { t3.boot with
      stActive := false, stDone := true, stPhase := 0, stNfail := bad.length, stFail := bad,
      stResult := if bad.isEmpty && hubs.isEmpty then 0 else 1 } } : State).forward := if_neg (by rw [hact]; decide)
  have hroles : t3.roles = (s.retireAll bad).roles := State.foldl_offerHub_leaves State.roles (fun _ _ => rfl) hubs _
  have hgen : t3.mapgen = (s.retireAll bad).mapgen := State.foldl_offerHub_leaves State.mapgen (fun _ _ => rfl) hubs _
  have hnil : hubs = [] → t3 = s.retireAll bad := fun h => by simp [t3, h]
  clear_value t3
  rw [State.forward_eq] at hexec
  refine ⟨_, hexec, rfl, rfl, fun x hx hr => ?_, fun hs hh => ?_⟩
  · have hbad : x.val ∈ bad := s.mem_failedSlabs slabs x hx hr
    obtain ⟨hret, hmap⟩ := s.retireAll_spec bad x.val hbad
    refine ⟨?_, hbad, hgen.trans hmap, ?_⟩
    · rw [State.role] at hret ⊢
      rw [hroles]
      exact hret
    · have : bad.isEmpty = false := by
        rw [List.isEmpty_eq_false_iff]
        exact List.ne_nil_of_mem hbad
      simp [this]
  · have hbad : bad = [] := by
      rw [show bad = s.failedSlabs slabs from rfl, hs, State.failedSlabs_nil]
    have ht : t3 = s := by
      rw [hnil hh, hbad]
      rfl
    have hmap : t3.mapgen = s.mapgen := by rw [ht]
    have hroles : t3.roles = s.roles := by rw [ht]
    have hfq : t3.fq = s.fq := by rw [ht]
    exact ⟨by simp [hbad, hh], hmap, hroles, hfq⟩

/-! ### The parts of a page's update -/

/-- An audit changes its counts, and may offer a record. -/
theorem State.auditPage_eq (s : State) (l : Layer) (j : Nat) : ∃ a n q,
    s.auditPage l j = { s with upd := { s.upd with audit := a, mismatch := n }, fq := q } := by
  dsimp only [State.auditPage]
  split
  · exact ⟨s.upd.audit, s.upd.mismatch, s.fq, rfl⟩
  split
  · exact ⟨_, s.upd.mismatch, s.fq, rfl⟩
  split
  · exact ⟨_, s.upd.mismatch, s.fq, rfl⟩
  · exact ⟨_, _, _, rfl⟩

theorem State.wantPeer_eq (s : State) (i : Nat) : ∃ k, s.wantPeer i = { s with link := k } := by
  rw [State.wantPeer]
  split
  · exact ⟨s.link, rfl⟩
  · exact ⟨_, rfl⟩

/-- A message of the update engine changes the links' work alone. -/
theorem State.addSend_update (s : State) (x : Send) (h : x.src = .update) : ∃ k, s.addSend x = { s with link := k } := by
  simp only [State.addSend]
  split
  · split
    · simp only [State.failSend, h]
      exact ⟨_, rfl⟩
    · exact ⟨_, rfl⟩
  · exact State.wantPeer_eq _ _

theorem State.sendImage_eq (s : State) (l : Layer) (j : Nat) : ∃ q k, s.sendImage l j = { s with upd := { s.upd with seq := q }, link := k } := by
  have h : ∀ (cs : List ChipRec) (t : State), (∃ q k, t = { s with upd := { s.upd with seq := q }, link := k }) →
      ∃ q k, cs.foldl (fun (t : State) c =>
        let id := 2 ^ 63 + t.upd.seq % 2 ^ 63
        ({ t with upd := { t.upd with seq := (t.upd.seq + 1) % 2 ^ 63 } } : State).addSend
          { id := 0, src := .update, peer := c.peer, msgid := id, op := 0, total := l.imgBytes / 32,
            target := [2 ^ 24 * c.tenant, c.key, c.region, l.woff + (s.upd.chip * l.npages + j) * (l.imgBytes / 32), 0, 0],
            data := .image (l.sibase + j * l.imgBytes) }) t = { s with upd := { s.upd with seq := q }, link := k } := by
    intro cs
    induction cs with
    | nil => exact fun t h => h
    | cons c cs ih =>
      rintro t ⟨q, k, rfl⟩
      refine ih _ ?_
      obtain ⟨k', hk⟩ := State.addSend_update ({ s with upd := { s.upd with seq := (q + 1) % 2 ^ 63 }, link := k } : State)
        { id := 0, src := .update, peer := c.peer, msgid := 2 ^ 63 + q % 2 ^ 63, op := 0, total := l.imgBytes / 32,
          target := [2 ^ 24 * c.tenant, c.key, c.region, l.woff + (s.upd.chip * l.npages + j) * (l.imgBytes / 32), 0, 0],
          data := .image (l.sibase + j * l.imgBytes) } rfl
      exact ⟨_, k', hk⟩
  exact h _ s ⟨s.upd.seq, s.link, rfl⟩

/-- What draining a slot does (R342). -/
theorem State.drainSlot_spec (s : State) (l : Layer) (p : Nat) :
    (s.drainSlot l p).tierB = s.tierB ∧ (s.drainSlot l p).link = s.link ∧ (s.drainSlot l p).regs = s.regs
    ∧ (∃ r, (s.drainSlot l p).upd = { s.upd with result := r })
    ∧ (∀ b, b < slotBytes → Memory.byte (s.drainSlot l p).tierA (s.slotAddr p + b) = 0#8)
    ∧ (if l.expect * contribution < s.arrivedOf (s.ledgerSlot p)
        then (s.drainSlot l p).upd.result = 0x1E ∧ ∃ f ∈ (s.drainSlot l p).fq.offered, f.code = 0x1E
        else (s.drainSlot l p).upd.result = s.upd.result) := by
  have hslot : ∀ b, b < slotBytes → Memory.byte (Sp.clear (Sp.clear s.tierA (s.slotAddr p) slotBytes) (s.arrAddr (s.ledgerSlot p)) 4)
      (s.slotAddr p + b) = 0#8 := fun b hb => by
    rw [Memory.byte_clear, Memory.byte_clear, if_pos (⟨by omega, by omega⟩ : s.slotAddr p ≤ _ ∧ _), ite_self]
  have heq : s.drainSlot l p = if l.expect * contribution < s.arrivedOf (s.ledgerSlot p)
      then ({ s with tierA := Sp.clear (Sp.clear s.tierA (s.slotAddr p) slotBytes) (s.arrAddr (s.ledgerSlot p)) 4 } : State).updEndWith 0x1E
      else { s with tierA := Sp.clear (Sp.clear s.tierA (s.slotAddr p) slotBytes) (s.arrAddr (s.ledgerSlot p)) 4 } := by
    simp only [State.drainSlot, decide_eq_true_eq]
  rw [heq]
  by_cases hex : l.expect * contribution < s.arrivedOf (s.ledgerSlot p)
  · simp only [if_pos hex]
    exact ⟨rfl, rfl, rfl, ⟨_, rfl⟩, hslot, rfl, _, List.mem_append_right _ (List.mem_singleton_self _), rfl⟩
  · simp only [if_neg hex]
    exact ⟨trivial, trivial, trivial, ⟨s.upd.result, rfl⟩, hslot, trivial⟩

/-- The ledger values of page `p` (R342). -/
def State.ledgerOf (s : State) (p i : Nat) : Nat := Memory.nat s.tierA (s.slotAddr p + 0x1000 + 4 * i) 4

theorem State.updPage_accumulates (s : State) (l : Layer) (j : Nat) (hap : s.upd.apply = false) :
    s.updPage l j = ({ s with tierB := pageStep s.upd (ruleOf s.upd l) (l.first + j) (s.ledgerOf (l.first + j)) s.tierB } : State).drainSlot l
      (l.first + j) := by
  simp only [State.updPage, hap, Bool.false_eq_true, if_false]
  rfl

/-- The working image of page `j` in its place, after the page with APPLY. -/
def State.imagePut (s : State) (l : Layer) (j : Nat) : Memory :=
  let m := pageStep s.upd (ruleOf s.upd l) (l.first + j) (s.ledgerOf (l.first + j)) s.tierB
  lsPut m (l.sibase + j * l.imgBytes) (pageImage s.upd l m (l.first + j))

theorem State.updPage_applies (s : State) (l : Layer) (j : Nat) (hap : s.upd.apply = true) : ∃ a n sq q k,
    s.updPage l j = ({ s with upd := { s.upd with audit := a, mismatch := n, seq := sq }, fq := q, link := k, tierB := s.imagePut l j } : State).drainSlot l
      (l.first + j) := by
  obtain ⟨a, n, q, haudit⟩ := s.auditPage_eq l j
  have hpage : s.updPage l j = (State.sendImage { s with
      upd := { s.upd with audit := a, mismatch := n }, fq := q, tierB := s.imagePut l j } l j).drainSlot l (l.first + j) := by
    simp only [State.updPage, hap, if_true, haudit, State.imagePut, pageStep, State.ledgerOf]
    rfl
  obtain ⟨sq, k, himg⟩ := State.sendImage_eq ({ s with upd := { s.upd with audit := a, mismatch := n }, fq := q, tierB := s.imagePut l j } : State) l j
  refine ⟨a, n, sq, q, k, hpage.trans ?_⟩
  rw [himg]

/-- A page's update keeps the step's place in the table. -/
theorem State.updPage_place (s : State) (l : Layer) (j : Nat) :
    ((s.updPage l j).upd.next, (s.updPage l j).upd.layer) = (s.upd.next, s.upd.layer) := by
  cases hap : s.upd.apply with
  | false =>
    rw [s.updPage_accumulates l j hap]
    obtain ⟨r, hr⟩ := (State.drainSlot_spec _ l (l.first + j)).2.2.2.1
    rw [hr]
  | true =>
    obtain ⟨a, n, sq, q, k, h⟩ := s.updPage_applies l j hap
    rw [h]
    obtain ⟨r, hr⟩ := (State.drainSlot_spec _ l (l.first + j)).2.2.2.1
    rw [hr]

/-! ### A layer -/

/-- The state in which a layer starts. -/
def State.layerAt (s : State) : State := { s with upd := { s.upd with next := s.upd.next + 1, layer := s.upd.next } }

theorem State.exec_updateLayerStart (s : State) (l : Layer) (hl : s.upd.layers[s.upd.next]? = some l) (hrun : s.running = true)
    (hhold : s.pwr.hold = false) (hbusy : s.upd.busy = true) (hread : s.upd.reading = false) (hres : s.upd.result = 0)
    (hA : s.tierUp false = true) (hB : s.tierUp true = true) :
    exec .updateLayerStart s = if !s.layerReady l then .next s else .next (
      if s.upd.skipped || s.layerAny l != 0 || (s.upd.apply && l.skip) then s.layerAt.skipLayer l s.upd.next
      else (List.range l.npages).foldl (fun (t : State) j => t.updPage l j) s.layerAt) := by
  show execUpdateLayerStart s = _
  rw [execUpdateLayerStart, hl]
  cases hready : s.layerReady l with
  | false => exact if_pos (by rw [hready]; simp)
  | true => exact if_neg (by simp [hrun, hhold, hbusy, hread, hres, hA, hB, hready])

/-- What a skipped layer leaves: no place in the table changes, its accumulators are zero (R345). -/
theorem State.skipLayer_spec (s : State) (l : Layer) (i : Nat) :
    (s.skipLayer l i).upd.next = s.upd.next ∧ (s.skipLayer l i).upd.layer = s.upd.layer ∧ (s.skipLayer l i).upd.skipped = true
    ∧ (∀ b, s.upd.abase + l.first * (3 * 2 ^ 20) ≤ b → b < s.upd.abase + (l.first + l.npages) * (3 * 2 ^ 20) →
        Memory.byte (s.skipLayer l i).tierB b = 0#8)
    ∧ (s.upd.apply = false → Memory.nat (s.skipLayer l i).tierA (s.updBase + layerOff s.upd.nchip i + 48) 4 % 2 = 1)
    ∧ (s.skipLayer l i).link = s.link
    ∧ (l.npages = 1 → if l.expect * contribution < s.arrivedOf (s.ledgerSlot l.first)
        then (s.skipLayer l i).upd.result = 0x1E ∧ ∃ f ∈ (s.skipLayer l i).fq.offered, f.code = 0x1E
        else (s.skipLayer l i).upd.result = s.upd.result) := by
  have hplace : ∀ t : State, ∀ j, ((t.drainSlot l (l.first + j)).upd.next, (t.drainSlot l (l.first + j)).upd.layer,
      (t.drainSlot l (l.first + j)).link) = (t.upd.next, t.upd.layer, t.link) := fun t j => by
    obtain ⟨-, hlink, -, ⟨r, hr⟩, -⟩ := t.drainSlot_spec l (l.first + j)
    rw [hr, hlink]
  have hfold := foldl_leaves (fun t : State => (t.upd.next, t.upd.layer, t.link)) (f := fun (t : State) j => t.drainSlot l (l.first + j)) hplace
    (List.range l.npages) s
  simp only [Prod.mk.injEq] at hfold
  obtain ⟨hnext, hlayer, hlink⟩ := hfold
  refine ⟨hnext, hlayer, rfl, fun b hlo hhi => ?_, fun hap => ?_, hlink, fun h1 => ?_⟩
  · refine (Memory.byte_clear _ _ _ b).trans (if_pos ⟨hlo, ?_⟩)
    rw [Nat.add_mul] at hhi
    omega
  · simp only [State.skipLayer, hap, Bool.false_eq_true, if_false]
    rw [Memory.nat_setNat]
    omega
  · have h := (s.drainSlot_spec l l.first).2.2.2.2.2
    simp only [State.skipLayer, h1, List.range_one, List.foldl_cons, List.foldl_nil]
    exact h

/-- The ledger lies where tier A, the registers and the step's table say. -/
theorem State.ledger_congr {s t : State} (hA : t.tierA = s.tierA) (hr : t.regs = s.regs) (hb : t.upd.busy = s.upd.busy)
    (hd : t.upd.reading = s.upd.reading) (hl : t.upd.lbase = s.upd.lbase) (p : Nat) :
    t.slotAddr p = s.slotAddr p ∧ t.arrivedOf (t.ledgerSlot p) = s.arrivedOf (s.ledgerSlot p) := by
  have hread : t.tableRead = s.tableRead := by simp only [State.tableRead, hb, hd]
  have hbase : t.updBase = s.updBase := by simp only [State.updBase, State.regN, State.reg, hr]
  have hn : t.nslotL = s.nslotL := by simp only [State.nslotL, State.regN, State.reg, hr]
  have hlb : t.lbase = s.lbase := by rw [State.lbase, State.lbase, hread, hbase, hA, hl]
  have hslot : t.ledgerSlot p = s.ledgerSlot p := by rw [State.ledgerSlot, State.ledgerSlot, hn]
  constructor
  · rw [State.slotAddr, State.slotAddr, hlb, hslot]
  · rw [State.arrivedOf, State.arrivedOf, State.arrAddr, State.arrAddr, hlb, hn, hslot, hA]

/-- A layer of one page, updated: a plain page, drained (R343). -/
theorem State.updPage_layer (s : State) (l : Layer) :
    (∀ b, b < slotBytes → Memory.byte (s.updPage l 0).tierA (s.slotAddr l.first + b) = 0#8)
    ∧ (if l.expect * contribution < s.arrivedOf (s.ledgerSlot l.first)
        then (s.updPage l 0).upd.result = 0x1E ∧ ∃ f ∈ (s.updPage l 0).fq.offered, f.code = 0x1E
        else (s.updPage l 0).upd.result = s.upd.result)
    ∧ (s.upd.apply = false → (s.updPage l 0).tierB = pageStep s.upd (ruleOf s.upd l) l.first (s.ledgerOf l.first) s.tierB)
    ∧ (s.upd.apply = true → (s.updPage l 0).tierB = s.imagePut l 0) := by
  cases hap : s.upd.apply with
  | false =>
    have h := s.updPage_accumulates l 0 hap
    rw [Nat.add_zero] at h
    rw [h]
    obtain ⟨hB, -, -, -, hslot, hres⟩ := State.drainSlot_spec ({ s with
      tierB := pageStep s.upd (ruleOf s.upd l) l.first (s.ledgerOf l.first) s.tierB } : State) l l.first
    obtain ⟨haddr, harr⟩ := State.ledger_congr (s := s) (t := { s with
      tierB := pageStep s.upd (ruleOf s.upd l) l.first (s.ledgerOf l.first) s.tierB }) rfl rfl rfl rfl rfl l.first
    rw [haddr] at hslot
    rw [harr] at hres
    refine ⟨hslot, hres, fun _ => ?_, fun h => absurd h (by decide)⟩
    rw [hB]
  | true =>
    obtain ⟨a, n, sq, q, k, h⟩ := s.updPage_applies l 0 hap
    rw [Nat.add_zero] at h
    rw [h]
    obtain ⟨hB, -, -, -, hslot, hres⟩ := State.drainSlot_spec ({ s with
      upd := { s.upd with audit := a, mismatch := n, seq := sq }, fq := q, link := k, tierB := s.imagePut l 0 } : State) l l.first
    obtain ⟨haddr, harr⟩ := State.ledger_congr (s := s) (t := { s with
      upd := { s.upd with audit := a, mismatch := n, seq := sq }, fq := q, link := k, tierB := s.imagePut l 0 }) rfl rfl rfl rfl rfl l.first
    rw [haddr] at hslot
    rw [harr] at hres
    exact ⟨hslot, hres, fun h => absurd h (by decide), fun _ => hB⟩

theorem Layer.imgBytes_pos (l : Layer) : 0 < l.imgBytes := by
  simp only [Layer.imgBytes, pageParams]
  repeat' split
  all_goals decide

/-- The arrays that the obligation keeps apart, in the form in which a page's update needs them. -/
theorem pageApart_of_allPairs (u : Upd) (l : Layer)
    (h : allPairs (fun (x y : Nat × Nat) => apart x.1 x.2 y.1 y.2)
      [(u.mbase + l.first * 2 ^ 21 + 4 * 0, 2 ^ 21), (u.m1base + l.first * 2 ^ 20 + 2 * 0, 2 ^ 20), (u.m2base + l.first * 2 ^ 20 + 2 * 0, 2 ^ 20),
        (u.abase + l.first * (3 * 2 ^ 20) + 6 * 0, 3 * 2 ^ 20), (l.sibase, l.imgBytes)] = true) :
    PageApart u l.first ∧ ((u.mbase + l.first * 2 ^ 21 + 2 ^ 21 ≤ l.sibase ∨ l.sibase + l.imgBytes ≤ u.mbase + l.first * 2 ^ 21)
      ∧ (u.m1base + l.first * 2 ^ 20 + 2 ^ 20 ≤ l.sibase ∨ l.sibase + l.imgBytes ≤ u.m1base + l.first * 2 ^ 20)
      ∧ (u.m2base + l.first * 2 ^ 20 + 2 ^ 20 ≤ l.sibase ∨ l.sibase + l.imgBytes ≤ u.m2base + l.first * 2 ^ 20)
      ∧ (u.abase + l.first * (3 * 2 ^ 20) + 3 * 2 ^ 20 ≤ l.sibase ∨ l.sibase + l.imgBytes ≤ u.abase + l.first * (3 * 2 ^ 20))) := by
  simp only [allPairs, apart, List.all_cons, List.all_nil, Bool.and_true, Bool.and_eq_true, Bool.or_eq_true, decide_eq_true_eq, beq_iff_eq] at h
  have hpos := l.imgBytes_pos
  simp only [PageApart]
  omega

/-- With APPLY each parameter of a layer of one page moves by the rule; the image is put elsewhere (R343, R344). -/
theorem State.imagePut_spec (s : State) (l : Layer) (hap : s.upd.apply = true)
    (h : allPairs (fun (x y : Nat × Nat) => apart x.1 x.2 y.1 y.2)
      [(s.upd.mbase + l.first * 2 ^ 21 + 4 * 0, 2 ^ 21), (s.upd.m1base + l.first * 2 ^ 20 + 2 * 0, 2 ^ 20),
        (s.upd.m2base + l.first * 2 ^ 20 + 2 * 0, 2 ^ 20), (s.upd.abase + l.first * (3 * 2 ^ 20) + 6 * 0, 3 * 2 ^ 20),
        (l.sibase, l.imgBytes)] = true) (i : Nat) (hi : i < pageParams) :
    let acc := s.upd.abase + l.first * (3 * 2 ^ 20) + 6 * i
    let mas := s.upd.mbase + l.first * 2 ^ 21 + 4 * i
    let m1 := s.upd.m1base + l.first * 2 ^ 20 + 2 * i
    let m2 := s.upd.m2base + l.first * 2 ^ 20 + 2 * i
    let r := updParam (ruleOf s.upd l) (sext 48 (accAdd (Memory.nat s.tierB acc 6) (s.ledgerOf l.first i))) (FFmt.fp32.read (Memory.nat s.tierB mas 4)).1
      (FFmt.bf16.read (Memory.nat s.tierB m1 2)).1 (FFmt.bf16.read (Memory.nat s.tierB m2 2)).1
    Memory.nat (s.imagePut l 0) mas 4 = (FFmt.fp32.write .rne r.1).1 % 2 ^ 32
      ∧ Memory.nat (s.imagePut l 0) m1 2 = (FFmt.bf16.write .rne r.2.1).1 % 2 ^ 16
      ∧ Memory.nat (s.imagePut l 0) m2 2 = (FFmt.bf16.write .rne r.2.2).1 % 2 ^ 16
      ∧ Memory.nat (s.imagePut l 0) acc 6 = 0 := by
  obtain ⟨hpart, himg⟩ := pageApart_of_allPairs s.upd l h
  have hpage := pageStep_applies s.upd (ruleOf s.upd l) l.first (s.ledgerOf l.first) s.tierB hap hpart i hi
  have hlen := pageImage_length s.upd l (pageStep s.upd (ruleOf s.upd l) l.first (s.ledgerOf l.first) s.tierB) l.first
  have hi' : i < 524288 := hi
  have hput : s.imagePut l 0 = lsPut (pageStep s.upd (ruleOf s.upd l) l.first (s.ledgerOf l.first) s.tierB) l.sibase
      (pageImage s.upd l (pageStep s.upd (ruleOf s.upd l) l.first (s.ledgerOf l.first) s.tierB) l.first) := by
    rw [State.imagePut, Nat.add_zero, Nat.zero_mul, Nat.add_zero]
  intro acc mas m1 m2 r
  have hacc : acc = s.upd.abase + l.first * (3 * 2 ^ 20) + 6 * i := rfl
  have hmas : mas = s.upd.mbase + l.first * 2 ^ 21 + 4 * i := rfl
  have hm1 : m1 = s.upd.m1base + l.first * 2 ^ 20 + 2 * i := rfl
  have hm2 : m2 = s.upd.m2base + l.first * 2 ^ 20 + 2 * i := rfl
  obtain ⟨h1, h2, h3, h4⟩ := hpage
  rw [hput]
  exact ⟨(Memory.nat_lsPut_ne _ _ _ _ _ (by omega)).trans h1, (Memory.nat_lsPut_ne _ _ _ _ _ (by omega)).trans h2,
    (Memory.nat_lsPut_ne _ _ _ _ _ (by omega)).trans h3, (Memory.nat_lsPut_ne _ _ _ _ _ (by omega)).trans h4⟩

theorem State.updateLayer_spec (s : State) (l : Layer) (hl : s.upd.layers[s.upd.next]? = some l) (hrun : s.running = true)
    (hhold : s.pwr.hold = false) (hbusy : s.upd.busy = true) (hread : s.upd.reading = false) (hres : s.upd.result = 0)
    (hA : s.tierUp false = true) (hB : s.tierUp true = true) :
    let u := s.upd
    let skip := u.skipped || s.layerAny l != 0 || (u.apply && l.skip)
    let a := s.slotAddr l.first + 0x1000
    let led (i : Nat) : Nat := Memory.nat s.tierA (a + 4 * i) 4
    let acc (i : Nat) : Nat := u.abase + l.first * (3 * 2 ^ 20) + 6 * i
    let mas (i : Nat) : Nat := u.mbase + l.first * 2 ^ 21 + 4 * i
    let mom (b i : Nat) : Nat := b + l.first * 2 ^ 20 + 2 * i
    (s.layerReady l = false → exec .updateLayerStart s = .next s)
    ∧ (s.layerReady l = true → ∃ t, exec .updateLayerStart s = .next t ∧ t.upd.next = u.next + 1 ∧ t.upd.layer = u.next
        ∧ (l.npages = 1 → if l.expect * contribution < s.arrivedOf (s.ledgerSlot l.first)
            then t.upd.result = 0x1E ∧ ∃ f ∈ t.fq.offered, f.code = 0x1E else t.upd.result = 0)
        ∧ (skip = true → t.upd.skipped = true ∧ (∀ b, u.abase + l.first * (3 * 2 ^ 20) ≤ b →
            b < u.abase + (l.first + l.npages) * (3 * 2 ^ 20) → Memory.byte t.tierB b = 0#8)
            ∧ (u.apply = false → Memory.nat t.tierA (s.updBase + layerOff u.nchip u.next + 48) 4 % 2 = 1)
            ∧ (u.apply = true → t.link = s.link))
        ∧ (skip = false → l.npages = 1 → (∀ b, b < slotBytes → Memory.byte t.tierA (s.slotAddr l.first + b) = 0#8))
        ∧ (skip = false → l.npages = 1 → u.apply = false →
            (∀ i, i < pageParams → Memory.nat t.tierB (acc i) 6 = accAdd (Memory.nat s.tierB (acc i) 6) (led i))
            ∧ ∀ b, b < acc 0 ∨ acc pageParams ≤ b → Memory.byte t.tierB b = Memory.byte s.tierB b)
        ∧ (skip = false → l.npages = 1 → u.apply = true →
            allPairs (fun (x y : Nat × Nat) => apart x.1 x.2 y.1 y.2)
              [(mas 0, 2 ^ 21), (mom u.m1base 0, 2 ^ 20), (mom u.m2base 0, 2 ^ 20), (acc 0, 3 * 2 ^ 20), (l.sibase, l.imgBytes)] = true →
            ∀ i, i < pageParams →
              let r := updParam (ruleOf u l) (sext 48 (accAdd (Memory.nat s.tierB (acc i) 6) (led i)))
                (FFmt.fp32.read (Memory.nat s.tierB (mas i) 4)).1 (FFmt.bf16.read (Memory.nat s.tierB (mom u.m1base i) 2)).1
                (FFmt.bf16.read (Memory.nat s.tierB (mom u.m2base i) 2)).1
              Memory.nat t.tierB (mas i) 4 = (FFmt.fp32.write .rne r.1).1 % 2 ^ 32
                ∧ Memory.nat t.tierB (mom u.m1base i) 2 = (FFmt.bf16.write .rne r.2.1).1 % 2 ^ 16
                ∧ Memory.nat t.tierB (mom u.m2base i) 2 = (FFmt.bf16.write .rne r.2.2).1 % 2 ^ 16
                ∧ Memory.nat t.tierB (acc i) 6 = 0)) := by
  intro u skip a led acc mas mom
  have hexec := s.exec_updateLayerStart l hl hrun hhold hbusy hread hres hA hB
  obtain ⟨haddr, harr⟩ := State.ledger_congr (s := s) (t := s.layerAt) rfl rfl rfl rfl rfl l.first
  refine ⟨fun hr => hexec.trans (if_pos (by rw [hr]; rfl)), fun hr => ⟨_, hexec.trans (if_neg (by rw [hr]; decide)), ?_⟩⟩
  cases hskip : (s.upd.skipped || s.layerAny l != 0 || (s.upd.apply && l.skip)) with
  | true =>
    obtain ⟨hnext, hlayer, hsk, hacc, hbit, hlink, hdrain⟩ := s.layerAt.skipLayer_spec l s.upd.next
    rw [harr] at hdrain
    have hns : skip ≠ false := fun h => by simp [skip, u, hskip] at h
    rw [if_pos rfl]
    refine ⟨hnext, hlayer, fun h1 => ?_, fun _ => ⟨hsk, hacc, hbit, fun _ => hlink⟩, fun h => absurd h hns, fun h => absurd h hns, fun h => absurd h hns⟩
    have h := hdrain h1
    rwa [show s.layerAt.upd.result = 0 from hres] at h
  | false =>
    have hns : skip ≠ true := fun h => by simp [skip, u, hskip] at h
    rw [if_neg Bool.false_ne_true]
    have hplace := foldl_leaves (fun t : State => (t.upd.next, t.upd.layer)) (f := fun (t : State) j => t.updPage l j)
      (fun t j => t.updPage_place l j) (List.range l.npages) s.layerAt
    simp only [Prod.mk.injEq] at hplace
    have hone : l.npages = 1 → (List.range l.npages).foldl (fun (t : State) j => t.updPage l j) s.layerAt = s.layerAt.updPage l 0 := fun h1 => by
      rw [h1]
      rfl
    obtain ⟨hslot, hdrain, hacc, happ⟩ := s.layerAt.updPage_layer l
    rw [haddr] at hslot
    rw [harr, show s.layerAt.upd.result = 0 from hres] at hdrain
    have hled : s.layerAt.ledgerOf l.first = led := by
      funext i
      simp only [State.ledgerOf, haddr]
      rfl
    refine ⟨hplace.1, hplace.2, fun h1 => ?_, fun h => absurd h hns, fun _ h1 => ?_, fun _ h1 hap => ?_, fun _ h1 hap hapart i hi => ?_⟩
    · rw [hone h1]
      exact hdrain
    · rw [hone h1]
      exact hslot
    · rw [hone h1, hacc hap, hled]
      exact pageStep_accumulates s.layerAt.upd (ruleOf s.layerAt.upd l) l.first led s.tierB hap
    · rw [hone h1, happ hap, ← hled]
      exact s.layerAt.imagePut_spec l hap hapart i hi

/-! ### The ends of a layer and of a step -/

/-- The posts of a layer's completion: one for every core of its partition (R346). -/
theorem State.postLayer_spec (s : State) (l : Layer) : ∃ ps, (s.postLayer l).posts = s.posts ++ ps
    ∧ List.length ps = 32 * ((s.partEnt l.part).map (·.size)).getD 0
    ∧ (∀ m ∈ ps, PostMsg.sem m = l.sem ∧ m.cnt = 1 ∧ m.part = l.part) ∧ (s.postLayer l).upd.drained = s.upd.drained := by
  refine ⟨_, rfl, ?_, fun m hm => ?_, rfl⟩
  · rw [List.length_map, List.length_range]
  · obtain ⟨i, -, rfl⟩ := List.mem_map.mp hm
    exact ⟨rfl, rfl, rfl⟩

/-- Clearing SKIP in the records changes tier A alone, and leaves every record's SKIP clear (R345). -/
theorem State.clearSkip_spec (s : State) : (∃ m, s.clearSkip = { s with tierA := m })
    ∧ ∀ i, i < s.upd.layers.length → Memory.nat s.clearSkip.tierA (s.updBase + layerOff s.upd.nchip i + 48) 4 % 2 = 0 := by
  let f : State → Nat → State := fun t i =>
    let a := s.updBase + layerOff s.upd.nchip i + 48
    { t with tierA := Memory.setNat t.tierA a 4 (Memory.nat t.tierA a 4 / 2 * 2) }
  have hA : ∀ (l : List Nat) (t : State), ∃ m, l.foldl f t = { t with tierA := m } := by
    intro l
    induction l with
    | nil => exact fun t => ⟨t.tierA, rfl⟩
    | cons i l ih =>
      intro t
      obtain ⟨m, hm⟩ := ih (f t i)
      exact ⟨m, hm⟩
  have hbit : ∀ (l : List Nat) (t : State) (i : Nat),
      (i ∈ l ∨ Memory.nat t.tierA (s.updBase + layerOff s.upd.nchip i + 48) 4 % 2 = 0) →
      Memory.nat (l.foldl f t).tierA (s.updBase + layerOff s.upd.nchip i + 48) 4 % 2 = 0 := by
    intro l
    induction l with
    | nil => exact fun t i h => h.resolve_left List.not_mem_nil
    | cons j l ih =>
      intro t i h
      refine ih (f t j) i ?_
      by_cases hij : i = j
      · refine .inr ?_
        subst hij
        show Memory.nat (Memory.setNat _ _ _ _) _ 4 % 2 = 0
        rw [Memory.nat_setNat]
        omega
      · refine (h.imp_left fun h => (List.mem_cons.mp h).resolve_left hij).imp_right fun h => ?_
        show Memory.nat (Memory.setNat _ _ _ _) _ 4 % 2 = 0
        rw [Memory.nat_setNat_ne _ _ _ _ _ _ (by simp only [layerOff]; omega)]
        exact h
  exact ⟨hA _ s, fun i hi => hbit _ s i (.inl (List.mem_range.mpr hi))⟩

theorem State.regN_setRegN (s : State) (o p v : Nat) : (s.setRegN o v).regN p = if p = o then v % 2 ^ 32 else s.regN p := by
  rw [State.regN, State.setRegN, State.reg_setReg, apply_ite BitVec.toNat, BitVec.toNat_ofNat]
  rfl

theorem State.regN_lt (s : State) (o : Nat) : s.regN o < 2 ^ 32 := (s.reg o).isLt

/-- The low byte of a word with a number put in it, read with its sign. -/
theorem sext_wrap (v : Nat) (x : Int) (hlo : -128 ≤ x) (hhi : x < 128) : sext 8 (v / 256 * 256 + wrap 8 x) = x := by
  have hw : ((wrap 8 x : Nat) : Int) = x % 256 := Int.toNat_of_nonneg (Int.emod_nonneg x (by decide))
  have hlt := wrap_lt 8 x
  simp only [sext]
  split <;> omega

theorem sext_range (v : Nat) : -128 ≤ sext 8 v ∧ sext 8 v < 128 := by
  simp only [sext]
  split <;> omega

theorem sext_mod (v : Nat) : sext 8 (v % 256) = sext 8 v := by simp only [sext, Nat.reducePow, Nat.mod_mod]

/-- LS and CLEAN at the end of a step (R347): a skipped layer lowers LS; with growth off a clean step counts. -/
theorem State.lossEnd_spec (s : State) : s.lossEnd.upd = s.upd ∧ s.lossEnd.tierA = s.tierA
    ∧ (s.upd.skipped = true → s.lossEnd.regN oLossRun = 0 ∧ sext 8 (s.lossEnd.regN oLoss) = max (-126) (sext 8 (s.regN oLoss) - 1))
    ∧ (s.upd.skipped = false → s.regN oLoss / 65536 = 0 →
        s.lossEnd.regN oLossRun = (s.regN oLossRun + 1) % 2 ^ 32 ∧ s.lossEnd.regN oLoss = s.regN oLoss) := by
  have hlt := s.regN_lt oLoss
  have hrange := sext_range (s.regN oLoss)
  have hmod := sext_mod (s.regN oLoss)
  refine ⟨?_, ?_, fun hsk => ?_, fun hsk hgrow => ?_⟩
  · simp only [State.lossEnd]
    repeat' split
    all_goals rfl
  · simp only [State.lossEnd]
    repeat' split
    all_goals rfl
  · have heq : s.lossEnd = (s.setRegN oLoss (s.regN oLoss / 256 * 256 + wrap 8 (max (-126) (sext 8 (s.regN oLoss) - 1)))).setRegN oLossRun 0 := by
      simp only [State.lossEnd, hsk, if_true, hmod]
      congr 4
      split <;> omega
    have hwlt := wrap_lt 8 (max (-126) (sext 8 (s.regN oLoss) - 1))
    rw [heq, State.regN_setRegN, if_pos rfl, State.regN_setRegN, if_neg (by decide), State.regN_setRegN, if_pos rfl,
      Nat.mod_eq_of_lt (show s.regN oLoss / 256 * 256 + wrap 8 (max (-126) (sext 8 (s.regN oLoss) - 1)) < 2 ^ 32 by omega)]
    exact ⟨rfl, sext_wrap (s.regN oLoss) (max (-126) (sext 8 (s.regN oLoss) - 1)) (by omega) (by omega)⟩
  · have h31 : fld (s.regN oLoss) 31 16 = 0 := congrArg (· % 2 ^ 16) ((Nat.shiftRight_eq_div_pow (s.regN oLoss) 16).trans hgrow)
    have heq : s.lossEnd = s.setRegN oLossRun ((s.regN oLossRun + 1) % 2 ^ 32) := by
      simp only [State.lossEnd, hsk, Bool.false_eq_true, if_false, h31, ne_eq, not_true_eq_false, false_and]
    rw [heq, State.regN_setRegN, if_pos rfl, State.regN_setRegN, if_neg (by decide), Nat.mod_mod]
    exact ⟨rfl, rfl⟩

/-- The step as it starts, its table not yet read (R341). -/
def State.stepStarted (s : State) (ap : Bool) : State := { s with upd := { s.upd with
  busy := true, reading := true, apply := ap, skipped := false, result := 0, next := 0, layers := [], ls := sext 8 (s.regN oLoss % 256) } }

/-- A step that starts waits for tier A, or reads its table and ends where the table is bad (R341). -/
theorem State.readWhenUp_stepStarted (s : State) (ap : Bool) :
    let u := s.upd
    let t := (s.stepStarted ap).readWhenUp
    t.upd.busy = true ∧ t.upd.apply = ap ∧ t.upd.next = 0
    ∧ t.upd.ls = sext 8 (s.regN oLoss) ∧ t.upd.skipped = false ∧ t.upd.reading = !s.tierUp false
    ∧ (s.tierUp false = false → t.upd.result = 0 ∧ t.upd.layers = [] ∧ t.fq = s.fq)
    ∧ (s.tierUp false = true → t.upd.layers = (u.readTable s.tierA s.updBase).layers
      ∧ (s.nslotL = 0 ∨ tableBad s.tierA s.updBase (u.readTable s.tierA s.updBase) = true → t.upd.result = 0x1F
          ∧ ∃ f : FRec, f.code = 0x1F ∧ t.fq.offered = s.fq.offered ++ [f])
      ∧ (s.nslotL ≠ 0 → tableBad s.tierA s.updBase (u.readTable s.tierA s.updBase) = false → t.upd.result = 0 ∧ t.fq = s.fq)) := by
  intro u t
  cases hA : s.tierUp false with
  | false =>
    have ht : t = s.stepStarted ap := if_neg (by rw [show (s.stepStarted ap).tierUp false = s.tierUp false from rfl, hA, Bool.and_false]; decide)
    rw [ht]
    exact ⟨rfl, rfl, rfl, sext_mod _, rfl, rfl, fun _ => ⟨rfl, rfl, rfl⟩, fun h => absurd h (by decide)⟩
  | true =>
    have ht : t = (s.stepStarted ap).readStep := if_pos (by rw [show (s.stepStarted ap).tierUp false = s.tierUp false from rfl, hA]; rfl)
    have hbad : tableBad s.tierA s.updBase ((s.stepStarted ap).upd.readTable s.tierA s.updBase)
      = tableBad s.tierA s.updBase (u.readTable s.tierA s.updBase) := rfl
    have hstep : (s.stepStarted ap).readStep = if s.nslotL = 0 ∨ tableBad s.tierA s.updBase (u.readTable s.tierA s.updBase) = true
        then ({ s with upd := { (s.stepStarted ap).upd.readTable s.tierA s.updBase with reading := false } } : State).updEndWith 0x1F
        else { s with upd := { (s.stepStarted ap).upd.readTable s.tierA s.updBase with reading := false } } := by
      rw [← hbad]
      exact ite_congr ((Bool.or_eq_true _ _).trans (congrArg (· ∨ _) decide_eq_true_eq)) (fun _ => rfl) (fun _ => rfl)
    rw [ht, hstep]
    by_cases hb : s.nslotL = 0 ∨ tableBad s.tierA s.updBase (u.readTable s.tierA s.updBase) = true
    · rw [if_pos hb]
      exact ⟨rfl, rfl, rfl, sext_mod _, rfl, rfl, fun h => absurd h (by decide), fun _ => ⟨rfl, fun _ => ⟨rfl, _, rfl, rfl⟩,
        fun h0 h1 => absurd hb (by simp [h0, h1])⟩⟩
    · rw [if_neg hb]
      exact ⟨rfl, rfl, rfl, sext_mod _, rfl, rfl, fun h => absurd h (by decide), fun _ => ⟨rfl, fun h => absurd h hb, fun _ _ => ⟨rfl, rfl⟩⟩⟩

end Sys2Proof.Machine
end

section
open Sys2Proof Sys2Proof.Machine

/-- Settles O54: a page is updated parameter by parameter, each in bytes of its own; the rest is read off the commands. -/
theorem selfTestAndUpdate : Obligations.SelfTestAndUpdate := by
  unfold Obligations.SelfTestAndUpdate
  intro s ha u
  have hmg : s.byMgmt .mgmt = true := by simp [State.byMgmt, ha]
  have hho : s.byHost .host = true := by simp [State.byHost, ha]
  refine ⟨fun hact => ⟨fun h => ?_, fun hl hb hh => ?_, fun hl hb hh => ?_⟩, fun hact => ?_, fun slabs hubs hact => s.selfTestComplete_spec slabs hubs hact,
    fun hb ap => if_pos (by simp [show s.upd.busy = true from hb]), fun ap hb => ?_, fun l hl hrun hhold hbusy hread hres hA hB => ?_,
    fun layer l hl hrun hup hdr => ?_, fun hrun hbusy hread hA hend => ?_⟩
  · exact (if_neg (by simp [hmg, hact])).trans (if_pos (by simpa using h))
  · exact (if_neg (by simp [hmg, hact])).trans ((if_neg (by simp [hl, hb])).trans (if_pos (by simp [hh])))
  · exact (if_neg (by simp [hmg, hact])).trans ((if_neg (by simp [hl, hb])).trans (if_neg (by simp [hh])))
  · exact (if_pos hmg).trans (congrArg Host.Outcome.next (if_pos hact))
  · exact ⟨_, if_neg (by simp [hho, show s.upd.busy = false from hb]), s.readWhenUp_stepStarted ap⟩
  · exact s.updateLayer_spec l hl hrun hhold hbusy hread hres hA hB
  · have hmatch : exec (.layerUpdateComplete layer) s
        = .next (({ s with upd := { s.upd with drained := s.upd.drained.erase layer.toNat } } : State).postLayer l) := by
      show execLayerUpdateComplete layer s = _
      simp only [execLayerUpdateComplete, hl]
      exact (if_neg (by simp [hrun, hup])).trans (if_pos hdr)
    obtain ⟨ps, hposts, hlen, hall, hdrained⟩ :=
      ({ s with upd := { s.upd with drained := s.upd.drained.erase layer.toNat } } : State).postLayer_spec l
    exact ⟨_, ps, hmatch, hposts, hlen, hall, hdrained⟩
  · have hexec : exec .updateStepEnd s = .next (
        let t := (if s.upd.apply then s.clearSkip else s).lossEnd
        { t with upd := { t.upd with busy := false } }) := if_neg (by
      simp only [hrun, show s.upd.busy = true from hbusy, show s.upd.reading = false from hread, hA]
      rcases hend with h | h
      · simp [show s.upd.result ≠ 0 from h]
      · simp [show s.upd.layers.length ≤ s.upd.next from h])
    obtain ⟨⟨m, hm⟩, hskip⟩ := s.clearSkip_spec
    have hcl : ∃ m, (if s.upd.apply then s.clearSkip else s) = { s with tierA := m } := by
      split
      · exact ⟨m, hm⟩
      · exact ⟨s.tierA, rfl⟩
    have hsk : ∀ i, i < s.upd.layers.length → s.upd.apply = true →
        Memory.nat (if s.upd.apply then s.clearSkip else s).tierA (s.updBase + layerOff s.upd.nchip i + 48) 4 % 2 = 0 := fun i hi hap => by
      rw [if_pos hap]
      exact hskip i hi
    generalize (if s.upd.apply then s.clearSkip else s) = v at hexec hcl hsk
    obtain ⟨m', rfl⟩ := hcl
    obtain ⟨hupd, htier, hloss, hclean⟩ := State.lossEnd_spec { s with tierA := m' }
    refine ⟨_, hexec, ?_, fun i hi hap => ?_, hloss, hclean⟩
    · dsimp only
      rw [hupd]
    · dsimp only
      rw [htier]
      exact hsk i hi hap

end

section
/-! Peers, keys, seeds and rounds (chapters 16 and 17): a peer's context moved and reset, its messages stopped, and what each command writes (R360,
R370 to R372, R379, R392 to R395). -/

namespace Sys2Proof.Machine

/-! ### Messages to a peer stop -/

/-- A halt changes the core, its fault record and the streams' count of halted cores alone. -/
theorem State.haltCore_leaves {γ : Type} (p : State → γ) (hset : ∀ (t : State) c k, p (t.setCore c k) = p t)
    (hsubs : ∀ (t : State) l, p { t with subs := l } = p t) (hoffer : ∀ (t : State) f, p (t.offer f) = p t) (s : State) (c : Nat) (f : CFault) :
    p (s.haltCore c f) = p s := by
  simp only [State.haltCore]
  split
  · exact hoffer _ _
  · rw [State.noteHalt_eq, hsubs]
    exact (hset _ _ _).trans (hoffer _ _)

/-- A stopped message leaves the link hub's list; peers and the other messages stay. -/
theorem State.failSend_link (s : State) (x : Send) (code : Nat) : (s.failSend x code).link = { s.link with
    sends := s.link.sends.filter (fun y => y.id ≠ x.id) } := by
  have hhalt : ∀ (t : State) c f, (t.haltCore c f).link = t.link :=
    State.haltCore_leaves State.link (fun _ _ _ => rfl) (fun _ _ => rfl) (fun _ _ => rfl)
  simp only [State.failSend]
  split
  · split
    · simp only [State.stopXfer]
      split <;> exact hhalt _ _ _
    · exact hhalt _ _ _
  · exact hhalt _ _ _
  · rfl
  · rfl

/-- When every message to a peer has been stopped, none of those left is unfinished. -/
theorem State.failSends_link (s : State) (i code : Nat) : ∃ l, (s.failSends i code).link = { s.link with sends := l }
    ∧ ∀ z ∈ l, z.peer = i → z.fin = true := by
  have h : ∀ (l : List Send) (t : State), ∃ m, (l.foldl (fun (t : State) x => t.failSend x code) t).link = { t.link with sends := m }
      ∧ ∀ z ∈ m, z ∈ t.link.sends ∧ z ∉ l := by
    intro l
    induction l with
    | nil => exact fun t => ⟨t.link.sends, rfl, fun z hz => ⟨hz, List.not_mem_nil⟩⟩
    | cons x l ih =>
      intro t
      obtain ⟨m, hm, hin⟩ := ih (t.failSend x code)
      rw [State.failSend_link] at hm hin
      refine ⟨m, hm, fun z hz => ?_⟩
      obtain ⟨hz1, hz2⟩ := hin z hz
      obtain ⟨hz3, hz4⟩ := List.mem_filter.mp hz1
      refine ⟨hz3, fun hmem => (List.mem_cons.mp hmem).elim (fun e => ?_) hz2⟩
      rw [e] at hz4
      simp at hz4
  obtain ⟨m, hm, hin⟩ := h (s.link.sends.filter (fun x => x.peer == i && !x.fin)) s
  refine ⟨m, hm, fun z hz hp => ?_⟩
  obtain ⟨hz1, hz2⟩ := hin z hz
  refine Classical.byContradiction fun hf => ?_
  exact hz2 (List.mem_filter.mpr ⟨hz1, by simp [hp, hf]⟩)

/-! ### Peers -/

theorem State.peer_append (s : State) (n : Nat) (q : Peer) (hq : q.idx = n) (h : s.peer n = none) :
    (s.link.peers ++ [q]).find? (fun p => p.idx = n) = some q := by
  rw [List.find?_append, show s.link.peers.find? (fun p => p.idx = n) = none from h]
  simp [hq]

theorem State.peer_idx (s : State) {n : Nat} {p : Peer} (h : s.peer n = some p) : p.idx = n := by
  simpa using List.find?_some h

/-- A peer that is set is the one found, where one was cached. -/
theorem State.peer_setPeer (s : State) {n : Nat} {p q : Peer} (hq : q.idx = n) (h : s.peer n = some p) : (s.setPeer q).peer n = some q := by
  have hfind : ∀ l : List Peer, (l.find? (fun p => p.idx = n)).isSome = true →
      (l.map (fun x => if x.idx = q.idx then q else x)).find? (fun p => p.idx = n) = some q := by
    intro l
    induction l with
    | nil => exact fun h => absurd h (by simp)
    | cons x l ih =>
      intro hsome
      by_cases hx : x.idx = n
      · simp [hq, hx]
      · rw [List.find?_cons_of_neg (by simpa using hx)] at hsome
        rw [List.map_cons, hq, if_neg hx, List.find?_cons_of_neg (by simpa using hx), ← hq, hq]
        simpa [hq] using ih hsome
  exact hfind s.link.peers (by rw [show s.link.peers.find? (fun p => p.idx = n) = some p from h]; rfl)

theorem State.peer_filter (l : List Peer) (n : Nat) : (l.filter (fun x => x.idx ≠ n)).find? (fun p => p.idx = n) = none := by
  simp

/-- The words of a context, written to host memory. -/
theorem nat_contextOut (m : Memory) (a : Nat) (ws : List Nat) (w v : Nat) (h : ws[w]? = some v) :
    Memory.nat (ws.zipIdx.foldl (fun m x => Memory.setNat m (a + 4 * x.2) 4 x.1) m) (a + 4 * w) 4 = v % 2 ^ 32 := by
  have hpair : ws.zipIdx.Pairwise (fun x y => a + 4 * x.2 + 4 ≤ a + 4 * y.2 ∨ a + 4 * y.2 + 4 ≤ a + 4 * x.2) := by
    rw [List.pairwise_iff_getElem]
    intro i j hi hj hij
    simp only [List.getElem_zipIdx]
    omega
  have hmem : (v, w) ∈ ws.zipIdx := by
    rw [List.mem_zipIdx_iff_getElem?]
    exact h
  exact (Memory.foldl_setNat (fun x : Nat × Nat => a + 4 * x.2) (fun x => x.1) 4 ws.zipIdx m hpair).1 (v, w) hmem

/-- Contexts that wait are written back: the last one's words stand in host memory (R371). -/
theorem State.evictOut_last (s : State) (l : List Peer) (p : Peer) (hl : s.link.evicting = l ++ [p]) :
    s.evictOut.link.peers = s.link.peers ∧ s.evictOut.link.peerResult = s.link.peerResult
    ∧ (s.link.peerCmd = p.idx → s.evictOut.link.peerDone = true) ∧ s.evictOut.cores = s.cores
    ∧ ∀ w v, p.words[w]? = some v → Memory.nat s.evictOut.hostOut (s.peerAddr p.idx + 4 * w) 4 = v % 2 ^ 32 := by
  let f : State → Peer → State := fun t p =>
    { t with hostOut := (p.words.zipIdx).foldl (fun m w => Memory.setNat m (t.peerAddr p.idx + 4 * w.2) 4 w.1) t.hostOut,
             link := { t.link with peerDone := t.link.peerDone || t.link.peerCmd == p.idx } }
  have heq : s.evictOut = f (l.foldl f { s with link := { s.link with evicting := [] } }) p := by
    show s.link.evicting.foldl f _ = _
    rw [hl, List.foldl_append]
    rfl
  have hkeep : ∀ {γ : Type} (g : State → γ), (∀ t q, g (f t q) = g t) → g (l.foldl f { s with link := { s.link with evicting := [] } })
      = g { s with link := { s.link with evicting := [] } } := fun g hg => foldl_leaves g hg l _
  have hpeers := hkeep (fun t => t.link.peers) (fun _ _ => rfl)
  have hres := hkeep (fun t => t.link.peerResult) (fun _ _ => rfl)
  have hcmd := hkeep (fun t => t.link.peerCmd) (fun _ _ => rfl)
  have hcores := hkeep (fun t => t.cores) (fun _ _ => rfl)
  have hregs := hkeep (fun t => t.regs) (fun _ _ => rfl)
  generalize l.foldl f { s with link := { s.link with evicting := [] } } = u at heq hpeers hres hcmd hcores hregs
  rw [heq]
  have haddr : u.peerAddr p.idx = s.peerAddr p.idx := by simp only [State.peerAddr, State.pair, State.regN, State.reg, hregs]
  have hout : (f u p).hostOut = p.words.zipIdx.foldl (fun m w => Memory.setNat m (s.peerAddr p.idx + 4 * w.2) 4 w.1) u.hostOut := by
    simp only [f, haddr]
  refine ⟨hpeers, hres, fun hc => ?_, hcores, fun w v hw => ?_⟩
  · show (u.link.peerDone || u.link.peerCmd == p.idx) = true
    rw [hcmd, hc]
    simp
  · rw [hout]
    exact nat_contextOut u.hostOut (s.peerAddr p.idx) p.words w v hw

/-- The fetch of peer `i` is over: its parked packets are no longer parked. -/
def State.fetched (s : State) (i : Nat) : State :=
  ({ s with link := { s.link with fetch := s.link.fetch.erase i, peerDone := s.link.peerDone || s.link.peerCmd == i } } : State).unpark i

/-- The groups of messages that a new registration has not seen. -/
def State.freshDedup (s : State) (i : Nat) (data : List Byte) : Sp Nat :=
  if fld (bytesAt data 0x4C 4) 8 0 = 0 then Sp.set 0 (s.fetched i).link.dedup i 0 else (s.fetched i).link.dedup

/-- A context that comes from memory (R360, R370). -/
theorem State.peerFetchComplete_spec (s : State) (i : BitVec 14) (data : List Byte) (err : Bool) (hrun : s.running = true)
    (hf : s.link.fetch.contains i.toNat = true) (hroom : s.link.peers.length + s.link.evicting.length < 1024) (hlen : List.length data = 256)
    (hp : s.peer i.toNat = none) (hup : s.hostUp = true) (hev : ∀ x ∈ s.link.evicting, x.idx ≠ i.toNat) :
    let n := i.toNat
    let p := s.peerOf n data
    (err = false → s.peerBad p = none → p.dead = false → ∃ t, exec (.peerFetchComplete i err data) s = .next t
      ∧ t.link.peers = s.link.peers ++ [p] ∧ t.link.rx = (s.parkedFor n).map (fun x => { x with parked := true }) ++ s.link.rx
        ∧ t.link.fetch = s.link.fetch.erase n)
    ∧ (∀ code, err = false → s.peerBad p = some code → ∃ t, exec (.peerFetchComplete i err data) s = .next t
      ∧ t.peer n = some { p with dead := true, deadCode := code } ∧ ∀ z ∈ t.link.sends, Send.peer z = n → z.fin = true)
    ∧ (err = true → ∃ t, exec (.peerFetchComplete i err data) s = .next t ∧ t.link.peers = s.link.peers
      ∧ ∀ z ∈ t.link.sends, Send.peer z = n → z.fin = true) := by
  intro n p
  have hguard : ¬ (!s.running || !s.link.fetch.contains n || !s.hostUp || decide (1024 ≤ s.link.peers.length + s.link.evicting.length)
      || s.link.evicting.any (fun x => x.idx = n) || data.length != 256) = true := by
    have h6 : s.link.evicting.any (fun x => x.idx = n) = false := by
      rw [List.any_eq_false]
      intro x hx
      simpa using hev x hx
    rw [hrun, show s.link.fetch.contains n = true from hf, hup, h6, hlen, decide_eq_false (Nat.not_le.mpr hroom)]
    decide
  refine ⟨fun he hb hd => ?_, fun code he hb => ?_, fun he => ?_⟩
  · subst he
    have hexec : exec (.peerFetchComplete i false data) s = .next { s.fetched n with link := { (s.fetched n).link with
        peers := (s.fetched n).link.peers ++ [p], rx := (s.parkedFor n).map (fun x => { x with parked := true }) ++ (s.fetched n).link.rx,
        dedup := s.freshDedup n data } } := by
      show execPeerFetchComplete i false data s = _
      simp only [execPeerFetchComplete]
      rw [if_neg hguard]
      simp only [Bool.false_eq_true, if_false]
      rw [show s.peerBad (s.peerOf i.toNat data) = none from hb]
      exact congrArg Host.Outcome.next (if_neg (by rw [show (s.peerOf i.toNat data).dead = false from hd]; decide))
    exact ⟨_, hexec, rfl, rfl, rfl⟩
  · subst he
    let u := (s.parkedFor n).foldl (fun (v : State) _ => v.count (oHubCnt 2)) (s.fetched n)
    have hu : u.link = (s.fetched n).link := foldl_leaves State.link (f := fun (v : State) (_ : Pkt) => v.count (oHubCnt 2)) (fun _ _ => rfl) _ _
    let q : Peer := { p with dead := true, deadCode := code }
    have hexec : exec (.peerFetchComplete i false data) s = .next (({ u with link := { u.link with
        peers := u.link.peers ++ [q], dedup := s.freshDedup n data } } : State).failSends n code) := by
      show execPeerFetchComplete i false data s = _
      simp only [execPeerFetchComplete]
      rw [if_neg hguard]
      simp only [Bool.false_eq_true, if_false]
      rw [show s.peerBad (s.peerOf i.toNat data) = some code from hb]
      rfl
    obtain ⟨l, hlink, hfin⟩ := State.failSends_link ({ u with link := { u.link with peers := u.link.peers ++ [q], dedup := s.freshDedup n data } } : State)
      n code
    refine ⟨_, hexec, ?_, ?_⟩
    · rw [State.peer, hlink, hu]
      exact s.peer_append n q rfl hp
    · rw [hlink]
      exact hfin
  · subst he
    obtain ⟨l, hlink, hfin⟩ := State.failSends_link (s.fetched n) n 0x61
    refine ⟨_, (if_neg hguard).trans (if_pos rfl), ?_⟩
    show ((s.fetched n).failSends n 0x61).link.peers = _ ∧ ∀ z ∈ ((s.fetched n).failSends n 0x61).link.sends, _
    rw [hlink]
    exact ⟨rfl, hfin⟩

/-- A context evicted: it is no longer cached, and is written back where the host port runs, or waits (R371, R59). -/
theorem State.peercmdEvict_spec (s : State) (i : BitVec 14) (p : Peer) (ha : s.answers = true) (hm : s.peerMoving i.toNat = false)
    (hp : s.peer i.toNat = some p) (hb : s.peerBusy p = false) :
    ∃ t, exec (.peercmdEvict .host i) s = .next t ∧ t.peer i.toNat = none ∧ t.link.peerResult = 0
      ∧ (s.hostUp = true → t.link.peerDone = true
        ∧ ∀ w v, p.words[w]? = some v → Memory.nat t.hostOut (s.peerAddr i.toNat + 4 * w) 4 = v % 2 ^ 32)
      ∧ (s.hostUp = false → t.link.peerDone = false ∧ t.link.evicting = s.link.evicting ++ [p] ∧ t.hostOut = s.hostOut)
      ∧ t.cores = s.cores := by
  let u := ({ s with link := { s.link with
    peers := s.link.peers.filter (fun x => x.idx ≠ i.toNat), evicting := s.link.evicting ++ [p] } } : State).peerAccept i.toNat false
  have hidx := s.peer_idx hp
  have hexec : exec (.peercmdEvict .host i) s = .next (if s.hostUp then u.evictOut else u) := by
    show execPeercmdEvict .host i s = _
    simp only [execPeercmdEvict]
    rw [if_neg (by rw [ha]; decide), if_neg (by rw [hm]; decide), hp]
    exact if_neg (by rw [hb]; decide)
  have hnone : u.peer i.toNat = none := State.peer_filter s.link.peers i.toNat
  cases hup : s.hostUp with
  | true =>
    obtain ⟨hpeers, hres, hdone, hcores, hwords⟩ := u.evictOut_last s.link.evicting p rfl
    rw [hup, if_pos rfl] at hexec
    refine ⟨_, hexec, ?_, hres, fun _ => ⟨hdone hidx.symm, ?_⟩, fun h => absurd h (by decide), hcores⟩
    · rw [State.peer, hpeers]
      exact hnone
    · have haddr : u.peerAddr p.idx = s.peerAddr i.toNat := by simp only [State.peerAddr, hidx]; rfl
      rw [haddr] at hwords
      exact hwords
  | false =>
    rw [hup, if_neg (by decide)] at hexec
    exact ⟨u, hexec, hnone, rfl, fun h => absurd h (by decide), fun _ => ⟨rfl, rfl, rfl⟩, rfl⟩

/-- A context reset: the state of a new registration (R371). -/
theorem State.peercmdReset_spec (s : State) (i : BitVec 14) (p : Peer) (ha : s.answers = true) (hp : s.peer i.toNat = some p)
    (hb : s.peerBusy p = false) : ∃ t, exec (.peercmdReset .host i) s = .next t ∧ t.link.peerResult = 0 ∧ Sp.get 0 t.link.dedup i.toNat = 0
      ∧ t.peer i.toNat = some { idx := i.toNat, reg := p.reg, cwnd := s.cwInit, rto := s.rtoInit, lastLink := p.lastLink } := by
  let q : Peer := { idx := i.toNat, reg := p.reg, cwnd := s.cwInit, rto := s.rtoInit, lastLink := p.lastLink }
  have hexec : exec (.peercmdReset .host i) s = .next (({ s.setPeer q with link := { (s.setPeer q).link with
      dedup := Sp.set 0 (s.setPeer q).link.dedup i.toNat 0, reasm := (s.setPeer q).link.reasm.filter (fun r => r.peer ≠ i.toNat),
      firsts := (s.setPeer q).link.firsts.filter (fun r => r.peer ≠ i.toNat) } } : State).peerAccept i.toNat true) := by
    show execPeercmdReset .host i s = _
    simp only [execPeercmdReset]
    rw [if_neg (by rw [ha]; decide), hp]
    exact if_neg (by rw [hb]; decide)
  exact ⟨_, hexec, rfl, by rw [State.peerAccept, Sp.get_set, if_pos rfl], s.peer_setPeer (q := q) rfl hp⟩

theorem State.peercmd_busy (s : State) (i : BitVec 14) (p : Peer) (ha : s.answers = true) (hm : s.peerMoving i.toNat = false)
    (hp : s.peer i.toNat = some p) (hb : s.peerBusy p = true) :
    exec (.peercmdEvict .host i) s = .next (s.peerEnd 2) ∧ exec (.peercmdReset .host i) s = .next (s.peerEnd 2) := by
  constructor
  · show execPeercmdEvict .host i s = _
    simp only [execPeercmdEvict]
    rw [if_neg (by rw [ha]; decide), if_neg (by rw [hm]; decide), hp]
    exact if_pos hb
  · show execPeercmdReset .host i s = _
    simp only [execPeercmdReset]
    rw [if_neg (by rw [ha]; decide), hp]
    exact if_pos hb

theorem State.peercmdReset_none (s : State) (i : BitVec 14) (ha : s.answers = true) (hp : s.peer i.toNat = none) :
    exec (.peercmdReset .host i) s = .next (s.peerEnd 2) := by
  show execPeercmdReset .host i s = _
  simp only [execPeercmdReset]
  rw [if_neg (by rw [ha]; decide), hp]

theorem State.peercmdEvict_none (s : State) (i : BitVec 14) (ha : s.answers = true) (hm : s.peerMoving i.toNat = false)
    (hp : s.peer i.toNat = none) : exec (.peercmdEvict .host i) s = .next (s.peerEnd 1) := by
  show execPeercmdEvict .host i s = _
  simp only [execPeercmdEvict]
  rw [if_neg (by rw [ha]; decide), if_neg (by rw [hm]; decide), hp]

theorem State.peercmdFetch_cached (s : State) (i : BitVec 14) (p : Peer) (ha : s.answers = true) (hm : s.peerMoving i.toNat = false)
    (hp : s.peer i.toNat = some p) : exec (.peercmdFetch .host i) s = .next (s.peerAccept i.toNat true) :=
  (if_neg (by rw [ha]; decide)).trans ((if_neg (by rw [hm]; decide)).trans (if_pos (by rw [hp]; rfl)))

/-- A fetch of a peer that is not cached takes a free line (R371). -/
theorem State.peercmdFetch_uncached (s : State) (i : BitVec 14) (ha : s.answers = true) (hm : s.peerMoving i.toNat = false)
    (hp : s.peer i.toNat = none) :
    (s.freeLines = 0 → exec (.peercmdFetch .host i) s = .next (s.peerEnd 4))
    ∧ (s.freeLines ≠ 0 → ∃ t, exec (.peercmdFetch .host i) s = .next t ∧ t.link.peerResult = 0 ∧ t.link.fetch = s.link.fetch ++ [i.toNat]) := by
  have hgo : exec (.peercmdFetch .host i) s = if s.freeLines = 0 then .next (s.peerEnd 4) else .next ((s.peerAccept i.toNat false).wantPeer i.toNat) :=
    (if_neg (by rw [ha]; decide)).trans ((if_neg (by rw [hm]; decide)).trans (if_neg (by rw [hp]; decide)))
  refine ⟨fun h => hgo.trans (if_pos h), fun h => ?_⟩
  have hwant : (s.peerAccept i.toNat false).wantPeer i.toNat = { s.peerAccept i.toNat false with
      link := { (s.peerAccept i.toNat false).link with fetch := s.link.fetch ++ [i.toNat] } } := by
    refine if_neg ?_
    have hfetch : s.link.fetch.contains i.toNat = false := (Bool.or_eq_false_iff.mp hm).1
    rw [show (s.peerAccept i.toNat false).peer i.toNat = s.peer i.toNat from rfl, hp,
      show (s.peerAccept i.toNat false).link.fetch = s.link.fetch from rfl, hfetch]
    decide
  exact ⟨_, hgo.trans ((if_neg h).trans (congrArg Host.Outcome.next hwant)), rfl, rfl⟩

/-! ### Keys and seeds -/

theorem State.keySlot_setKey (s : State) (k j : Nat) (v : KeySlot) : (s.setKey k v).keySlot j = if j = k then v else s.keySlot j :=
  Sp.get_set ({} : KeySlot) s.link.keys k j v

/-- A key load takes the data registers and starts the counter at 0 (R372). -/
theorem State.keycmdLoad_spec (s : State) (k8 : BitVec 8) (hnh : ¬ (!s.byHost .host) = true) :
    ∃ t, exec (.keycmdLoad .host k8) s = .next t ∧ (t.keySlot k8.toNat).valid = true ∧ (t.keySlot k8.toNat).ctr = 0
      ∧ (t.keySlot k8.toNat).key = ((List.range 8).map (fun j => (Sp.get 0#32 s.link.keyData j).toNat * 2 ^ (32 * j))).sum
      ∧ (∀ j, j < 8 → Sp.get 0#32 t.link.keyData j = 0#32) ∧ (∀ k, t.reg (oHubCnt k) = s.reg (oHubCnt k)) ∧ ∀ j, j ≠ k8.toNat →
        t.keySlot j = s.keySlot j := by
  let u : State := { s with link := { s.link with keyData := [] } }
  have hslot := u.keySlot_setKey k8.toNat k8.toNat { valid := true, key := s.keyWords, ctr := 0 }
  rw [if_pos rfl] at hslot
  have hreg : ∀ o, (u.setKey k8.toNat { valid := true, key := s.keyWords, ctr := 0 }).reg o = s.reg o := fun o => rfl
  refine ⟨_, if_neg hnh, ?_, ?_, ?_, fun j _ => rfl, fun k => hreg _, fun j hj => (u.keySlot_setKey _ _ _).trans (if_neg hj)⟩
  · exact congrArg KeySlot.valid hslot
  · exact congrArg KeySlot.ctr hslot
  · exact congrArg KeySlot.key hslot

/-- The data registers that a load has taken read zero; the links' state stays (R392). -/
theorem State.takeData_spec (s : State) : (s.takeData oSeedData).2.link = s.link ∧ ∀ j, j < 8 → (s.takeData oSeedData).2.reg (oSeedData j) = 0#32 := by
  refine ⟨foldl_leaves State.link (f := fun (t : State) k => t.setRegN (oSeedData k) 0) (fun _ _ => rfl) _ _, fun j hj => ?_⟩
  have h : ∀ (l : List Nat) (t : State), (j ∈ l ∨ t.reg (oSeedData j) = 0#32) →
      (l.foldl (fun (t : State) k => t.setRegN (oSeedData k) 0) t).reg (oSeedData j) = 0#32 := by
    intro l
    induction l with
    | nil => exact fun t h => h.resolve_left List.not_mem_nil
    | cons k l ih =>
      intro t h
      refine ih _ ?_
      have hset : (t.setRegN (oSeedData k) 0).reg (oSeedData j) = if oSeedData j = oSeedData k then 0#32 else t.reg (oSeedData j) :=
        State.reg_setReg t _ _ _
      by_cases hk : oSeedData j = oSeedData k
      · exact .inr (hset.trans (if_pos hk))
      · refine Or.imp_right (hset.trans (if_neg hk)).trans ?_
        exact h.imp_left fun h => (List.mem_cons.mp h).resolve_left fun e => hk (congrArg oSeedData e)
  exact h _ s (.inl (List.mem_range.mpr hj))

theorem State.seeds_setSeed (s : State) (k : Nat) (v : Option Nat) : Sp.get none (s.setSeed k v).link.seeds k = v := by
  rw [State.setSeed, Sp.get_set, if_pos rfl]

/-- A seed load takes the data registers (R392). -/
theorem State.seedcmdLoad_spec (s : State) (k7 : BitVec 7) (hnh : ¬ (!s.byHost .host) = true) : ∃ t, exec (.seedcmdLoad .host k7) s = .next t
    ∧ Sp.get none t.link.seeds k7.toNat = some ((List.range 8).map (fun j => s.regN (oSeedData j) * 2 ^ (32 * j))).sum
    ∧ ∀ j, j < 8 → t.reg (oSeedData j) = 0#32 := by
  have hexec : exec (.seedcmdLoad .host k7) s = .next ((s.takeData oSeedData).2.setSeed k7.toNat (some (s.takeData oSeedData).1)) := if_neg hnh
  have hsum : (s.takeData oSeedData).1 = ((List.range 8).map (fun j => s.regN (oSeedData j) * 2 ^ (32 * j))).sum := rfl
  obtain ⟨-, hzero⟩ := s.takeData_spec
  rw [hsum] at hexec
  generalize (s.takeData oSeedData).2 = u at hexec hzero
  exact ⟨_, hexec, u.seeds_setSeed _ _, hzero⟩

/-! ### Rounds -/

theorem State.round_setRound (s : State) (k j : Nat) (r : Round) : (s.setRound k r).round j = if j = k then r else s.round j :=
  Sp.get_set ({} : Round) s.link.rounds k j r

/-- A round record is refused for slot `k` (R393). -/
def State.recordBad (s : State) (k : Nat) (data : List Byte) : Bool :=
  let npart := fld (bytesAt data 4 4) 6 0
  let self := fld (bytesAt data 4 4) 13 8
  decide (npart < 3) || decide (64 < npart) || decide (npart ≤ self) || bytesAt data 0 4 == 0
    || (List.range 8).any (fun i => i != k && (s.round i).st == 1 && (s.round i).round == bytesAt data 0 4)
    || ((List.range npart).map (fun j => bytesAt data (0x40 + j) 1 % 128)).zipIdx.any (fun x => x.2 != self && (Sp.get none s.link.seeds x.1).isNone)
    || (s.round k).st == 1

/-- The round that a record arms (R393). -/
def State.recordRound (s : State) (data : List Byte) : Round :=
  let w1 := bytesAt data 4 4
  let dl := bytesAt data 0x0C 4
  { st := 1, round := bytesAt data 0 4, npart := fld w1 6 0, agg := bitOf w1 7, self := fld w1 13 8, vec := fld w1 19 14, len := bytesAt data 8 4,
    deadline := if dl = 0 ∨ !bitOf w1 7 then none else some (s.aon.tb + s.us dl),
    seeds := (List.range (fld w1 6 0)).map (fun j => bytesAt data (0x40 + j) 1 % 128) }

theorem State.exec_sealcmdLoad (s : State) (k3 : BitVec 3) (data : List Byte)
    (hguard : ¬ (!s.byHost .host || data.length != 128 || !s.hostUp) = true) :
    exec (.sealcmdLoad .host k3 data) s = if s.recordBad k3.toNat data then .next { s with link := { s.link with sealResult := true } }
      else .next (({ s with link := { s.link with sealResult := false } } : State).setRound k3.toNat (s.recordRound data)) := by
  by_cases hb : s.recordBad k3.toNat data = true
  · rw [if_pos hb]
    exact (if_neg hguard).trans ((if_pos hb).trans
      (congrArg (fun b => Host.Outcome.next ({ s with link := { s.link with sealResult := b } } : State)) hb))
  · rw [if_neg hb]
    exact (if_neg hguard).trans ((if_neg hb).trans (congrArg (fun b => Host.Outcome.next
      (({ s with link := { s.link with sealResult := b } } : State).setRound k3.toNat (s.recordRound data))) (Bool.eq_false_iff.mpr hb)))

/-- A round record that passes arms its round (R393). -/
theorem State.sealcmdLoad_spec (s : State) (k3 : BitVec 3) (data : List Byte) (ha : s.answers = true) (hup : s.hostUp = true)
    (hlen : List.length data = 128) :
    (bytesAt data 4 4 % 128 < 3 → exec (.sealcmdLoad .host k3 data) s = .next { s with link := { s.link with sealResult := true } })
    ∧ (let w1 := bytesAt data 4 4
      let np := w1 % 128
      3 ≤ np → np ≤ 64 → fld w1 13 8 < np → bytesAt data 0 4 ≠ 0 → (∀ j, j < 8 → (s.round j).st ≠ 1) →
      (∀ j, j < 128 → (Sp.get none s.link.seeds j).isSome = true) →
      ∃ t, exec (.sealcmdLoad .host k3 data) s = .next t ∧ t.link.sealResult = false ∧ (t.round k3.toNat).st = 1
        ∧ (t.round k3.toNat).round = bytesAt data 0 4 ∧ (t.round k3.toNat).npart = np ∧ (t.round k3.toNat).count = 0) := by
  have hnp : fld (bytesAt data 4 4) 6 0 = bytesAt data 4 4 % 128 := rfl
  have hexec := s.exec_sealcmdLoad k3 data (by simp [State.byHost, ha, hlen, hup])
  constructor
  · intro hn
    refine hexec.trans (if_pos ?_)
    rw [State.recordBad, hnp, decide_eq_true hn]
    simp
  · intro w1 np h3 h64 hself hround hst hseed
    have hk : k3.toNat < 8 := k3.isLt
    have hgood : s.recordBad k3.toNat data = false := by
      have hany : (List.range 8).any (fun i => i != k3.toNat && (s.round i).st == 1 && (s.round i).round == bytesAt data 0 4) = false :=
        List.any_eq_false.mpr fun i hi => by simp [hst i (List.mem_range.mp hi)]
      have hseeds : ((List.range (bytesAt data 4 4 % 128)).map (fun j => bytesAt data (0x40 + j) 1 % 128)).zipIdx.any
          (fun x => x.2 != fld (bytesAt data 4 4) 13 8 && (Sp.get none s.link.seeds x.1).isNone) = false :=
        List.any_eq_false.mpr fun x hx => by
          obtain ⟨j, -, hj⟩ := List.mem_map.mp (List.fst_mem_of_mem_zipIdx hx)
          have := hseed x.1 (by rw [← hj]; exact Nat.mod_lt _ (by decide))
          rw [← Option.not_isSome, this]
          simp
      simp only [State.recordBad, hnp]
      rw [hany, hseeds, decide_eq_false (Nat.not_lt.mpr h3), decide_eq_false (Nat.not_lt.mpr h64), decide_eq_false (Nat.not_le.mpr hself),
        beq_eq_false_iff_ne.mpr hround, beq_eq_false_iff_ne.mpr (hst _ hk)]
      rfl
    have hget := State.round_setRound ({ s with link := { s.link with sealResult := false } } : State) k3.toNat k3.toNat (s.recordRound data)
    rw [if_pos rfl] at hget
    rw [hgood, if_neg (by decide)] at hexec
    refine ⟨_, hexec, rfl, ?_⟩
    rw [hget]
    exact ⟨rfl, rfl, rfl, rfl⟩

/-- A round past its deadline fails (R395). -/
theorem State.sealDeadline_spec (s : State) (k3 : BitVec 3) (d : Nat) (hd : (s.round k3.toNat).deadline = some d)
    (hgo : ((s.round k3.toNat).st = 1 && (s.round k3.toNat).agg && s.running && s.due d) = true) :
    ∃ t, exec (.sealDeadline k3) s = .next t ∧ t.round k3.toNat = { s.round k3.toNat with st := 3 }
      ∧ (s.round k3.toNat).vec ∈ t.irqs ∧ ∃ f : FRec, f.code = 0x68 ∧ t.fq.offered = s.fq.offered ++ [f] := by
  have hexec : exec (.sealDeadline k3) s = .next (s.endRound k3.toNat (s.round k3.toNat) false) := by
    show execSealDeadline k3 s = _
    simp only [execSealDeadline]
    rw [hd]
    exact if_pos hgo
  have hround : (s.setRound k3.toNat { s.round k3.toNat with st := 3 }).round k3.toNat = { s.round k3.toNat with st := 3 } :=
    (s.round_setRound _ _ _).trans (if_pos rfl)
  have hirq := State.irq_eq (s.setRound k3.toNat { s.round k3.toNat with st := 3 }) (s.round k3.toNat).vec
  have hmem := State.mem_irq (s.setRound k3.toNat { s.round k3.toNat with st := 3 }) (s.round k3.toNat).vec
  have hend : s.endRound k3.toNat (s.round k3.toNat) false
      = ((s.setRound k3.toNat { s.round k3.toNat with st := 3 }).irq (s.round k3.toNat).vec).offer { code := 0x68, unit := 10, hub := 1 } := rfl
  generalize (s.setRound k3.toNat { s.round k3.toNat with st := 3 }).irq (s.round k3.toNat).vec = u at hirq hmem hend
  rw [hend] at hexec
  refine ⟨_, hexec, ?_, hmem, { code := 0x68, unit := 10, hub := 1, time := u.aon.tb, esc := escOf 0x68 }, rfl, ?_⟩
  · rw [hirq]
    exact hround
  · rw [hirq]
    rfl

end Sys2Proof.Machine
end

section
open Sys2Proof Sys2Proof.Machine

/-- Settles O56: each command is read off the guards it passes; a stopped message leaves the link hub's list. -/
theorem peersKeysAndRounds : Obligations.PeersKeysAndRounds := by
  unfold Obligations.PeersKeysAndRounds
  intro s i k8 k7 k3 ha n
  have hho : s.byHost .host = true := by simp [State.byHost, ha]
  have hna : ¬ (!s.answers) = true := by rw [ha]; decide
  have hnh : ¬ (!s.byHost .host) = true := by rw [hho]; decide
  refine ⟨fun hm => ⟨?_, ?_⟩, fun hp => ?_, fun hm hp => ⟨?_, s.peercmdFetch_uncached i ha hm hp⟩, fun p hm hp => ⟨?_, fun hb => s.peercmd_busy i p ha hm hp hb,
    fun hb => ⟨s.peercmdEvict_spec i p ha hm hp hb, s.peercmdReset_spec i p ha hp hb⟩⟩,
    fun data err hrun hf hroom hlen hp hup hev => s.peerFetchComplete_spec i data err hrun hf hroom hlen hp hup hev, ?_, ?_, ?_, ?_,
    fun data hup => ?_, fun data hup hlen hn => ?_, fun data hup hlen => ?_, ?_, fun d hrun hd hst hagg hdue => ?_, fun region all => ?_,
    fun hrun hold => ?_, fun hrun hold => ?_⟩
  · exact (if_neg hna).trans (if_pos hm)
  · exact (if_neg hna).trans (if_pos hm)
  · exact s.peercmdReset_none i ha hp
  · exact s.peercmdEvict_none i ha hm hp
  · exact s.peercmdFetch_cached i p ha hm hp
  · exact s.keycmdLoad_spec k8 hnh
  · exact ⟨_, if_pos hho, (s.keySlot_setKey _ _ _).trans (if_pos rfl), fun j hj => (s.keySlot_setKey _ _ _).trans (if_neg hj)⟩
  · exact s.seedcmdLoad_spec k7 hnh
  · exact ⟨_, if_pos hho, s.seeds_setSeed _ _⟩
  · exact if_pos (by simp [hup])
  · exact ⟨_, (s.sealcmdLoad_spec k3 data ha hup hlen).1 hn, rfl⟩
  · exact (s.sealcmdLoad_spec k3 data ha hup hlen).2
  · exact ⟨_, if_pos hho, (State.round_setRound _ _ _ _).trans (if_pos rfl), rfl⟩
  · refine s.sealDeadline_spec k3 d hd ?_
    simp [hst, hagg, hrun, hdue]
  · refine ⟨_, if_neg hnh, rfl, fun x => ?_⟩
    show x ∈ (if all then [] else s.link.rcache.filter (fun x => x.1 ≠ region.toNat)) ↔ _
    cases all <;> simp
  · refine if_neg ?_
    obtain ⟨x, hx, ho⟩ := hold
    have : s.link.pend.any (·.old) = true := List.any_eq_true.mpr ⟨x, hx, ho⟩
    rw [this]
    simp
  · refine if_pos ?_
    have : s.link.pend.any (·.old) = false := List.any_eq_false.mpr fun x hx => by simp [hold x hx]
    rw [this, hrun]
    rfl

end

section
/-! Control space (R262, R496 to R498, R511, R512): a request of the host port alone in its queue, plain registers, and the page-table invalidation. -/

namespace Sys2Proof.Machine

/-! ### Requests of the host port -/

theorem State.pumpTarget_control (s : State) (n : Nat) (r : TReq) (rest : List TReq) (o : Nat) (hr : s.treqs = r :: rest) (htap : s.tap = none)
    (ho : targetOf r.ta.toNat = .control o) (ha : s.answers = true) :
    State.pumpTarget (n + 1) s = andThen (({ s with treqs := rest } : State).control r o) (State.pumpTarget n) := by
  rw [State.pumpTarget, hr, htap]
  dsimp only
  rw [ho]
  exact if_pos ha

theorem State.pumpTarget_outside (s : State) (n : Nat) (r : TReq) (rest : List TReq) (hr : s.treqs = r :: rest) (htap : s.tap = none)
    (ho : targetOf r.ta.toNat = .outside) :
    State.pumpTarget (n + 1) s = State.pumpTarget n (({ s with treqs := rest } : State).answer r.tag true 0) := by
  rw [State.pumpTarget, hr, htap]
  dsimp only
  rw [ho]

theorem State.pumpTarget_tierOff (s : State) (n : Nat) (r : TReq) (rest : List TReq) (b : Bool) (a : Nat) (hr : s.treqs = r :: rest)
    (htap : s.tap = none) (ho : targetOf r.ta.toNat = .aperture b a) (hoff : s.tierOn b = false) :
    State.pumpTarget (n + 1) s = State.pumpTarget n (({ s with treqs := rest } : State).answer r.tag true 0) := by
  rw [State.pumpTarget, hr, htap]
  dsimp only
  rw [ho]
  exact if_pos (.inr (.inr (by rw [hoff]; rfl)))

section
variable (s : State) (f : TReq) (ha : s.answers = true) (ht : s.treqs = []) (hlost : s.lost.contains .host = false)
include ha ht hlost

/-- With nothing before it a request is the only one that is performed. -/
theorem State.targetRequest_alone : exec (.targetRequest f) s = State.pumpTarget 1 { s with treqs := [f] } := by
  have hup : ¬ (!s.hostUp) = true := by rw [State.hostUp, hlost]; decide
  refine (if_neg (by rw [ha]; decide)).trans ((if_neg hup).trans ?_)
  rw [ht]
  rfl

variable (htap : s.tap = none)
include htap

/-- A request of control space is performed on the state as it stands. -/
theorem State.targetRequest_control (o : Nat) (ho : targetOf f.ta.toNat = .control o) (t : State) (hc : s.control f o = .next t) :
    exec (.targetRequest f) s = .next t := by
  have hs : ({ s with treqs := [] } : State) = s := by rw [← ht]
  have hpump := State.pumpTarget_control { s with treqs := [f] } 0 f [] o rfl htap ho ha
  rw [s.targetRequest_alone f ha ht hlost, hpump]
  dsimp only
  rw [hs, hc]
  rfl

theorem State.targetRequest_outside (ho : targetOf f.ta.toNat = .outside) : exec (.targetRequest f) s = .next (s.answer f.tag true 0) := by
  have hs : ({ s with treqs := [] } : State) = s := by rw [← ht]
  have hpump := State.pumpTarget_outside { s with treqs := [f] } 0 f [] rfl htap ho
  rw [s.targetRequest_alone f ha ht hlost, hpump]
  dsimp only
  rw [hs]
  rfl

theorem State.targetRequest_tierOff (b : Bool) (a : Nat) (ho : targetOf f.ta.toNat = .aperture b a) (hoff : s.tierOn b = false) :
    exec (.targetRequest f) s = .next (s.answer f.tag true 0) := by
  have hs : ({ s with treqs := [] } : State) = s := by rw [← ht]
  have hpump := State.pumpTarget_tierOff { s with treqs := [f] } 0 f [] b a rfl htap ho hoff
  rw [s.targetRequest_alone f ha ht hlost, hpump]
  dsimp only
  rw [hs]
  rfl

end

/-- An access of another size, or not aligned, answers ERR (R497). -/
theorem State.control_bad (s : State) (f : TReq) (o : Nat) (h : (f.len.toNat ≠ 4 ∧ f.len.toNat ≠ 8) ∨ o % f.len.toNat ≠ 0) :
    s.control f o = .next (s.answer f.tag true 0) := by
  refine if_pos ?_
  rcases h with ⟨h4, h8⟩ | h
  · simp [h4, h8]
  · simp [h]

theorem State.control_read4 (s : State) (f : TReq) (o : Nat) (hw : f.wr = false) (hn : f.len.toNat = 4) (ho : o % 4 = 0) :
    s.control f o = .next ((s.ctrlRead .host o).2.answer f.tag false (s.ctrlRead .host o).1.toNat) := by
  simp only [State.control, hn, ho, hw, wholeReq]
  rfl

theorem State.control_read8 (s : State) (f : TReq) (o : Nat) (hw : f.wr = false) (hn : f.len.toNat = 8) (ho : o % 8 = 0) :
    s.control f o = .next (((s.ctrlRead .host o).2.ctrlRead .host (o + 4)).2.answer f.tag false
      ((s.ctrlRead .host o).1.toNat + 2 ^ 32 * ((s.ctrlRead .host o).2.ctrlRead .host (o + 4)).1.toNat)) := by
  simp only [State.control, hn, ho, hw, wholeReq]
  rfl

theorem State.control_write4 (s t : State) (f : TReq) (o : Nat) (hw : f.wr = true) (hn : f.len.toNat = 4) (ho : o % 4 = 0) (hwhole : wholeReq f = true)
    (ht : s.ctrlWrite .host o (f.data.extractLsb' 0 32) = .next t) : s.control f o = .next (t.answer f.tag false 0) := by
  simp only [State.control, hn, ho, hw, hwhole, ht]
  rfl

/-! ### Plain registers -/

/-- A register whose bits the requester may write in full takes the word. -/
theorem State.writePlain_full (s : State) (req : Requester) (o : Nat) (v : W32) (hm : writeMask s req o = 0xFFFFFFFF) :
    s.writePlain req o v = s.setReg o v := by
  have h : BitVec.ofNat 32 0xFFFFFFFF = BitVec.allOnes 32 := rfl
  simp only [State.writePlain, hm, h, BitVec.not_allOnes, BitVec.and_zero, BitVec.and_allOnes, BitVec.zero_or]

/-- A register of which the requester may write no bit keeps its value, and so does every other. -/
theorem State.writePlain_none (s : State) (req : Requester) (o : Nat) (v : W32) (hm : writeMask s req o = 0) (a : Nat) :
    (s.writePlain req o v).reg a = s.reg a := by
  have hval : (s.reg o &&& ~~~(BitVec.ofNat 32 0)) ||| (v &&& BitVec.ofNat 32 0) = s.reg o := by
    rw [show ~~~(BitVec.ofNat 32 0) = BitVec.allOnes 32 from rfl, BitVec.and_allOnes, BitVec.and_zero, BitVec.or_zero]
  rw [State.writePlain, hm, hval, State.reg_setReg]
  split
  · next h => rw [h]
  · rfl

theorem writeMask_host (s : State) {o m : Nat} (hb : bothMask o = 0) (hh : hostMask s o = m) : writeMask s .host o = m := by
  rw [writeMask, hb, Nat.zero_or]
  exact hh

theorem writeMask_mgmt (s : State) {o : Nat} (hb : bothMask o = 0) : writeMask s .mgmt o = if o = oDriftTh then 0x3FF else 0 := by
  rw [writeMask, hb, Nat.zero_or]

theorem hostMask_castLen (s : State) : hostMask s oCastLen = 0xFFFFFFFF := by rw [hostMask, if_neg (by decide), if_pos (by decide)]
theorem hostMask_castSrc (s : State) : hostMask s (oCastSrc 1) = 0xFFFFFFFF := by rw [hostMask, if_neg (by decide), if_pos (by decide)]
theorem hostMask_castStg (s : State) : hostMask s oCastStg = 0x7FFFF := by
  rw [hostMask, if_neg (by decide), if_neg (by decide), if_pos (by decide)]
theorem hostMask_driftTh (s : State) : hostMask s oDriftTh = 0 := by
  simp only [hostMask, hub1Mask, updMask]
  repeat rw [if_neg (by decide)]
  rfl

/-- The registers of castings and the drift threshold are plain. -/
theorem State.ctrlWrite_plain (s : State) (req : Requester) (o : Nat) (v : W32) (ha : s.answers = true)
    (ho : o = oCastLen ∨ o = oCastSrc 1 ∨ o = oCastStg ∨ o = oDriftTh) : s.ctrlWrite req o v = .next (s.writePlain req o v) := by
  rcases ho with rfl | rfl | rfl | rfl
  all_goals
    refine (if_neg (by rw [ha]; decide)).trans ?_
    rfl

theorem exec_registerWrite_plain (s : State) (req : Requester) (off : BitVec 28) (v : W32) (ha : s.answers = true)
    (ho : off.toNat = oCastLen ∨ off.toNat = oCastSrc 1 ∨ off.toNat = oCastStg ∨ off.toNat = oDriftTh) :
    exec (.registerWrite req off v) s = .next (s.writePlain req off.toNat v) := by
  refine (if_pos ?_).trans (s.ctrlWrite_plain req off.toNat v ha ho)
  rcases ho with h | h | h | h <;> rw [h] <;> rfl

/-- An invalidation leaves the translations that it does not name (R262). -/
theorem State.exec_ptinvWrite (s : State) (req : Requester) (v : W32) (ha : s.answers = true) : ∃ t, exec (.ptinvWrite req v) s = .next t
    ∧ t = { s with tlb := t.tlb, ptinv := t.ptinv, memSerial := t.memSerial }
    ∧ (∀ x, x ∈ t.tlb ↔ x ∈ s.tlb ∧ ¬ (x.part = v.toNat % 8 ∧ (v.getLsbD 3 = true ∨ x.page = v.toNat / 16 % 2 ^ 26)))
    ∧ t.ptinv ≠ [] := by
  have hp : fld v.toNat 2 0 = v.toNat % 8 := rfl
  have hg : fld v.toNat 29 4 = v.toNat / 16 % 2 ^ 26 := by rw [fld, Nat.shiftRight_eq_div_pow]
  have hb : v.getLsbD 3 = bitOf v.toNat 3 := rfl
  refine ⟨_, if_neg (by rw [ha]; decide), rfl, fun x => List.mem_filter.trans (and_congr_right fun _ => ?_), by simp⟩
  rw [hp, hg, hb]
  cases bitOf v.toNat 3
  · simp only [Bool.false_eq_true, if_false, Bool.or_eq_true, decide_eq_true_eq]
    rw [false_or, Decidable.not_and_iff_not_or_not]
  · simp

end Sys2Proof.Machine
end

section
open Sys2Proof Sys2Proof.Machine

/-- Settles O43: the only request in the queue is performed at once; a plain register takes the bits of its mask. -/
theorem controlSpaceAccesses : Obligations.ControlSpaceAccesses := by
  unfold Obligations.ControlSpaceAccesses
  intro s f ha ht htap hlost
  refine ⟨fun o ho hw hn hal => ?_, fun o ho hw hn hal => ?_, fun o t ho hw hn hal hwhole hnext => ?_, fun o ho hbad => ?_, fun ho => ?_,
    fun b a ho hoff => ?_, fun req off v => ⟨fun h => ?_, fun h => ⟨?_, ?_⟩, fun h => ?_, fun h => ⟨?_, ?_⟩⟩, fun req v => ?_, fun h => ?_, fun h => ?_⟩
  · exact s.targetRequest_control f ha ht hlost htap o ho _ (s.control_read4 f o hw hn hal)
  · exact s.targetRequest_control f ha ht hlost htap o ho _ (s.control_read8 f o hw hn hal)
  · exact s.targetRequest_control f ha ht hlost htap o ho _ (s.control_write4 t f o hw hn hal hwhole hnext)
  · exact s.targetRequest_control f ha ht hlost htap o ho _ (s.control_bad f o hbad)
  · exact s.targetRequest_outside f ha ht hlost htap ho
  · exact s.targetRequest_tierOff f ha ht hlost htap b a ho hoff
  · exact if_neg h
  · have ho : off.toNat = oCastLen ∨ off.toNat = oCastSrc 1 := h
    refine (exec_registerWrite_plain s .host off v ha (ho.imp_right .inl)).trans (congrArg Host.Outcome.next (s.writePlain_full .host _ v ?_))
    rcases ho with ho | ho <;> rw [ho]
    · exact writeMask_host s (by decide) (hostMask_castLen s)
    · exact writeMask_host s (by decide) (hostMask_castSrc s)
  · have ho : off.toNat = oCastLen ∨ off.toNat = oCastSrc 1 := h
    refine ⟨_, exec_registerWrite_plain s .mgmt off v ha (ho.imp_right .inl), s.writePlain_none .mgmt _ v ?_⟩
    rcases ho with ho | ho <;> rw [ho] <;> exact writeMask_mgmt s (by decide)
  · have ho : off.toNat = oCastStg := h
    have hmask : writeMask s .host off.toNat = 0x7FFFF := by rw [ho]; exact writeMask_host s (by decide) (hostMask_castStg s)
    refine (exec_registerWrite_plain s .host off v ha (.inr (.inr (.inl ho)))).trans ?_
    rw [State.writePlain, hmask]
  · have ho : off.toNat = oDriftTh := h
    have hmask : writeMask s .mgmt off.toNat = 0x3FF := by rw [ho]; exact writeMask_mgmt s (by decide)
    refine (exec_registerWrite_plain s .mgmt off v ha (.inr (.inr (.inr ho)))).trans ?_
    rw [State.writePlain, hmask]
  · have ho : off.toNat = oDriftTh := h
    exact ⟨_, exec_registerWrite_plain s .host off v ha (.inr (.inr (.inr ho))),
      s.writePlain_none .host _ v (by rw [ho]; exact writeMask_host s (by decide) (hostMask_driftTh s))⟩
  · exact s.exec_ptinvWrite req v ha
  · exact if_pos h
  · exact if_neg (by rw [h]; decide)

end

section
/-! Substitution, replay and the spine (R409, R414, R416, R417, R30 to R32). -/

namespace Sys2Proof.Machine

/-- A fold whose other steps leave `p`: `p` sees its own step alone. -/
theorem foldl_once {α β γ : Type} (p : α → γ) {f : α → β → α} {b : β} (l : List β) (h : ∀ a, ∀ d ∈ l, d ≠ b → p (f a d) = p a)
    (hnd : l.Nodup) (hb : b ∈ l) (a : α) : ∃ t, p t = p a ∧ p (l.foldl f a) = p (f t b) := by
  have hskip : ∀ (l : List β), (∀ a, ∀ d ∈ l, d ≠ b → p (f a d) = p a) → b ∉ l → ∀ a, p (l.foldl f a) = p a := by
    intro l
    induction l with
    | nil => exact fun _ _ _ => rfl
    | cons d l ih =>
      intro h hd a
      rw [List.foldl_cons, ih (fun a e he => h a e (List.mem_cons_of_mem d he)) (List.not_mem_of_not_mem_cons hd)]
      exact h a d List.mem_cons_self (List.ne_of_not_mem_cons hd).symm
  induction l generalizing a with
  | nil => cases hb
  | cons d l ih =>
    obtain ⟨hd, hl⟩ := List.nodup_cons.mp hnd
    have hrest : ∀ a, ∀ e ∈ l, e ≠ b → p (f a e) = p a := fun a e he => h a e (List.mem_cons_of_mem d he)
    by_cases hbd : b = d
    · subst hbd
      exact ⟨a, rfl, hskip l hrest hd _⟩
    · obtain ⟨t, ht, heq⟩ := ih hrest hl ((List.mem_cons.mp hb).resolve_left hbd) (f a d)
      exact ⟨t, ht.trans (h a d List.mem_cons_self (Ne.symm hbd)), heq⟩

/-- A step for each core of a slab, each of which leaves the other cores. -/
theorem State.core_foldl_slab {f : State → Nat → State} (hf : ∀ t d e, e ≠ d → (f t d).core e = t.core e) (p : Nat) {i : Nat} (hi : i < 32)
    (s : State) : ∃ t, t.core (32 * p + i) = s.core (32 * p + i)
      ∧ ((List.range 32).foldl (fun t i => f t (32 * p + i)) s).core (32 * p + i) = (f t (32 * p + i)).core (32 * p + i) :=
  foldl_once (fun t : State => t.core (32 * p + i)) _ (fun t j _ hj => hf t _ _ fun h => hj (by omega)) List.nodup_range
    (List.mem_range.mpr hi) s

/-! ### The map change of a substitution -/

/-- Every core of a slab holds after the first step of R416. -/
theorem State.core_foldl_held (p : Nat) {i : Nat} (hi : i < 32) (s : State) :
    (((List.range 32).foldl (fun t i => t.updRun (32 * p + i) (fun r => { r with held := true })) s).core (32 * p + i)).run.held = true := by
  obtain ⟨t, -, heq⟩ := State.core_foldl_slab (f := fun t c => t.updRun c fun r => { r with held := true })
    (fun t d e h => State.core_updCore_ne t _ h) p hi s
  rw [heq]
  exact congrArg (fun k : Core => k.run.held) (State.core_updCore_same t _ _)

theorem State.phys_setLmap (s : State) (l : Nat) (v : Option Nat) : ({ s with lmap := Sp.set none s.lmap l v } : State).phys l = v :=
  Sp.get_set_same none s.lmap l v

theorem State.role_lmap (s : State) (m : Sp (Option Nat)) (l : Nat) : ({ s with lmap := m } : State).role l = s.role l := rfl

/-- Step 1 of R416: the map names the spare, which reads migrating, and GEN is advanced once. -/
theorem State.moveMap_spec (s : State) (o : SubstOp) (hne : o.old ≠ o.spare) :
    (s.moveMap o).mapgen = (s.mapgen + 1) % 2 ^ 32 ∧ (s.moveMap o).phys o.logical = some o.spare
      ∧ (s.moveMap o).role o.spare = { logical := some o.logical, st := .migrating, part := (s.role o.old).part }
      ∧ ((s.moveMap o).role o.old).st = (if o.migrate then .tempering else .retiredService)
      ∧ (∀ i, i < 32 → ((s.moveMap o).core (32 * o.old + i)).run.held = true)
      ∧ (s.moveMap o).subst = some { o with moved := true } ∧ (s.moveMap o).substResult = s.substResult := by
  have hgen := foldl_leaves State.mapgen (f := fun (t : State) i => t.updRun (32 * o.old + i) fun r => { r with held := true })
    (fun _ _ => rfl) (List.range 32) s
  have hres := foldl_leaves State.substResult (f := fun (t : State) i => t.updRun (32 * o.old + i) fun r => { r with held := true })
    (fun _ _ => rfl) (List.range 32) s
  have hheld := fun i (hi : i < 32) => State.core_foldl_held o.old hi s
  simp only [State.moveMap, State.mapBegin]
  generalize (List.range 32).foldl (fun (t : State) i => t.updRun (32 * o.old + i) fun r => { r with held := true }) s = t at *
  refine ⟨by rw [← hgen]; rfl, ?_, ?_, ?_, hheld, rfl, hres⟩
  · exact State.phys_setLmap _ _ _
  · rw [State.role_lmap, State.role_setRole, if_neg (Ne.symm hne), State.role_setRole, if_pos rfl]
  · rw [State.role_lmap, State.role_setRole, if_pos rfl]

/-! ### The spare takes over -/

/-- What core `n` of the spare becomes where core `k` moves to it (R416 steps 2 to 4). -/
def Core.movedFrom (v64 : Bool) (k n : Core) : Core :=
  { cur := (restored k).1, rp := k.rp, run := movedRun v64 k.run n.run, st := movedSt k.st n.st }

/-- What core `k` is once it has moved. -/
def Core.movedAway (k : Core) : Core := { run := { recovCnt := k.run.recovCnt }, st := movedSt {} k.st }

/-- One core's move writes the two cores it names. -/
theorem State.core_moveCore (s : State) (a b c : Nat) : (s.moveCore a b).core c
    = if c = a then (s.core a).movedAway else if c = b then (s.core a).movedFrom s.v64 (s.core b) else s.core c := by
  have h := State.core_setCore ((s.dropLog a).setCore b ((s.core a).movedFrom s.v64 (s.core b))) a c (s.core a).movedAway
  rw [State.core_setCore (s.dropLog a) b c] at h
  exact h

/-- The cores of a slab are moved: the spare's hold the restore points of the old ones (R416 step 2). -/
theorem State.core_foldl_moveCore (a b : Nat) (hab : a ≠ b) {i : Nat} (hi : i < 32) (s : State) :
    ∃ v n, ((List.range 32).foldl (fun t i => t.moveCore (32 * a + i) (32 * b + i)) s).core (32 * b + i)
      = (s.core (32 * a + i)).movedFrom v n := by
  obtain ⟨t, ht, heq⟩ := foldl_once (fun t : State => (t.core (32 * a + i), t.core (32 * b + i)))
    (f := fun t i => t.moveCore (32 * a + i) (32 * b + i)) (b := i) (List.range 32)
    (fun t j hj32 hj => by
      have := List.mem_range.mp hj32
      rw [State.core_moveCore, State.core_moveCore, if_neg (by omega), if_neg (by omega), if_neg (by omega), if_neg (by omega)])
    List.nodup_range (List.mem_range.mpr hi) s
  obtain ⟨hta, -⟩ := Prod.mk.inj ht
  obtain ⟨-, heqb⟩ := Prod.mk.inj heq
  refine ⟨t.v64, t.core (32 * b + i), heqb.trans ((State.core_moveCore t _ _ _).trans ?_)⟩
  rw [if_neg (by omega), if_pos rfl, hta]

theorem State.foldl_moveCore_leaves {γ : Type} (p : State → γ)
    (h : ∀ (t : State) cores dlog memq link, p { t with cores := cores, dlog := dlog, memq := memq, link := link } = p t) (a b : Nat) (l : List Nat)
    (s : State) : p (l.foldl (fun t i => t.moveCore (32 * a + i) (32 * b + i)) s) = p s :=
  foldl_leaves p (fun _ _ => h _ _ _ _ _) l s

theorem State.foldl_fetchNext_leaves {γ : Type} (p : State → γ) (h : ∀ (t : State) cores q, p { t with cores := cores, hostReqs := q } = p t)
    (f : Nat → Nat) (l : List Nat) (s : State) : p (l.foldl (fun u i => u.fetchNext (f i)) s) = p s :=
  foldl_leaves p (f := fun u i => u.fetchNext (f i)) (fun t i => by
    obtain ⟨r, -, -, ht⟩ := State.fetchNext_fetchedFor t (f i)
    rw [ht, h]) l s

/-- A core's fetching leaves its restore point and its working state. -/
theorem State.foldl_fetchNext_core (f : Nat → Nat) (c : Nat) (l : List Nat) (s : State) :
    ((l.foldl (fun u i => u.fetchNext (f i)) s).core c).rp = (s.core c).rp ∧ ((l.foldl (fun u i => u.fetchNext (f i)) s).core c).cur = (s.core c).cur := by
  have h := foldl_leaves (fun t : State => ((t.core c).rp, (t.core c).cur)) (f := fun u i => u.fetchNext (f i)) (fun t i => by
    obtain ⟨r, -, hcore, -⟩ := State.fetchNext_fetchedFor t (f i)
    rw [hcore c]
    split
    · subst_vars; rfl
    · rfl) l s
  exact Prod.mk.inj h

theorem State.pump_none (s : State) (hc : s.credits = []) (hs : s.strand = []) : s.pumpCredits.pumpAnswers = s := by
  have h : s.pumpCredits = s := by simp only [State.pumpCredits, hc]; cases s; cases hc; rfl
  rw [h]
  simp only [State.pumpAnswers, hs]
  cases s; cases hs; rfl

section
variable {γ : Type} (p : State → γ)

theorem State.persistNow_leaves (h : ∀ (t : State) fc ho m i, p { t with fc := fc, hostOut := ho, mgmt := m, irqs := i } = p t) (s : State) :
    p s.persistNow = p s := by
  rw [State.persistNow_eq]
  exact h s _ _ _ _

theorem State.log_leaves (h : ∀ (t : State) ho m i, p { t with hostOut := ho, mgmt := m, irqs := i } = p t) (s : State) (type : Nat) (esc : Bool)
    (l : List Nat) : p (s.log type esc l) = p s := by
  rw [State.log_eq]
  exact h s _ _ _

theorem State.forward_leaves (h : ∀ (t : State) pw a, p { t with pwr := pw, aon := a } = p t) (s : State) : p s.forward = p s := by
  rw [State.forward_eq]
  exact h s _ _

/-- The record and the entry in the log that end a map change leave what it set. -/
theorem State.forward_offer_log_leaves
    (h : ∀ (t : State) fc ho m i pw a, p { t with fc := fc, hostOut := ho, mgmt := m, irqs := i, pwr := pw, aon := a } = p t)
    (s : State) (f : FRec) (type : Nat) (esc : Bool) (l : List Nat) :
    p (((s.forward.offer f).log type esc l).persistNow) = p (s.forward.offer f) := by
  rw [State.persistNow_leaves p (fun t fc ho m i => h t fc ho m i t.pwr t.aon)]
  exact State.log_leaves p (fun t ho m i => h t t.fc ho m i t.pwr t.aon) _ _ _ _

end

/-- The cores of the old slab have moved, and the map change ends (R416 steps 2 to 4). -/
def State.movedSlab (s : State) (o : SubstOp) : State :=
  let t := (List.range 32).foldl (fun t i => t.moveCore (32 * o.old + i) (32 * o.spare + i)) s
  let t1 : State := { t with
    tlb := t.tlb.filter (fun x => x.slab ≠ o.old && x.slab ≠ o.spare), subst := none, substCnt := Nat.min 255 (t.substCnt + 1) }
  let r := t1.role o.spare
  t1.mapEnd (fun u => u.setRole o.spare { r with st := .active })

theorem State.movedSlab_spec (s : State) (o : SubstOp) (hne : o.old ≠ o.spare) :
    (s.movedSlab o).subst = none ∧ (s.movedSlab o).mapgen = (s.mapgen + 1) % 2 ^ 32
      ∧ (s.movedSlab o).role o.spare = { s.role o.spare with st := .active } ∧ (s.movedSlab o).substCnt = Nat.min 255 (s.substCnt + 1)
      ∧ (s.movedSlab o).fq = s.fq ∧ (s.movedSlab o).credits = s.credits ∧ (s.movedSlab o).strand = s.strand
      ∧ ∀ i, i < 32 → ∃ v n, (s.movedSlab o).core (32 * o.spare + i) = (s.core (32 * o.old + i)).movedFrom v n := by
  have hl := fun {γ : Type} (p : State → γ) h => State.foldl_moveCore_leaves p h o.old o.spare (List.range 32) s
  have hgen := hl State.mapgen fun _ _ _ _ _ => rfl
  have hrole := hl (fun t => t.role o.spare) fun _ _ _ _ _ => rfl
  have hcnt := hl State.substCnt fun _ _ _ _ _ => rfl
  have hfq := hl State.fq fun _ _ _ _ _ => rfl
  have hcred := hl State.credits fun _ _ _ _ _ => rfl
  have hstr := hl State.strand fun _ _ _ _ _ => rfl
  have hcore := fun i (hi : i < 32) => State.core_foldl_moveCore o.old o.spare hne hi s
  simp only [State.movedSlab, State.mapEnd]
  generalize (List.range 32).foldl (fun (t : State) i => t.moveCore (32 * o.old + i) (32 * o.spare + i)) s = t at *
  refine ⟨rfl, by rw [← hgen]; rfl, ?_, by rw [← hcnt]; rfl, hfq, hcred, hstr, hcore⟩
  rw [← hrole]
  exact (State.role_setRole _ _ _ _).trans (if_pos rfl)

/-- The record, the log and the fetching that follow the end of the map change (R416 step 4). -/
def State.closeMap (s : State) (o : SubstOp) : State :=
  (List.range 32).foldl (fun u i => u.fetchNext (32 * o.spare + i))
    (((s.forward.offer { code := 0x76, pslab := o.spare, lslab := o.logical }).log 3 false
      [o.logical, o.old, o.spare, b2n o.path]).persistNow).pumpCredits.pumpAnswers

/-- What the closing of a map change leaves, where nothing waits for the slab. -/
theorem State.closeMap_leaves {γ : Type} (p : State → γ) (s : State) (o : SubstOp)
    (hfetch : ∀ t : State, p ((List.range 32).foldl (fun u i => u.fetchNext (32 * o.spare + i)) t) = p t)
    (hend : ∀ (t : State) fc ho m i pw a, p { t with fc := fc, hostOut := ho, mgmt := m, irqs := i, pwr := pw, aon := a } = p t)
    (hcred : s.credits = []) (hstr : s.strand = []) :
    p (s.closeMap o) = p (s.forward.offer { code := 0x76, pslab := o.spare, lslab := o.logical }) := by
  rw [State.closeMap, hfetch, State.pump_none]
  · rw [State.forward_offer_log_leaves p hend]
  · rw [State.forward_offer_log_leaves State.credits fun _ _ _ _ _ _ _ => rfl, State.forward_eq]
    exact hcred
  · rw [State.forward_offer_log_leaves State.strand fun _ _ _ _ _ _ _ => rfl, State.forward_eq]
    exact hstr

theorem State.closeMap_spec (s : State) (o : SubstOp) (hcred : s.credits = []) (hstr : s.strand = []) :
    (s.closeMap o).subst = s.subst ∧ (s.closeMap o).mapgen = s.mapgen ∧ (s.closeMap o).role o.spare = s.role o.spare
      ∧ (s.closeMap o).substCnt = s.substCnt ∧ (∃ f : FRec, f.code = 0x76 ∧ (s.closeMap o).fq.offered = s.fq.offered ++ [f])
      ∧ ∀ c, ((s.closeMap o).core c).rp = (s.core c).rp ∧ ((s.closeMap o).core c).cur = (s.core c).cur := by
  have hl := fun {γ : Type} (p : State → γ) h1 h2 => State.closeMap_leaves p s o
    (State.foldl_fetchNext_leaves p h1 (fun i => 32 * o.spare + i) (List.range 32)) h2 hcred hstr
  refine ⟨(hl State.subst (fun _ _ _ => rfl) fun _ _ _ _ _ _ _ => rfl).trans ?_, (hl State.mapgen (fun _ _ _ => rfl) fun _ _ _ _ _ _ _ => rfl).trans ?_,
    (hl (fun t => t.role o.spare) (fun _ _ _ => rfl) fun _ _ _ _ _ _ _ => rfl).trans ?_,
    (hl State.substCnt (fun _ _ _ => rfl) fun _ _ _ _ _ _ _ => rfl).trans ?_,
    ⟨_, ?_, (hl (fun t => t.fq.offered) (fun _ _ _ => rfl) fun _ _ _ _ _ _ _ => rfl).trans
      ((State.offer_offered _ _).trans (congrArg (fun q : FaultQ => q.offered ++ _) s.forward_fq))⟩, fun c => ?_⟩
  · exact State.forward_leaves State.subst (fun _ _ _ => rfl) s
  · exact State.forward_leaves State.mapgen (fun _ _ _ => rfl) s
  · exact State.forward_role s o.spare
  · exact State.forward_leaves State.substCnt (fun _ _ _ => rfl) s
  · rfl
  · have hk := State.closeMap_leaves (fun t => ((t.core c).rp, (t.core c).cur)) s o (fun t => by
      obtain ⟨hrp, hcur⟩ := State.foldl_fetchNext_core (fun i => 32 * o.spare + i) c (List.range 32) t
      rw [hrp, hcur]) (fun _ _ _ _ _ _ _ => rfl) hcred hstr
    exact Prod.mk.inj (hk.trans (State.forward_leaves (fun t => ((t.core c).rp, (t.core c).cur)) (fun _ _ _ => rfl) s))

theorem State.exec_substitutionResume (s : State) {o : SubstOp} (ho : s.subst = some o) (hmoved : o.moved = true) (hfail : o.failed = false)
    (hrun : s.running = true) : exec .substitutionResume s = .next ((s.movedSlab o).closeMap o) := by
  show execSubstitutionResume s = _
  simp only [execSubstitutionResume]
  rw [ho]
  exact if_neg (by simp [hmoved, hfail, hrun])

theorem State.substitutionResume_spec (s : State) {o : SubstOp} (ho : s.subst = some o) (hmoved : o.moved = true) (hfail : o.failed = false)
    (hrun : s.running = true) (hne : o.old ≠ o.spare) (hcred : s.credits = []) (hstr : s.strand = []) :
    ∃ t, exec .substitutionResume s = .next t ∧ t.subst = none ∧ t.mapgen = (s.mapgen + 1) % 2 ^ 32
      ∧ t.role o.spare = { s.role o.spare with st := .active } ∧ t.substCnt = Nat.min 255 (s.substCnt + 1)
      ∧ (∃ f : FRec, f.code = 0x76 ∧ t.fq.offered = s.fq.offered ++ [f])
      ∧ ∀ i, i < 32 → (t.core (32 * o.spare + i)).rp = (s.core (32 * o.old + i)).rp
          ∧ (t.core (32 * o.spare + i)).cur = (restored (s.core (32 * o.old + i))).1 := by
  obtain ⟨hsub, hgen, hrole, hcnt, hfq, hc, hs, hcore⟩ := s.movedSlab_spec o hne
  have hexec := s.exec_substitutionResume ho hmoved hfail hrun
  generalize s.movedSlab o = u at *
  obtain ⟨hsub', hgen', hrole', hcnt', hfq', hcore'⟩ := u.closeMap_spec o (hc.trans hcred) (hs.trans hstr)
  refine ⟨_, hexec, hsub'.trans hsub, hgen'.trans hgen, hrole'.trans hrole, hcnt'.trans hcnt, by rw [← hfq]; exact hfq', fun i hi => ?_⟩
  obtain ⟨v, n, hk⟩ := hcore i hi
  obtain ⟨hrp, hcur⟩ := hcore' (32 * o.spare + i)
  rw [hrp, hcur, hk]
  exact ⟨rfl, rfl⟩

/-! ### Replay -/

/-- A fold in which one step establishes `P`, which the others keep. -/
theorem foldl_reaches {α β : Type} {P Q : α → Prop} {f : α → β → α} {b : β} (hQ : ∀ a d, d ≠ b → Q a → Q (f a d))
    (hset : ∀ a, Q a → P (f a b)) (hkeep : ∀ a d, P a → P (f a d)) : ∀ (l : List β) (a : α), b ∈ l → Q a → P (l.foldl f a)
  | d :: l, a, hb, ha => by
    by_cases hd : d = b
    · subst hd
      have hrest : ∀ (l : List β) a, P a → P (l.foldl f a) := fun l => by
        induction l with
        | nil => exact fun _ h => h
        | cons e l ih => exact fun a h => ih _ (hkeep a e h)
      exact hrest l _ (hset a ha)
    · exact foldl_reaches hQ hset hkeep l _ ((List.mem_cons.mp hb).resolve_left (Ne.symm hd)) (hQ a d hd ha)

/-- A core whose recovery begins (R406). -/
def CoreRun.recovering (v64 : Bool) (r : CoreRun) : CoreRun :=
  { abandonRegion v64 r with recov := 1, recovCnt := Nat.min 65535 (r.recovCnt + 1) }

/-- A core that R409 replays recovers from its last commit point. -/
def CoreRun.replayed (v64 : Bool) (r : CoreRun) : CoreRun :=
  { r.recovering v64 with halt := none }

/-- Core `c` is halted under R409: firmware's command replays it. -/
def CoreRun.replays (r : CoreRun) : Prop := ∃ code, r.halt = some code ∧ noReplay r code = false

theorem State.replayHalted_stays (s : State) (c : Nat) (h : (s.core c).run.halt = none ∨ ∃ code, (s.core c).run.halt = some code
    ∧ noReplay (s.core c).run code = true) : s.replayHalted c = s := by
  simp only [State.replayHalted]
  obtain h | ⟨code, h, hn⟩ := h
  · rw [h]
  · rw [h]
    exact if_pos hn

theorem CoreRun.replays_iff (r : CoreRun) : r.replays ↔ ¬ (r.halt = none ∨ ∃ code, r.halt = some code ∧ noReplay r code = true) := by
  cases h : r.halt with
  | none => simp [CoreRun.replays, h]
  | some code => simp [CoreRun.replays, h]

theorem State.replayHalted_eq (s : State) (c : Nat) (h : (s.core c).run.replays) :
    s.replayHalted c = ((s.noteReplay c).beginRecovery c).updRun c (fun x => { x with halt := none }) := by
  obtain ⟨code, h, hn⟩ := h
  simp only [State.replayHalted]
  rw [h]
  exact if_neg (by simp [hn])

theorem State.noteReplay_eq (s : State) (c : Nat) : s.noteReplay c = { s with subs := (s.noteReplay c).subs } := by
  simp only [State.noteReplay]
  split <;> rfl

/-- What the start of a recovery does to a core and to the log of what it holds back (R406). -/
theorem State.beginRecovery_spec (s : State) (c e : Nat) : (s.beginRecovery c).core e
      = (if e = c then { s.core c with run := (s.core c).run.recovering s.v64 } else s.core e)
    ∧ (s.beginRecovery c).dlog = s.dlog.filter (fun d => d.core != c || d.released) :=
  ⟨State.core_setCore _ _ _ _, rfl⟩

theorem State.replayHalted_spec (s : State) (c : Nat) (h : (s.core c).run.replays) :
    (∃ v, (s.replayHalted c).core c = { s.core c with run := (s.core c).run.replayed v })
      ∧ (∀ e, e ≠ c → (s.replayHalted c).core e = s.core e)
      ∧ (s.replayHalted c).dlog = s.dlog.filter (fun d => d.core != c || d.released) := by
  rw [State.replayHalted_eq s c h]
  have hcore : ∀ e, (s.noteReplay c).core e = s.core e := fun e => by rw [State.noteReplay_eq]; rfl
  have hlog : (s.noteReplay c).dlog = s.dlog := by rw [State.noteReplay_eq]
  generalize s.noteReplay c = t at *
  refine ⟨⟨t.v64, ?_⟩, fun e he => ?_, ?_⟩
  · refine (State.core_updCore_same _ c _).trans ?_
    rw [(t.beginRecovery_spec c c).1, if_pos rfl, hcore]
    rfl
  · refine (State.core_updCore_ne _ _ he).trans ?_
    rw [(t.beginRecovery_spec c e).1, if_neg he, hcore]
  · rw [← hlog]
    exact (t.beginRecovery_spec c c).2

theorem State.core_replayHalted_ne (s : State) {c e : Nat} (h : e ≠ c) : (s.replayHalted c).core e = s.core e := by
  by_cases hr : (s.core c).run.replays
  · exact (s.replayHalted_spec c hr).2.1 e h
  · rw [State.replayHalted_stays s c (Classical.not_not.mp (mt (CoreRun.replays_iff _).mpr hr))]

theorem State.dlog_replayHalted (s : State) (c : Nat) {d : LogEnt} (h : d ∈ (s.replayHalted c).dlog) : d ∈ s.dlog := by
  by_cases hr : (s.core c).run.replays
  · rw [(s.replayHalted_spec c hr).2.2] at h
    exact (List.mem_filter.mp h).1
  · rw [State.replayHalted_stays s c (Classical.not_not.mp (mt (CoreRun.replays_iff _).mpr hr))] at h
    exact h

theorem State.replayHalted_leaves {γ : Type} (p : State → γ)
    (h : ∀ (t : State) su cores dl link n, p { t with subs := su, cores := cores, dlog := dl, link := link, recovCnt := n } = p t)
    (s : State) (c : Nat) : p (s.replayHalted c) = p s := by
  by_cases hr : (s.core c).run.replays
  · rw [State.replayHalted_eq s c hr]
    have hnote : p (s.noteReplay c) = p s := by
      rw [State.noteReplay_eq]
      exact h s _ s.cores s.dlog s.link s.recovCnt
    rw [← hnote]
    generalize s.noteReplay c = t
    exact h t t.subs _ _ _ _
  · rw [State.replayHalted_stays s c (Classical.not_not.mp (mt (CoreRun.replays_iff _).mpr hr))]

/-- The replay of a slab's cores. -/
theorem State.replaySlab_spec (s : State) (p : Nat) {i : Nat} (hi : i < 32) :
    let t := (List.range 32).foldl (fun t i => t.replayHalted (32 * p + i)) s
    let k := s.core (32 * p + i)
    (¬ k.run.replays → t.core (32 * p + i) = k)
      ∧ (k.run.replays → (∃ v, t.core (32 * p + i) = { k with run := k.run.replayed v })
        ∧ ∀ d ∈ t.dlog, d.core = 32 * p + i → d.released = true) := by
  intro t k
  obtain ⟨u, hu, heq⟩ := State.core_foldl_slab (f := State.replayHalted) (fun t _ _ he => t.core_replayHalted_ne he) p hi s
  refine ⟨fun hr => ?_, fun hr => ⟨?_, ?_⟩⟩
  · rw [← show u.core (32 * p + i) = k from hu] at hr
    rw [State.replayHalted_stays u _ (Classical.not_not.mp (mt (CoreRun.replays_iff _).mpr hr))] at heq
    exact heq.trans hu
  · obtain ⟨⟨v, hv⟩, -⟩ := u.replayHalted_spec (32 * p + i) (by rw [hu]; exact hr)
    rw [hu] at hv
    exact ⟨v, heq.trans hv⟩
  · refine foldl_reaches (Q := fun t : State => t.core (32 * p + i) = k) (b := i)
      (P := fun t : State => ∀ d ∈ t.dlog, d.core = 32 * p + i → d.released = true)
      (fun t j hj ht => (t.core_replayHalted_ne (by omega)).trans ht) (fun t ht d hd hc => ?_)
      (fun t j h d hd => h d (t.dlog_replayHalted _ hd)) (List.range 32) s (List.mem_range.mpr hi) rfl
    rw [(t.replayHalted_spec _ (by rw [ht]; exact hr)).2.2] at hd
    have h := (List.mem_filter.mp hd).2
    simpa [hc] using h

/-! ### The spine -/

theorem State.stopPart_leaves {γ : Type} (p : State → γ)
    (h : ∀ (t : State) su dl ca cores, p { t with subs := su, dlog := dl, cast := ca, cores := cores } = p t) (s : State) (q : Nat) :
    p (s.stopPart q) = p s :=
  (foldl_leaves p (fun t _ => h t t.subs t.dlog t.cast _) (s.coresOf q) _).trans (h s _ _ _ s.cores)

/-- The state in which the cores of a partition stop. -/
theorem State.stopPart_cast (s : State) (q : Nat) : (s.stopPart q).cast
    = { s.cast with stopped := if s.cast.stopped.contains q then s.cast.stopped else s.cast.stopped ++ [q] } :=
  foldl_leaves State.cast (f := fun t c => t.updRun c (stopRun s.v64)) (fun _ _ => rfl) (s.coresOf q) _

theorem State.stopPart_coresOf (s : State) (q r : Nat) : (s.stopPart q).coresOf r = s.coresOf r := by
  have hmap : (s.stopPart q).lmap = s.lmap := State.stopPart_leaves State.lmap (fun _ _ _ _ _ => rfl) s q
  have hpart : (s.stopPart q).partEnt r = s.partEnt r := by simp only [State.partEnt, State.stopPart_cast]
  have hat : (s.stopPart q).coreAt r = s.coreAt r := funext fun i => by simp only [State.coreAt, State.phys, hpart, hmap]
  simp only [State.coresOf, hpart, hat]

/-- A core that holds with no stream, as a stopped partition's do (R32). -/
def CoreRun.stopped (r : CoreRun) : Prop := r.held = true ∧ r.run = none

theorem State.stopped_updRun (t : State) (c d : Nat) (v : Bool) (h : (t.core c).run.stopped) :
    ((t.updRun d (stopRun v)).core c).run.stopped := by
  by_cases hd : c = d
  · subst hd
    rw [State.updRun, State.core_updCore_same]
    exact ⟨rfl, rfl⟩
  · rwa [State.updRun, State.core_updCore_ne _ _ hd]

theorem State.stopPart_stops (s : State) (q : Nat) {c : Nat} (hc : c ∈ s.coresOf q) : ((s.stopPart q).core c).run.stopped :=
  foldl_reaches (Q := fun _ => True) (P := fun t : State => (t.core c).run.stopped) (b := c) (fun _ _ _ _ => trivial)
    (fun t _ => by rw [State.updRun, State.core_updCore_same]; exact ⟨rfl, rfl⟩) (fun t d h => t.stopped_updRun c d s.v64 h) _ _ hc trivial

theorem State.stopPart_keeps (s : State) (q : Nat) {c : Nat} (h : (s.core c).run.stopped) : ((s.stopPart q).core c).run.stopped := by
  have hall : ∀ (l : List Nat) (t : State), (t.core c).run.stopped → ((l.foldl (fun t c => t.updRun c (stopRun s.v64)) t).core c).run.stopped := by
    intro l
    induction l with
    | nil => exact fun _ h => h
    | cons d l ih => exact fun t h => ih _ (t.stopped_updRun c d s.v64 h)
  exact hall _ _ h

/-- LOADED clears (R414). -/
def State.unload (s : State) : State := { s with cast := { s.cast with loaded := false } }

/-- A list of partitions is stopped (R32, R408). -/
theorem State.stopParts_spec (s : State) (ps : List Nat) {q : Nat} (hmem : q ∈ ps) :
    q ∈ (ps.foldl State.stopPart s).cast.stopped ∧ ∀ c ∈ s.coresOf q, ((ps.foldl State.stopPart s).core c).run.stopped := by
  refine ⟨foldl_reaches (Q := fun _ => True) (P := fun t : State => q ∈ t.cast.stopped) (b := q) (fun _ _ _ _ => trivial) (fun t _ => ?_)
    (fun t d h => ?_) _ _ hmem trivial, fun c hc => foldl_reaches (Q := fun t : State => c ∈ t.coresOf q) (b := q)
      (P := fun t : State => (t.core c).run.stopped) (fun t d _ h => by rwa [State.stopPart_coresOf]) (fun t h => t.stopPart_stops q h)
      (fun t d h => t.stopPart_keeps d h) _ _ hmem hc⟩
  · rw [State.stopPart_cast]
    dsimp only
    split
    · exact List.contains_iff_mem.mp ‹_›
    · exact List.mem_append_right _ List.mem_cons_self
  · rw [State.stopPart_cast]
    dsimp only
    split
    · exact h
    · exact List.mem_append_left _ h

theorem State.spineFailure_spec (s : State) (hans : s.answers = true) : ∃ t, exec .spineFailure s = .next t ∧ t.cast.loaded = false
    ∧ (∃ f : FRec, f.code = 0x78 ∧ f.act = 5 ∧ t.fq.offered = s.fq.offered ++ [f])
    ∧ ∀ p, p < 8 → p ∈ t.cast.stopped ∧ ∀ c ∈ s.coresOf p, (t.core c).run.held = true ∧ (t.core c).run.run = none := by
  have hguard : (s.boot.init || s.boot.cold) = false := by
    simp only [State.answers, Bool.and_eq_true, Bool.not_eq_true'] at hans
    simp [hans]
  have hexec : exec .spineFailure s
      = .next ((List.range 8).foldl State.stopPart (s.offer { code := 0x78, act := 5, esc := true, unit := 14 })).unload.forward := by
    show execSpineFailure s = _
    simp only [execSpineFailure, hguard]
    exact if_neg Bool.false_ne_true
  have hfq := foldl_leaves State.fq (fun t q => State.stopPart_leaves State.fq (fun _ _ _ _ _ => rfl) t q) (List.range 8)
    (s.offer { code := 0x78, act := 5, esc := true, unit := 14 })
  have hstop := fun q (hq : q < 8) => State.stopParts_spec
    (s.offer { code := 0x78, act := 5, esc := true, unit := 14 }) (List.range 8) (List.mem_range.mpr hq)
  generalize (List.range 8).foldl State.stopPart (s.offer { code := 0x78, act := 5, esc := true, unit := 14 }) = u at *
  refine ⟨_, hexec, ?_, ⟨{ code := 0x78, act := 5, esc := true, unit := 14, time := s.aon.tb }, rfl, rfl, ?_⟩, fun q hq => ?_⟩
  · rw [State.forward_eq]; rfl
  · rw [State.forward_fq]
    exact congrArg FaultQ.offered hfq
  · rw [State.forward_eq]
    exact hstop q hq

/-- What the restart of the spine resets, before the slabs are mapped (R414). -/
def State.spineReset (s : State) : State :=
  let t := s.blockReset 4
  { t with
    regs := s.regs.filter (fun x => decide (0x00100000 ≤ x.1) && decide (x.1 < 0x00800000)), mgmt := s.mgmt, fq := s.fq, irqs := s.irqs,
    mgmtIrqs := s.mgmtIrqs, pwr := s.pwr, recovCnt := s.recovCnt, substCnt := s.substCnt,
    boot := { t.boot with init := false, initRun := false } }

theorem State.spineReset_spec (s : State) : s.spineReset.aon.tb = s.aon.tb ∧ s.spineReset.otp = s.otp ∧ s.spineReset.mgmt = s.mgmt
    ∧ s.spineReset.fq = s.fq ∧ s.spineReset.boot.cause = 4 ∧ s.spineReset.cast.loaded = false ∧ s.spineReset.subs = []
    ∧ s.spineReset.cores = [] := ⟨rfl, rfl, rfl, rfl, rfl, rfl, rfl, rfl⟩

/-- The slabs are mapped again, and taps and bypasses loaded (R25, R480, R110). -/
theorem State.remapped_leaves {γ : Type} (p : State → γ) (hst : ∀ (t : State) c f, p (t.updSt c f) = p t)
    (h : ∀ (t : State) roles lmap ages, p { t with roles := roles, lmap := lmap, ages := ages } = p t) (s : State) :
    p s.mapSlabs.loadTaps.loadBypass = p s := by
  rw [State.loadBypass_leaves p hst, State.loadTaps_leaves p fun t a => h t t.roles t.lmap a]
  exact State.mapSlabs_leaves p (fun t _ _ => h t _ t.lmap t.ages) (fun t m => h t t.roles m t.ages) (fun t r => h t r t.lmap t.ages) s

theorem State.forward_timebase (s : State) : s.forward.aon.tb = s.aon.tb := by
  simp only [State.forward]
  split
  · rfl
  · rw [State.settle_eq]

/-- The restart of the spine: slabs and hubs are reset, the management core and the OTP are not (R414). -/
theorem State.spineRestart_spec (s : State) (hby : s.byMgmt .mgmt = true) (hsub : s.subst = none) :
    ∃ t, exec (.subcmdSpineRestart .mgmt) s = .next t ∧ t.aon.tb = s.aon.tb ∧ t.otp = s.otp ∧ t.mgmt = s.mgmt
      ∧ t.fq = s.fq ∧ t.boot.cause = 4 ∧ t.cast.loaded = false ∧ t.subs = []
      ∧ ∀ c, (t.core c).cur = ({} : Core).cur ∧ (t.core c).run = ({} : Core).run := by
  have hexec : exec (.subcmdSpineRestart .mgmt) s = .next s.spineReset.mapSlabs.loadTaps.loadBypass.forward := by
    show execSubcmdSpineRestart .mgmt s = _
    simp only [execSubcmdSpineRestart]
    rw [if_neg (by simp [hby])]
    exact if_neg (by simp [hsub])
  obtain ⟨haon, hotp, hmgmt, hfq, hboot, hcast, hsubs, hcores⟩ := s.spineReset_spec
  generalize s.spineReset = r at *
  have hl := fun {γ : Type} (p : State → γ) h1 h2 => State.remapped_leaves p h1 h2 r
  have hcore := fun c => (hl (fun t => ((t.core c).cur, (t.core c).run)) (fun t d f => by
    by_cases hd : c = d
    · subst hd
      rw [State.updSt, State.core_updCore_same]
    · rw [State.updSt, State.core_updCore_ne _ _ hd]) fun _ _ _ _ => rfl)
  have hu := hl State.aon (fun _ _ _ => rfl) fun _ _ _ _ => rfl
  have hotp' := hl State.otp (fun _ _ _ => rfl) fun _ _ _ _ => rfl
  have hmgmt' := hl State.mgmt (fun _ _ _ => rfl) fun _ _ _ _ => rfl
  have hfq' := hl State.fq (fun _ _ _ => rfl) fun _ _ _ _ => rfl
  have hboot' := hl State.boot (fun _ _ _ => rfl) fun _ _ _ _ => rfl
  have hcast' := hl State.cast (fun _ _ _ => rfl) fun _ _ _ _ => rfl
  have hsubs' := hl State.subs (fun _ _ _ => rfl) fun _ _ _ _ => rfl
  generalize r.mapSlabs.loadTaps.loadBypass = u at *
  refine ⟨_, hexec, ?_, ?_, ?_, ?_, ?_, ?_, ?_, fun c => ?_⟩
  · exact u.forward_timebase.trans ((congrArg Aon.tb hu).trans haon)
  · exact u.forward_otp.trans (hotp'.trans hotp)
  · exact u.forward_mgmt.trans (hmgmt'.trans hmgmt)
  · exact u.forward_fq.trans (hfq'.trans hfq)
  · rw [State.forward_eq]; exact (congrArg Boot.cause hboot').trans hboot
  · rw [State.forward_eq]; exact (congrArg (fun c : CastSt => c.loaded) hcast').trans hcast
  · rw [State.forward_eq]; exact hsubs'.trans hsubs
  · rw [State.forward_leaves (fun t => t.core c) fun _ _ _ => rfl]
    obtain ⟨h1, h2⟩ := Prod.mk.inj (hcore c)
    rw [h1, h2, State.core, hcores]
    exact ⟨rfl, rfl⟩

/-! ### Firmware's commands -/

/-- An accepted command of GLB_SUBCMD begins the operation with the old slab (R416). -/
theorem State.subcmd_accepted (s : State) (path migrate : Bool) (l sp p : Nat) (f : State → Nat → State) (hby : s.byMgmt .mgmt = true)
    (hsub : s.subst = none) (hp : s.phys l = some p) (hlt : sp < 68) (hspare : (s.role sp).st = .spare)
    (hfab : path = true ∨ s.fabric.contains p = false) :
    s.subcmd .mgmt path l sp migrate f = f { s with substResult := 0 } p := by
  have hretry : s.retryOf l = none := by simp only [State.retryOf, hsub]; rfl
  simp only [State.subcmd]
  rw [if_neg (by simp [hby]), if_neg (by simp [hsub]), hp]
  simp only [hretry]
  rw [if_neg (by simp [hspare]; omega)]
  refine if_neg ?_
  obtain h | h := hfab
  · simp [h]
  · simp only [h]
    exact fun hc => Bool.false_ne_true hc.2

/-- A state in which operation `o` has been accepted. -/
def State.withOp (s : State) (o : SubstOp) : State := { s with substResult := 0, subst := some o }

theorem State.subcmd_busy (s : State) (path migrate : Bool) (l sp : Nat) (f : State → Nat → State) (hby : s.byMgmt .mgmt = true)
    {o : SubstOp} (hsub : s.subst = some o) (hfail : o.failed = false) :
    s.subcmd .mgmt path l sp migrate f = { s with substResult := 1 } := by
  have hretry : s.retryOf l = none := by
    simp only [State.retryOf, hsub, Option.bind_some, hfail]
    exact if_neg (by simp)
  simp only [State.subcmd]
  rw [if_neg (by simp [hby])]
  exact if_pos (by simp [hsub, hretry])

section
variable (s : State) (path : Bool) (l : BitVec 6) (sp : BitVec 7) (hby : s.byMgmt .mgmt = true)
include hby

theorem State.substitute_spec {p : Nat} (hsub : s.subst = none) (hp : s.phys l.toNat = some p) (hne : p ≠ sp.toNat) (hlt : sp.toNat < 68)
    (hspare : (s.role sp.toNat).st = .spare) (hfab : path = true ∨ s.fabric.contains p = false) :
    ∃ t, exec (.subcmdSubstitute .mgmt path l sp) s = .next t ∧ t.substResult = 0
      ∧ t.mapgen = (s.mapgen + 1) % 2 ^ 32 ∧ t.phys l.toNat = some sp.toNat
      ∧ t.role sp.toNat = { logical := some l.toNat, st := .migrating, part := (s.role p).part } ∧ (t.role p).st = .retiredService
      ∧ (∀ i, i < 32 → (t.core (32 * p + i)).run.held = true) ∧ t.subst
          = some { migrate := false, path := path, logical := l.toNat, old := p, spare := sp.toNat, moved := true } := by
  have hretry : s.retryOf l.toNat = none := by simp only [State.retryOf, hsub]; rfl
  have hexec : exec (.subcmdSubstitute .mgmt path l sp) s = .next (({ s with substResult := 0 } : State).moveMap
      { migrate := false, path := path, logical := l.toNat, old := p, spare := sp.toNat }) := by
    show execSubcmdSubstitute .mgmt path l sp s = _
    simp only [execSubcmdSubstitute, hretry]
    exact congrArg Host.Outcome.next (s.subcmd_accepted path false l.toNat sp.toNat p
      (fun t old => t.moveMap { migrate := false, path := path, logical := l.toNat, old := old, spare := sp.toNat }) hby hsub hp hlt hspare hfab)
  obtain ⟨hgen, hphys, hnew, hold, hcores, hs', hres⟩ := ({ s with substResult := 0 } : State).moveMap_spec
    { migrate := false, path := path, logical := l.toNat, old := p, spare := sp.toNat } hne
  generalize State.moveMap _ _ = t at *
  exact ⟨t, hexec, hres, hgen, hphys, hnew, hold, hcores, hs'⟩

theorem State.exec_migrate {p : Nat} (hsub : s.subst = none) (hp : s.phys l.toNat = some p) (hlt : sp.toNat < 68)
    (hspare : (s.role sp.toNat).st = .spare) (hfab : path = true ∨ s.fabric.contains p = false) :
    exec (.subcmdMigrate .mgmt path l sp) s
      = .next (s.withOp { migrate := true, path := path, logical := l.toNat, old := p, spare := sp.toNat }).migrateReady := by
  show execSubcmdMigrate .mgmt path l sp s = _
  simp only [execSubcmdMigrate]
  rw [s.subcmd_accepted path true l.toNat sp.toNat p _ hby hsub hp hlt hspare hfab]
  rfl

theorem State.subcmd_one_at_a_time {o : SubstOp} (ho : s.subst = some o) (hfail : o.failed = false) :
    exec (.subcmdSubstitute .mgmt path l sp) s = .next { s with substResult := 1 }
      ∧ exec (.subcmdMigrate .mgmt path l sp) s = .next { s with substResult := 1 }
      ∧ exec (.subcmdReplay .mgmt l) s = .next { s with substResult := 1 }
      ∧ exec (.subcmdSpineRestart .mgmt) s = .next { s with substResult := 1 } := by
  refine ⟨?_, ?_, ?_, ?_⟩
  · show execSubcmdSubstitute .mgmt path l sp s = _
    simp only [execSubcmdSubstitute]
    rw [s.subcmd_busy _ _ _ _ _ hby ho hfail]
  · show execSubcmdMigrate .mgmt path l sp s = _
    simp only [execSubcmdMigrate]
    rw [s.subcmd_busy _ _ _ _ _ hby ho hfail]
  · show execSubcmdReplay .mgmt l s = _
    simp only [execSubcmdReplay]
    rw [if_neg (by simp [hby])]
    exact if_pos (by simp [ho])
  · show execSubcmdSpineRestart .mgmt s = _
    simp only [execSubcmdSpineRestart]
    rw [if_neg (by simp [hby])]
    exact if_pos (by simp [ho])

theorem State.replay_spec {p : Nat} (hsub : s.subst = none) (hp : s.phys l.toNat = some p) :
    ∃ t, exec (.subcmdReplay .mgmt l) s = .next t ∧ t.substResult = 0 ∧ ∀ i, i < 32 →
      (¬ (s.core (32 * p + i)).run.replays → t.core (32 * p + i) = s.core (32 * p + i))
      ∧ ((s.core (32 * p + i)).run.replays → (∃ v, t.core (32 * p + i)
          = { s.core (32 * p + i) with run := (s.core (32 * p + i)).run.replayed v })
        ∧ ∀ d ∈ t.dlog, d.core = 32 * p + i → d.released = true) := by
  have hexec : exec (.subcmdReplay .mgmt l) s
      = .next ((List.range 32).foldl (fun t i => t.replayHalted (32 * p + i)) { s with substResult := 0 }) := by
    show execSubcmdReplay .mgmt l s = _
    simp only [execSubcmdReplay]
    rw [if_neg (by simp [hby]), if_neg (by simp [hsub]), hp]
  have hres : ∀ (l : List Nat) (t : State), (l.foldl (fun t i => t.replayHalted (32 * p + i)) t).substResult = t.substResult :=
    fun l t => foldl_leaves State.substResult (fun t i => State.replayHalted_leaves State.substResult (fun _ _ _ _ _ _ => rfl) t _) l t
  exact ⟨_, hexec, hres _ _, fun i hi => State.replaySlab_spec { s with substResult := 0 } p hi⟩

end

end Sys2Proof.Machine
end

section
open Sys2Proof Sys2Proof.Machine

/-- Settles O47: a map change names the spare and holds the old slab's cores; the moves of the 32 cores are disjoint, as are their replays. -/
theorem substitutionAndSpine : Obligations.SubstitutionAndSpine := by
  unfold Obligations.SubstitutionAndSpine
  intro s path l sp hans place
  have hby : s.byMgmt .mgmt = true := by simp [State.byMgmt, hans]
  refine ⟨fun p hsub ⟨hp, hne, hlt, hspare, hfab⟩ => s.substitute_spec path l sp hby hsub hp hne hlt hspare hfab,
    fun p hsub ⟨hp, hne, hlt, hspare, hfab⟩ hheld => ?_, fun p hsub ⟨hp, hne, hlt, hspare, hfab⟩ hheld => ?_,
    fun o ho hfail => s.subcmd_one_at_a_time path l sp hby ho hfail,
    fun o ho hm hf hr hne hc hs => s.substitutionResume_spec ho hm hf hr hne hc hs, fun hsub hp => ?_, fun p hsub hp => ?_,
    s.spineFailure_spec hans, s.spineRestart_spec hby⟩
  · rw [s.exec_migrate path l sp hby hsub hp hlt hspare hfab]
    refine congrArg Host.Outcome.next (if_neg ?_)
    simp only [Bool.and_eq_true]
    exact fun h => absurd (h.2.symm.trans hheld) (by decide)
  · have hexec := s.exec_migrate path l sp hby hsub hp hlt hspare hfab
    obtain ⟨hgen, hphys, hnew, hold, hcores, hs', hres⟩ := State.moveMap_spec
      (s.withOp { migrate := true, path := path, logical := l.toNat, old := p, spare := sp.toNat })
      { migrate := true, path := path, logical := l.toNat, old := p, spare := sp.toNat } hne
    refine ⟨_, hexec.trans (congrArg Host.Outcome.next (if_pos ?_)), hgen, hold, hphys⟩
    simp only [Bool.and_eq_true]
    exact ⟨⟨trivial, rfl⟩, hheld⟩
  · show execSubcmdReplay .mgmt l s = _
    simp only [execSubcmdReplay]
    rw [if_neg (by simp [hby]), if_neg (by simp [hsub]), hp]
  · obtain ⟨t, hexec, hres, hcores⟩ := s.replay_spec l hby hsub hp
    refine ⟨t, hexec, hres, fun i hi => ?_⟩
    obtain ⟨hstay, hreplay⟩ := hcores i hi
    refine ⟨fun h => hstay fun hr => (CoreRun.replays_iff _).mp hr h, fun code hcode hno => ?_⟩
    obtain ⟨⟨v, hv⟩, hlog⟩ := hreplay ⟨code, hcode, hno⟩
    rw [hv]
    exact ⟨rfl, rfl, rfl, rfl, rfl, rfl, rfl, rfl, rfl, hlog⟩

end

section
/-! Detected faults, recovery and its end (R251, R252, R401, R404 to R410, R436, R465). -/

namespace Sys2Proof.Machine

/-! ### A core that answers for a fault -/

theorem State.guardAt_none (s : State) (c : Nat) (f : CFault) (h : s.spareFault (c / 32) = none) : s.guardAt c f = s.guardCore c f := by
  simp only [State.guardAt, h]

theorem State.guardCore_recovers (s : State) (c : Nat) (f : CFault) (hh : (s.core c).run.halt = none) (hf : s.slabFaulty (c / 32) = false) :
    s.guardCore c f = (s.offerCore c { f with act := 1 }).beginRecovery c := by
  simp [State.guardCore, hh, hf]

theorem State.guardCore_second (s : State) (c : Nat) (f : CFault) (hh : (s.core c).run.halt = none) (hf : s.slabFaulty (c / 32) = true) :
    s.guardCore c f = s.haltCore c { code := 0x2A, unit := f.unit, tag := f.tag } := by
  simp [State.guardCore, hh, hf]

theorem State.guardCore_halted (s : State) (c : Nat) (f : CFault) {code : Nat} (hh : (s.core c).run.halt = some code) :
    s.guardCore c f = s.offerCore c { f with act := 2 } := by
  simp [State.guardCore, hh]

/-- One record joins those offered. -/
def State.Records (s t : State) (code act : Nat) : Prop := ∃ f : FRec, f.code = code ∧ f.act = act ∧ t.fq.offered = s.fq.offered ++ [f]

theorem State.offerCore_records (s : State) (c : Nat) (f : CFault) : s.Records (s.offerCore c f) f.code f.act := ⟨_, rfl, rfl, rfl⟩

theorem State.haltCore_records (s : State) (c : Nat) (f : CFault) (h : (s.core c).run.halt = none) : s.Records (s.haltCore c f) f.code 2 := by
  obtain ⟨r, hcode, hact, hr⟩ := (s.haltCore_running c f h).2
  exact ⟨r, hcode, hact, hr⟩

/-- The core recovers from a first fault in its slab (R405, R406). -/
theorem State.guardCore_recovering (s : State) (c : Nat) (f : CFault) (hh : (s.core c).run.halt = none) (hf : s.slabFaulty (c / 32) = false) :
    s.Records (s.guardCore c f) f.code 1
      ∧ (s.guardCore c f).core c = { s.core c with run := (s.core c).run.recovering s.v64 }
      ∧ (∀ d, d ≠ c → (s.guardCore c f).core d = s.core d)
      ∧ (s.guardCore c f).dlog = s.dlog.filter (fun d => d.core != c || d.released) ∧ (s.guardCore c f).mesh = s.mesh := by
  rw [s.guardCore_recovers c f hh hf]
  refine ⟨⟨_, rfl, rfl, rfl⟩, ?_, fun d hd => ?_, rfl, rfl⟩
  · rw [((s.offerCore c { f with act := 1 }).beginRecovery_spec c c).1, if_pos rfl]
    rfl
  · rw [((s.offerCore c { f with act := 1 }).beginRecovery_spec c d).1, if_neg hd]
    rfl

theorem exec_guardFailure (s : State) (g : GuardSite) : exec (.guardFailure g) s = execGuardFailure g s := rfl

/-- The guard failures of an engine (R405, R406, R409). -/
theorem State.engineFailure (s : State) (c : CoreNo) (unit : BitVec 4) (hi : s.boot.init = false) (hc : s.boot.cold = false) :
    exec (.guardFailure (.engine c unit)) s
      = .next (s.guardAt c.val { code := 0x22, unit := unit.toNat, tag := unitTag (s.core c.val).run unit.toNat }) := by
  rw [exec_guardFailure]
  simp only [execGuardFailure]
  exact if_neg (by simp [hi, hc])

/-! ### Structures of the hubs -/

theorem State.hubOwn_spec (s : State) (o : HubOwn) (hi : s.boot.init = false) (hc : s.boot.cold = false) :
    ∃ t, exec (.guardFailure (.hubOwn o)) s = .next t ∧ s.Records t 0x28 3
      ∧ ∀ p ∈ s.usersOf o, p ∈ t.cast.stopped ∧ ∀ d ∈ s.coresOf p, (t.core d).run.held = true ∧ (t.core d).run.run = none := by
  have hexec : exec (.guardFailure (.hubOwn o)) s = .next (s.hubStop (hubOfOwn o) (infoOfOwn o) (s.usersOf o)) := by
    rw [exec_guardFailure]
    simp only [execGuardFailure]
    exact if_neg (by simp [hi, hc])
  refine ⟨_, hexec, ⟨_, ?_, ?_, congrArg FaultQ.offered
    (foldl_leaves State.fq (fun t q => State.stopPart_leaves State.fq (fun _ _ _ _ _ => rfl) t q) _ _)⟩, fun p hp => ?_⟩
  · rfl
  · rfl
  · exact State.stopParts_spec _ _ hp

theorem State.hubBacked_spec (s : State) (o : HubObj) (hi : s.boot.init = false) (hc : s.boot.cold = false) :
    ∃ t, exec (.guardFailure (.hubBacked o)) s = .next t ∧ s.Records t 0x28 0
      ∧ t = { s with fq := t.fq, tlb := t.tlb, link := { s.link with rcache := t.link.rcache } }
      ∧ (∀ r, o = .region r → ∀ x ∈ t.link.rcache, x.1 ≠ r.toNat)
      ∧ (∀ p g, o = .page p g → ∀ x ∈ t.tlb, x.part ≠ p.toNat ∨ x.page ≠ g.toNat) := by
  have hexec : exec (.guardFailure (.hubBacked o)) s = .next (s.refetch o) := by
    rw [exec_guardFailure]
    simp only [execGuardFailure]
    exact if_neg (by simp [hi, hc])
  refine ⟨_, hexec, ?_⟩
  cases o with
  | peer i => exact ⟨⟨_, rfl, rfl, rfl⟩, rfl, fun _ h => HubObj.noConfusion h, fun _ _ h => HubObj.noConfusion h⟩
  | directory i => exact ⟨⟨_, rfl, rfl, rfl⟩, rfl, fun _ h => HubObj.noConfusion h, fun _ _ h => HubObj.noConfusion h⟩
  | region r =>
    refine ⟨⟨_, rfl, rfl, rfl⟩, rfl, fun r' h x hx => ?_, fun _ _ h => HubObj.noConfusion h⟩
    cases h
    have hx' : x ∈ s.link.rcache.filter (fun x => x.1 ≠ r.toNat) := hx
    exact of_decide_eq_true (List.mem_filter.mp hx').2
  | page p g =>
    refine ⟨⟨_, rfl, rfl, rfl⟩, rfl, fun _ h => HubObj.noConfusion h, fun p' g' h x hx => ?_⟩
    cases h
    have hx' : x ∈ s.tlb.filter (fun t => t.part ≠ p.toNat || t.page ≠ g.toNat) := hx
    simpa using (List.mem_filter.mp hx').2

/-! ### The management core's SRAM, and tempering -/

theorem State.mgmtRestart_records (s : State) (code cause : Nat) (bad : Bool) : s.Records (s.mgmtRestart code cause bad) code 0 := by
  have hfq := s.abortSelfTest_leaves.1
  simp only [State.mgmtRestart, State.Records]
  generalize s.abortSelfTest = u at hfq
  rw [← hfq]
  split
  · exact ⟨_, rfl, rfl, rfl⟩
  · rw [State.log_fq]
    exact ⟨_, rfl, rfl, rfl⟩

theorem State.sram_spec (s : State) (g : BitVec 15) (hi : s.boot.init = false) (hc : s.boot.cold = false) (hrun : s.mgmt.run = true) :
    ∃ t, exec (.guardFailure (.sram g)) s = .next t ∧ s.Records t 0x71 0
      ∧ (32 * g.toNat < s.mgmt.imgLen → t.mgmt.run = false ∧ t.mgmt.cause = 5)
      ∧ (s.mgmt.imgLen ≤ 32 * g.toNat → t.mgmt.run = true ∧ t.mgmt.cause = 3) ∧ t.mgmt.sram = s.mgmt.sram := by
  have hexec : exec (.guardFailure (.sram g)) s = .next (s.mgmtRestart 0x71 3 (decide (32 * g.toNat < s.mgmt.imgLen))) := by
    rw [exec_guardFailure]
    simp only [execGuardFailure, hrun]
    exact if_neg (by simp [hi, hc])
  obtain ⟨-, hsram, hr, hcause, -⟩ := s.mgmtRestart_spec 0x71 3 (decide (32 * g.toNat < s.mgmt.imgLen))
  refine ⟨_, hexec, s.mgmtRestart_records _ _ _, fun h => ?_, fun h => ?_, hsram⟩
  · rw [hr, hcause, decide_eq_true h]
    exact ⟨rfl, rfl⟩
  · rw [hr, hcause, decide_eq_false (Nat.not_lt.mpr h)]
    exact ⟨rfl, rfl⟩

theorem State.offerUnit_records (s : State) (u code : Nat) (esc : Bool) : s.Records (s.offerUnit u code esc) code 0 := by
  simp only [State.offerUnit]
  split
  · exact ⟨_, rfl, rfl, rfl⟩
  · exact ⟨_, rfl, rfl, rfl⟩

theorem State.searchFail_records (s : State) (r : Nat) : s.Records (s.searchFail r) 0x75 0 := by
  simp only [State.searchFail]
  split
  · obtain ⟨f, hcode, hact, hf⟩ := State.offerUnit_records ((({ s with temper := { s.temper with busy := false, result := r, ready := false } } :
      State).setRole s.temper.unit { logical := none, st := .retiredService, part := none }).forward) s.temper.unit 0x75 false
    exact ⟨f, hcode, hact, hf.trans (by rw [State.forward_fq]; rfl)⟩
  · obtain ⟨f, hcode, hact, hf⟩ := State.offerUnit_records { s with temper := { s.temper with busy := false, result := r, ready := false } }
      s.temper.unit 0x75 true
    exact ⟨f, hcode, hact, hf⟩

theorem State.exec_guardTempering (s : State) (hi : s.boot.init = false) (hc : s.boot.cold = false) (hb : s.temper.busy = true)
    (hu : s.temper.unit < 68) : exec (.guardFailure .tempering) s
      = .next (if s.temper.faults = 0 then { s with temper := { s.temper with faults := 1 } } else s.searchFail 3) := by
  rw [exec_guardFailure]
  simp only [execGuardFailure]
  rw [if_neg (by simp [hi, hc]), if_neg (by simp [hb]; omega)]
  split <;> rfl

/-! ### Another core's store -/

/-- The failed read is dropped and noted at the core that holds the granule (R252). -/
def State.otherNoted (s : State) (n o g : Nat) : State := (s.dropFlight (.granule n)).setGerr o g 6

theorem State.otherNoted_spec (s : State) (n o g : Nat) : (s.otherNoted n o g).mesh = s.mesh.eraseIdx n ∧ (s.otherNoted n o g).fq = s.fq
    ∧ (∀ c, ((s.otherNoted n o g).core c).run = (s.core c).run) ∧ (∀ c, ((s.otherNoted n o g).core c).rp = (s.core c).rp)
    ∧ (∀ c, ((s.otherNoted n o g).core c).st.ls = (s.core c).st.ls) ∧ (s.otherNoted n o g).tierA = s.tierA
    ∧ (s.otherNoted n o g).tierB = s.tierB ∧ (s.otherNoted n o g).subst = s.subst := by
  have hcore : ∀ c, (s.otherNoted n o g).core c
      = if c = o then { s.core o with st := { (s.core o).st with lstGerr := BitVec.ofNat 32 (g + 2 ^ 13 * 6 + 2 ^ 16) } } else s.core c :=
    fun c => State.core_setCore _ _ _ _
  refine ⟨rfl, rfl, fun c => ?_, fun c => ?_, fun c => ?_, rfl, rfl, rfl⟩
  all_goals
    rw [hcore]
    split
    · subst_vars; rfl
    · rfl

theorem State.refillGran_spec (s : State) (o g : Nat) : (∀ c, ((s.refillGran o g).core c).run = (s.core c).run)
    ∧ (s.refillGran o g).mesh = s.mesh ∧ (s.refillGran o g).fq = s.fq ∧ (s.refillGran o g).subst = s.subst := by
  simp only [State.refillGran]
  split
  · exact ⟨fun _ => rfl, rfl, rfl, rfl⟩
  · refine ⟨fun c => ?_, rfl, rfl, rfl⟩
    by_cases hc : c = o
    · subst hc
      rw [State.updSt, State.core_updCore_same]
    · rw [State.updSt, State.core_updCore_ne _ _ hc]

/-- The rewritten granule comes from the same backing copy into the same store. -/
theorem State.refillGran_ls_congr {s t : State} {o g : Nat} (hrp : (t.core o).rp = (s.core o).rp) (hls : (t.core o).st.ls = (s.core o).st.ls)
    (ha : t.tierA = s.tierA) (hb : t.tierB = s.tierB) : ((t.refillGran o g).core o).st.ls = ((s.refillGran o g).core o).st.ls := by
  have hgran : ∀ b a, t.gran b a = s.gran b a := fun b a => by simp only [State.gran, State.tier, ha, hb]
  simp only [State.refillGran, hrp]
  split
  · exact hls
  · rw [State.updSt, State.core_updCore_same, State.updSt, State.core_updCore_same, hls, hgran]

theorem State.slabFaulty_congr {s t : State} (h : ∀ c, (t.core c).run = (s.core c).run) (slab : Nat) : t.slabFaulty slab = s.slabFaulty slab := by
  simp only [State.slabFaulty, h]

section
variable (s : State) {n c o : Nat} {m : Msg} {g : Nat} (hi : s.boot.init = false) (hb : s.boot.cold = false) (hm : s.mesh[n]? = some m)
  (hk : m.kind = .get g) (hsrc : s.pcore m.src = some c) (ho : s.coreAt m.part m.dst = some o) (hh : (s.core c).run.halt = none)
include hi hb hm hk hsrc ho

/-- A failed read of another core's store (R252, R410). -/
theorem State.exec_otherFailure : ∃ tag, exec (.guardFailure (.other n)) s
    = .next (if inKept (s.core o).rp.kept m.gran then ((s.otherNoted n o m.gran).refillGran o m.gran).guardAt c
        { code := 0x21, unit := 6, info0 := some m.gran, info1 := some 6, tag := tag }
      else ((s.otherNoted n o m.gran).dropLog c).haltCore c
        { code := 0x29, esc := true, unit := 7, info0 := some (m.gran + 2 ^ 16 * o), tag := tag }) := by
  have hflight : ∃ tag, s.flightSrc (.granule n) = some (c, tag) := by
    simp only [State.flightSrc, hm, Option.bind_some, hsrc, Option.map_some]
    exact ⟨_, rfl⟩
  obtain ⟨tag, hflight⟩ := hflight
  refine ⟨tag, ?_⟩
  rw [exec_guardFailure]
  simp only [execGuardFailure]
  rw [if_neg (by simp [hi, hb])]
  simp only [State.otherFail, hm, hflight, hk, ho]
  rfl

include hh

theorem State.otherFailure_lost (hkept : inKept (s.core o).rp.kept m.gran = false) :
    ∃ t, exec (.guardFailure (.other n)) s = .next t ∧ s.Records t 0x29 2 ∧ (t.core c).run.halt = some 0x29 ∧ t.mesh = s.mesh.eraseIdx n := by
  obtain ⟨tag, hexec⟩ := s.exec_otherFailure hi hb hm hk hsrc ho
  rw [if_neg (by rw [hkept]; exact Bool.false_ne_true)] at hexec
  obtain ⟨hmesh, hfq, hrun, -⟩ := s.otherNoted_spec n o m.gran
  generalize s.otherNoted n o m.gran = u at *
  have hhalt : ((u.dropLog c).core c).run.halt = none := (congrArg CoreRun.halt (hrun c)).trans hh
  obtain ⟨hcore, r, hcode, hact, hr⟩ := (u.dropLog c).haltCore_running c
    { code := 0x29, esc := true, unit := 7, info0 := some (m.gran + 2 ^ 16 * o), tag := tag } hhalt
  refine ⟨_, hexec, ⟨r, hcode, hact, hr.trans (by rw [← hfq]; rfl)⟩, congrArg (fun k : Core => k.run.halt) hcore, ?_⟩
  exact (State.haltCore_leaves State.mesh (fun _ _ _ => rfl) (fun _ _ => rfl) (fun _ _ => rfl) _ _ _).trans hmesh

theorem State.otherFailure_kept (hkept : inKept (s.core o).rp.kept m.gran = true) (hsp : s.spareFault (c / 32) = none)
    (hsf : s.slabFaulty (c / 32) = false) :
    ∃ t, exec (.guardFailure (.other n)) s = .next t ∧ s.Records t 0x21 1 ∧ (t.core c).run.recov = 1 ∧ t.mesh = s.mesh.eraseIdx n
      ∧ (t.core o).st.ls = ((s.refillGran o m.gran).core o).st.ls := by
  obtain ⟨tag, hexec⟩ := s.exec_otherFailure hi hb hm hk hsrc ho
  rw [if_pos hkept] at hexec
  obtain ⟨hmesh, hfq, hrun, hrp, hls, hta, htb, hsub⟩ := s.otherNoted_spec n o m.gran
  have hsame := State.refillGran_ls_congr (g := m.gran) (hrp o) (hls o) hta htb
  generalize s.otherNoted n o m.gran = u at *
  obtain ⟨hrun', hmesh', hfq', hsub'⟩ := u.refillGran_spec o m.gran
  generalize u.refillGran o m.gran = v at *
  have hrunv : ∀ c, (v.core c).run = (s.core c).run := fun c => (hrun' c).trans (hrun c)
  have hspv : v.spareFault (c / 32) = none := by
    rw [← hsp]
    simp only [State.spareFault, hsub', hsub]
  rw [v.guardAt_none _ _ hspv] at hexec
  obtain ⟨⟨f, hcode, hact, hf⟩, hcore, hother, -, hm'⟩ := v.guardCore_recovering c
    { code := 0x21, unit := 6, info0 := some m.gran, info1 := some 6, tag := tag } ((congrArg CoreRun.halt (hrunv c)).trans hh)
    ((State.slabFaulty_congr hrunv _).trans hsf)
  refine ⟨_, hexec, ⟨f, hcode, hact, hf.trans (by rw [hfq', hfq])⟩, by rw [hcore]; rfl, hm'.trans (hmesh'.trans hmesh), ?_⟩
  rw [← hsame]
  by_cases hoc : o = c
  · subst hoc
    rw [hcore]
  · rw [hother o hoc]

end

/-! ### The end of a recovery -/

theorem Memory.granule_setGranule_ne (m : Memory) {g h : Nat} (v : Granule) (hne : g ≠ h) :
    Memory.granule (Memory.setGranule m (32 * h) v) (32 * g) = Memory.granule m (32 * g) := by
  simp only [Memory.granule, Memory.setGranule]
  rw [Memory.nat_setNat_ne _ _ _ _ _ _ (by omega)]

/-- A rewrite of kept ranges leaves the granules that are not kept. -/
theorem State.refillGran_granule (s : State) (c h g : Nat) (hh : inKept (s.core c).rp.kept h = true) (hg : inKept (s.core c).rp.kept g = false) :
    Memory.granule ((s.refillGran c h).core c).st.ls (32 * g) = Memory.granule (s.core c).st.ls (32 * g) := by
  have hne : g ≠ h := fun h' => by rw [h', hh] at hg; cases hg
  simp only [State.refillGran]
  split
  · rfl
  · rw [State.updSt, State.core_updCore_same]
    exact Memory.granule_setGranule_ne _ _ hne

theorem inKept_range {kept : Sp Kept} {x : Nat × Kept} (hx : x ∈ kept) {i : Nat} (hi : i < x.2.count) : inKept kept (x.2.first + i) = true :=
  List.any_eq_true.mpr ⟨x, hx, by simp; omega⟩

theorem State.refillGran_rp (s : State) (c h : Nat) : ((s.refillGran c h).core c).rp = (s.core c).rp := by
  simp only [State.refillGran]
  split
  · rfl
  · rw [State.updSt, State.core_updCore_same]

theorem State.refill_leaves {γ : Type} (s : State) (c : Nat) (p : State → γ) (h : ∀ (t : State) f, p (t.updSt c f) = p t) :
    p (s.refill c) = p s := by
  refine foldl_leaves p (fun t x => foldl_leaves p (fun t i => ?_) _ _) _ _
  rw [State.refillGran]
  split
  · rfl
  · exact h _ _

/-- Refilling a core's kept ranges leaves its other granules (R251). -/
theorem State.refill_granule (s : State) (c g : Nat) (hg : inKept (s.core c).rp.kept g = false) :
    Memory.granule ((s.refill c).core c).st.ls (32 * g) = Memory.granule (s.core c).st.ls (32 * g) := by
  have hfold : ((s.refill c).core c).rp = (s.core c).rp
      ∧ Memory.granule ((s.refill c).core c).st.ls (32 * g) = Memory.granule (s.core c).st.ls (32 * g) := by
    refine List.foldlRecOn (motive := fun t : State => (t.core c).rp = (s.core c).rp
      ∧ Memory.granule (t.core c).st.ls (32 * g) = Memory.granule (s.core c).st.ls (32 * g)) _ _ ⟨rfl, rfl⟩ fun t ht x hx => ?_
    refine List.foldlRecOn (motive := fun t : State => (t.core c).rp = (s.core c).rp
      ∧ Memory.granule (t.core c).st.ls (32 * g) = Memory.granule (s.core c).st.ls (32 * g)) _ _ ht fun u hu i hi => ?_
    obtain ⟨hrp, hgr⟩ := hu
    refine ⟨(u.refillGran_rp c _).trans hrp, (u.refillGran_granule c _ g ?_ ?_).trans hgr⟩
    · rw [hrp]
      exact inKept_range hx (List.mem_range.mp hi)
    · rw [hrp]
      exact hg
  exact hfold.2

/-- Granule `h` of a core is zeroed where it is not kept (R251). -/
def State.zeroGran (kept : Sp Kept) (c : Nat) (s : State) (h : Nat) : State :=
  if inKept kept h then s else s.updSt c (fun st => { st with ls := Memory.setGranule st.ls (32 * h) 0#256 })

theorem State.zeroGran_same (kept : Sp Kept) (c g : Nat) (s : State) (hg : inKept kept g = false) :
    Memory.granule ((s.zeroGran kept c g).core c).st.ls (32 * g) = 0#256 := by
  rw [State.zeroGran, if_neg (by rw [hg]; exact Bool.false_ne_true), State.updSt, State.core_updCore_same]
  dsimp only
  rw [Memory.granule_setGranule]

theorem State.zeroGran_ne (kept : Sp Kept) (c : Nat) {g h : Nat} (s : State) (hne : g ≠ h) :
    Memory.granule ((s.zeroGran kept c h).core c).st.ls (32 * g) = Memory.granule (s.core c).st.ls (32 * g) := by
  rw [State.zeroGran]
  split
  · rfl
  · rw [State.updSt, State.core_updCore_same]
    dsimp only
    rw [Memory.granule_setGranule_ne _ _ hne]

/-- The failed granules that are not kept are zeroed (R251). -/
theorem State.zeroFailed_granule (s : State) (c g : Nat) (hg : inKept (s.core c).rp.kept g = false) :
    Memory.granule ((s.zeroFailed c).core c).st.ls (32 * g)
      = if g ∈ (s.core c).run.failed then 0#256 else Memory.granule (s.core c).st.ls (32 * g) := by
  have hfold : ∀ (l : List Nat) (t : State), Memory.granule ((l.foldl (State.zeroGran (s.core c).rp.kept c) t).core c).st.ls (32 * g)
      = if g ∈ l then 0#256 else Memory.granule (t.core c).st.ls (32 * g) := by
    intro l
    induction l with
    | nil => exact fun _ => rfl
    | cons h l ih =>
      intro t
      rw [List.foldl_cons, ih]
      by_cases hgh : g = h
      · subst hgh
        rw [State.zeroGran_same _ _ _ _ hg, if_pos List.mem_cons_self, ite_self]
      · rw [State.zeroGran_ne _ _ _ hgh]
        simp only [List.mem_cons, hgh, false_or]
  exact hfold _ _

/-- A core at the end of its recovery: at its last commit point, its kept granules rewritten (R406). -/
def State.RecoveredAt (s t : State) (c : Nat) (zeroed : Bool) : Prop :=
  (t.core c).cur = (restored (s.core c)).1 ∧ (t.core c).rp = (s.core c).rp ∧ (∀ d, d ≠ c → t.core d = s.core d)
    ∧ ∀ g, inKept (s.core c).rp.kept g = false → Memory.granule (t.core c).st.ls (32 * g)
        = if zeroed = true ∧ g ∈ (s.core c).run.failed then 0#256 else Memory.granule (s.core c).st.ls (32 * g)

/-- What a change of the core's run leaves. -/
theorem State.RecoveredAt.of_run {s t u : State} {c : Nat} {z : Bool} (h : s.RecoveredAt t c z) {r : CoreRun}
    (hc : u.core c = { t.core c with run := r }) (hd : ∀ d, d ≠ c → u.core d = t.core d) : s.RecoveredAt u c z := by
  obtain ⟨hcur, hrp, hother, hgr⟩ := h
  refine ⟨?_, ?_, fun d hne => (hd d hne).trans (hother d hne), fun g hg => ?_⟩
  · rw [hc]; exact hcur
  · rw [hc]; exact hrp
  · rw [hc]; exact hgr g hg

theorem State.recoveredAt_restoreCore (s : State) (c : Nat) : s.RecoveredAt (s.restoreCore c) c true
    ∧ ((s.restoreCore c).core c).run = (s.core c).run := by
  obtain ⟨hcur, hrp, hrun, hother⟩ := s.restoreCore_spec c
  refine ⟨⟨hcur, hrp, hother, fun g hg => ?_⟩, hrun⟩
  have hk : (s.updCore c fun k => { k with cur := (restored k).1 }).core c = { s.core c with cur := (restored (s.core c)).1 } :=
    State.core_updCore_same _ _ _
  simp only [State.restoreCore]
  generalize (s.updCore c fun k => { k with cur := (restored k).1 }) = u at *
  have hrpu : (u.core c).rp = (s.core c).rp := by rw [hk]
  have hleaves := fun {γ : Type} (p : Core → γ) (h : ∀ (k : Core) f, p { k with st := f } = p k) => u.refill_leaves c (fun t => p (t.core c)) fun t f => by
    rw [State.updSt, State.core_updCore_same, h]
  have hrpr : ((u.refill c).core c).rp = (s.core c).rp := (hleaves Core.rp fun _ _ => rfl).trans hrpu
  have hfail : ((u.refill c).core c).run.failed = (s.core c).run.failed := (hleaves (fun k => k.run.failed) fun _ _ => rfl).trans (by rw [hk])
  rw [State.zeroFailed_granule _ _ _ (by rw [hrpr]; exact hg), hfail, u.refill_granule c g (by rw [hrpu]; exact hg), hk]
  simp only [true_and]

/-- A refill alone restores what a core that lost a granule still has (R410). -/
theorem State.recoveredAt_refill (s : State) (c : Nat) : s.RecoveredAt ((s.updCore c fun k => { k with cur := (restored k).1 }).refill c) c false
    ∧ (((s.updCore c fun k => { k with cur := (restored k).1 }).refill c).core c).run = (s.core c).run := by
  have hk : (s.updCore c fun k => { k with cur := (restored k).1 }).core c = { s.core c with cur := (restored (s.core c)).1 } :=
    State.core_updCore_same _ _ _
  have hne : ∀ d, d ≠ c → (s.updCore c fun k => { k with cur := (restored k).1 }).core d = s.core d := fun d hd =>
    State.core_updCore_ne _ _ hd
  generalize (s.updCore c fun k => { k with cur := (restored k).1 }) = u at *
  have hleaves := fun {γ : Type} (p : Core → γ) (h : ∀ (k : Core) f, p { k with st := f } = p k) => u.refill_leaves c (fun t => p (t.core c)) fun t f => by
    rw [State.updSt, State.core_updCore_same, h]
  refine ⟨⟨?_, ?_, fun d hd => ?_, fun g hg => ?_⟩, ?_⟩
  · rw [hleaves Core.cur fun _ _ => rfl, hk]
  · rw [hleaves Core.rp fun _ _ => rfl, hk]
  · refine (u.refill_leaves c (fun t => t.core d) fun t f => ?_).trans (hne d hd)
    rw [State.updSt, State.core_updCore_ne _ _ hd]
  · rw [u.refill_granule c g (by rw [hk]; exact hg), hk, if_neg (by simp)]
  · rw [hleaves Core.run fun _ _ => rfl, hk]

/-- A halted core keeps what it was but its run; the record is offered. -/
theorem State.RecoveredAt.halted {s t : State} {c : Nat} {z : Bool} (h : s.RecoveredAt t c z) (hrun : (t.core c).run = (s.core c).run)
    (hfq : t.fq = s.fq) (hh : (s.core c).run.halt = none) (f : CFault) :
    s.RecoveredAt ((t.endRecovery c).haltCore c f) c z ∧ (((t.endRecovery c).haltCore c f).core c).run.halt = some f.code
      ∧ s.Records ((t.endRecovery c).haltCore c f) f.code 2 := by
  have hend : (t.endRecovery c).core c = { t.core c with run := { (t.core c).run with recov := 0, failed := [] } } :=
    State.core_updCore_same _ _ _
  have hne : ∀ d, d ≠ c → (t.endRecovery c).core d = t.core d := fun d hd => State.core_updCore_ne _ _ hd
  have hfq' : (t.endRecovery c).fq = s.fq := hfq
  generalize t.endRecovery c = u at *
  have hhu : (u.core c).run.halt = none := by rw [hend]; exact (congrArg CoreRun.halt hrun).trans hh
  obtain ⟨hcore, r, hcode, hact, hr⟩ := u.haltCore_running c f hhu
  refine ⟨(h.of_run hend hne).of_run hcore fun d hd => u.core_haltCore_ne c d f hd, by rw [hcore], r, hcode, hact, hr.trans (by rw [hfq'])⟩

theorem State.replayCore_lost (s : State) (c : Nat) (h : (lostGranule (s.core c)).isSome = true) (hh : (s.core c).run.halt = none) :
    s.RecoveredAt (s.replayCore c) c false ∧ ((s.replayCore c).core c).run.halt = some 0x29 ∧ s.Records (s.replayCore c) 0x29 2 := by
  obtain ⟨g, hg⟩ := Option.isSome_iff_exists.mp h
  obtain ⟨hrec, hrun⟩ := s.recoveredAt_refill c
  have hfq := State.refill_leaves (s.updCore c fun k => { k with cur := (restored k).1 }) c State.fq fun _ _ => rfl
  simp only [State.replayCore, hg]
  exact hrec.halted hrun hfq hh { code := 0x29, esc := true, unit := 6, info0 := some g }

theorem State.replayCore_semaphore (s : State) (c : Nat) (h : lostGranule (s.core c) = none) (hp : (restored (s.core c)).2 = true)
    (hh : (s.core c).run.halt = none) :
    s.RecoveredAt (s.replayCore c) c true ∧ ((s.replayCore c).core c).run.halt = some 0x46 ∧ s.Records (s.replayCore c) 0x46 2 := by
  obtain ⟨hrec, hrun⟩ := s.recoveredAt_restoreCore c
  have hfq := State.restoreCore_leaves State.fq (fun _ _ _ => rfl) s c
  simp only [State.replayCore, h, hp, if_true]
  exact hrec.halted hrun hfq hh { code := 0x46, unit := 7 }

theorem State.replayCore_replays (s : State) (c : Nat) (h : lostGranule (s.core c) = none) (hp : (restored (s.core c)).2 = false) :
    s.RecoveredAt (s.replayCore c) c true ∧ ((s.replayCore c).core c).run = { (s.core c).run with recov := 3, failed := [] }
      ∧ (s.replayCore c).fq = s.fq := by
  obtain ⟨hrec, hrun⟩ := s.recoveredAt_restoreCore c
  have hfq := State.restoreCore_leaves State.fq (fun _ _ _ => rfl) s c
  simp only [State.replayCore, h, hp, Bool.false_eq_true, if_false]
  generalize s.restoreCore c = u at *
  have hk : (u.updRun c fun r => { r with recov := 3, failed := [] }).core c = { u.core c with run := { (u.core c).run with recov := 3, failed := [] } } :=
    State.core_updCore_same _ _ _
  refine ⟨hrec.of_run hk fun d hd => State.core_updCore_ne _ _ hd, ?_, hfq⟩
  rw [hk, hrun]

/-- What a fetch leaves of a recovered core. -/
theorem State.RecoveredAt.fetched {s t u : State} {c : Nat} {z : Bool} (h : s.RecoveredAt t c z) (hf : t.FetchedFor u c) :
    s.RecoveredAt u c z ∧ (u.core c).run.halt = (t.core c).run.halt ∧ (u.core c).run.recov = (t.core c).run.recov ∧ u.fq = t.fq := by
  obtain ⟨r, hr, hcore⟩ := hf.core
  obtain ⟨-, -, -, hu⟩ := id hf
  obtain ⟨_, _, _, _, _, hr, -⟩ := hr
  refine ⟨h.of_run hcore fun d hd => hf.core_ne hd, ?_, ?_, ?_⟩
  · rw [hcore, hr]
  · rw [hcore, hr]
  · rw [hu]

/-- The end of the drain: replay, or a halt where R410 or R273 says so. -/
theorem State.recovery_spec (s : State) (c : CoreNo) (hdrain : s.draining c = false) (hlive : s.live c = true)
    (hrec : (s.core c).run.recov = 1) (hh : (s.core c).run.halt = none) : ∃ t z, exec (.recoveryDrainComplete c) s = .next t
      ∧ s.RecoveredAt t c z ∧ (z = true ↔ lostGranule (s.core c) = none)
      ∧ (lostGranule (s.core c) = none → (restored (s.core c)).2 = false → (t.core c).run.recov = 3 ∧ (t.core c).run.halt = none ∧ t.fq = s.fq)
      ∧ ((lostGranule (s.core c)).isSome = true → (t.core c).run.halt = some 0x29 ∧ s.Records t 0x29 2)
      ∧ (lostGranule (s.core c) = none → (restored (s.core c)).2 = true → (t.core c).run.halt = some 0x46 ∧ s.Records t 0x46 2) := by
  have hexec : exec (.recoveryDrainComplete c) s = .next ((s.replayCore c.val).fetchNext c.val) := by
    show execRecoveryDrainComplete c s = _
    simp only [execRecoveryDrainComplete]
    exact if_neg (by simp [hdrain, hlive, hrec, hh])
  have hfetch := State.fetchNext_fetchedFor (s.replayCore c.val) c.val
  cases hl : lostGranule (s.core c) with
  | some g =>
    obtain ⟨hat, hhalt, f, hcode, hact, hf⟩ := s.replayCore_lost c (by rw [hl]; rfl) hh
    obtain ⟨hat', hhalt', -, hfq⟩ := hat.fetched hfetch
    exact ⟨_, false, hexec, hat', by simp, fun h => (Option.some_ne_none _ h).elim,
      fun _ => ⟨hhalt'.trans hhalt, f, hcode, hact, by rw [hfq]; exact hf⟩, fun h => (Option.some_ne_none _ h).elim⟩
  | none =>
    cases hp : (restored (s.core c)).2 with
    | true =>
      obtain ⟨hat, hhalt, f, hcode, hact, hf⟩ := s.replayCore_semaphore c hl hp hh
      obtain ⟨hat', hhalt', -, hfq⟩ := hat.fetched hfetch
      exact ⟨_, true, hexec, hat', by simp, fun _ h => Bool.noConfusion h, fun h => Bool.noConfusion h,
        fun _ _ => ⟨hhalt'.trans hhalt, f, hcode, hact, by rw [hfq]; exact hf⟩⟩
    | false =>
      obtain ⟨hat, hrun, hfq⟩ := s.replayCore_replays c hl hp
      obtain ⟨hat', hhalt', hrecov', hfq'⟩ := hat.fetched hfetch
      refine ⟨_, true, hexec, hat', by simp, fun _ _ => ⟨?_, ?_, hfq'.trans hfq⟩, fun h => Bool.noConfusion h, fun _ h => Bool.noConfusion h⟩
      · rw [hrecov', hrun]
      · rw [hhalt', hrun]
        exact hh

end Sys2Proof.Machine
end

section
open Sys2Proof Sys2Proof.Machine

/-- Settles O45: one lemma per place of a failure; the end of a recovery by the three outcomes of R406, R410 and R273. -/
theorem guardFailuresAndRecovery : Obligations.GuardFailuresAndRecovery := by
  unfold Obligations.GuardFailuresAndRecovery
  intro s c hi hc k recorded
  refine ⟨fun unit hsp hh => ⟨fun hf => ?_, fun hf => ?_⟩, fun unit code hsp hh => ?_,
    fun n m g o hm hk hsrc ho hh => ⟨fun hkept => s.otherFailure_lost hi hc hm hk hsrc ho hh hkept,
      fun hkept hsp hsf => s.otherFailure_kept hi hc hm hk hsrc ho hh hkept hsp hsf⟩,
    fun o => s.hubBacked_spec o hi hc, fun o => s.hubOwn_spec o hi hc, fun g hrun => s.sram_spec g hi hc hrun,
    fun hb hu => ⟨fun h0 => ?_, fun h0 => ?_⟩, fun hd => ?_, fun hd hl hrec hh => ?_⟩
  · obtain ⟨hrec, hcore, hother, hlog, -⟩ := s.guardCore_recovering c
      { code := 0x22, unit := unit.toNat, tag := unitTag (s.core c).run unit.toNat } hh hf
    refine ⟨_, (s.engineFailure c unit hi hc).trans (congrArg Host.Outcome.next (s.guardAt_none _ _ hsp)), hrec, ?_⟩
    rw [hcore, hlog]
    refine ⟨rfl, rfl, rfl, rfl, rfl, rfl, rfl, fun d hd he => ?_, hother⟩
    simpa [he] using (List.mem_filter.mp hd).2
  · have hrec := s.haltCore_records c { code := 0x2A, unit := unit.toNat, tag := unitTag (s.core c).run unit.toNat } hh
    exact ⟨_, (s.engineFailure c unit hi hc).trans (congrArg Host.Outcome.next ((s.guardAt_none _ _ hsp).trans
      (s.guardCore_second _ _ hh hf))), hrec, (s.haltCore_running _ _ hh).1, fun d hd => s.core_haltCore_ne _ _ _ hd⟩
  · have hrec := s.offerCore_records c { code := 0x22, unit := unit.toNat, tag := unitTag (s.core c).run unit.toNat, act := 2 }
    exact ⟨_, (s.engineFailure c unit hi hc).trans (congrArg Host.Outcome.next ((s.guardAt_none _ _ hsp).trans
      (s.guardCore_halted _ _ hh))), hrec, rfl⟩
  · rw [s.exec_guardTempering hi hc hb hu, if_pos h0]
  · obtain ⟨htemp, -, -, hrole⟩ := s.searchFail_spec 3
    refine ⟨_, (s.exec_guardTempering hi hc hb hu).trans (congrArg Host.Outcome.next (if_neg h0)), s.searchFail_records 3, ?_, ?_, ?_⟩
    · rw [htemp]
    · rw [htemp]
    · rw [hrole hu]
  · show execRecoveryDrainComplete c s = _
    simp only [execRecoveryDrainComplete]
    exact if_pos (by simp [hd])
  · obtain ⟨t, z, hexec, ⟨hcur, hrp, hother, hgr⟩, hz, hout⟩ := s.recovery_spec c hd hl hrec hh
    refine ⟨t, hexec, hcur, hrp, hother, fun g hg => ?_, hout⟩
    rw [hgr g hg]
    simp only [hz]
    rfl

end

section
/-! Rings, submissions, bindings and completions (R59, R278 to R280, R283). -/

namespace Sys2Proof.Machine

theorem State.ring_setRing_same (s : State) (p : Nat) (r : Ring) : (s.setRing p r).ring p = r := Sp.get_set_same ({} : Ring) s.rings p r

theorem State.hostUp_of_clock (s : State) (h : s.lost.contains .host = false) : s.hostUp = true := by rw [State.hostUp, h]; rfl

/-! ### Completion entries -/

/-- The words of an entry, written one after the other from word `k` of the address. -/
def putWords (a k : Nat) (ws : List Nat) (m : Memory) : Memory :=
  (ws.zipIdx k).foldl (fun m (w : Nat × Nat) => Memory.setNat m (a + 4 * w.2) 4 w.1) m

theorem putWords_cons (a k w : Nat) (ws : List Nat) (m : Memory) :
    putWords a k (w :: ws) m = putWords a (k + 1) ws (Memory.setNat m (a + 4 * k) 4 w) := rfl

theorem byte_putWords (a : Nat) : ∀ (ws : List Nat) (k : Nat) (m : Memory) (b : Nat), b < a + 4 * k ∨ a + 4 * (k + ws.length) ≤ b →
    Memory.byte (putWords a k ws m) b = Memory.byte m b
  | [], _, _, _, _ => rfl
  | w :: ws, k, m, b, h => by
    simp only [List.length_cons] at h
    rw [putWords_cons, byte_putWords a ws (k + 1) _ b (by omega), Memory.byte_setNat_ne _ _ _ _ _ (by omega)]

theorem nat_putWords (a : Nat) : ∀ (ws : List Nat) (k : Nat) (m : Memory) (i w : Nat), ws[i]? = some w →
    Memory.nat (putWords a k ws m) (a + 4 * (k + i)) 4 = w % 2 ^ 32
  | w :: ws, k, m, 0, v, h => by
    obtain rfl : w = v := by simpa using h
    have hrest : Memory.nat (putWords a (k + 1) ws (Memory.setNat m (a + 4 * k) 4 w)) (a + 4 * k) 4
        = Memory.nat (Memory.setNat m (a + 4 * k) 4 w) (a + 4 * k) 4 :=
      Memory.nat_congr _ _ _ _ fun j hj => byte_putWords a ws (k + 1) _ _ (by omega)
    rw [putWords_cons, show k + 0 = k from rfl, hrest, Memory.nat_setNat, show 256 ^ 4 = 2 ^ 32 from rfl]
  | w :: ws, k, m, i + 1, v, h => by
    rw [putWords_cons, show k + (i + 1) = k + 1 + i by omega]
    exact nat_putWords a ws (k + 1) _ i v (by simpa using h)

/-- An entry is written at CQTAIL, which advances (R283). -/
def State.putEntry (s : State) (p : Nat) (e : List Nat) : State :=
  let r := s.ring p
  let tail := (r.cqTail + 1) % 2 ^ r.cqSize
  ({ s with hostOut := putWords (r.cqBase / 16 * 16 + 16 * r.cqTail) 0 (e ++ [b2n r.phase]) s.hostOut } : State).setRing p
    { r with cqTail := tail, phase := if tail = 0 then !r.phase else r.phase }

theorem State.putCompletion_eq (s : State) (p : Nat) (x : List Nat × Option Nat) :
    s.putCompletion p x = { s.putEntry p x.1 with irqs := (s.putCompletion p x).irqs } := by
  simp only [State.putCompletion]
  split
  · rw [State.irq_eq]
    rfl
  · rfl

/-- A completion entry goes to CQTAIL, and its vector is raised (R283). -/
theorem State.putCompletion_spec (s : State) (p : Nat) (x : List Nat × Option Nat) :
    (s.putCompletion p x).hostOut = putWords ((s.ring p).cqBase / 16 * 16 + 16 * (s.ring p).cqTail) 0 (x.1 ++ [b2n (s.ring p).phase]) s.hostOut
      ∧ ((s.putCompletion p x).ring p).waiting = (s.ring p).waiting
      ∧ ((s.putCompletion p x).ring p).cqTail = ((s.ring p).cqTail + 1) % 2 ^ (s.ring p).cqSize
      ∧ (∀ q, x.2 = some q → q ∈ (s.putCompletion p x).irqs)
      ∧ (s.putCompletion p x).cores = s.cores ∧ (s.putCompletion p x).subs = s.subs := by
  have hring : (s.putCompletion p x).ring p = (s.putEntry p x.1).ring p := by rw [State.putCompletion_eq]; rfl
  rw [State.putEntry, State.ring_setRing_same] at hring
  refine ⟨?_, by rw [hring], by rw [hring], fun q hq => ?_, ?_, ?_⟩
  · rw [State.putCompletion_eq]; rfl
  · simp only [State.putCompletion, hq]
    exact State.mem_irq _ _
  · rw [State.putCompletion_eq]; rfl
  · rw [State.putCompletion_eq]; rfl

theorem State.complete_leaves (s : State) (p : Nat) (x : List Nat × Option Nat) :
    (s.complete p x).cores = s.cores ∧ (s.complete p x).subs = s.subs := by
  obtain ⟨-, -, -, -, hc, hs⟩ := s.putCompletion_spec p x
  simp only [State.complete]
  split
  · exact ⟨hc, hs⟩
  · exact ⟨rfl, rfl⟩

theorem State.completionEntryWrite_spec (s : State) (p : BitVec 3) (x : List Nat × Option Nat) (rest : List (List Nat × Option Nat))
    (hw : (s.ring p.toNat).waiting = x :: rest) (hlen : x.1.length = 3) (hrun : s.running = true) (hlost : s.lost.contains .host = false)
    (hfull : (s.ring p.toNat).full = false) :
    let r := s.ring p.toNat
    let a := r.cqBase / 16 * 16 + 16 * r.cqTail
    ∃ t, exec (.completionEntryWrite p) s = .next t ∧ (t.ring p.toNat).waiting = rest
      ∧ (t.ring p.toNat).cqTail = (r.cqTail + 1) % 2 ^ r.cqSize
      ∧ (∀ i w, (x.1 ++ [b2n r.phase])[i]? = some w → Memory.nat t.hostOut (a + 4 * i) 4 = w % 2 ^ 32)
      ∧ (∀ b, b < a ∨ a + 16 ≤ b → Memory.byte t.hostOut b = Memory.byte s.hostOut b)
      ∧ (∀ q, x.2 = some q → q ∈ t.irqs) := by
  intro r a
  have hexec : exec (.completionEntryWrite p) s = .next ((s.setRing p.toNat { r with waiting := rest }).putCompletion p.toNat x) := by
    show execCompletionEntryWrite p s = _
    simp only [execCompletionEntryWrite]
    rw [hw]
    exact if_pos (by simp [hrun, hfull, s.hostUp_of_clock hlost])
  obtain ⟨hout, hwait, htail, hirq, -⟩ := (s.setRing p.toNat { r with waiting := rest }).putCompletion_spec p.toNat x
  rw [State.ring_setRing_same] at hout hwait htail
  refine ⟨_, hexec, hwait, htail, fun i w hi => ?_, fun b hb => ?_, hirq⟩
  · rw [hout]
    have h := nat_putWords a (x.1 ++ [b2n r.phase]) 0 s.hostOut i w hi
    rw [Nat.zero_add] at h
    exact h
  · rw [hout]
    exact byte_putWords a _ 0 s.hostOut b (by simp only [List.length_append, hlen, List.length_cons, List.length_nil]; omega)

/-! ### Bindings -/

/-- One core of a submission takes it behind what it holds (R280). -/
def State.bindCore (p : Nat) (b : BoundStream) (t : State) (i : Nat) : State :=
  match t.coreAt p i with
  | some c => t.updRun c (fun r => { r with list := r.list ++ [b] })
  | none => t

theorem State.bindCore_coreAt (p : Nat) (b : BoundStream) (t : State) (i q j : Nat) : (t.bindCore p b i).coreAt q j = t.coreAt q j := by
  simp only [State.bindCore]
  split <;> rfl

theorem State.bindCore_binds (p : Nat) (b : BoundStream) (t : State) {i c : Nat} (hc : t.coreAt p i = some c) :
    ((t.bindCore p b i).core c).run.list = (t.core c).run.list ++ [b] := by
  simp only [State.bindCore, hc]
  rw [State.updRun, State.core_updCore_same]

theorem State.bindCore_ne (p : Nat) (b : BoundStream) (t : State) {i c : Nat} (hc : t.coreAt p i ≠ some c) :
    (t.bindCore p b i).core c = t.core c := by
  simp only [State.bindCore]
  split
  · next d hd => exact State.core_updCore_ne _ _ fun h => hc (by rw [hd, h])
  · rfl

/-- Every bound core holds the stream last (R280); no other core changes. -/
theorem State.foldl_bindCore (p : Nat) (b : BoundStream) (l : List Nat) (s : State) :
    (∀ i ∈ l, ∀ c, s.coreAt p i = some c → ∃ m, ((l.foldl (State.bindCore p b) s).core c).run.list = m ++ [b])
      ∧ (∀ c, (∀ i ∈ l, s.coreAt p i ≠ some c) → (l.foldl (State.bindCore p b) s).core c = s.core c) := by
  refine ⟨fun i hi c hc => ?_, fun c => ?_⟩
  · refine foldl_reaches (Q := fun t : State => t.coreAt p i = some c) (b := i) (P := fun t : State => ∃ m, (t.core c).run.list = m ++ [b])
      (fun t d _ h => (t.bindCore_coreAt p b d p i).trans h) (fun t h => ⟨_, t.bindCore_binds p b h⟩) (fun t d h => ?_) l s hi hc
    by_cases hd : t.coreAt p d = some c
    · exact ⟨_, t.bindCore_binds p b hd⟩
    · obtain ⟨m, hm⟩ := h
      exact ⟨m, by rw [t.bindCore_ne p b hd]; exact hm⟩
  · induction l generalizing s with
    | nil => exact fun _ => rfl
    | cons i l ih =>
      intro h
      rw [List.foldl_cons, ih _ fun j hj => ?_]
      · exact s.bindCore_ne p b (h i List.mem_cons_self)
      · rw [State.bindCore_coreAt]
        exact h j (List.mem_cons_of_mem i hj)

theorem State.bindCore_leaves {γ : Type} (q : State → γ) (h : ∀ (t : State) c k, q (t.setCore c k) = q t) (p : Nat) (b : BoundStream) (t : State)
    (i : Nat) : q (t.bindCore p b i) = q t := by
  simp only [State.bindCore]
  split
  · exact h _ _ _
  · rfl

/-! ### Submissions -/

section
variable (s : State) (p : BitVec 3) (ws : List W32) (hrun : s.running = true) (hlost : s.lost.contains .host = false)
  (hne : (s.ring p.toNat).sqHead ≠ (s.ring p.toNat).sqTail) (hw : (s.ring p.toNat).waiting = [])
include hrun hlost hne hw

theorem State.submission_bound (href : (subEntry ws).refused (s.partEnt p.toNat) = false) (hstop : s.cast.stopped.contains p.toNat = false) :
    let r := s.ring p.toNat
    let e := subEntry ws
    ∃ t, exec (.submissionEntryRead p ws) s = .next t ∧ (t.ring p.toNat).sqHead = (r.sqHead + 1) % 2 ^ r.sqSize
      ∧ t.subs = s.subs ++ [{ num := s.nextSub, part := p.toNat, cores := e.bound, vec := e.vec, irq := e.irq, usertag := e.usertag }]
      ∧ (∀ i ∈ e.bound, ∀ c, s.coreAt p.toNat i = some c →
          ∃ l, (t.core c).run.list = l ++ [{ sub := s.nextSub, addr := e.addr, len := e.len }])
      ∧ (∀ c, (∀ i ∈ e.bound, s.coreAt p.toNat i ≠ some c) → t.core c = s.core c) := by
  intro r e
  have hexec : exec (.submissionEntryRead p ws) s
      = .next ((s.setRing p.toNat { r with sqHead := (r.sqHead + 1) % 2 ^ r.sqSize }).bind p.toNat e) := by
    show execSubmissionEntryRead p ws s = _
    simp only [execSubmissionEntryRead]
    rw [if_neg (by simpa [hrun, hw, s.hostUp_of_clock hlost] using hne), if_neg (by rw [href]; exact Bool.false_ne_true)]
    exact if_neg (by rw [hstop]; exact Bool.false_ne_true)
  obtain ⟨hbound, hother⟩ := State.foldl_bindCore p.toNat { sub := s.nextSub, addr := e.addr, len := e.len } e.bound
    { s.setRing p.toNat { r with sqHead := (r.sqHead + 1) % 2 ^ r.sqSize } with
      subs := s.subs ++ [{ num := s.nextSub, part := p.toNat, cores := e.bound, vec := e.vec, irq := e.irq, usertag := e.usertag }],
      nextSub := s.nextSub + 1 }
  have hl := fun {γ : Type} (q : State → γ) h => foldl_leaves q (State.bindCore_leaves q h p.toNat
    { sub := s.nextSub, addr := e.addr, len := e.len }) e.bound
  refine ⟨_, hexec, ?_, hl State.subs (fun _ _ _ => rfl) _, hbound, hother⟩
  refine (congrArg Ring.sqHead (hl (fun t => t.ring p.toNat) (fun _ _ _ => rfl) _)).trans ?_
  exact congrArg Ring.sqHead (s.ring_setRing_same p.toNat _)

theorem State.submission_refused (href : (subEntry ws).refused (s.partEnt p.toNat) = true) :
    let r := s.ring p.toNat
    let e := subEntry ws
    ∃ t, exec (.submissionEntryRead p ws) s = .next t ∧ t.subs = s.subs ∧ t.cores = s.cores
      ∧ t = (s.setRing p.toNat { r with sqHead := (r.sqHead + 1) % 2 ^ r.sqSize }).complete p.toNat
          ([e.usertag, 2, 0], if e.irq then some e.vec else none) := by
  intro r e
  have hexec : exec (.submissionEntryRead p ws) s = .next ((s.setRing p.toNat { r with sqHead := (r.sqHead + 1) % 2 ^ r.sqSize }).complete p.toNat
      ([e.usertag, 2, 0], if e.irq then some e.vec else none)) := by
    show execSubmissionEntryRead p ws s = _
    simp only [execSubmissionEntryRead]
    rw [if_neg (by simpa [hrun, hw, s.hostUp_of_clock hlost] using hne)]
    exact if_pos href
  obtain ⟨hc, hs⟩ := (s.setRing p.toNat { r with sqHead := (r.sqHead + 1) % 2 ^ r.sqSize }).complete_leaves p.toNat
    ([e.usertag, 2, 0], if e.irq then some e.vec else none)
  exact ⟨_, hexec, hs, hc, rfl⟩

end

theorem State.exec_sqtailWrite (s : State) (p : BitVec 3) (v : W32) (ha : s.answers = true) (hst : s.boot.stActive = false) (hps : s.pwr.ps = 0) :
    exec (.sqtailWrite .host p v) s = .next (s.setRing p.toNat (if v.toNat % 65536 < 2 ^ (s.ring p.toNat).sqSize
      then { s.ring p.toNat with sqTail := v.toNat % 65536 } else { s.ring p.toNat with sqErr := true })) := by
  show execSqtailWrite .host p v s = _
  simp only [execSqtailWrite]
  rw [if_neg (by simp [State.byHost, ha, hst]), if_neg (c := s.pwr.ps = 1) (by omega)]
  by_cases h : v.toNat % 65536 < 2 ^ (s.ring p.toNat).sqSize
  · rw [if_neg (by omega), if_pos h]
  · rw [if_pos (by omega), if_neg h]

theorem State.exec_cqheadWrite (s : State) (p : BitVec 3) (v : W32) (ha : s.answers = true) :
    exec (.cqheadWrite .host p v) s = .next (s.setRing p.toNat (if v.toNat % 65536 < 2 ^ (s.ring p.toNat).cqSize
      then { s.ring p.toNat with cqHead := v.toNat % 65536 } else { s.ring p.toNat with cqErr := true })) := by
  show execCqheadWrite .host p v s = _
  simp only [execCqheadWrite]
  rw [if_neg (by simp [State.byHost, ha])]
  by_cases h : v.toNat % 65536 < 2 ^ (s.ring p.toNat).cqSize
  · rw [if_neg (by omega), if_pos h]
  · rw [if_pos (by omega), if_neg h]

theorem State.exec_streamComplete (s : State) (n : Nat) {u : Sub} (hu : s.subs[n]? = some u) (hrun : s.running = true)
    (hend : u.stopped = true ∨ u.cores.all (fun i => u.passed.contains i || u.halted.contains i) = true)
    (hw : (s.ring u.part).waiting.length < 64) :
    exec (.streamComplete n) s = .next (({ s with subs := s.subs.eraseIdx n } : State).complete u.part
      ([u.usertag, (if u.stopped then 3 else if u.halted = [] then 0 else 1) + 256 * ((u.first.getD (0, 0)).1 % 256)
        + 65536 * ((u.first.getD (0, 0)).2 % 65536), u.passed.length], if u.irq then some u.vec else none)) := by
  have hst : (if u.stopped then 3 else if u.halted.isEmpty then 0 else 1) = (if u.stopped then 3 else if u.halted = [] then 0 else 1) := by
    simp only [List.isEmpty_iff]
  show execStreamComplete n s = _
  simp only [execStreamComplete, hu]
  rw [hst]
  refine if_neg ?_
  have hor : (u.stopped || u.cores.all fun i => u.passed.contains i || u.halted.contains i) = true := by
    rw [Bool.or_eq_true]
    exact hend
  rw [hor]
  simp [hrun]
  omega

end Sys2Proof.Machine
end

section
open Sys2Proof Sys2Proof.Machine

/-- Settles O36: each core of a submission is bound in one step of a fold; the words of a completion entry are written one by one. -/
theorem submissionsAndCompletions : Obligations.SubmissionsAndCompletions := by
  unfold Obligations.SubmissionsAndCompletions
  intro s p v ws n r e
  exact ⟨fun ha hst hps => s.exec_sqtailWrite p v ha hst hps, fun ha => s.exec_cqheadWrite p v ha,
    fun hrun hlost hne hw => ⟨fun href hstop => s.submission_bound p ws hrun hlost hne hw href hstop,
      fun href => s.submission_refused p ws hrun hlost hne hw href⟩,
    fun u hu hrun hend hw => s.exec_streamComplete n hu hrun hend hw,
    fun x rest hw hlen hrun hlost hfull _ => s.completionEntryWrite_spec p x rest hw hlen hrun hlost hfull⟩

end

section
/-! The stream table and its commands (R215 to R222, R291). -/

namespace Sys2Proof.Machine

theorem State.ent_setEnt_same (s : State) (i : Nat) (e : StrEnt) : (s.setEnt i e).ent i = e := Sp.get_set_same ({} : StrEnt) s.str.ents i e

/-! ### QCOUNT -/

theorem State.miss_spec (s : State) (n : Nat) : n ∈ (s.miss n).str.miss ∧ (s.miss n).str.ents = s.str.ents := by
  refine ⟨?_, rfl⟩
  simp only [State.miss]
  split
  · exact List.contains_iff_mem.mp ‹_›
  · exact List.mem_append_right _ List.mem_cons_self

/-- The grant of an increment concerns the fetch of the cores alone (R215). -/
theorem State.grantInc_str (s : State) (ds : List Nat) (n : Nat) : (s.grantInc ds n).str = s.str := by
  refine foldl_leaves State.str (fun t d => ?_) ds s
  obtain ⟨-, -, -, ht⟩ := State.fetchNext_fetchedFor (t.updRun d fun x =>
    placeWords s.v64 ((x.run.map (·.len)).getD 0) { x with qadm := x.qadm ++ [n] } 512) d
  rw [ht]
  rfl

theorem State.grantInc_ent (s : State) (ds : List Nat) (n i : Nat) : (s.grantInc ds n).ent i = s.ent i := by
  simp only [State.ent, State.grantInc_str]

section
variable (s : State) (c : CoreNo) (id : W16) {g : Geo} (hg : (s.partOf c).bind s.geo = some g) (hlo : g.idFirst ≤ id.toNat)
  (hhi : id.toNat ≤ g.idLast) (hlive : s.live c = true) (hds : s.multicast c id.toNat ≠ [])
include hg hlo hhi hlive hds

/-- An increment that its partition's id range admits (R215, R216). -/
theorem State.exec_qcountIncrement : exec (.qcountIncrement c id) s = match s.entOf id.toNat with
    | some i =>
      if s.entLocked i then .next s
      else
        let t := s.setEnt i { s.ent i with qcount := (s.ent i).qcount + (s.multicast c id.toNat).length }
        .next ((if (s.ent i).res == .out || (s.ent i).res == .swappingOut then t.miss id.toNat else t).grantInc (s.multicast c id.toNat) id.toNat)
    | none => match s.takeEnt g with
      | none => .next s
      | some i => .next (((s.setEnt i { id := id.toNat, valid := true, qcount := (s.multicast c id.toNat).length, part := g.part }).miss
          id.toNat).grantInc (s.multicast c id.toNat) id.toNat) := by
  show execQcountIncrement c id s = _
  simp only [execQcountIncrement, hg]
  exact if_neg (by simp [hlive, hds, hlo, hhi])

theorem State.qcountIncrement_counts {i : Nat} (hi : s.entOf id.toNat = some i) (hl : s.entLocked i = false) :
    ∃ t, exec (.qcountIncrement c id) s = .next t
      ∧ t.ent i = { s.ent i with qcount := (s.ent i).qcount + (s.multicast c id.toNat).length }
      ∧ ((s.ent i).res = .out ∨ (s.ent i).res = .swappingOut → id.toNat ∈ t.str.miss)
      ∧ ((s.ent i).res = .resident → t.str.miss = s.str.miss) := by
  have hexec := s.exec_qcountIncrement c id hg hlo hhi hlive hds
  simp only [hi, hl, Bool.false_eq_true, if_false] at hexec
  refine ⟨_, hexec, ?_, fun h => ?_, fun h => ?_⟩
  · rw [State.grantInc_ent]
    split
    · exact s.ent_setEnt_same i _
    · exact s.ent_setEnt_same i _
  · rw [State.grantInc_str, if_pos (by simpa using h)]
    exact (State.miss_spec _ _).1
  · rw [State.grantInc_str, if_neg (by simp [h])]
    rfl

theorem State.qcountIncrement_takes {i : Nat} (hn : s.entOf id.toNat = none) (hi : s.takeEnt g = some i) :
    ∃ t, exec (.qcountIncrement c id) s = .next t
      ∧ t.ent i = { id := id.toNat, valid := true, qcount := (s.multicast c id.toNat).length, part := g.part } ∧ id.toNat ∈ t.str.miss := by
  have hexec := s.exec_qcountIncrement c id hg hlo hhi hlive hds
  simp only [hn, hi] at hexec
  refine ⟨_, hexec, ?_, ?_⟩
  · rw [State.grantInc_ent]
    exact s.ent_setEnt_same i _
  · rw [State.grantInc_str]
    exact (State.miss_spec _ _).1

end

theorem State.qcountDecrement_spec (s : State) (c : CoreNo) (id : W16) {i : Nat} (hrun : s.running = true)
    (hdec : (s.core c).run.qdec.contains id.toNat = true) (hi : s.entOf id.toNat = some i) (hl : s.entLocked i = false) :
    ∃ t, exec (.qcountDecrement c id) s = .next t ∧ t.ent i = { s.ent i with qcount := (s.ent i).qcount - 1 }
      ∧ (t.core c).run.qdec = (s.core c).run.qdec.erase id.toNat := by
  have hexec : exec (.qcountDecrement c id) s = .next ((s.updRun c.val (fun x => { x with qdec := x.qdec.erase id.toNat })).setEnt i
      { s.ent i with qcount := (s.ent i).qcount - 1 }) := by
    show execQcountDecrement c id s = _
    simp only [execQcountDecrement]
    rw [if_neg (by rw [hdec, hrun]; decide), hi]
    exact if_neg (by rw [hl]; exact Bool.false_ne_true)
  refine ⟨_, hexec, State.ent_setEnt_same _ i _, ?_⟩
  have hk : (s.updRun c.val (fun x => { x with qdec := x.qdec.erase id.toNat })).core c.val
      = { s.core c.val with run := { (s.core c.val).run with qdec := (s.core c.val).run.qdec.erase id.toNat } } := State.core_updCore_same _ _ _
  exact congrArg (fun k : Core => k.run.qdec) hk

/-! ### Commands -/

theorem State.exec_strcmdSwapOut (s : State) (ent : BitVec 12) (ha : s.answers = true) (hl : s.entLocked ent.toNat = false) :
    exec (.strcmdSwapOut .mgmt ent) s = .next (s.decideOut ent.toNat) := by
  show execStrcmdSwapOut .mgmt ent s = _
  simp only [execStrcmdSwapOut]
  rw [if_neg (by simp [State.byMgmt, ha])]
  exact if_neg (by rw [hl]; exact Bool.false_ne_true)

theorem any_ne_head_of_all_false {l : List Bool} (h : ∀ b ∈ l, b = false) : l.any (· != l.headD false) = false := by
  have hd : l.headD false = false := by
    cases l with
    | nil => rfl
    | cons b l => exact h b List.mem_cons_self
  rw [hd, List.any_eq_false]
  intro b hb
  simp [h b hb]

/-- What the arbiter decides of a swap-out (R217). -/
theorem State.decideOut_spec (s : State) (i : Nat) :
    ((s.ent i).valid = false ∨ (s.ent i).res ≠ .resident → s.decideOut i = s.strResult 1 (s.ent i).id)
    ∧ ((s.ent i).valid = true → (s.ent i).res = .resident → (s.ent i).qcount ≠ 0 → s.decideOut i = s.strResult 2 (s.ent i).id)
    ∧ ((s.ent i).valid = true → (s.ent i).res = .resident → (s.ent i).qcount = 0 → s.dirty (s.ent i).part (s.ent i).id = true →
        s.decideOut i = s.strResult 3 (s.ent i).id)
    ∧ ((s.ent i).valid = true → (s.ent i).res = .resident → (s.ent i).qcount = 0 → s.dirty (s.ent i).part (s.ent i).id = false →
        (∀ b ∈ flagsOf s (s.ent i).part (s.ent i).id, b = false) →
        ((s.decideOut i).ent i).res = .swappingOut ∧ (s.decideOut i).str.result = 0 ∧ (s.decideOut i).str.done = false
          ∧ (s.decideOut i).str.swaps = s.str.swaps ++ [{ ent := i, inn := false, phase := 0 }]) := by
  simp only [State.decideOut]
  refine ⟨fun h => if_pos ?_, fun hv hr hq => ?_, fun hv hr hq hd => ?_, fun hv hr hq hd hf => ?_⟩
  · obtain h | h := h <;> simp [h]
  · rw [if_neg (by simp [hv, hr]), if_pos hq]
  · rw [if_neg (by simp [hv, hr]), if_neg (by simp [hq]), if_pos (by simp [hd])]
  · rw [if_neg (by simp [hv, hr]), if_neg (by simp [hq]), if_neg (by rw [hd, any_ne_head_of_all_false hf]; decide)]
    exact ⟨congrArg StrEnt.res ((s.strResult 0 (s.ent i).id).ent_setEnt_same i _), rfl, rfl, rfl⟩

theorem nthD_mem {α : Type} (l : List α) (n : Nat) (d : α) (h : n < l.length) : nthD l n d ∈ l := by
  rw [nthD, List.getElem?_eq_getElem h]
  exact List.getElem_mem h

/-- A swap-in begins with a free slot (R218). -/
theorem State.startSwapIn_spec (s : State) (i : Nat) (g : Geo) (h : s.freeSlots g ≠ []) : ∃ slot, ((s.startSwapIn i g).ent i).res = .swappingIn
    ∧ ((s.startSwapIn i g).ent i).slot = some slot ∧ slot ∈ s.freeSlots g ∧ (s.startSwapIn i g).str.done = s.str.done
    ∧ (s.startSwapIn i g).str.swaps = s.str.swaps ++ [{ ent := i, inn := true, phase := 0 }] := by
  have hent : (s.startSwapIn i g).ent i = { s.ent i with
      res := .swappingIn, slot := some (nthD (s.freeSlots g) ((s.free 16).1 % (s.freeSlots g).length) 0), part := g.part } :=
    (s.free 16).2.ent_setEnt_same i _
  refine ⟨_, by rw [hent], by rw [hent], ?_, rfl, rfl⟩
  exact nthD_mem _ _ _ (Nat.mod_lt _ (List.length_pos_iff.mpr h))

theorem State.exec_strcmdSwapIn (s : State) (id : W16) (ha : s.answers = true) : exec (.strcmdSwapIn .mgmt id) s
    = .next (if s.strReady { inn := true, n := id.toNat } then s.decideIn id.toNat else s.strWait { inn := true, n := id.toNat }) := by
  show execStrcmdSwapIn .mgmt id s = _
  simp only [execStrcmdSwapIn]
  rw [if_neg (by simp [State.byMgmt, ha])]
  split <;> rfl

theorem State.decideIn_out (s : State) (n : Nat) {g : Geo} {i : Nat} (hg : s.geoOfId n = some g) (hi : s.entOf n = some i)
    (hr : (s.ent i).res = .out) (hf : s.freeSlots g ≠ []) :
    ∃ slot, ((s.decideIn n).ent i).res = .swappingIn ∧ ((s.decideIn n).ent i).slot = some slot ∧ slot ∈ s.freeSlots g
      ∧ (s.decideIn n).str.done = false ∧ (s.decideIn n).str.swaps = s.str.swaps ++ [{ ent := i, inn := true, phase := 0 }] := by
  have heq : s.decideIn n = State.startSwapIn { s.strResult 0 n with str := { (s.strResult 0 n).str with done := false, cmd := some (true, n) } } i g := by
    simp only [State.decideIn, hg, hi, hr]
    exact if_neg (by simp [hf])
  rw [heq]
  exact State.startSwapIn_spec _ i g hf

theorem State.exec_swapInStart (s : State) {n i : Nat} {rest : List Nat} {g : Geo} (hrun : s.running = true) (hm : s.str.miss = n :: rest)
    (hst : s.startable n = some (i, g)) : exec .swapInStart s = .next (s.startSwapIn i g) := by
  show execSwapInStart s = _
  simp only [execSwapInStart]
  rw [if_neg (by simp [hrun]), hm, List.findSome?_cons, hst]

theorem State.swapStateAcknowledged_spec (s : State) (ent : BitVec 12) {w : Swap} (hrun : s.running = true)
    (hw : s.str.swaps.find? (fun w => w.ent = ent.toNat) = some w) (hwaits : s.str.waits = []) :
    (w.phase = 0 → exec (.swapStateAcknowledged ent) s = .next ((s.ackScore w.ent).swapPhase w.ent 1))
      ∧ (w.phase = 1 → exec (.swapStateAcknowledged ent) s = .next s)
      ∧ (w.phase = 2 → exec (.swapStateAcknowledged ent) s = .next ((s.ackScore w.ent).dropSwap w.ent)) := by
  have hexec : exec (.swapStateAcknowledged ent) s = execSwapStateAcknowledged ent s := rfl
  simp only [execSwapStateAcknowledged, hw] at hexec
  refine ⟨fun h => ?_, fun h => ?_, fun h => ?_⟩
  · rw [hexec, if_neg (by simp [hrun, h]), if_pos h]
    refine congrArg Host.Outcome.next ?_
    rw [show ((s.ackScore w.ent).swapPhase w.ent 1).str.waits = [] from hwaits]
    rfl
  · rw [hexec]
    exact if_pos (by simp [h])
  · rw [hexec, if_neg (by simp [hrun, h]), if_neg (by simp [h])]
    refine congrArg Host.Outcome.next ?_
    rw [show ((s.ackScore w.ent).dropSwap w.ent).str.waits = [] from hwaits]
    rfl

theorem State.reswaitExpiry_spec (s : State) (c : CoreNo) {t0 : Nat} {g : Geo} (hs : (s.core c).run.resSince = some t0)
    (hg : (s.partOf c).bind s.geo = some g) (hw : g.reswait ≠ 0) (hh : (s.core c).run.halt = none) (hres : s.waitsRes c = true)
    (hdue : s.due (t0 + s.us g.reswait) = true) : ∃ t, exec (.reswaitExpiry c) s = .next t ∧ (t.core c).run.halt = some 0x34
      ∧ (t.core c).cur = (s.core c).cur := by
  have hexec : ∃ f : CFault, f.code = 0x34 ∧ exec (.reswaitExpiry c) s
      = .next ((s.updRun c.val (fun x => { x with resSince := none })).haltCore c.val f) := by
    refine ⟨{ code := 0x34, unit := 0, tag := match decodeLongWord s.v64 c (s.core c).run.iq with | .word lw => lw.tag | _ => (s.core c).run.lastTag },
      rfl, ?_⟩
    show execReswaitExpiry c s = _
    simp only [execReswaitExpiry, hs, hg]
    exact if_pos (by simp [hw, hh, hres, hdue])
  obtain ⟨f, hcode, hexec⟩ := hexec
  have hk : (s.updRun c.val (fun x => { x with resSince := none })).core c.val = { s.core c.val with run := { (s.core c.val).run with resSince := none } } :=
    State.core_updCore_same _ _ _
  have hcore := (State.haltCore_running (s.updRun c.val (fun x => { x with resSince := none })) c.val f (by rw [hk]; exact hh)).1
  rw [hk] at hcore
  refine ⟨_, hexec, ?_, ?_⟩
  · rw [hcore, hcode]
  · rw [hcore]

end Sys2Proof.Machine
end

section
open Sys2Proof Sys2Proof.Machine

/-- Settles O40: the counts by the entry that an increment names or takes, the commands by what the arbiter decides. -/
theorem streamTable : Obligations.StreamTable := by
  unfold Obligations.StreamTable
  intro s c id i ent e x r
  refine ⟨fun g hg hlo hhi hlive hds => ⟨fun hi hl => s.qcountIncrement_counts c id hg hlo hhi hlive hds hi hl, fun hi hl => ?_,
      fun hn hi => s.qcountIncrement_takes c id hg hlo hhi hlive hds hn hi, fun hn hi => ?_⟩,
    fun hrun hdec hi hl => s.qcountDecrement_spec c id hrun hdec hi hl, fun ha hl => ?_, fun ha hl => ?_, fun ha hr => ?_, fun ha hr hg => ?_,
    fun g ha hg hi hl hr hf => ?_, fun g n rest hrun hm hst hf => ?_, fun w hrun hw hwaits => s.swapStateAcknowledged_spec ent hrun hw hwaits,
    fun t0 g hs hg hw hh hres hdue => s.reswaitExpiry_spec c hs hg hw hh hres hdue, fun slab n d hd hack => ?_⟩
  · rw [s.exec_qcountIncrement c id hg hlo hhi hlive hds, hi]
    exact if_pos hl
  · rw [s.exec_qcountIncrement c id hg hlo hhi hlive hds, hn]
    simp only [hi]
  · obtain ⟨h1, h2, h3, h4⟩ := s.decideOut_spec ent.toNat
    rw [s.exec_strcmdSwapOut ent ha hl]
    exact ⟨fun h => congrArg _ (h1 h), fun hv hr hq => congrArg _ (h2 hv hr hq), fun hv hr hq hd => congrArg _ (h3 hv hr hq hd),
      fun hv hr hq hd hf => ⟨_, rfl, h4 hv hr hq hd hf⟩⟩
  · show execStrcmdSwapOut .mgmt ent s = _
    simp only [execStrcmdSwapOut]
    rw [if_neg (by simp [State.byMgmt, ha])]
    exact if_pos hl
  · rw [s.exec_strcmdSwapIn id ha, if_neg (by rw [hr]; exact Bool.false_ne_true)]
  · rw [s.exec_strcmdSwapIn id ha, if_pos hr]
    simp only [State.decideIn, hg]
  · have hready : s.strReady { inn := true, n := id.toNat } = true := by simp [State.strReady, hi, hl]
    obtain ⟨slot, hent, hslot, hmem, hdone, hsw⟩ := s.decideIn_out id.toNat hg hi hr hf
    exact ⟨_, slot, (s.exec_strcmdSwapIn id ha).trans (congrArg _ (if_pos hready)), hent, hslot, hmem, hdone, hsw⟩
  · obtain ⟨slot, hent, hslot, hmem, -⟩ := s.startSwapIn_spec i g hf
    exact ⟨_, slot, s.exec_swapInStart hrun hm hst, hent, hslot, hmem⟩
  · show execDeferredEntryAck slab n s = _
    simp only [execDeferredEntryAck, hd]
    exact if_pos hack

end

section
/-! How a stream swap ends (R214, R217, R218). -/

namespace Sys2Proof.Machine

theorem State.undefRange_leaves {γ : Type} (p : State → γ)
    (h : ∀ (t : State) fc a b, p { t with fc := fc, tierA := a, tierB := b } = p t) (b : Bool) : ∀ (n a : Nat) (s : State), p (s.undefRange b a n) = p s
  | 0, _, _ => rfl
  | n + 1, a, s => by
    refine (State.undefRange_leaves p h b n (a + 32) _).trans ?_
    simp only [State.putGran, State.setTier]
    split
    · exact h s _ s.tierA _
    · exact h s _ _ s.tierB

theorem State.cmdEnds_leaves {γ : Type} (p : State → γ)
    (h : ∀ (t : State) d c r, p { t with str := { t.str with done := d, cmd := c, result := r } } = p t) (s : State) (inn : Bool) (id : Nat)
    (res : Option Nat) : p (s.cmdEnds inn id res) = p s := by
  simp only [State.cmdEnds]
  split
  · exact h s _ _ _
  · rfl

theorem State.forget_leaves {γ : Type} (p : State → γ) (h : ∀ (t : State) c k, p (t.setCore c k) = p t) (s : State) (q id : Nat) :
    p (s.forget q id) = p s := foldl_leaves p (fun _ _ => h _ _ _) _ _

theorem State.writeImage_leaves {γ : Type} (p : State → γ) (h : ∀ (t : State) m, p { t with tierA := m } = p t) (s : State) (e : StrEnt) (g : Geo) :
    p (s.writeImage e g) = p s := h s _

theorem State.swapPhase_ent (s : State) (i ph j : Nat) : (s.swapPhase i ph).ent j = s.ent j := rfl

theorem State.offer_records (s : State) (f : FRec) : s.Records (s.offer f) f.code f.act :=
  ⟨{ f with time := s.aon.tb, esc := f.esc || escOf f.code }, rfl, rfl, rfl⟩

/-! ### Swap-outs -/

/-- A swap-out that fails: the stream stays resident (R217). -/
theorem State.endSwapOut_fails (s : State) (i : Nat) (g : Geo) : ∃ r : FRec, r.code = 0x27
    ∧ (s.endSwapOut i g true).fq.offered = s.fq.offered ++ [r] ∧ ((s.endSwapOut i g true).ent i).res = .resident := by
  simp only [State.endSwapOut, if_true]
  have hfq := fun a n (t : State) => State.undefRange_leaves State.fq (fun _ _ _ _ => rfl) false n a t
  have hq : ((s.undefRange false (s.ent i).back (s.imageGrans g)).undefRange false (s.dirAddr (s.ent i).id) 1).fq = s.fq := by rw [hfq, hfq]
  generalize (s.undefRange false (s.ent i).back (s.imageGrans g)).undefRange false (s.dirAddr (s.ent i).id) 1 = t at *
  have hfq' : (((t.setEnt i { s.ent i with res := .resident }).swapPhase i 2).cmdEnds false (s.ent i).id (some 6)).fq = s.fq :=
    (State.cmdEnds_leaves State.fq (fun _ _ _ _ => rfl) _ _ _ _).trans hq
  have hent : (((t.setEnt i { s.ent i with res := .resident }).swapPhase i 2).cmdEnds false (s.ent i).id (some 6)).ent i
      = { s.ent i with res := .resident } :=
    (State.cmdEnds_leaves (fun u => u.ent i) (fun _ _ _ _ => rfl) _ _ _ _).trans (t.ent_setEnt_same i _)
  generalize ((t.setEnt i { s.ent i with res := .resident }).swapPhase i 2).cmdEnds false (s.ent i).id (some 6) = u at *
  exact ⟨_, rfl, by rw [State.offer_offered, hfq'], congrArg StrEnt.res hent⟩

/-- A swap-out that ends: the stream is out, its image and its directory record are written (R217). -/
theorem State.endSwapOut_ends (s : State) (i : Nat) (g : Geo) :
    (s.endSwapOut i g false).ent i = { s.ent i with res := .out, slot := none }
      ∧ (s.endSwapOut i g false).tierA = (s.writeImage (s.ent i) g).tierA
      ∧ (s.endSwapOut i g false).str.swaps = s.str.swaps.map (fun w => if w.ent = i then { w with phase := 2 } else w)
      ∧ (s.endSwapOut i g false).fq = s.fq := by
  simp only [State.endSwapOut, Bool.false_eq_true, if_false]
  have hl := fun {γ : Type} (p : State → γ) h => State.forget_leaves p h (s.writeImage (s.ent i) g) g.part (s.ent i).id
  have ha := hl State.tierA fun _ _ _ => rfl
  have hfq : ((s.writeImage (s.ent i) g).forget g.part (s.ent i).id).fq = s.fq :=
    (hl State.fq fun _ _ _ => rfl).trans (State.writeImage_leaves State.fq (fun _ _ => rfl) s _ g)
  have hstr : ((s.writeImage (s.ent i) g).forget g.part (s.ent i).id).str = s.str :=
    (hl State.str fun _ _ _ => rfl).trans (State.writeImage_leaves State.str (fun _ _ => rfl) s _ g)
  generalize (s.writeImage (s.ent i) g).forget g.part (s.ent i).id = t at *
  refine ⟨?_, ?_, ?_, ?_⟩
  · exact (State.cmdEnds_leaves (fun u => u.ent i) (fun _ _ _ _ => rfl) _ _ _ _).trans (t.ent_setEnt_same i _)
  · exact (State.cmdEnds_leaves State.tierA (fun _ _ _ _ => rfl) _ _ _ _).trans ha
  · refine (State.cmdEnds_leaves (fun u => u.str.swaps) (fun _ _ _ _ => rfl) _ _ _ _).trans ?_
    rw [← hstr]
    rfl
  · exact (State.cmdEnds_leaves State.fq (fun _ _ _ _ => rfl) _ _ _ _).trans hfq

/-! ### Swap-ins -/

/-- The entry of a swap-in that failed is out, its slot free (R218). -/
def State.failedIn (s : State) (i : Nat) : State :=
  let e := s.ent i
  let t := (s.setEnt i { e with res := .out, slot := none }).swapPhase i 2
  { t with str := { t.str with parked := if t.str.miss.contains e.id then t.str.parked ++ [e.id] else t.str.parked } }

theorem State.failedIn_ent (s : State) (i : Nat) : (s.failedIn i).ent i = { s.ent i with res := .out, slot := none } := s.ent_setEnt_same i _

/-- A swap-in that fails leaves the stream out and a record (R218). -/
theorem State.failSwapIn_spec (s : State) (i code : Nat) : ∃ r : FRec, r.code = code
    ∧ (s.failSwapIn i code).fq.offered = s.fq.offered ++ [r] ∧ ((s.failSwapIn i code).ent i).res = .out := by
  have heq : s.failSwapIn i code = ((s.failedIn i).cmdEnds true (s.ent i).id (some (if code = 0x31 then 5 else 6))).offer
    { code := code, unit := 10, info0 := some (s.ent i).id } := rfl
  have hfq : ((s.failedIn i).cmdEnds true (s.ent i).id (some (if code = 0x31 then 5 else 6))).fq = s.fq :=
    State.cmdEnds_leaves State.fq (fun _ _ _ _ => rfl) _ _ _ _
  have hent : ((s.failedIn i).cmdEnds true (s.ent i).id (some (if code = 0x31 then 5 else 6))).ent i = (s.failedIn i).ent i :=
    State.cmdEnds_leaves (fun u => u.ent i) (fun _ _ _ _ => rfl) _ _ _ _
  rw [State.failedIn_ent] at hent
  rw [heq]
  generalize (s.failedIn i).cmdEnds true (s.ent i).id (some (if code = 0x31 then 5 else 6)) = u at *
  obtain ⟨r, hcode, -, hr⟩ := u.offer_records { code := code, unit := 10, info0 := some (s.ent i).id }
  exact ⟨r, hcode, by rw [hr, hfq], congrArg StrEnt.res hent⟩

/-- The slice of a state store that a swap-in writes, zeroed. -/
theorem Sp.get_foldl_zero (base n : Nat) (v : Nat → W40) (hv : ∀ j, v j = 0#40) (m : Sp W40) {j : Nat} (hj : j < n) :
    Sp.get 0#40 ((List.range n).foldl (fun m j => Sp.set 0#40 m (base + j) (v j)) m) (base + j) = 0#40 := by
  refine foldl_reaches (Q := fun _ => True) (P := fun m : Sp W40 => Sp.get 0#40 m (base + j) = 0#40) (b := j) (fun _ _ _ _ => trivial)
    (fun m _ => by rw [Sp.get_set_same, hv]) (fun m d h => ?_) _ _ (List.mem_range.mpr hj) trivial
  rw [Sp.get_set, hv, h, ite_self]

/-- What the slice of a swapped-in stream reads on core `x` of a partition, as the image or a new stream gives it (R218). -/
def State.sliceWord (s : State) (g : Geo) (back gen x j : Nat) : W40 :=
  if gen = 0 then 0#40 else BitVec.ofNat 40 (Memory.nat s.tierA (back + x * imageBlock g + 5 * j) 5)

/-- A core takes its slice of a swapped-in stream. -/
def Core.sliced (e : StrEnt) (g : Geo) (view : StrView) (word : Nat → W40) (k : Core) : Core :=
  let put (m : Sp W40) : Sp W40 := (List.range g.nslot).foldl (fun m j => Sp.set 0#40 m (g.regBase + (e.slot.getD 0) * g.nslot + j) (word j)) m
  { k with cur := ({ k.cur with store := put k.cur.store } : CoreArch).setView e.id view,
           rp := ({ k.rp with store := put k.rp.store } : CoreArch).setView e.id view }

/-- The slice of core `c` reads zero. -/
def State.SliceZero (s : State) (e : StrEnt) (g : Geo) (c : Nat) : Prop :=
  ∀ j, j < g.nslot → Sp.get 0#40 (s.core c).rp.store (g.regBase + (e.slot.getD 0) * g.nslot + j) = 0#40

theorem State.sliceZero_updCore (s : State) (e : StrEnt) (g : Geo) (c d : Nat) (view : StrView) (word : Nat → W40) (hw : ∀ j, word j = 0#40)
    (h : c ≠ d → s.SliceZero e g c) : (s.updCore d (Core.sliced e g view word)).SliceZero e g c := by
  intro j hj
  by_cases hd : c = d
  · subst hd
    rw [State.core_updCore_same]
    exact Sp.get_foldl_zero _ g.nslot word hw _ hj
  · rw [State.core_updCore_ne _ _ hd]
    exact h hd j hj

/-- Every mapped core of the partition is indexed. -/
theorem State.mem_indexed (s : State) (p : Nat) {c : Nat} (hc : c ∈ s.coresOf p) : ∃ i, (c, i) ∈ s.indexed p := by
  simp only [State.coresOf] at hc
  split at hc
  · cases hc
  · next e he =>
    obtain ⟨i, hi, hat⟩ := List.mem_filterMap.mp hc
    refine ⟨i, List.mem_filterMap.mpr ⟨i, ?_, by rw [hat]; rfl⟩⟩
    simp only [State.ncoresOf, he]
    exact hi

/-- The cores of a partition take their slices (R218 step 3). -/
def State.slicesIn (s : State) (e : StrEnt) (g : Geo) (view : StrView) (back gen : Nat) : State :=
  (s.indexed g.part).foldl (fun t x => t.updCore x.1 (Core.sliced e g view (s.sliceWord g back gen x.2))) s

theorem State.slicesIn_zero (s : State) (e : StrEnt) (g : Geo) (view : StrView) (back : Nat) {c : Nat} (hc : c ∈ s.coresOf g.part) :
    (s.slicesIn e g view back 0).SliceZero e g c := by
  obtain ⟨i, hi⟩ := s.mem_indexed g.part hc
  have hword : ∀ x j, s.sliceWord g back 0 x j = 0#40 := fun _ _ => if_pos rfl
  exact foldl_reaches (Q := fun _ => True) (P := fun t : State => t.SliceZero e g c) (b := (c, i)) (fun _ _ _ _ => trivial)
    (fun t _ => t.sliceZero_updCore e g c c view _ (hword i) fun h => absurd rfl h)
    (fun t x h => t.sliceZero_updCore e g c x.1 view _ (hword x.2) fun _ => h) _ s hi trivial

/-- The entry of a good swap-in is resident, and its stream leaves the miss list (R218 step 4). -/
def State.swappedIn (s : State) (i : Nat) (e : StrEnt) : State :=
  let t := (s.setEnt i e).swapPhase i 2
  { t with str := { t.str with miss := t.str.miss.erase e.id } }

theorem State.swappedIn_ent (s : State) (i : Nat) (e : StrEnt) : (s.swappedIn i e).ent i = e := s.ent_setEnt_same i e

section
variable (s : State) (i : Nat) (g : Geo)

/-- Word `k` of the directory record of entry `i`'s stream. -/
def State.dirWord (k : Nat) : Nat := Memory.nat s.tierA (s.dirAddr (s.ent i).id + 4 * k) 4

/-- The backing address that a directory record gives (R213). -/
def State.dirBack : Nat := s.dirWord i 5 / 32 * 32 + 2 ^ 32 * (s.dirWord i 6 % 256)

theorem State.endSwapIn_invalid (h : bitOf (s.dirWord i 0) 20 = false) : s.endSwapIn i g = s.failSwapIn i 0x31 := by
  simp only [State.endSwapIn]
  exact if_pos (by rw [show Memory.nat s.tierA (s.dirAddr (s.ent i).id + 4 * 0) 4 = s.dirWord i 0 from rfl, h]; rfl)

theorem State.endSwapIn_trailer (h : bitOf (s.dirWord i 0) 20 = true) (hgen : s.dirWord i 4 ≠ 0)
    (ht : Memory.nat s.tierA (s.dirBack i + s.ncoresOf g.part * (5 * g.nslot)) 32 % 2 ^ 32 ≠ s.dirWord i 4) :
    s.endSwapIn i g = s.failSwapIn i 0x32 := by
  simp only [State.endSwapIn]
  rw [if_neg (by rw [show Memory.nat s.tierA (s.dirAddr (s.ent i).id + 4 * 0) 4 = s.dirWord i 0 from rfl, h]; decide)]
  refine if_pos ⟨hgen, Or.inl fun h => ht ?_⟩
  rw [fld, Nat.shiftRight_zero] at h
  exact h

/-- A good swap-in of a new stream (R218). -/
theorem State.endSwapIn_new (hbit : bitOf (s.dirWord i 0) 20 = true) (hgen : s.dirWord i 4 = 0) : ∃ view e,
    s.endSwapIn i g = ((s.slicesIn (s.ent i) g view (s.dirBack i) 0).swappedIn i e).cmdEnds true (s.ent i).id none
      ∧ e.res = .resident ∧ e.back = s.dirBack i := by
  refine ⟨{ flag := bitOf (s.dirWord i 0) 18, pos := s.dirWord i 2 + 2 ^ 32 * (s.dirWord i 3 % 65536) },
    { s.ent i with
      res := .resident, reset := bitOf (s.dirWord i 0) 18, pos := s.dirWord i 2 + 2 ^ 32 * (s.dirWord i 3 % 65536), gen := 0,
      back := s.dirBack i, part := g.part }, ?_, rfl, rfl⟩
  have hgen' : Memory.nat s.tierA (s.dirAddr (s.ent i).id + 4 * 4) 4 = 0 := hgen
  simp only [State.endSwapIn]
  rw [if_neg (by rw [show Memory.nat s.tierA (s.dirAddr (s.ent i).id + 4 * 0) 4 = s.dirWord i 0 from rfl, hbit]; decide),
    if_neg (fun h => h.1 hgen'), hgen']
  rfl

theorem State.endSwapIn_zeroed (hbit : bitOf (s.dirWord i 0) 20 = true) (hgen : s.dirWord i 4 = 0) :
    ((s.endSwapIn i g).ent i).res = .resident ∧ ((s.endSwapIn i g).ent i).back = s.dirBack i ∧ (s.endSwapIn i g).fq = s.fq
      ∧ ∀ c ∈ s.coresOf g.part, (s.endSwapIn i g).SliceZero (s.ent i) g c := by
  obtain ⟨view, e, heq, hres, hback⟩ := s.endSwapIn_new i g hbit hgen
  have hzero := fun c (hc : c ∈ s.coresOf g.part) => s.slicesIn_zero (s.ent i) g view (s.dirBack i) hc
  have hfq : (s.slicesIn (s.ent i) g view (s.dirBack i) 0).fq = s.fq :=
    foldl_leaves State.fq (f := fun t (x : Nat × Nat) => t.updCore x.1 (Core.sliced (s.ent i) g view (s.sliceWord g (s.dirBack i) 0 x.2)))
      (fun _ _ => rfl) _ s
  rw [heq]
  generalize s.slicesIn (s.ent i) g view (s.dirBack i) 0 = t at *
  have hent : ((t.swappedIn i e).cmdEnds true (s.ent i).id none).ent i = e :=
    (State.cmdEnds_leaves (fun u => u.ent i) (fun _ _ _ _ => rfl) _ _ _ _).trans (t.swappedIn_ent i e)
  have hcores : ((t.swappedIn i e).cmdEnds true (s.ent i).id none).core = t.core :=
    State.cmdEnds_leaves State.core (fun _ _ _ _ => rfl) _ _ _ _
  refine ⟨by rw [hent, hres], by rw [hent, hback], (State.cmdEnds_leaves State.fq (fun _ _ _ _ => rfl) _ _ _ _).trans hfq, fun c hc => ?_⟩
  simp only [State.SliceZero, hcores]
  exact hzero c hc

end

theorem State.exec_swapMemoryDone (s : State) (ent : BitVec 12) (err : Bool) {w : Swap} {g : Geo} (hrun : s.running = true)
    (hw : s.str.swaps.find? (fun w => w.ent = ent.toNat && w.phase = 1) = some w) (hg : s.geo (s.ent ent.toNat).part = some g)
    (hup : s.swapUp ent.toNat w.inn g = true) : exec (.swapMemoryDone ent err) s
      = if w.inn then .next (if err then s.failSwapIn ent.toNat 0x27 else s.endSwapIn ent.toNat g) else .next (s.endSwapOut ent.toNat g err) := by
  show execSwapMemoryDone ent err s = _
  simp only [execSwapMemoryDone, hw, hg]
  rw [if_neg (by simp [hrun, hup])]

end Sys2Proof.Machine
end

section
open Sys2Proof Sys2Proof.Machine

/-- Settles O41: a swap-out and a swap-in each by whether the accesses, the directory record and the trailer are good. -/
theorem swaps : Obligations.Swaps := by
  unfold Obligations.Swaps
  intro s ent w g hrun hw hg hup e rw' back trailer ends
  have hexec := fun err => s.exec_swapMemoryDone ent err hrun hw hg hup
  have hfail : w.inn = true → ∀ err code, exec (.swapMemoryDone ent err) s = .next (s.failSwapIn ent.toNat code) → ends err code := by
    intro hin err code h
    obtain ⟨r, hcode, hr, hres⟩ := s.failSwapIn_spec ent.toNat code
    exact ⟨_, r, h, hr, hcode, hres.trans (if_pos hin).symm⟩
  refine ⟨fun hin => ⟨?_, ?_⟩, fun hin => ⟨?_, fun hbit => ?_, fun hbit hgen ht => ?_, fun hbit hgen => ?_⟩⟩
  · obtain ⟨r, hcode, hr, hres⟩ := s.endSwapOut_fails ent.toNat g
    exact ⟨_, r, (hexec true).trans (if_neg (by rw [hin]; exact Bool.false_ne_true)), hr, hcode,
      hres.trans (if_neg (by rw [hin]; exact Bool.false_ne_true)).symm⟩
  · exact ⟨_, (hexec false).trans (if_neg (by rw [hin]; exact Bool.false_ne_true)), s.endSwapOut_ends ent.toNat g⟩
  · exact hfail hin true 0x27 ((hexec true).trans (if_pos hin))
  · exact hfail hin false 0x31 ((hexec false).trans ((if_pos hin).trans (congrArg Host.Outcome.next (s.endSwapIn_invalid ent.toNat g hbit))))
  · exact hfail hin false 0x32 ((hexec false).trans ((if_pos hin).trans (congrArg Host.Outcome.next
      (s.endSwapIn_trailer ent.toNat g hbit hgen ht))))
  · exact ⟨_, (hexec false).trans (if_pos hin), s.endSwapIn_zeroed ent.toNat g hbit hgen⟩

end

section
/-! A queue's transfers, and the answers, expiries and lost clocks of the memory ports (R59, R399, R400, R493 to R495). -/

namespace Sys2Proof.Machine

/-! ### A queue's transfers -/

/-- Core `k` with the transfers of one queue replaced. -/
def Core.withXfers (k : Core) (e : Bool) (l : List Xfer) : Core :=
  { k with run := if e then { k.run with eq := l } else { k.run with fq := l } }

theorem State.core_setXfers (s : State) (c d : Nat) (e : Bool) (l : List Xfer) :
    (s.setXfers c e l).core d = if d = c then (s.core c).withXfers e l else s.core d := State.core_setCore _ _ _ _

theorem State.xfers_setXfers (s : State) (c : Nat) (e : Bool) (l : List Xfer) : (s.setXfers c e l).xfers c e = l := by
  simp only [State.xfers, State.core_setXfers, if_true, Core.withXfers]
  cases e <;> rfl

theorem State.xfers_updXfer (s : State) (c : Nat) (e : Bool) (q : Nat) (f : Xfer → Xfer) :
    (s.updXfer c e q f).xfers c e = (s.xfers c e).map (fun x => if x.seq = q then f x else x) := State.xfers_setXfers _ _ _ _

/-- The transfer that an update names, where the update keeps sequence numbers. -/
theorem State.xfer_updXfer (s : State) (c : Nat) (e : Bool) (q : Nat) (f : Xfer → Xfer) (hf : ∀ x, (f x).seq = x.seq) :
    (s.updXfer c e q f).xfer c e q = (s.xfer c e q).map f := by
  rw [State.xfer, State.xfer, State.xfers_updXfer]
  induction s.xfers c e with
  | nil => rfl
  | cons x l ih =>
    by_cases hx : x.seq = q
    · simp [hx, hf]
    · simp only [List.map_cons, List.find?_cons, hx, if_false, decide_false]
      exact ih

theorem State.mem_of_xfer {s : State} {c : Nat} {e : Bool} {q : Nat} {x : Xfer} (h : s.xfer c e q = some x) :
    (s.xfers c e).any (fun x => x.seq = q) = true :=
  List.any_eq_true.mpr ⟨x, List.mem_of_find?_eq_some h, List.find?_some (p := fun x : Xfer => decide (x.seq = q)) h⟩

/-- A transfer that has found nothing at its position goes on when requests are answered. -/
theorem State.answered_going (s : State) (c : Nat) (e : Bool) (q n : Nat) {x : Xfer} (hx : s.xfer c e q = some x) (hs : x.stop = none) :
    s.answered c e q n = s.updXfer c e q (fun y => { y with open_ := y.open_ - n }) := by
  have h : (s.updXfer c e q (fun y => { y with open_ := y.open_ - n })).xfer c e q = some { x with open_ := x.open_ - n } := by
    rw [State.xfer_updXfer s c e q (fun y => { y with open_ := y.open_ - n }) (fun _ => rfl), hx]
    rfl
  simp only [State.answered, State.stopNow, h, hs]

/-! ### Requests that have their ids -/

/-- Where every request has its id, none is presented (R493). -/
theorem State.pumpMem_idle (s : State) (h : ∀ x ∈ s.memq, x.id.isSome = true) : s.pumpMem = s := by
  rw [State.pumpMem]
  refine List.foldlRecOn (motive := fun t : State => t = s) _ _ rfl fun t ht r hr => ?_
  rw [if_pos (by rw [h r hr]; rfl), ht]

theorem State.memAnswer_eq (s : State) (b : Bool) (port : BitVec 4) (id : BitVec 8) (err : Bool) {r : MemReq}
    (hr : s.reqOf b port.toNat id.toNat = some r) (hheld : s.answerHeld r = false) : s.memAnswer b port id err
      = if r.expired then (s.dropReq r).pumpMem
        else if err then (((s.countMpErr b port.toNat false).dropReq r).memFail r 0x27).pumpMem
        else if r.op == .read && !r.slot.good then ((s.dropReq r).memFail r 0x23).pumpMem
        else ((s.dropReq r).memOk r).pumpMem := by
  simp only [State.memAnswer, hr]
  exact if_neg (by rw [hheld]; exact Bool.false_ne_true)

theorem State.dropReq_ids (s : State) (r : MemReq) (h : ∀ x ∈ s.memq, x.id.isSome = true) : ∀ x ∈ (s.dropReq r).memq, x.id.isSome = true :=
  fun x hx => h x (List.mem_filter.mp hx).1

/-- The read of a transfer fails: its core recovers (R405, R407, R495). -/
theorem State.memFail_read (s : State) (r : MemReq) (code : Nat) {c : Nat} {e : Bool} {q : Nat} {x : Xfer} (hop : r.op = .read)
    (how : r.owner = .xfer c e q) (hx : s.xfer c e q = some x) : ∃ tag, s.memFail r code = s.guardCore c { code := code, unit := 7, tag := tag } := by
  have hany := State.mem_of_xfer hx
  simp only [State.memFail, hop, how, if_true]
  exact ⟨_, if_pos hany⟩

/-- A core that a failed access makes recover. -/
theorem State.memFail_recovers (s : State) (r : MemReq) (code : Nat) {c : Nat} {e : Bool} {q : Nat} {x : Xfer} (hop : r.op = .read)
    (how : r.owner = .xfer c e q) (hx : s.xfer c e q = some x) (hh : (s.core c).run.halt = none) (hf : s.slabFaulty (c / 32) = false) :
    s.Records (s.memFail r code) code 1 ∧ (s.memFail r code).core c = { s.core c with run := (s.core c).run.recovering s.v64 }
      ∧ (s.memFail r code).memq = s.memq ∧ (s.memFail r code).regs = s.regs := by
  obtain ⟨tag, heq⟩ := s.memFail_read r code hop how hx
  rw [heq]
  obtain ⟨hrec, hcore, -⟩ := s.guardCore_recovering c { code := code, unit := 7, tag := tag } hh hf
  refine ⟨hrec, hcore, ?_, ?_⟩
  · rw [s.guardCore_recovers _ _ hh hf]
    rfl
  · rw [s.guardCore_recovers _ _ hh hf]
    rfl

/-! ### Answers -/

section
variable (s : State) (b : Bool) (port : BitVec 4) (id : BitVec 8) {r : MemReq} (hr : s.reqOf b port.toNat id.toNat = some r)
include hr

theorem State.exec_memResponse (err : Bool) (hans : s.idAnswered b port id = false) : exec (.memResponse b port id err) s
    = if s.lost.contains (memPort b port.toNat) then .next { s with strand := s.strand ++ [.mem b port id err] }
      else .next (s.memAnswer b port id err) := by
  show execMemResponse b port id err s = _
  simp only [execMemResponse]
  rw [if_neg (by rw [hr, hans]; exact Bool.false_ne_true)]

variable (hheld : s.answerHeld r = false) (hids : ∀ x ∈ s.memq, x.id.isSome = true)
include hheld hids

theorem State.memAnswer_late (err : Bool) (he : r.expired = true) : s.memAnswer b port id err = s.dropReq r := by
  rw [s.memAnswer_eq b port id err hr hheld, if_pos he]
  exact State.pumpMem_idle _ (s.dropReq_ids r hids)

variable (he : r.expired = false) {c : Nat} {e : Bool} {q : Nat} {x : Xfer} (how : r.owner = .xfer c e q) (hx : s.xfer c e q = some x)
  (hop : r.op = .read)
include he how hx hop

/-- A granule read arrives in the local store of the transfer's core (R399, R493). -/
theorem State.memAnswer_read (hgood : r.slot.good = true) (hstop : x.stop = none) :
    let k := s.core c
    let t := s.memAnswer b port id false
    t.memq = s.memq.filter (fun y => y.serial ≠ r.serial)
      ∧ (t.core c).st = { k.st with ls := Memory.setGranule k.st.ls (32 * r.lgran) r.slot.granule, landing := k.st.landing.erase r.lgran }
      ∧ (t.core c).cur = k.cur ∧ (∀ d, d ≠ c → t.core d = s.core d)
      ∧ t.xfers c e = (s.xfers c e).map (fun y => if y.seq = q then { y with open_ := y.open_ - 1 } else y) := by
  intro k t
  let u := (s.dropReq r).updSt c (fun st => { st with
    ls := Memory.setGranule st.ls (32 * r.lgran) r.slot.granule, landing := st.landing.erase r.lgran })
  have hu : u.core c = { k with st := { k.st with
      ls := Memory.setGranule k.st.ls (32 * r.lgran) r.slot.granule, landing := k.st.landing.erase r.lgran } } := State.core_updCore_same _ _ _
  have hxs : u.xfers c e = s.xfers c e := by simp only [State.xfers, hu]; rfl
  have hxu : u.xfer c e q = some x := by rw [State.xfer, hxs]; exact hx
  have heq : t = u.updXfer c e q (fun y => { y with open_ := y.open_ - 1 }) := by
    have hok : (s.dropReq r).memOk r = u.answered c e q 1 := by
      have hx' : (s.dropReq r).xfer c e q = some x := hx
      simp only [State.memOk, hop, how]
      rw [if_neg (by rw [decide_eq_false (by decide)]; exact Bool.false_ne_true)]
      simp only [hx', if_true]
      rfl
    rw [show t = ((s.dropReq r).memOk r).pumpMem by
      rw [show t = _ from s.memAnswer_eq b port id false hr hheld, if_neg (by rw [he]; exact Bool.false_ne_true), if_neg Bool.false_ne_true,
        if_neg (by rw [hgood, Bool.not_true, Bool.and_false]; exact Bool.false_ne_true)], hok, u.answered_going c e q 1 hxu hstop]
    exact State.pumpMem_idle _ (s.dropReq_ids r hids)
  rw [heq]
  have hcore : ∀ d, (u.updXfer c e q (fun y => { y with open_ := y.open_ - 1 })).core d = _ := fun d => u.core_setXfers c d e _
  refine ⟨rfl, ?_, ?_, fun d hd => ?_, ?_⟩
  · rw [hcore, if_pos rfl, hu]
    rfl
  · rw [hcore, if_pos rfl, hu]
    rfl
  · rw [hcore, if_neg hd]
    exact State.core_updCore_ne _ _ hd
  · rw [State.xfers_updXfer, hxs]

variable (hh : (s.core c).run.halt = none) (hf : s.slabFaulty (c / 32) = false)
include hh hf

/-- A core that a bad slot makes recover (R399). -/
theorem State.memAnswer_bad (hbad : r.slot.good = false) : s.Records (s.memAnswer b port id false) 0x23 1
    ∧ (s.memAnswer b port id false).core c = { s.core c with run := (s.core c).run.recovering s.v64 } := by
  obtain ⟨hrec, hcore, hmemq, -⟩ := (s.dropReq r).memFail_recovers r 0x23 hop how hx hh hf
  have heq : s.memAnswer b port id false = (s.dropReq r).memFail r 0x23 := by
    rw [s.memAnswer_eq b port id false hr hheld, if_neg (by rw [he]; exact Bool.false_ne_true), if_neg Bool.false_ne_true,
      if_pos (by rw [hop, hbad]; decide)]
    exact State.pumpMem_idle _ (by rw [hmemq]; exact s.dropReq_ids r hids)
  rw [heq]
  exact ⟨hrec, hcore⟩

/-- An error is counted, and the core recovers (R493, R495). -/
theorem State.memAnswer_error : s.Records (s.memAnswer b port id true) 0x27 1
    ∧ (s.memAnswer b port id true).core c = { s.core c with run := (s.core c).run.recovering s.v64 }
    ∧ (s.memAnswer b port id true).regN (oMpErr (if b then 3 else 2) port.toNat) % 65536
        = Nat.min 65535 (s.regN (oMpErr (if b then 3 else 2) port.toNat) % 65536 + 1) := by
  let o := oMpErr (if b then 3 else 2) port.toNat
  let u := (s.setRegN o (s.regN o / 65536 * 65536 + Nat.min 65535 (s.regN o % 65536 + 1))).dropReq r
  obtain ⟨hrec, hcore, hmemq, hregs⟩ := u.memFail_recovers r 0x27 hop how hx hh hf
  have heq : s.memAnswer b port id true = u.memFail r 0x27 := by
    rw [s.memAnswer_eq b port id true hr hheld, if_neg (by rw [he]; exact Bool.false_ne_true), if_pos rfl]
    exact State.pumpMem_idle (u.memFail r 0x27) (by rw [hmemq]; exact s.dropReq_ids r hids)
  rw [heq]
  refine ⟨hrec, hcore, ?_⟩
  have hreg : (u.memFail r 0x27).regN o = (s.regN o / 65536 * 65536 + Nat.min 65535 (s.regN o % 65536 + 1)) % 2 ^ 32 := by
    rw [State.regN, State.reg, hregs]
    exact (s.regN_setRegN o o _).trans (if_pos rfl)
  have hlt := s.regN_lt o
  show (u.memFail r 0x27).regN o % 65536 = _
  rw [hreg]
  show _ = Nat.min 65535 (s.regN o % 65536 + 1)
  generalize s.regN o = v at *
  have hmin : Nat.min 65535 (v % 65536 + 1) < 65536 := Nat.lt_of_le_of_lt (Nat.min_le_left _ _) (by decide)
  generalize Nat.min 65535 (v % 65536 + 1) = w at *
  omega

end

/-! ### Expiries and lost clocks -/

theorem State.exec_memRequestExpiry (s : State) (b : Bool) (port : BitVec 4) (id : BitVec 8) {r : MemReq}
    (hr : s.reqOf b port.toNat id.toNat = some r) : exec (.memRequestExpiry b port id) s
    = if r.expired || s.regN (oMpCfg (if b then 3 else 2)) % 65536 = 0
          || !s.due (r.time + s.us (s.regN (oMpCfg (if b then 3 else 2)) % 65536)) then .next s
      else let t := s.countMpErr b port.toNat true
        .next (({ t with memq := t.memq.map (fun x => if x.serial = r.serial then { x with expired := true } else x) } : State).memFail r 0x27) := by
  show execMemRequestExpiry b port id s = _
  simp only [execMemRequestExpiry, hr]

theorem State.countMpErr_eq (s : State) (b : Bool) (port : Nat) (x : Bool) : s.countMpErr b port x = { s with regs := (s.countMpErr b port x).regs } := by
  simp only [State.countMpErr]
  split <;> rfl

theorem State.memRequestExpiry_spec (s : State) (b : Bool) (port : BitVec 4) (id : BitVec 8) {r : MemReq}
    (hr : s.reqOf b port.toNat id.toNat = some r) {c : Nat} {e : Bool} {q : Nat} {x : Xfer} (he : r.expired = false)
    (htmo : s.regN (oMpCfg (if b then 3 else 2)) % 65536 ≠ 0)
    (hdue : s.due (r.time + s.us (s.regN (oMpCfg (if b then 3 else 2)) % 65536)) = true) (how : r.owner = .xfer c e q) (hop : r.op = .read)
    (hh : (s.core c).run.halt = none) (hf : s.slabFaulty (c / 32) = false) (hx : s.xfer c e q = some x) :
    ∃ t, exec (.memRequestExpiry b port id) s = .next t ∧ (t.core c).run.recov = 1
      ∧ t.memq = s.memq.map (fun y => if y.serial = r.serial then { y with expired := true } else y) ∧ s.Records t 0x27 1 := by
  have hexec := (s.exec_memRequestExpiry b port id hr).trans (if_neg (by simp [he, htmo, hdue]))
  rw [State.countMpErr_eq] at hexec
  generalize (s.countMpErr b port.toNat true).regs = regs at hexec
  obtain ⟨hrec, hcore, hmemq, -⟩ := State.memFail_recovers { s with
    regs := regs, memq := s.memq.map (fun x => if x.serial = r.serial then { x with expired := true } else x) } r 0x27 hop how hx hh hf
  exact ⟨_, hexec, by rw [hcore]; rfl, hmemq, hrec⟩

theorem State.portClockLost_spec (s : State) (p : PortId) (hc : s.boot.cold = false) (hl : s.lost.contains p = false) (ho : s.portOn p = true) :
    ∃ t f, exec (.portClockLost p) s = .next t ∧ t = { s with lost := s.lost ++ [p], fq := t.fq } ∧ FRec.code f = 0x2F
      ∧ FRec.info1 f = (lostRec p).info1 ∧ t.fq = { s.fq with offered := s.fq.offered ++ [f] } := by
  have hexec : exec (.portClockLost p) s = .next (({ s with lost := s.lost ++ [p] } : State).offer (lostRec p)) := by
    show execPortClockLost p s = _
    simp only [execPortClockLost]
    exact if_neg (by rw [hc, hl, ho]; decide)
  refine ⟨_, { lostRec p with time := s.aon.tb, esc := (lostRec p).esc || escOf (lostRec p).code }, hexec, rfl, ?_, rfl, rfl⟩
  cases p <;> rfl

theorem State.exec_portClockResumed (s : State) (p : PortId) (h : s.lost.contains p = true) : exec (.portClockResumed p) s
    = andThen (deliverBeats (s.strand.filter (fun b => b.port == p))
        { s with lost := s.lost.erase p, strand := s.strand.filter (fun b => b.port != p) }) (fun t => .next (t.portGo p)) := by
  show execPortClockResumed p s = _
  simp only [execPortClockResumed]
  exact if_pos h

/-- A memory port of tier B resumes with nothing stranded and no request without its id. -/
theorem State.portClockResumed_idle (s : State) (n : BitVec 4) (h : s.lost.contains (.memB n) = true) (hids : ∀ x ∈ s.memq, x.id.isSome = true)
    (hst : ∀ x ∈ s.strand, x.port ≠ .memB n) : exec (.portClockResumed (.memB n)) s = .next { s with lost := s.lost.erase (.memB n) } := by
  have hnone : s.strand.filter (fun b => b.port == .memB n) = [] := List.filter_eq_nil_iff.mpr fun x hx => by simpa using hst x hx
  have hall : s.strand.filter (fun b => b.port != .memB n) = s.strand := List.filter_eq_self.mpr fun x hx => by simpa using hst x hx
  rw [s.exec_portClockResumed _ h, hnone, hall]
  exact congrArg Host.Outcome.next (State.pumpMem_idle { s with lost := s.lost.erase (.memB n) } hids)

end Sys2Proof.Machine
end

section
open Sys2Proof Sys2Proof.Machine

/-- Settles O42: a request's answer by whether it is late, an error, a bad slot or good; where all requests have ids none is presented. -/
theorem memoryPortAnswers : Obligations.MemoryPortAnswers := by
  unfold Obligations.MemoryPortAnswers
  intro s b port id
  refine ⟨fun h err => ?_, fun r hr hans => ⟨fun err hl => ?_, fun hl hheld hids => ⟨fun err he => ?_, fun c e q x he how hx hop => ?_⟩⟩,
    fun r hr => ⟨fun h => ?_, fun c e q he htmo hdue how hop hh hf ⟨x, hx⟩ => s.memRequestExpiry_spec b port id hr he htmo hdue how hop hh hf hx⟩,
    fun p hc hl ho => s.portClockLost_spec p hc hl ho, fun p hl => ?_, fun p t hl ht => ?_, fun n hl hids hst => s.portClockResumed_idle n hl hids hst⟩
  · show execMemResponse b port id err s = _
    simp only [execMemResponse]
    refine if_pos ?_
    obtain h | h := h
    · rw [h]; rfl
    · rw [h, Bool.or_true]
  · rw [s.exec_memResponse b port id hr err hans, if_pos hl]
  · rw [s.exec_memResponse b port id hr err hans, if_neg (by rw [hl]; exact Bool.false_ne_true), s.memAnswer_late b port id hr hheld hids err he]
  · have hexec := fun err => (s.exec_memResponse b port id hr err hans).trans (if_neg (by rw [hl]; exact Bool.false_ne_true))
    intro k recovers
    have hrecovers : ∀ t code, s.Records t code 1 → t.core c = { s.core c with run := (s.core c).run.recovering s.v64 } → recovers t code :=
      fun t code hrec hcore => ⟨by rw [hcore]; rfl, by rw [hcore], by rw [hcore], hrec⟩
    refine ⟨fun hgood hstop => ⟨_, hexec false, s.memAnswer_read b port id hr hheld hids he how hx hop hgood hstop⟩, fun hh hf => ⟨?_, fun hbad => ?_⟩⟩
    · obtain ⟨hrec, hcore, hcount⟩ := s.memAnswer_error b port id hr hheld hids he how hx hop hh hf
      exact ⟨_, hexec true, hrecovers _ _ hrec hcore, hcount⟩
    · obtain ⟨hrec, hcore⟩ := s.memAnswer_bad b port id hr hheld hids he how hx hop hh hf hbad
      exact ⟨_, hexec false, hrecovers _ _ hrec hcore⟩
  · rw [s.exec_memRequestExpiry b port id hr]
    refine if_pos ?_
    obtain h | h | h := h
    · simp [h]
    · simp [h]
    · rw [h, Bool.not_false, Bool.or_true]
  · show execPortClockResumed p s = _
    simp only [execPortClockResumed]
    exact if_neg (by rw [hl]; exact Bool.false_ne_true)
  · rw [s.exec_portClockResumed p hl, ht]
    rfl

end

section
/-! Castings and platings (R322 to R337). -/

namespace Sys2Proof.Machine

/-! ### What a core's operation leaves of the block -/

section
variable {γ : Type} (p : State → γ)

theorem State.out_frame (hset : ∀ (t : State) c k, p (t.setCore c k) = p t)
    (h : ∀ (t : State) fq posts items credits, p { t with fq := fq, posts := posts, items := items, credits := credits } = p t)
    (s : State) (c : Nat) (o : Out) : p (s.out c o) = p s := by
  cases o with
  | fault f => exact h s _ s.posts s.items s.credits
  | post t sem cnt ord seq tag => exact h s s.fq _ s.items s.credits
  | push q idx ord item =>
    simp only [State.out]
    split
    · rfl
    · exact h s s.fq s.posts _ s.credits
  | credits q n =>
    simp only [State.out]
    split
    · rfl
    · simp only [State.sendCredit]
      split
      · simp only [State.credit]
        split
        · rfl
        · exact hset _ _ _
      · exact h s s.fq s.posts s.items _

/-- What the operation of a core leaves of the block. -/
theorem State.runCore_frame (hset : ∀ (t : State) c k, p (t.setCore c k) = p t)
    (h : ∀ (t : State) fq posts items credits, p { t with fq := fq, posts := posts, items := items, credits := credits } = p t)
    (hfc : ∀ (t : State) n, p { t with fc := n } = p t) (hsubs : ∀ (t : State) l, p { t with subs := l } = p t)
    (s : State) (c : Nat) (f : CEnv → CRes → CRes) : p (s.runCore c f) = p s := by
  have hall : p ((f (s.cenv c) (CRes.of (s.core c) s.fc)).outs.foldl (fun t o => t.out c o)
      { (s.setCore c (f (s.cenv c) (CRes.of (s.core c) s.fc)).k.settle) with fc := (f (s.cenv c) (CRes.of (s.core c) s.fc)).fc }) = p s :=
    (foldl_leaves p (fun t o => State.out_frame p hset h t c o) _ _).trans ((hfc _ _).trans (hset _ _ _))
  simp only [State.runCore]
  split
  · rw [State.noteHalt_eq, hsubs]
    exact hall
  · exact hall

end

/-! ### Loads -/

theorem cleanCore_default : cleanCore {} = {} := rfl

/-- A load empties every core (R331 step 5). -/
theorem State.core_cleared (s : State) (c : Nat) (l : List (Nat × Core)) (h : l = s.cores.map (fun c => (c.1, cleanCore c.2))) :
    ({ s with cores := l } : State).core c = cleanCore (s.core c) := by
  rw [State.core, h]
  exact Sp.get_map ({} : Core) cleanCore cleanCore_default c s.cores

section
variable {γ : Type} (p : State → γ)

theorem State.flushStreams_leaves (h : ∀ (t : State) m, p { t with tierA := m } = p t) (s : State) : p s.flushStreams = p s := by
  refine foldl_leaves p (fun t x => ?_) _ s
  dsimp only
  split
  · split
    · exact h _ _
    · rfl
  · rfl

theorem State.reown_leaves (h : ∀ (t : State) a, p { t with aon := a } = p t) (s : State) : p s.reown = p s := by
  refine (foldl_leaves p (fun t k => ?_) _ _).trans (foldl_leaves p (fun t k => ?_) _ s)
  · dsimp only
    split
    · rfl
    · exact h _ _
  · dsimp only
    split
    · rfl
    · exact h _ _

theorem State.newLimits_leaves (h : ∀ (t : State) a pw b, p { t with aon := a, pwr := pw, cast := { t.cast with clamp := b } } = p t) (s : State) :
    p s.newLimits = p s := by
  rw [State.newLimits, State.forward_eq]
  exact h s _ _ _

end

/-- The comparators and the limits follow a load or a switch (R327, R445, R447). -/
theorem State.settled_leaves {γ : Type} (p : State → γ)
    (h : ∀ (t : State) a pw b, p { t with aon := a, pwr := pw, cast := { t.cast with clamp := b } } = p t) (s : State) :
    p s.reown.newLimits = p s :=
  (State.newLimits_leaves p h _).trans (State.reown_leaves p (fun t a => h t a t.pwr t.cast.clamp) s)

/-- What step 5 of R331 leaves of the block, the streams being swapped out. -/
theorem State.clearCasting_spec (s : State) (i : Image) : (s.clearCasting i true).cast = { s.cast with
      slots := [], act := [], loaded := true, img := i, stopped := [] }
    ∧ (∀ c, (s.clearCasting i true).core c = cleanCore (s.core c)) ∧ (s.clearCasting i true).tlb = []
    ∧ (s.clearCasting i true).str.ents = [] ∧ (s.clearCasting i true).link.rcache = [] := by
  have hf := fun {γ : Type} (p : State → γ) h => State.flushStreams_leaves p h { s with cast := { s.cast with slots := [], act := [] } }
  have hcast := hf State.cast fun _ _ => rfl
  have hcores := hf State.cores fun _ _ => rfl
  simp only [State.clearCasting]
  generalize ({ s with cast := { s.cast with slots := [], act := [] } } : State).flushStreams = t at *
  refine ⟨by rw [hcast], fun c => ?_, trivial, trivial, trivial⟩
  refine (State.core_cleared t c _ rfl).trans ?_
  rw [State.core, hcores]
  rfl

/-- The tables of image `i` on the cores of partition `p` (R331). -/
def State.tabled (i : Image) (u : State) (p : Nat) : State :=
  ((u.coresOf p).zipIdx).foldl (fun (v : State) c => v.updCore c.1 (castCore i p (v.pidx c.1))) u

theorem State.installCasting_eq (s : State) (i : Image) :
    s.installCasting i = ((List.range i.parts.length).foldl (State.tabled i) (s.clearCasting i true)).reown.newLimits := rfl

/-- A core's tables leave the rest of it. -/
def Core.SameWork (k k' : Core) : Prop :=
  k'.run = k.run ∧ k'.st.ls = k.st.ls ∧ k'.cur.region = k.cur.region

theorem castCore_work (i : Image) (p x : Nat) (k : Core) : k.SameWork (castCore i p x k) := by
  refine ⟨rfl, rfl, ?_⟩
  simp only [castCore]
  split <;> split <;> rfl

theorem Core.SameWork.trans {a b c : Core} (h : a.SameWork b) (h' : b.SameWork c) : a.SameWork c :=
  ⟨h'.1.trans h.1, h'.2.1.trans h.2.1, h'.2.2.trans h.2.2⟩

theorem State.tabled_leaves {γ : Type} (q : State → γ) (h : ∀ (t : State) c k, q (t.setCore c k) = q t) (i : Image) (u : State) (p : Nat) :
    q (u.tabled i p) = q u := foldl_leaves q (fun _ _ => h _ _ _) _ _

theorem State.tabled_work (i : Image) (u : State) (p c : Nat) : (u.core c).SameWork ((u.tabled i p).core c) := by
  refine List.foldlRecOn (motive := fun t : State => (u.core c).SameWork (t.core c)) _ _ ⟨rfl, rfl, rfl⟩ fun t ht x _ => ?_
  by_cases hc : c = x.1
  · subst hc
    rw [State.core_updCore_same]
    exact ht.trans (castCore_work i p _ _)
  · rw [State.core_updCore_ne _ _ hc]
    exact ht

/-- Core `k` holds image `m` of the special functions in bank 0. -/
def Core.Tables (k : Core) (m : Memory) : Prop := k.cur.bank0 = bankOfImage m ∧ k.rp.bank0 = bankOfImage m

theorem castCore_tables {i : Image} {p x : Nat} {m : Memory} (h : item15 i.images (i.pick p x).1 = some m) (k : Core) :
    (castCore i p x k).Tables m := by
  simp only [castCore, h]
  constructor
  · split <;> rfl
  · split <;> rfl

theorem State.pidx_congr {s t : State} (hr : t.roles = s.roles) (hc : t.cast = s.cast) (c : Nat) : t.pidx c = s.pidx c := by
  simp only [State.pidx, State.partOf, State.role, State.partEnt, hr, hc]

theorem State.coresOf_congr {s t : State} (hl : t.lmap = s.lmap) (hc : t.cast.loaded = s.cast.loaded) (hi : t.cast.img = s.cast.img) (p : Nat) :
    t.coresOf p = s.coresOf p := by
  have hpart : t.partEnt = s.partEnt := funext fun r => by simp only [State.partEnt, hc, hi]
  have hat : t.coreAt = s.coreAt := funext fun r => funext fun j => by simp only [State.coreAt, State.phys, hpart, hl]
  simp only [State.coresOf, hpart, hat]

theorem State.tabled_other (i : Image) (u : State) (p c : Nat) (h : c ∉ u.coresOf p) : (u.tabled i p).core c = u.core c := by
  refine List.foldlRecOn (motive := fun t : State => t.core c = u.core c) _ _ rfl fun t ht x hx => ?_
  have hmem : x.1 ∈ u.coresOf p := (List.mem_zipIdx hx).2.2 ▸ List.getElem_mem _
  rw [State.core_updCore_ne _ _ fun he => h (by rw [he]; exact hmem), ht]

theorem State.tabled_tables (i : Image) (u : State) (p c : Nat) {m : Memory} (hc : c ∈ u.coresOf p)
    (hm : item15 i.images (i.pick p (u.pidx c)).1 = some m) : ((u.tabled i p).core c).Tables m := by
  obtain ⟨n, hn, hget⟩ := List.mem_iff_getElem.mp hc
  have hz : (c, n) ∈ (u.coresOf p).zipIdx := List.mem_zipIdx_iff_getElem?.mpr (by rw [List.getElem?_eq_getElem hn, hget])
  refine (foldl_reaches (f := fun (v : State) (c : Nat × Nat) => v.updCore c.1 (castCore i p (v.pidx c.1)))
    (Q := fun t : State => t.roles = u.roles ∧ t.cast = u.cast)
    (P := fun t : State => (t.core c).Tables m ∧ t.roles = u.roles ∧ t.cast = u.cast) (b := (c, n))
    (fun _ _ _ h => h) (fun t h => ?_)
    (fun t x h => ?_) _ u hz ⟨rfl, rfl⟩).1
  · refine ⟨?_, h⟩
    rw [State.core_updCore_same]
    exact castCore_tables (by rw [State.pidx_congr h.1 h.2]; exact hm) _
  · obtain ⟨ht, h⟩ := h
    refine ⟨?_, h⟩
    by_cases hx : c = x.1
    · rw [← hx, State.core_updCore_same]
      exact castCore_tables (by rw [State.pidx_congr h.1 h.2]; exact hm) _
    · rw [State.core_updCore_ne _ _ hx]
      exact ht

/-- The state in which every partition's cores have their tables (R331). -/
def State.allTabled (s : State) (i : Image) : State := (List.range i.parts.length).foldl (State.tabled i) (s.clearCasting i true)

theorem State.allTabled_leaves {γ : Type} (q : State → γ) (h : ∀ (t : State) c k, q (t.setCore c k) = q t) (s : State) (i : Image) :
    q (s.allTabled i) = q (s.clearCasting i true) := foldl_leaves q (fun u p => State.tabled_leaves q h i u p) _ _

theorem State.allTabled_work (s : State) (i : Image) (c : Nat) : (cleanCore (s.core c)).SameWork ((s.allTabled i).core c) := by
  rw [← (s.clearCasting_spec i).2.1 c]
  exact List.foldlRecOn (motive := fun t : State => ((s.clearCasting i true).core c).SameWork (t.core c)) _ _ ⟨rfl, rfl, rfl⟩
    fun t ht p _ => ht.trans (State.tabled_work i t p c)

/-- The slabs and partitions are those of `T`. -/
def State.SameMapping (t T : State) : Prop := t.lmap = T.lmap ∧ t.cast = T.cast ∧ t.roles = T.roles

theorem State.SameMapping.tabled {t T : State} (h : t.SameMapping T) (i : Image) (q : Nat) : (t.tabled i q).SameMapping T :=
  ⟨(State.tabled_leaves State.lmap (fun _ _ _ => rfl) i t q).trans h.1, (State.tabled_leaves State.cast (fun _ _ _ => rfl) i t q).trans h.2.1,
    (State.tabled_leaves State.roles (fun _ _ _ => rfl) i t q).trans h.2.2⟩

/-- A core of one partition alone gets that partition's tables (R331). -/
theorem State.allTabled_tables (s : State) (i : Image) {p c : Nat} {m : Memory} (hp : p < i.parts.length) (hc : c ∈ (s.allTabled i).coresOf p)
    (hone : ∀ q, q ≠ p → c ∉ (s.allTabled i).coresOf q) (hm : item15 i.images (i.pick p ((s.allTabled i).pidx c)).1 = some m) :
    ((s.allTabled i).core c).Tables m := by
  have hl := s.allTabled_leaves State.lmap (fun _ _ _ => rfl) i
  have hcast := s.allTabled_leaves State.cast (fun _ _ _ => rfl) i
  have hr := s.allTabled_leaves State.roles (fun _ _ _ => rfl) i
  generalize hT : s.allTabled i = T at *
  have hsame : ∀ t : State, t.SameMapping T → ∀ q, t.coresOf q = T.coresOf q := fun t h q =>
    State.coresOf_congr h.1 (by rw [h.2.1]) (by rw [h.2.1]) q
  have hset : ∀ t : State, t.SameMapping T → ((t.tabled i p).core c).Tables m := fun t h =>
    State.tabled_tables i t p c (by rw [hsame t h]; exact hc) (by rw [State.pidx_congr h.2.2 h.2.1]; exact hm)
  rw [← hT]
  refine (foldl_reaches (f := State.tabled i) (Q := fun t : State => t.SameMapping T)
    (P := fun t : State => (t.core c).Tables m ∧ t.SameMapping T) (b := p) (fun t q _ h => h.tabled i q)
    (fun t h => ⟨hset t h, h.tabled i p⟩) (fun t q h => ⟨?_, h.2.tabled i q⟩) (List.range i.parts.length) (s.clearCasting i true)
    (List.mem_range.mpr hp) ⟨hl.symm, hcast.symm, hr.symm⟩).1
  by_cases hq : q = p
  · subst hq
    exact hset t h.2
  · rw [State.tabled_other i t q c (by rw [hsame t h.2]; exact hone q hq)]
    exact h.1

theorem State.castingLoad_spec (s : State) (img : List Byte) (hbusy : s.cast.busy = some .casting) (hlen : img.length = s.regN oCastLen)
    (hlost : s.lost = []) : exec (.castingLoadComplete img) s = match s.refusal 1 img (parseImage img) with
      | some (code, sect) => .next ((s.stageBytes 0 (img.take 25165824)).castEnd code sect)
      | none => .next (((s.stageBytes 0 (img.take 25165824)).installCasting (parseImage img)).castEnd 0 0xFF) := by
  show execCastingLoadComplete img s = _
  simp only [execCastingLoadComplete, hbusy]
  exact if_neg (by simp [hlen, State.hostUp, State.tierUp, hlost])

/-- A casting that passes becomes the one loaded (R331). -/
theorem State.installed_spec (s : State) (i : Image) :
    let t := (s.installCasting i).castEnd 0 0xFF
    t.cast.loaded = true ∧ t.cast.img = i ∧ t.cast.slots = [] ∧ t.cast.act = [] ∧ t.cast.stopped = [] ∧ t.cast.busy = none ∧ t.cast.result = 0
      ∧ t.cast.sect = 0xFF ∧ t.tlb = [] ∧ t.str.ents = [] ∧ t.link.rcache = []
      ∧ (∀ c, (t.core c).run.halt = none ∧ (t.core c).run.held = false ∧ (t.core c).run.run = none ∧ (t.core c).run.list = []
          ∧ (t.core c).run.entries = [] ∧ (t.core c).st.ls = (s.core c).st.ls ∧ (t.core c).cur.region = (s.core c).cur.region)
      ∧ (∀ p c m, p < i.parts.length → c ∈ t.coresOf p → (∀ q, q ≠ p → c ∉ t.coresOf q) →
          item15 i.images (i.pick p (t.pidx c)).1 = some m → (t.core c).cur.bank0 = bankOfImage m ∧ (t.core c).rp.bank0 = bankOfImage m) := by
  obtain ⟨hcast, -, htlb, hents, hrc⟩ := s.clearCasting_spec i
  have hall := fun {γ : Type} (q : State → γ) h => s.allTabled_leaves q h i
  have hcast' := (hall State.cast fun _ _ _ => rfl).trans hcast
  have htlb' := (hall State.tlb fun _ _ _ => rfl).trans htlb
  have hents' := (hall (fun t => t.str.ents) fun _ _ _ => rfl).trans hents
  have hrc' := (hall (fun t => t.link.rcache) fun _ _ _ => rfl).trans hrc
  have hwork := fun c => s.allTabled_work i c
  have htab := fun {p c m} hp hc hone hm => s.allTabled_tables i (p := p) (c := c) (m := m) hp hc hone hm
  rw [State.installCasting_eq, show (List.range i.parts.length).foldl (State.tabled i) (s.clearCasting i true) = s.allTabled i from rfl]
  generalize s.allTabled i = u at *
  have hl := fun {γ : Type} (q : State → γ) h => State.settled_leaves q h u
  have hcore := fun c => hl (fun t => t.core c) fun _ _ _ _ => rfl
  have hloaded := hl (fun t => (t.cast.loaded, t.cast.img, t.cast.slots, t.cast.act, t.cast.stopped)) fun _ _ _ _ => rfl
  have hpart : ∀ q, u.reown.newLimits.coresOf q = u.coresOf q := fun q => hl (fun t => t.coresOf q) fun _ _ _ _ => rfl
  have hpidx : ∀ c, u.reown.newLimits.pidx c = u.pidx c := fun c => hl (fun t => t.pidx c) fun _ _ _ _ => rfl
  have htlb2 := hl State.tlb fun _ _ _ _ => rfl
  have hents2 := hl (fun t => t.str.ents) fun _ _ _ _ => rfl
  have hrc2 := hl (fun t => t.link.rcache) fun _ _ _ _ => rfl
  generalize u.reown.newLimits = v at *
  rw [hcast'] at hloaded
  simp only [Prod.mk.injEq] at hloaded
  obtain ⟨h1, h2, h3, h4, h5⟩ := hloaded
  refine ⟨h1, h2, h3, h4, h5, rfl, rfl, rfl, htlb2.trans htlb', hents2.trans hents', hrc2.trans hrc', fun c => ?_, fun p c m hp hc hone hm => ?_⟩
  · obtain ⟨hrun, hls, hreg⟩ := hwork c
    rw [show (v.castEnd 0 0xFF).core c = u.core c from hcore c, hrun, hls, hreg]
    exact ⟨rfl, rfl, rfl, rfl, rfl, rfl, rfl⟩
  · rw [show (v.castEnd 0 0xFF).core c = u.core c from hcore c]
    exact htab hp (by rw [← hpart]; exact hc) (fun q hq => by rw [← hpart]; exact hone q hq) (by rw [← hpidx]; exact hm)

theorem State.castingLoad_installs (s : State) (img : List Byte) (hbusy : s.cast.busy = some .casting) (hlen : img.length = s.regN oCastLen)
    (hlost : s.lost = []) (h : s.refusal 1 img (parseImage img) = none) :
    ∃ t, exec (.castingLoadComplete img) s = .next t ∧ t.cast.loaded = true ∧ t.cast.img = parseImage img
      ∧ t.cast.slots = [] ∧ t.cast.act = [] ∧ t.cast.stopped = [] ∧ t.cast.busy = none ∧ t.cast.result = 0 ∧ t.cast.sect = 0xFF
      ∧ t.tlb = [] ∧ t.str.ents = [] ∧ t.link.rcache = []
      ∧ (∀ c, (t.core c).run.halt = none ∧ (t.core c).run.held = false ∧ (t.core c).run.run = none ∧ (t.core c).run.list = []
          ∧ (t.core c).run.entries = [] ∧ (t.core c).st.ls = (s.core c).st.ls ∧ (t.core c).cur.region = (s.core c).cur.region)
      ∧ (∀ p c m, p < (parseImage img).parts.length → c ∈ t.coresOf p → (∀ q, q ≠ p → c ∉ t.coresOf q) →
          item15 (parseImage img).images ((parseImage img).pick p (t.pidx c)).1 = some m →
          (t.core c).cur.bank0 = bankOfImage m ∧ (t.core c).rp.bank0 = bankOfImage m) := by
  have hexec := s.castingLoad_spec img hbusy hlen hlost
  rw [h] at hexec
  generalize parseImage img = i at *
  have hcores : ∀ c, (s.stageBytes 0 (img.take 25165824)).core c = s.core c := fun _ => rfl
  generalize s.stageBytes 0 (img.take 25165824) = u at *
  have hspec := u.installed_spec i
  simp only [hcores] at hspec
  exact ⟨_, hexec, hspec⟩

theorem State.platingLoad_spec (s : State) (img : List Byte) {j : Nat} (hbusy : s.cast.busy = some (.plating j))
    (hlen : img.length = s.regN oCastLen) (hlost : s.lost = []) : exec (.platingLoadComplete img) s = match s.refusal 2 img (parseImage img) with
      | some (code, sect) => .next (s.castEnd code sect)
      | none => .next (({ s.stageBytes (25165824 + 262144 * j) img with
          cast := { s.cast with slots := Sp.set none s.cast.slots j (some (parseImage img)) } } : State).castEnd 0 0xFF) := by
  show execPlatingLoadComplete img s = _
  simp only [execPlatingLoadComplete, hbusy]
  exact if_neg (by simp [hlen, State.hostUp, State.rangeUp, State.portUp, hlost])

/-! ### Commands -/

section
variable (s : State) (slot : BitVec 3) (hby : s.byHost .host = true)
include hby

theorem State.exec_loadCasting : exec (.castcmdLoadCasting .host) s
    = if s.anyBound || s.cast.sw.isSome || s.cast.busy.isSome || s.boot.stActive then .next (s.castRefuse 0x5E)
      else .next { s with cast := { s.cast with busy := some .casting }, boot := { s.boot with castBegun := true } } := by
  show execCastcmdLoadCasting .host s = _
  simp only [execCastcmdLoadCasting]
  rw [if_neg (by simp [hby])]

theorem State.exec_loadPlating : exec (.castcmdLoadPlating .host slot) s = if s.cast.busy.isSome then .next (s.castRefuse 0x5E)
    else if s.slotActive slot.toNat then .next (s.castRefuse 0x5D)
    else .next { s with cast := { s.cast with busy := some (.plating slot.toNat) } } := by
  show execCastcmdLoadPlating .host slot s = _
  simp only [execCastcmdLoadPlating]
  rw [if_neg (by simp [hby])]

theorem State.exec_evict : exec (.castcmdEvict .host slot) s = if s.cast.busy.isSome then .next (s.castRefuse 0x5E)
    else if s.slotActive slot.toNat then .next (s.castRefuse 0x5D)
    else .next (({ s with cast := { s.cast with slots := Sp.set none s.cast.slots slot.toNat none } } : State).castEnd 0 0xFF) := by
  show execCastcmdEvict .host slot s = _
  simp only [execCastcmdEvict]
  rw [if_neg (by simp [hby])]

theorem State.exec_switch : exec (.plswSwitch .host slot) s = if s.cast.sw.isSome || s.cast.busy.isSome then .next (s.swRefuse 0x5D)
    else match Sp.get none s.cast.slots slot.toNat with
    | none => .next (s.swRefuse 0x5D)
    | some i =>
      if s.crosses i.scope then .next (s.swRefuse 0x5D)
      else if s.claimed i then .next (s.swRefuse 0x5C)
      else .next (s.startSwitch (some slot.toNat) i.scope) := by
  show execPlswSwitch .host slot s = _
  simp only [execPlswSwitch]
  exact if_neg (by simp [hby])

theorem State.exec_plswOff (parts : BitVec 8) : exec (.plswOff .host parts) s
    = if s.cast.sw.isSome || s.cast.busy.isSome || s.crosses parts.toNat then .next (s.swRefuse 0x5D)
      else .next (s.startSwitch none parts.toNat) := by
  show execPlswOff .host parts s = _
  simp only [execPlswOff]
  rw [if_neg (by simp [hby])]

end

/-- An accepted switch notes its slot and scope; what it dispatches leaves the platings (R335). -/
theorem State.startSwitch_cast (s : State) (slot : Option Nat) (scope : Nat) :
    (s.startSwitch slot scope).cast = { s.cast with sw := some (slot, scope) } := by
  refine foldl_leaves State.cast (fun u p => ?_) _ _
  split
  · exact foldl_leaves State.cast (fun v c => State.runCore_frame State.cast (fun _ _ _ => rfl) (fun _ _ _ _ _ => rfl) (fun _ _ => rfl)
      (fun _ _ => rfl) v c _) _ _
  · rfl

/-! ### A switch takes effect -/

/-- Reading the platings in force after a switch of partitions `ps`. -/
theorem Sp.get_foldl_setAll (v : Nat) (ps : List Nat) (m : Sp Nat) (j : Nat) :
    Sp.get 0 (ps.foldl (fun m p => Sp.set 0 m p v) m) j = if j ∈ ps then v else Sp.get 0 m j := by
  induction ps generalizing m with
  | nil => rfl
  | cons p ps ih =>
    rw [List.foldl_cons, ih, Sp.get_set]
    by_cases hj : j = p
    · subst hj
      simp
    · simp [hj]

/-- What step 3 of R335 does to the cores of partition `p`. -/
def State.plated (w : Option Image) (u : State) (p : Nat) : State :=
  (match w with
    | some i => (u.coresOf p).foldl (fun (v : State) c => v.updCore c (plateCore i p (v.pidx c))) u
    | none => u).setO2 p

theorem State.plated_leaves {γ : Type} (q : State → γ)
    (hcore : ∀ (t : State) c i p x, q (t.updCore c (plateCore i p x)) = q t)
    (hst : ∀ (t : State) c b, q (t.updSt c fun x => { x with o2en := b }) = q t) (w : Option Image) (u : State) (p : Nat) :
    q (u.plated w p) = q u := by
  refine (foldl_leaves q (fun _ _ => hst _ _ _) _ _).trans ?_
  split
  · exact foldl_leaves q (fun _ _ => hcore _ _ _ _ _) _ _
  · rfl

theorem plateCore_work (i : Image) (p x : Nat) (k : Core) : (plateCore i p x k).run = k.run ∧ (plateCore i p x k).st.ls = k.st.ls := ⟨rfl, rfl⟩

/-- A switch leaves what its cores run, and their local stores. -/
theorem State.plated_work (w : Option Image) (u : State) (p c : Nat) :
    ((u.plated w p).core c).run = (u.core c).run ∧ ((u.plated w p).core c).st.ls = (u.core c).st.ls := by
  refine Prod.mk.inj (State.plated_leaves (fun t => ((t.core c).run, (t.core c).st.ls)) (fun t d i p x => ?_) (fun t d b => ?_) w u p)
  · by_cases hd : c = d
    · subst hd
      rw [State.core_updCore_same]
      rfl
    · rw [State.core_updCore_ne _ _ hd]
  · by_cases hd : c = d
    · subst hd
      rw [State.updSt, State.core_updCore_same]
    · rw [State.updSt, State.core_updCore_ne _ _ hd]

theorem State.switchApply_spec (s : State) {w : Option Nat} {scope : Nat} (hsw : s.cast.sw = some (w, scope)) :
    let ps := (List.range 8).filter (fun p => scope.testBit p)
    (ps.all (fun p => (s.coresOf p).all s.quiet) = false → exec .platingSwitchApply s = .next s)
    ∧ (ps.all (fun p => (s.coresOf p).all s.quiet) = true → ∃ t, exec .platingSwitchApply s = .next t ∧ t.cast.sw = none
        ∧ t.cast.swResult = 0 ∧ (∀ p, Sp.get 0 t.cast.act p = if p ∈ ps then w.elim 0 (· + 1) else Sp.get 0 s.cast.act p)
        ∧ t.cast.slots = s.cast.slots ∧ ∀ c, (t.core c).run = (s.core c).run ∧ (t.core c).st.ls = (s.core c).st.ls) := by
  intro ps
  have hexec : exec .platingSwitchApply s = if !ps.all (fun p => (s.coresOf p).all s.quiet) then .next s
      else .next (ps.foldl (State.plated (w.bind (fun k => Sp.get none s.cast.slots k))) { s with
        cast := { s.cast with act := ps.foldl (fun m p => Sp.set 0 m p (w.elim 0 (· + 1))) s.cast.act, sw := none, swResult := 0 } }).reown.newLimits := by
    show execPlatingSwitchApply s = _
    simp only [execPlatingSwitchApply, hsw]
    cases w <;> rfl
  refine ⟨fun h => ?_, fun h => ?_⟩
  · rw [hexec, h]
    rfl
  rw [h] at hexec
  have hf := fun {γ : Type} (q : State → γ) (h : ∀ w u p, q (State.plated w u p) = q u) =>
    foldl_leaves q (fun u p => h (w.bind (fun k => Sp.get none s.cast.slots k)) u p) ps
    { s with cast := { s.cast with act := ps.foldl (fun m p => Sp.set 0 m p (w.elim 0 (· + 1))) s.cast.act, sw := none, swResult := 0 } }
  have hcast := hf State.cast (State.plated_leaves State.cast (fun _ _ _ _ _ => rfl) fun _ _ _ => rfl)
  have hcore := fun c => hf (fun t => ((t.core c).run, (t.core c).st.ls)) fun w u p => by
    obtain ⟨h1, h2⟩ := State.plated_work w u p c
    rw [h1, h2]
  generalize ps.foldl (State.plated (w.bind (fun k => Sp.get none s.cast.slots k))) { s with
    cast := { s.cast with act := ps.foldl (fun m p => Sp.set 0 m p (w.elim 0 (· + 1))) s.cast.act, sw := none, swResult := 0 } } = u at *
  have hset := u.settled_leaves (fun t => (t.cast.sw, t.cast.swResult, t.cast.act, t.cast.slots)) fun _ _ _ _ => rfl
  have hcore' := fun c => u.settled_leaves (fun t => ((t.core c).run, (t.core c).st.ls)) fun _ _ _ _ => rfl
  rw [hcast] at hset
  simp only [Prod.mk.injEq] at hset
  obtain ⟨h1, h2, h3, h4⟩ := hset
  refine ⟨_, hexec, h1, h2, fun p => ?_, h4, fun c => Prod.mk.inj ((hcore' c).trans (hcore c))⟩
  rw [h3]
  exact Sp.get_foldl_setAll _ ps _ p

end Sys2Proof.Machine
end

section
open Sys2Proof Sys2Proof.Machine

/-- Settles O44: a load by whether the image is refused; a switch by its scope's cores. A load's tables reach the cores of each partition in turn. -/
theorem castingsAndPlatings : Obligations.CastingsAndPlatings := by
  unfold Obligations.CastingsAndPlatings
  intro s slot parts img hans k i blocked
  have hby : s.byHost .host = true := by simp [State.byHost, hans]
  have hbusy : blocked = false → s.cast.busy = none := fun h => by
    simpa using (Bool.or_eq_false_iff.mp h).2
  refine ⟨fun h => ?_, fun hb hbl hst => ?_, fun hb hlen hlost => ⟨fun code sect h => ?_, fun h => ?_⟩, fun hbl ha => ?_, fun hb => ⟨?_, ?_⟩,
    fun hb ha => ⟨?_, ?_⟩, fun hb ha => ?_,
    fun j hb hlen hlost => ⟨fun code sect h => ?_, fun h => ?_⟩, fun pl hbl hpl hx => ⟨fun hc => ?_, fun hc => ?_⟩,
    fun h => ?_, fun hbl hx => ?_, fun w scope hsw => s.switchApply_spec hsw⟩
  · rw [s.exec_loadCasting hby]
    refine if_pos ?_
    obtain h | h | h := h
    · simp [h]
    · rw [Bool.or_assoc s.anyBound, show (s.cast.sw.isSome || s.cast.busy.isSome) = true from h]
      simp
    · simp [h]
  · rw [s.exec_loadCasting hby]
    exact if_neg (by rw [Bool.or_assoc s.anyBound, show (s.cast.sw.isSome || s.cast.busy.isSome) = false from hbl, hb, hst]; decide)
  · rw [s.castingLoad_spec img hb hlen hlost, h]
  · exact s.castingLoad_installs img hb hlen hlost h
  · rw [s.exec_loadPlating slot hby, if_neg (by rw [hbusy hbl]; exact Bool.false_ne_true), if_neg (by rw [ha]; exact Bool.false_ne_true)]
  · rw [s.exec_loadPlating slot hby, if_pos hb]
  · rw [s.exec_evict slot hby, if_pos hb]
  · rw [s.exec_loadPlating slot hby, if_neg (by rw [hb]; exact Bool.false_ne_true), if_pos ha]
  · rw [s.exec_evict slot hby, if_neg (by rw [hb]; exact Bool.false_ne_true), if_pos ha]
  · have hexec := s.exec_evict slot hby
    rw [if_neg (by rw [hb]; exact Bool.false_ne_true), if_neg (by rw [ha]; exact Bool.false_ne_true)] at hexec
    exact ⟨_, hexec, fun j => Sp.get_set none s.cast.slots k j none, rfl, rfl, rfl⟩
  · rw [s.platingLoad_spec img hb hlen hlost, h]
  · have hexec := s.platingLoad_spec img hb hlen hlost
    rw [h] at hexec
    exact ⟨_, hexec, Sp.get_set_same none s.cast.slots j (some i), fun m hm => Sp.get_set_ne none s.cast.slots (some i) hm, rfl, rfl, rfl, rfl, rfl⟩
  · rw [s.exec_switch slot hby, if_neg (by rw [show (s.cast.sw.isSome || s.cast.busy.isSome) = false from hbl]; exact Bool.false_ne_true), hpl]
    simp only
    rw [if_neg (by rw [hx]; exact Bool.false_ne_true), if_pos hc]
  · have hexec := s.exec_switch slot hby
    rw [if_neg (by rw [show (s.cast.sw.isSome || s.cast.busy.isSome) = false from hbl]; exact Bool.false_ne_true), hpl] at hexec
    simp only at hexec
    rw [if_neg (by rw [hx]; exact Bool.false_ne_true), if_neg (by rw [hc]; exact Bool.false_ne_true)] at hexec
    exact ⟨_, hexec, by rw [State.startSwitch_cast], by rw [State.startSwitch_cast]⟩
  · rw [s.exec_switch slot hby]
    by_cases hbl : blocked = true
    · exact if_pos hbl
    · rw [if_neg hbl, h.resolve_left hbl]
  · have hexec := s.exec_plswOff hby parts
    rw [if_neg (by rw [show (s.cast.sw.isSome || s.cast.busy.isSome) = false from hbl, hx]; decide)] at hexec
    exact ⟨_, hexec, by rw [State.startSwitch_cast], by rw [State.startSwitch_cast]⟩

end

section
/-! A transfer's progress: its start, its walks and page faults, and its end (R256, R261, R264, R265). -/

namespace Sys2Proof.Machine

/-! ### The queues of a core through what is done to it -/

/-- The transfers of one of a core's queues. -/
def CoreRun.xfers (r : CoreRun) (e : Bool) : List Xfer := if e then r.eq else r.fq

theorem State.xfers_congr {s t : State} {c : Nat} (e : Bool) (h : (t.core c).run.xfers e = (s.core c).run.xfers e) :
    t.xfers c e = s.xfers c e := h

theorem wakeWait_xfers (r : CRes) (e : Bool) : (wakeWait r).k.run.xfers e = r.k.run.xfers e ∧ (wakeWait r).k.run.late = r.k.run.late := by
  obtain ⟨a, w, h, -⟩ := wakeWait_eq r
  rw [h]
  exact ⟨rfl, rfl⟩

theorem postSelf_xfers (tag : W16) (sem cnt : Nat) (r : CRes) (e : Bool) :
    (postSelf tag sem cnt r).k.run.xfers e = r.k.run.xfers e ∧ (postSelf tag sem cnt r).k.run.late = r.k.run.late := by
  rw [postSelf]
  refine (wakeWait_xfers _ e).imp (fun h => h.trans ?_) (fun h => h.trans ?_)
  · split <;> rfl
  · split <;> rfl

/-- A completion post leaves the core's queues as they are. -/
theorem State.postOnDone_xfers (s : State) (c : Nat) (x : Xfer) (e : Bool) (hlate : (s.core c).run.late = []) :
    (s.postOnDone c x).xfers c e = s.xfers c e := by
  rw [State.postOnDone]
  split
  · rfl
  · split
    · obtain ⟨hx, hl⟩ := postSelf_xfers x.tag (fld (x.h 1) 16 12) (fld (x.h 1) 21 17 + 1) (CRes.of (s.core c) s.fc) e
      obtain ⟨q, hq⟩ := s.core_runCore c (fun _ r => postSelf x.tag (fld (x.h 1) 16 12) (fld (x.h 1) 21 17 + 1) r)
      refine State.xfers_congr e ?_
      rw [hq]
      simp only [Core.settle_none _ (hl.trans hlate)]
      exact hx
    · rfl

/-- A completion post to another core leaves as a message (R272). -/
theorem State.postOnDone_far (s : State) (c : Nat) (x : Xfer) (hhdr : x.hdr = true) (hen : x.posten = true) (hfar : fld (x.h 1) 11 1 ≠ s.pidx c) :
    ∃ m : PostMsg, (s.postOnDone c x).posts = s.posts ++ [m] ∧ m.dst = fld (x.h 1) 11 1 ∧ m.sem = fld (x.h 1) 16 12
      ∧ m.cnt = fld (x.h 1) 21 17 + 1 := by
  have hpost : ¬ (!x.hdr || !x.posten) = true := by
    rw [hhdr, hen]
    exact Bool.false_ne_true
  have hp : ¬ x.pcore = s.pidx c := hfar
  rw [State.postOnDone, if_neg hpost, if_neg hp]
  exact ⟨_, rfl, rfl, rfl, rfl⟩

/-! ### Halted queues -/

theorem State.qHalt_setQHalt (s : State) (c : Nat) (e b : Bool) : (s.setQHalt c e b).qHalt c e = b := by
  simp only [State.qHalt, State.setQHalt, State.updRun, State.core_updCore_same]
  cases e <;> rfl

theorem State.xfers_setQHalt (s : State) (c : Nat) (e b : Bool) : (s.setQHalt c e b).xfers c e = s.xfers c e := by
  simp only [State.xfers, State.setQHalt, State.updRun, State.core_updCore_same]
  cases e <;> rfl

theorem State.qHalt_setXfers (s : State) (c : Nat) (e : Bool) (l : List Xfer) : (s.setXfers c e l).qHalt c e = s.qHalt c e := by
  simp only [State.qHalt, State.core_setXfers, if_true, Core.withXfers]
  cases e <;> rfl

/-! ### Page faults -/

/-- A page fault halts its queue at the position it names (R264). -/
theorem State.pageFault_spec (s : State) (c : Nat) (e : Bool) (x : Xfer) :
    let t := s.pageFault c e x
    t.qHalt c e = true ∧ (∀ y ∈ t.xfers c e, y.seq = x.seq → y.halted = true ∧ y.walk = none)
      ∧ nthD (t.core c).st.dmpf 0 0#32 = BitVec.ofNat 32 (posAddr (s.core c).st.ls x) ∧ s.Records t 0x40 0 ∧ t.tlb = s.tlb := by
  let u := (s.updXfer c e x.seq (fun y => { y with stop := none, walk := none, halted := true })).setQHalt c e true
  have hst : ∀ f, (u.updSt c f).core c = { u.core c with st := f (u.core c).st } := fun f => State.core_updCore_same u c _
  have hq : u.qHalt c e = true := State.qHalt_setQHalt _ _ _ _
  have hx : u.xfers c e = (s.xfers c e).map (fun y => if y.seq = x.seq then { y with stop := none, walk := none, halted := true } else y) :=
    (State.xfers_setQHalt _ _ _ _).trans (State.xfers_updXfer _ _ _ _ _)
  obtain ⟨d, hd, hcore⟩ : ∃ d, nthD d 0 0#32 = BitVec.ofNat 32 (posAddr (s.core c).st.ls x)
      ∧ (s.pageFault c e x).core c = (u.updSt c (fun st => { st with dmpf := d })).core c := ⟨_, rfl, rfl⟩
  refine ⟨?_, fun y hy hseq => ?_, ?_, ⟨_, rfl, rfl, rfl⟩, rfl⟩
  · rw [State.qHalt, hcore, hst]
    exact hq
  · rw [show (s.pageFault c e x).xfers c e = u.xfers c e from State.xfers_congr e (by rw [hcore, hst]), hx] at hy
    obtain ⟨z, -, rfl⟩ := List.mem_map.mp hy
    by_cases hz : z.seq = x.seq
    · rw [if_pos hz]
      exact ⟨rfl, rfl⟩
    · rw [if_neg hz] at hseq
      exact absurd hseq hz
  · rw [hcore, hst]
    exact hd

/-- A transfer that finds a code while its earlier requests are open keeps it until they are answered (R264). -/
theorem State.stopAt_open (s : State) (c : Nat) (e : Bool) (code : Nat) {x : Xfer} (hx : s.xfer c e x.seq = some x) (ho : x.open_ ≠ 0) :
    s.stopAt c e x.seq code = s.updXfer c e x.seq (fun y => { y with stop := some code, walk := none }) := by
  have h : (s.updXfer c e x.seq (fun y => { y with stop := some code, walk := none })).xfer c e x.seq
      = some { x with stop := some code, walk := none } := by
    rw [State.xfer_updXfer s c e x.seq (fun y => { y with stop := some code, walk := none }) (fun _ => rfl), hx]
    rfl
  simp only [State.stopAt, State.stopNow, h]
  exact if_pos (by simp [ho])

/-- A transfer with no request open takes its page fault at once (R264). -/
theorem State.stopAt_fault (s : State) (c : Nat) (e : Bool) {x : Xfer} (hx : s.xfer c e x.seq = some x) (ho : x.open_ = 0) (hd : x.dead = false)
    (hh : x.halted = false) : s.stopAt c e x.seq 0x40
      = (s.updXfer c e x.seq (fun y => { y with stop := some 0x40, walk := none })).pageFault c e { x with stop := some 0x40, walk := none } := by
  have h : (s.updXfer c e x.seq (fun y => { y with stop := some 0x40, walk := none })).xfer c e x.seq
      = some { x with stop := some 0x40, walk := none } := by
    rw [State.xfer_updXfer s c e x.seq (fun y => { y with stop := some 0x40, walk := none }) (fun _ => rfl), hx]
    rfl
  simp only [State.stopAt, State.stopNow, h]
  exact (if_neg (by simp [ho, hd, hh])).trans (if_pos trivial)

/-! ### The commands -/

section
variable (s : State) (c : CoreNo) (e : Bool)

/-- A transfer as it starts: one of the execute queue with what it writes of its own store (R243). -/
def State.starting (s : State) (c : Nat) (e : Bool) (x : Xfer) : Xfer :=
  if e then { x with wr := ({ x with head := headWords (s.core c).st.ls x } : Xfer).selfWrites (s.core c).st.ls (s.pidx c) } else x

theorem State.exec_transferStart {x : Xfer} (hn : nextXfer (s.xfers c e) = some x) (hp : s.livePaced c = true) (hq : s.qHalt c e = false) :
    (x.post = none → (s.starting c e x).free (s.core c) = true → exec (.transferStart c e) s = .next (s.startXfer c e (s.starting c e x)))
      ∧ (x.post.isSome → x.free (s.core c) = true → exec (.transferStart c e) s = .next (s.runCore c (fun _ r => postNext r))) := by
  have hexec : exec (.transferStart c e) s = execTransferStart c e s := rfl
  simp only [execTransferStart, hn, hp, hq] at hexec
  refine ⟨fun h hf => ?_, fun h hf => ?_⟩
  · have hnone : x.post.isNone = true := by rw [h]; rfl
    have hsome : x.post.isSome = false := by rw [h]; rfl
    simp only [hnone, hsome, Bool.and_true, Bool.false_eq_true, if_false] at hexec
    have hstart : exec (.transferStart c e) s = if (!true || false || !(s.starting c e x).free (s.core c)) = true then .next s
        else .next (s.startXfer c e (s.starting c e x)) := hexec
    rw [hstart, if_neg (by rw [hf]; exact Bool.false_ne_true)]
  · rw [hexec]
    have hnone : x.post.isNone = false := by simpa using h
    simp only [h, hnone, Bool.and_false, Bool.false_eq_true, if_false, if_true]
    exact if_neg (by rw [hf]; exact Bool.false_ne_true)

theorem State.exec_pageWalkComplete {n : Nat} {x : Xfer} {page : Nat} (hn : (s.xfers c e)[n]? = some x) (hw : x.walk = some page)
    (hp : s.livePaced c = true) (hup : s.portUp false (s.pteAddr ((s.partOf c).getD 0) page) = true) :
    exec (.pageWalkComplete c e n) s
      = if (s.cenv c).ptLen ≤ page then .next (s.stopAt c e x.seq 0x42)
        else if !bitOf (ptEntry (s.cenv c) page) 0 then .next (s.stopAt c e x.seq 0x40)
        else if frameBad (ptEntry (s.cenv c) page) then .next (s.stopAt c e x.seq 0x42)
        else .next (((s.addTlb { slab := c.val / 32, part := (s.partOf c).getD 0, page := page, pte := ptEntry (s.cenv c) page }).updXfer c e x.seq
          (fun y => { y with walk := none })).runXfer c e x.seq x.steps) := by
  show execPageWalkComplete c e n s = _
  simp only [execPageWalkComplete, hn, hw]
  exact if_neg (by rw [hp, hup]; exact Bool.false_ne_true)

theorem State.resumeQueue_spec (h : s.qHalt c e = true) : (s.resumeQueue c e).qHalt c e = false
    ∧ (s.resumeQueue c e).xfers c e = (s.xfers c e).map (fun x =>
      if x.halted then { x with halted := false, walk := some (posAddr (s.core c).st.ls x / 2 ^ 21) } else x) := by
  rw [State.resumeQueue, if_pos h]
  exact ⟨(State.qHalt_setXfers _ _ _ _).trans (State.qHalt_setQHalt _ _ _ _), State.xfers_setXfers _ _ _ _⟩

/-- DMRESUME of either queue (R265). -/
theorem State.exec_dmresume (req : Requester) (h : s.slabAnswers (c.val / 32) = true) :
    exec (if e then .dmresumeExec req c else .dmresumeFetch req c) s = .next (s.resumeQueue c e) := by
  cases e
  · exact if_pos h
  · exact if_pos h

theorem State.exec_transferComplete {n : Nat} {x : Xfer} (hn : (s.xfers c e)[n]? = some x) (hl : s.live c = true) (hst : x.started = true)
    (hall : x.allReq = true) (hd : x.dead = false) (ho : x.open_ = 0) : exec (.transferComplete c e n) s
      = .next (((s.setXfers c e ((s.xfers c e).eraseIdx n)).updCore c Core.settle).postOnDone c x) := by
  show execTransferComplete c e n s = _
  simp only [execTransferComplete, hn]
  exact if_neg (by simp [hl, hst, hall, hd, ho])

end

end Sys2Proof.Machine
end

section
open Sys2Proof Sys2Proof.Machine

/-- Settles O33: a transfer's start, its walks and page faults, its resumption, and its end. -/
theorem transferProgress : Obligations.TransferProgress := by
  intro s c e
  refine ⟨fun x hn hp hq => s.exec_transferStart c e hn hp hq, fun n x page hn hx hw hp hup => ?_, fun req hans => ⟨fun h => ?_, fun h => ?_⟩,
    fun n x hn hl hlate hst hall hd ho => ?_⟩
  · have hexec := s.exec_pageWalkComplete c e hn hw hp hup
    refine ⟨fun h => ?_, fun h hv hb => ?_, fun h hv ho => ?_, fun h hv ho hd hh => ?_⟩
    · rw [hexec, if_pos h]
    · rw [hexec, if_neg (Nat.not_le.mpr h), if_neg (by rw [hv]; exact Bool.false_ne_true), if_neg (by rw [hb]; exact Bool.false_ne_true)]
    · rw [hexec, if_neg (Nat.not_le.mpr h), if_pos (by rw [hv]; rfl), s.stopAt_open c e _ hx ho]
    · rw [if_neg (Nat.not_le.mpr h), if_pos (by rw [hv]; rfl), s.stopAt_fault c e hx ho hd hh] at hexec
      obtain ⟨hq, hxs, hpos, hrec, htlb⟩ := State.pageFault_spec
        (s.updXfer c e x.seq (fun y => { y with stop := some 0x40, walk := none })) c e { x with stop := some 0x40, walk := none }
      refine ⟨_, hexec, hq, hxs, hpos.trans ?_, hrec, htlb⟩
      rw [State.updXfer, State.core_setXfers, if_pos rfl]
      rfl
  · obtain ⟨hq, hxs⟩ := s.resumeQueue_spec c e h
    exact ⟨_, s.exec_dmresume c e req hans, hq, hxs⟩
  · rw [s.exec_dmresume c e req hans, State.resumeQueue, if_neg (by rw [h]; exact Bool.false_ne_true)]
  · have hexec := s.exec_transferComplete c e hn hl hst hall hd ho
    have hrun : (((s.setXfers c e ((s.xfers c e).eraseIdx n)).core c)).run.late = [] := by
      rw [State.core_setXfers, if_pos rfl, Core.withXfers]
      cases e <;> exact hlate
    rw [State.updCore, Core.settle_none _ hrun] at hexec
    generalize hu : (s.setXfers c e ((s.xfers c e).eraseIdx n)).setCore c ((s.setXfers c e ((s.xfers c e).eraseIdx n)).core c) = u at hexec
    have hsame : u.core c = (s.setXfers c e ((s.xfers c e).eraseIdx n)).core c := by
      rw [← hu]
      exact State.core_setCore_same _ _ _
    have hposts : u.posts = s.posts := by
      rw [← hu]
      rfl
    have hpidx : u.pidx c = s.pidx c := by
      rw [← hu]
      rfl
    have hxs : u.xfers c e = (s.xfers c e).eraseIdx n := (State.xfers_congr e (by rw [hsame])).trans (State.xfers_setXfers s c e _)
    refine ⟨_, hexec, (u.postOnDone_xfers c x e (by rw [hsame]; exact hrun)).trans hxs, fun hh hen hfar => ?_⟩
    rw [← hposts]
    exact u.postOnDone_far c x hh hen (by rw [hpidx]; exact hfar)

end

section
/-! Traffic of the links: what frames, packets, acknowledgements and timers change, and what they leave (R351 to R376). -/

namespace Sys2Proof.Machine

/-! ### Packets that leave -/

theorem State.reg_count (s : State) (o p : Nat) : (s.count o).reg p = if p = o then s.reg o + 1#32 else s.reg p := State.reg_setReg _ _ _ _

section
variable {γ : Type} (p : State → γ) (hreg : ∀ (t : State) o v, p (t.setReg o v) = p t)
  (hlink : ∀ (t : State) rx tx txw keys, p { t with link := { t.link with rx := rx, tx := tx, txWait := txw, keys := keys } } = p t)
include hreg hlink

theorem State.receive_leaves (s : State) (n : Nat) (bytes : List Byte) : p (s.receive n bytes) = p s := by
  rw [State.receive]
  split
  · exact hreg _ _ _
  · dsimp only
    split
    · exact (hlink _ _ _ _ _).trans ((hreg _ _ _).trans (hreg _ _ _))
    · exact (hlink _ _ _ _ _).trans (hreg _ _ _)

/-- A packet that leaves changes the frames in and out and the link's counters. -/
theorem State.emit_leaves (s : State) (q : Peer) (link : Option Nat) (psn : Nat) (pkt : List Byte) : p (s.emit q link psn pkt) = p s := by
  unfold State.emit
  split
  · exact hlink _ _ _ _ _
  · dsimp only
    split
    · exact (State.receive_leaves p hreg hlink _ _ _).trans (hreg _ _ _)
    · split
      · exact hlink _ _ _ _ _
      · exact (hlink _ _ _ _ _).trans (hreg _ _ _)

/-- A packet that a peer sends changes its context and its key's counter besides. -/
theorem State.transmit_leaves (s : State) (q : Peer) (link : Option Nat) (key : Option KeySlot) (h : HvHead) (payload : List Byte) :
    p (s.transmit q link key h payload) = p (s.setPeer { q with lastLink := link.getD q.lastLink }) := by
  unfold State.transmit
  refine (State.emit_leaves p hreg hlink _ _ _ _ _).trans ?_
  cases key with
  | none => rfl
  | some k => exact hlink (s.setPeer { q with lastLink := link.getD q.lastLink }) _ _ _ _

/-- An acknowledgement leaves what packets and contexts leave. -/
theorem State.sendAck_leaves (hpeers : ∀ (t : State) l, p { t with link := { t.link with peers := l } } = p t) (s : State) (i : Nat) :
    p (s.sendAck i) = p s := by
  rw [State.sendAck]
  split
  · rfl
  · split
    · exact (State.transmit_leaves p hreg hlink _ _ _ _ _ _).trans (hpeers _ _)
    · exact hpeers _ _

end

/-- A peer that has sent a packet. -/
theorem State.peer_transmit (s : State) {i : Nat} {p q : Peer} (hp : s.peer i = some p) (hq : q.idx = i) (link : Option Nat) (key : Option KeySlot)
    (h : HvHead) (payload : List Byte) :
    (s.transmit q link key h payload).peer i = some { q with lastLink := link.getD q.lastLink } :=
  (State.transmit_leaves (fun t => t.peer i) (fun _ _ _ => rfl) (fun _ _ _ _ _ => rfl) s q link key h payload).trans (s.peer_setPeer hq hp)

theorem State.emit_presents (s : State) {n : Nat} (p : Peer) (psn : Nat) (pkt : List Byte) (hloop : bitOf (s.regN (oLnkCtrl n)) 1 = false)
    (hlost : s.frameLost n = false) :
    s.emit p (some n) psn pkt = s.present n (frameOf (s.pathBytes n p.path) p.dscp p.ect psn pkt) := by
  unfold State.emit
  exact (if_neg (by rw [hloop]; exact Bool.false_ne_true)).trans (if_neg (by rw [hlost]; exact Bool.false_ne_true))

/-! ### Acknowledgements that are due -/

/-- A peer whose ACK has been sent. -/
def Peer.acking (p : Peer) : Peer := { p with ce := false, ackN := 0, ackSince := none, ackDue := false }

/-- The deadline of a peer that sends packet `x`: the one it has, else one for a packet that is not acknowledged (R367). -/
def State.timing (s : State) (q : Peer) (x : TxPkt) : Option Nat :=
  match q.timer with
  | some t => some t
  | none => if x.acked then none else some (s.aon.tb + s.us q.rto)

theorem State.peer_sendData (s : State) {i : Nat} {p q : Peer} (hp : s.peer i = some p) (hq : q.idx = i) (y : Send) (x : TxPkt) (b : Bool)
    (l : Option Nat) (key : Option KeySlot) :
    (s.sendData q y x b l key).peer i = some { q with timer := s.timing q x, lastLink := l.getD q.lastLink } := by
  have h := s.peer_transmit hp (show ({ q with timer := s.timing q x } : Peer).idx = i from hq) l key
  unfold State.sendData
  dsimp only
  split
  · exact h _ _
  · exact h _ _

/-- A peer whose timer has expired: its unacknowledged packets are sent again, with a doubled timeout (R367). -/
def State.backedOff (s : State) (p : Peer) : Peer :=
  let rto := Nat.min s.rtoMax (2 * p.rto)
  { p with
    retries := p.retries + 1, rto := rto, timer := some (s.aon.tb + s.us rto), cwnd := s.cwMin,
    tx := p.tx.map (fun (x : TxPkt) => if x.acked then x else { x with resend := true, byExpiry := true }) }

/-- The block once a peer has retried as often as it may (R367). -/
def State.peerDies (s : State) (p : Peer) : State :=
  (((s.count (oHubCnt 3)).setPeer
    { p with retries := p.retries + 1, dead := true, deadCode := 0x62, timer := none, cwnd := s.cwMin, tx := [] }).offer
    { code := 0x62, unit := 10, hub := 1 }).failSends p.idx 0x62

/-- The block once a new packet of a message has left. -/
def State.sentNext (s : State) (p : Peer) (y : Send) (x : TxPkt) (n : Nat) : State :=
  let t := (s.sendData { p with txPsn := (p.txPsn + 1) % 2 ^ 32, tx := p.tx ++ [x] } y x false (some n) none).turnPast (some n) p.idx
  let step := if y.op = 2 then 4 * x.n else x.n
  { t with link := { t.link with sends := t.link.sends.map (fun (z : Send) => if z.id = y.id then { z with next := z.next + step } else z) } }

section
variable (s : State) {i : BitVec 14} {p : Peer} (hrun : s.running = true) (hp : s.peer i.toNat = some p)
include hrun hp

/-- An ACK whose delay has passed leaves over the visible packets (R366). -/
theorem State.exec_ackDelayExpiry {t0 : Nat} (h : p.ackSince = some t0) : exec (.ackDelayExpiry i) s
    = if s.due (t0 + s.ns s.ackDly) then .next (s.sendAck i.toNat) else .next s := by
  show execAckDelayExpiry i s = _
  simp only [execAckDelayExpiry, hp, h, hrun, Bool.true_and]

omit hrun in
/-- An ACK that its link and key can carry is a packet over the visible packets (R363, R366). -/
theorem State.sendAck_sends {l : Option Nat} {key : Option KeySlot} (hroute : s.route p = some l) (hkey : s.txKey p = some key) :
    s.sendAck i.toNat = s.transmit p.acking l key { s.headFor p true p.viExp with ece := p.ce, map := p.viMap } [] := by
  simp only [State.sendAck, hp, hroute, hkey]
  rfl

omit hrun in
theorem State.sendAck_clear {n : Nat} (henc : p.enc = false) (hroute : s.route p = some (some n)) (hloop : bitOf (s.regN (oLnkCtrl n)) 1 = false)
    (hlost : s.frameLost n = false) : (s.sendAck i.toNat).peer i.toNat = some { p.acking with lastLink := n }
      ∧ (s.sendAck i.toNat).link.tx = s.link.tx ++ [(n, frameOf (s.pathBytes n p.path) p.dscp p.ect p.viExp
              (sealPacket { s.headFor p true p.viExp with ece := p.ce, map := p.viMap } 0 []))] := by
  have hkey : s.txKey p = some none := by
    rw [State.txKey, henc]
    rfl
  rw [s.sendAck_sends hp hroute hkey]
  refine ⟨s.peer_transmit hp (q := p.acking) (show p.idx = _ from s.peer_idx hp) _ _ _ _, ?_⟩
  exact congrArg (fun t => t.link.tx) (State.emit_presents (s.setPeer { p.acking with lastLink := n }) p.acking p.viExp _ hloop hlost)

/-! ### Packets that the link hub transmits -/

omit hrun in
theorem State.transmit_dead (h : p.dead = true) : exec (.packetTransmit i) s = .next s := by
  show execPacketTransmit i s = _
  simp only [execPacketTransmit, hp]
  exact if_pos (by rw [h, Bool.or_true])

variable (hd : p.dead = false)
include hd

theorem State.transmit_idle (hack : p.ackDue = false) (hn : s.nextPacket p = none) : exec (.packetTransmit i) s = .next s := by
  show execPacketTransmit i s = _
  simp only [execPacketTransmit, hp, hack, hn]
  rw [if_neg (by rw [hrun, hd]; exact Bool.false_ne_true)]
  cases s.route p <;> cases s.txKey p <;> rfl

/-- An ACK that is due leaves when the link serves its peer (R363). -/
theorem State.transmit_ack {l : Option Nat} {key : Option KeySlot} (hack : p.ackDue = true) (hroute : s.route p = some l)
    (hkey : s.txKey p = some key) : exec (.packetTransmit i) s
      = if s.serves p l then .next ((s.sendAck p.idx).turnPast l p.idx) else .next s := by
  show execPacketTransmit i s = _
  simp only [execPacketTransmit, hp, hack, hroute, hkey]
  exact if_neg (by rw [hrun, hd]; exact Bool.false_ne_true)

omit hrun hd in
theorem State.sendAck_acks {l : Option Nat} {key : Option KeySlot} (hroute : s.route p = some l) (hkey : s.txKey p = some key) :
    ((s.sendAck p.idx).turnPast l p.idx).peer i.toNat = some { p.acking with lastLink := l.getD p.lastLink }
      ∧ ((s.sendAck p.idx).turnPast l p.idx).link.sends = s.link.sends ∧ ((s.sendAck p.idx).turnPast l p.idx).cores = s.cores := by
  rw [s.peer_idx hp, s.sendAck_sends hp hroute hkey]
  refine ⟨?_, ?_, ?_⟩
  · exact s.peer_transmit hp (q := p.acking) (show p.idx = _ from s.peer_idx hp) _ _ _ _
  · exact State.transmit_leaves (fun t => t.link.sends) (fun _ _ _ => rfl) (fun _ _ _ _ _ => rfl) _ _ _ _ _ _
  · exact State.transmit_leaves State.cores (fun _ _ _ => rfl) (fun _ _ _ _ _ => rfl) _ _ _ _ _ _

/-- The messages to a peer without a link of its own stop (R363). -/
theorem State.transmit_unlinked {y : Send} {x : TxPkt} (hn : s.nextPacket p = some (y, x, false)) (hl : s.isLocal p = false)
    (hown : s.ownLinks p = []) : exec (.packetTransmit i) s = .next (s.failSends p.idx 0x66) := by
  have hroute : s.route p = none := by
    have husable : s.usable p = [] := by rw [State.usable, hown]; rfl
    simp [State.route, hl, State.nextLink, husable]
  show execPacketTransmit i s = _
  simp only [execPacketTransmit, hp, hroute, hn, hl, hown]
  rw [if_neg (by rw [hrun, hd]; exact Bool.false_ne_true)]
  rfl

/-- The next packet of a message leaves on the peer's link (R362). -/
theorem State.transmit_next {y : Send} {x : TxPkt} {n : Nat} (hn : s.nextPacket p = some (y, x, false))
    (hown : s.ownLinks p ≠ []) (hroute : s.route p = some (some n)) (henc : p.enc = false) (hack : p.ackDue = false)
    (hserves : s.serves p (some n) = true) (hup : s.sourceUp y x.off x.n = true) :
    exec (.packetTransmit i) s = .next (s.sentNext p y x n) := by
  have hkey : s.txKey p = some none := by
    rw [State.txKey, henc]
    rfl
  have hsome : (s.ownLinks p).isEmpty = false := by simpa using hown
  show execPacketTransmit i s = _
  simp only [execPacketTransmit, hp, hroute, hkey, hack, hn]
  rw [if_neg (by rw [hrun, hd]; exact Bool.false_ne_true), if_neg (by rw [hsome, Bool.and_false]; exact Bool.false_ne_true),
    if_neg (by rw [hserves, hup]; exact Bool.false_ne_true)]
  simp only [Bool.false_eq_true, if_false, State.sentNext, hack]

omit hrun hd in
/-- A peer that has sent a packet of a message waits for its acknowledgement (R367). -/
theorem State.peer_sentNext (y : Send) (x : TxPkt) (n : Nat) : ∃ q, (s.sentNext p y x n).peer i.toNat = some q
    ∧ q.txPsn = (p.txPsn + 1) % 2 ^ 32 ∧ q.tx = p.tx ++ [x] ∧ q.txBase = p.txBase ∧ q.cwnd = p.cwnd
    ∧ (p.timer.isSome = true → q.timer = p.timer) ∧ (p.timer = none → x.acked = false → q.timer = some (s.aon.tb + s.us p.rto)) := by
  have hq : ({ p with txPsn := (p.txPsn + 1) % 2 ^ 32, tx := p.tx ++ [x] } : Peer).idx = i.toNat := by
    exact (s.peer_idx hp : p.idx = _)
  refine ⟨_, s.peer_sendData hp hq y x false (some n) none, rfl, rfl, rfl, rfl, fun h => ?_, fun h ha => ?_⟩
  · obtain ⟨d, hd⟩ := Option.isSome_iff_exists.mp h
    simp [State.timing, hd]
  · simp [State.timing, h, ha]

/-! ### Timers -/

omit hd
variable {d : Nat} (ht : p.timer = some d)
include ht

theorem State.exec_retransmitExpiry : exec (.retransmitExpiry i) s = if s.due d then
      (if s.retryMax ≤ p.retries + 1 then .next (s.peerDies p)
        else .next ((s.count (oHubCnt 3)).setPeer (s.backedOff p)))
    else .next s := by
  show execRetransmitExpiry i s = _
  simp only [execRetransmitExpiry, hp, ht, hrun, Bool.not_true, Bool.false_or]
  cases s.due d <;> rfl

end

/-- What a halt adds to the fault records. -/
theorem State.haltCore_offered (s : State) (c : Nat) (f : CFault) : ∃ l, (s.haltCore c f).fq.offered = s.fq.offered ++ l := by
  simp only [State.haltCore]
  split
  · exact ⟨_, rfl⟩
  · rw [State.noteHalt_eq]
    exact ⟨_, rfl⟩

/-- Every message to a peer that stops may leave a record. -/
theorem State.failSends_offered (s : State) (i code : Nat) : ∃ l, (s.failSends i code).fq.offered = s.fq.offered ++ l := by
  have hone : ∀ (t : State) (x : Send), ∃ l, (t.failSend x code).fq.offered = t.fq.offered ++ l := by
    intro t x
    simp only [State.failSend]
    split
    · split
      · simp only [State.stopXfer]
        split <;> exact State.haltCore_offered _ _ _
      · exact State.haltCore_offered _ _ _
    · exact State.haltCore_offered _ _ _
    · exact ⟨[], (List.append_nil _).symm⟩
    · exact ⟨[], (List.append_nil _).symm⟩
  refine List.foldlRecOn (motive := fun t : State => ∃ l, t.fq.offered = s.fq.offered ++ l) _ _ ⟨[], (List.append_nil _).symm⟩
    fun t ⟨l, hl⟩ x _ => ?_
  obtain ⟨m, hm⟩ := hone t x
  exact ⟨l ++ m, by rw [hm, hl, List.append_assoc]⟩

section
variable (s : State) {i : BitVec 14} {p : Peer} (hp : s.peer i.toNat = some p)
include hp

/-- A peer that has retried as often as it may is DEAD, and its messages stop (R367). -/
theorem State.peerDies_spec : ∃ q f rest, (s.peerDies p).peer i.toNat = some q
    ∧ Peer.dead q = true ∧ q.cwnd = s.cwMin ∧ (s.peerDies p).fq.offered = s.fq.offered ++ f :: rest ∧ FRec.code f = 0x62
    ∧ ∀ z ∈ (s.peerDies p).link.sends, Send.peer z = p.idx → z.fin = true := by
  let q : Peer := { p with retries := p.retries + 1, dead := true, deadCode := 0x62, timer := none, cwnd := s.cwMin, tx := [] }
  let u : State := ((s.count (oHubCnt 3)).setPeer q).offer { code := 0x62, unit := 10, hub := 1 }
  have hq : u.peer i.toNat = some q := State.peer_setPeer (s.count (oHubCnt 3)) (q := q) (s.peer_idx hp : p.idx = _) hp
  obtain ⟨f, hf, -, hoff⟩ := ((s.count (oHubCnt 3)).setPeer q).offer_records { code := 0x62, unit := 10, hub := 1 }
  obtain ⟨l, hl, hfin⟩ := u.failSends_link p.idx 0x62
  obtain ⟨rest, hrest⟩ := u.failSends_offered p.idx 0x62
  refine ⟨q, f, rest, ?_, rfl, rfl, ?_, hf, fun z hz => hfin z ?_⟩
  · exact (congrArg (fun k : Link => k.peers.find? (fun x : Peer => x.idx = i.toNat)) hl).trans hq
  · refine hrest.trans ?_
    rw [show u.fq.offered = s.fq.offered ++ [f] from hoff, List.append_assoc]
    rfl
  · rw [show (s.peerDies p).link = _ from hl] at hz
    exact hz

/-- A peer whose timer has expired sends its unacknowledged packets again (R367). -/
theorem State.backedOff_spec : ∃ q, ((s.count (oHubCnt 3)).setPeer (s.backedOff p)).peer i.toNat = some q
    ∧ q.retries = p.retries + 1 ∧ q.rto = Nat.min s.rtoMax (2 * p.rto) ∧ q.cwnd = s.cwMin
    ∧ (∀ z ∈ Peer.tx q, z.acked = false → z.resend = true) ∧ q.tx.map (fun z => z.psn) = p.tx.map (fun z => z.psn) := by
  refine ⟨_, State.peer_setPeer _ (q := s.backedOff p) (s.peer_idx hp : p.idx = _) hp, rfl, rfl, rfl, fun z hz hn => ?_, ?_⟩
  · obtain ⟨x, -, rfl⟩ := List.mem_map.mp hz
    by_cases hx : x.acked = true
    · rw [if_pos hx] at hn
      exact absurd hn (by rw [hx]; decide)
    · rw [if_neg hx]
  · show (p.tx.map _).map _ = _
    rw [List.map_map]
    refine List.map_congr_left fun x _ => ?_
    show TxPkt.psn (if x.acked then x else _) = _
    split <;> rfl

end

/-! ### Remote reads that are late -/

/-- What a halt of core `c` with a code changes: its core's halt, and no other core, nor the link hub. -/
def State.HaltsAlone (s t : State) (c code : Nat) : Prop :=
  t.link = s.link ∧ (t.core c).run.halt = some code ∧ (t.core c).cur = (s.core c).cur ∧ ∀ d, d ≠ c → t.core d = s.core d

theorem State.haltCore_alone (s : State) (c : Nat) (f : CFault) (h : (s.core c).run.halt = none) : s.HaltsAlone (s.haltCore c f) c f.code := by
  refine ⟨State.haltCore_leaves State.link (fun _ _ _ => rfl) (fun _ _ => rfl) (fun _ _ => rfl) s c f, s.haltCore_halt c f h, ?_,
    fun d hd => s.core_haltCore_ne c d f hd⟩
  rw [(s.haltCore_running c f h).1]

theorem State.stopXfer_alone (s : State) (c : Nat) (e : Bool) (q code : Nat) (h : (s.core c).run.halt = none) :
    s.HaltsAlone (s.stopXfer c e q code) c code := by
  have hrun : ∀ (f : CoreRun → CoreRun) (x : CFault) (b : Bool), (f (s.core c).run).halt = none → x.code = code →
      s.HaltsAlone ((if b then (s.updRun c f).dropLog c else s.updRun c f).haltCore c x) c code := by
    intro f x b hf hx
    have hu : ∀ u : State, u.link = s.link → u.cores = (s.updRun c f).cores → s.HaltsAlone (u.haltCore c x) c code := by
      intro u hlink hcores
      have hc : ∀ d, u.core d = (s.updRun c f).core d := fun d => congrArg (fun l => Sp.get ({} : Core) l d) hcores
      have hself : u.core c = { s.core c with run := f (s.core c).run } := (hc c).trans (State.core_updCore_same _ _ _)
      obtain ⟨hl, hh, hcur, hne⟩ := u.haltCore_alone c x (by rw [hself]; exact hf)
      refine ⟨hl.trans hlink, hh.trans (by rw [hx]), hcur.trans (by rw [hself]), fun d hd => ?_⟩
      rw [hne d hd, hc d]
      exact State.core_updCore_ne _ _ hd
    cases b
    · exact hu _ rfl rfl
    · exact hu _ rfl rfl
  exact hrun _ _ _ (by cases e <;> exact h) rfl

section
variable (s : State) {k : Nat} {r : RdOut} {d : Nat} (hrun : s.running = true) (hr : s.link.reads[k]? = some r) (hd : r.deadline = some d)
include hrun hr hd

omit hrun in
theorem State.remoteRead_waits (hdue : s.due d = false) : exec (.remoteReadTimeout k) s = .next s := by
  show execRemoteReadTimeout k s = _
  simp only [execRemoteReadTimeout, hr, hd]
  exact if_pos (by rw [hdue, Bool.not_false, Bool.or_true])

/-- A read that is late stops its transfer and halts its core's issue (R387). -/
theorem State.remoteRead_late (hdue : s.due d = true) (hh : (s.core r.core).run.halt = none) : ∃ t, exec (.remoteReadTimeout k) s = .next t
    ∧ t.link.reads = s.link.reads.eraseIdx k ∧ (t.core r.core).run.halt = some 0x6A ∧ (t.core r.core).cur = (s.core r.core).cur
    ∧ ∀ c, c ≠ r.core → t.core c = s.core c := by
  let u : State := { s with link := { s.link with reads := s.link.reads.eraseIdx k } }
  have hexec : exec (.remoteReadTimeout k) s
      = if ((s.core r.core).run.fq ++ (s.core r.core).run.eq).any (fun y => y.seq = r.seq) then .next (u.stopXfer r.core r.exec r.seq 0x6A)
        else .next ((u.dropLog r.core).haltCore r.core { code := 0x6A, unit := 7 }) := by
    show execRemoteReadTimeout k s = _
    simp only [execRemoteReadTimeout, hr, hd]
    exact if_neg (by rw [hdue, hrun]; exact Bool.false_ne_true)
  have hstop : ∀ t, u.HaltsAlone t r.core 0x6A → t.link.reads = s.link.reads.eraseIdx k ∧ (t.core r.core).run.halt = some 0x6A
      ∧ (t.core r.core).cur = (s.core r.core).cur ∧ ∀ c, c ≠ r.core → t.core c = s.core c :=
    fun t ⟨hl, hhalt, hcur, hne⟩ => ⟨by rw [hl], hhalt, hcur, hne⟩
  by_cases hx : ((s.core r.core).run.fq ++ (s.core r.core).run.eq).any (fun y => y.seq = r.seq) = true
  · exact ⟨_, hexec.trans (if_pos hx), hstop _ (u.stopXfer_alone r.core r.exec r.seq 0x6A hh)⟩
  · exact ⟨_, hexec.trans (if_neg hx), hstop _ ((u.dropLog r.core).haltCore_alone r.core { code := 0x6A, unit := 7 } hh)⟩

end

/-! ### Frames in -/

section
variable (s : State) (l : LinkNo) (bytes : List Byte)

theorem State.linkUp_spec (up : Bool) : ∃ t, exec (.linkUp l up) s = .next t ∧ t = { s with link := { s.link with up := t.link.up } }
    ∧ ∀ n, n ∈ t.link.up ↔ if n = l.val then up = true else n ∈ s.link.up := by
  refine ⟨_, rfl, rfl, fun n => ?_⟩
  by_cases hn : n = l.val <;> cases up <;> simp [hn]

variable (hrun : s.running = true)

theorem State.frameReceive_stranded (bad : Bool) (h : s.frameLost l.val = true) :
    exec (.frameReceive l bytes bad) s = .next { s with strand := s.strand ++ [.frame l bytes bad] } := if_pos h

theorem State.frameReceive_ignored (bad : Bool) (h : s.frameLost l.val = false) (hbad : bad = true ∨ bitOf (s.regN (oLnkCtrl l)) 0 = false) :
    exec (.frameReceive l bytes bad) s = .next s := by
  refine (if_neg (by rw [h]; exact Bool.false_ne_true)).trans (congrArg Host.Outcome.next (if_pos ?_))
  rcases hbad with hb | hb <;> simp [hb]

include hrun in
/-- A frame that its engine takes is received (R354). -/
theorem State.frameReceive_taken (h : s.frameLost l.val = false) (hen : bitOf (s.regN (oLnkCtrl l)) 0 = true) :
    exec (.frameReceive l bytes false) s = .next (s.receive l.val bytes) :=
  (if_neg (by rw [h]; exact Bool.false_ne_true)).trans (congrArg Host.Outcome.next (if_neg (by simp [hrun, hen])))

/-- The block with other packets received. -/
def State.withRx (s : State) (l : List Pkt) : State := { s with link := { s.link with rx := l } }

theorem State.reg_withRx (s : State) (l : List Pkt) (o : Nat) : (s.withRx l).reg o = s.reg o := rfl

theorem State.receive_eq (n : Nat) {b : List Byte} {ce : Bool} (h : frameBody s.rxPort bytes = some (b, ce)) :
    s.receive n bytes = (if ce then (s.count (oLnkCnt n 1)).count (oLnkCnt n 4) else s.count (oLnkCnt n 1)).withRx
      (s.link.rx ++ [{ bytes := b, link := some n, ce := ce }]) := by
  simp only [State.receive, h]
  cases ce <;> rfl

/-- A frame that passes is counted and waits for the link hub (R354). -/
theorem State.receive_passes (n : Nat) {b : List Byte} {ce : Bool} (h : frameBody s.rxPort bytes = some (b, ce)) :
    let t := s.receive n bytes
    t.link = { s.link with rx := s.link.rx ++ [{ bytes := b, link := some n, ce := ce }] } ∧ t.reg (oLnkCnt n 1) = s.reg (oLnkCnt n 1) + 1#32
      ∧ t.reg (oLnkCnt n 4) = s.reg (oLnkCnt n 4) + (if ce then 1#32 else 0#32) := by
  have hne : oLnkCnt n 4 ≠ oLnkCnt n 1 := by simp [oLnkCnt]
  simp only [State.receive_eq s bytes n h, State.reg_withRx]
  cases ce
  · refine ⟨rfl, ?_, ?_⟩
    · rw [if_neg Bool.false_ne_true, State.reg_count, if_pos rfl]
    · rw [if_neg Bool.false_ne_true, State.reg_count, if_neg hne, if_neg Bool.false_ne_true, BitVec.add_zero]
  · refine ⟨rfl, ?_, ?_⟩
    · rw [if_pos rfl, State.reg_count, if_neg hne.symm, State.reg_count, if_pos rfl]
    · rw [if_pos rfl, State.reg_count, if_pos rfl, State.reg_count, if_neg hne, if_pos rfl]

end

/-! ### Packets received -/

section
variable (s : State) (k : Nat) {x : Pkt} (hrun : s.running = true) (hx : s.link.rx[k]? = some x)
include hrun hx

omit hrun in
/-- A packet waits while an earlier one of its peer does (R370). -/
theorem State.takeRx_waits (ack : Bool) (h : ∃ y ∈ s.link.rx.take k, hvDpeer y.bytes = hvDpeer x.bytes) : s.takeRx k ack = none := by
  obtain ⟨y, hy, hd⟩ := h
  have hany : (s.link.rx.take k).any (fun y => hvDpeer y.bytes == hvDpeer x.bytes) = true := List.any_eq_true.mpr ⟨y, hy, by simp [hd]⟩
  simp only [State.takeRx, hx]
  exact if_neg (by rw [hany]; simp)

omit hrun in
theorem State.takeRx_other {ack : Bool} (h : hvAck x.bytes ≠ ack) : s.takeRx k ack = none := by
  simp only [State.takeRx, hx]
  exact if_neg (by simp [h])

/-- The state once the packet has been taken from those received. -/
theorem State.takeRx_first (hf : ∀ y ∈ s.link.rx.take k, hvDpeer y.bytes ≠ hvDpeer x.bytes) {ack : Bool} (h : hvAck x.bytes = ack) :
    s.takeRx k ack = some (x, { s with link := { s.link with rx := s.link.rx.eraseIdx k } }) := by
  have hany : (s.link.rx.take k).any (fun y => hvDpeer y.bytes == hvDpeer x.bytes) = false := by simpa using hf
  simp only [State.takeRx, hx]
  exact if_pos (by simp [hrun, h, hany])

end

theorem State.exec_dataPacket_none (s : State) (k : Nat) (h : s.takeRx k false = none) : exec (.dataPacketReceive k) s = .next s := by
  show execDataPacketReceive k s = _
  simp only [execDataPacketReceive, h]

theorem State.exec_ack_none (s : State) (k : Nat) (h : s.takeRx k true = none) : exec (.ackReceive k) s = .next s := by
  show execAckReceive k s = _
  simp only [execAckReceive, h]

section
variable (s : State) (k : Nat) {x : Pkt} {u : State} (htake : s.takeRx k false = some (x, u))
include htake

theorem State.exec_dataPacket_error {v : State} (h : u.openPkt x = .error v) : exec (.dataPacketReceive k) s = .next v := by
  show execDataPacketReceive k s = _
  simp only [execDataPacketReceive, htake, h]

variable {p : Peer} {pay : List Byte} (hopen : u.openPkt x = .ok (p, pay))
include hopen

theorem State.exec_dataPacket_guard {n : Nat} (hl : x.link = some n) (h : wireGrans pay (hvNgran x.bytes) = none) :
    exec (.dataPacketReceive k) s = .next (u.count (oLnkCnt n 3)) := by
  show execDataPacketReceive k s = _
  simp only [execDataPacketReceive, htake, hopen, h, hl]

/-- A packet of a WRITE inside its peer's window and not received before is passed to its target, where it may be (R365). -/
theorem State.exec_dataPacket_write {gs : List Granule} (h : wireGrans pay (hvNgran x.bytes) = some gs) (hop : hvOp x.bytes = 0)
    (hb : psnBelow (hvPsn x.bytes) p.rxExp = false) (hd : psnSub (hvPsn x.bytes) p.rxExp < 256)
    (hm : p.rxMap.testBit (psnSub (hvPsn x.bytes) p.rxExp) = false) :
    let m : InPkt := { op := 0, msgid := hvMsgid x.bytes, off := hvOff x.bytes, total := hvTotal x.bytes, tg := (List.range 6).map (hvTarget x.bytes), grans := gs }
    exec (.dataPacketReceive k) s = .next (if u.passUp p.idx m then u.passPkt p (hvPsn x.bytes) x.ce m else s) := by
  show execDataPacketReceive k s = _
  have hop2 : ¬ (0 : Nat) = 2 := by decide
  simp only [execDataPacketReceive, htake, hopen, h, hop, hb, hm, Bool.and_false, Bool.or_self, Bool.false_eq_true, if_false, hop2,
    if_neg (Nat.not_le.mpr hd)]

end

/-! ### Checks of a packet -/

/-- A peer that is not cached is among those fetched (R370). -/
theorem State.wantPeer_fetches (s : State) {i : Nat} (h : s.peer i = none) :
    ∃ f, s.wantPeer i = { s with link := { s.link with fetch := f } } ∧ i ∈ f := by
  rw [State.wantPeer, h]
  by_cases hc : s.link.fetch.contains i = true
  · exact ⟨_, if_pos hc, List.contains_iff_mem.mp hc⟩
  · exact ⟨_, if_neg hc, List.mem_append_right _ (List.mem_singleton.mpr rfl)⟩

section
variable (s : State) (x : Pkt)

/-- A packet of a peer that is not cached parks, and the peer's context is asked for (R370). -/
theorem State.openPkt_parks (h : s.peer (hvDpeer x.bytes) = none) (hroom : s.link.miss.length < 64) : ∃ t, s.openPkt x = .error t
    ∧ t.link.miss = s.link.miss ++ [x] ∧ t.link.rx = s.link.rx ∧ hvDpeer x.bytes ∈ t.link.fetch ∧ t.link.pend = s.link.pend ∧ t.cores = s.cores := by
  have hopen : s.openPkt x = .error (s.park x) := by simp only [State.openPkt, h]
  have hpark : s.park x = ({ s with link := { s.link with miss := s.link.miss ++ [x] } } : State).wantPeer (hvDpeer x.bytes) :=
    congrArg (fun t : State => t.wantPeer (hvDpeer x.bytes)) (if_neg (Nat.not_le.mpr hroom))
  obtain ⟨f, hf, hin⟩ := State.wantPeer_fetches ({ s with link := { s.link with miss := s.link.miss ++ [x] } } : State) h
  rw [hpark, hf] at hopen
  exact ⟨_, hopen, rfl, rfl, hin, rfl, rfl⟩

variable {p : Peer} (hp : s.peer (hvDpeer x.bytes) = some p)
include hp

/-- A packet that does not match its peer is dropped and counted (R365). -/
theorem State.openPkt_mismatch (h : p.dead = true ∨ hvSnode x.bytes ≠ p.rnode ∨ hvSession x.bytes ≠ p.session) :
    s.openPkt x = .error (s.count (oHubCnt 2)) := by
  simp only [State.openPkt, hp]
  refine if_pos ?_
  rcases h with h | h | h <;> simp [h]

theorem State.openPkt_clear (hd : p.dead = false) (hnode : hvSnode x.bytes = p.rnode) (hsess : hvSession x.bytes = p.session)
    (henc : hvEnc x.bytes = false) (hpe : p.enc = false) : s.openPkt x = .ok (p, x.bytes.drop 64) := by
  simp only [State.openPkt, hp]
  rw [if_neg (by simp [hd, hnode, hsess]), if_neg (by simp [henc, hpe]), if_pos (by simp [hpe])]

end

/-! ### Packets passed to their targets -/

section
variable (s : State) {p : Peer} (psn : Nat) (ce : Bool) (m : InPkt) (hp : s.peer p.idx = some p)

/-- The block with one more packet passed to its target. -/
def State.passing (s : State) (r : RxPkt) : State := { s with link := { s.link with pend := s.link.pend ++ [r] } }

/-- A packet's sequence number is marked for its peer (R365). -/
def State.Marked (s : State) (p : Peer) (psn : Nat) : Prop :=
  ∃ q, s.peer p.idx = some q ∧ (q.rxExp, q.rxMap) = markPsn p.rxExp p.rxMap psn ∧ q.viExp = p.viExp

include hp in
theorem State.setPeer_window (w : Nat × Nat) (c : Bool) : ∃ q, (s.setPeer { p with rxExp := w.1, rxMap := w.2, ce := c }).peer p.idx = some q
    ∧ (q.rxExp, q.rxMap) = w ∧ q.viExp = p.viExp := ⟨_, s.peer_setPeer rfl hp, rfl, rfl⟩

include hp in
theorem State.gotPsn_marked : (s.gotPsn p psn ce).Marked p psn := s.setPeer_window hp (markPsn p.rxExp p.rxMap psn) _

/-- A WRITE that its region rejects waits without effect, and is counted (R381). -/
theorem State.passPkt_rejected (hop : m.op = 0) {code : Nat} (hrej : s.regReject p m = some code) : ∃ r : RxPkt, r.void = true
    ∧ s.passPkt p psn ce m = ((s.gotPsn p psn ce).noteReject m.region code).passing r := by
  have hmsg : (m.op != 3 && m.op != 4) = true := by rw [hop]; rfl
  have hop4 : ¬ m.op = 4 := by rw [hop]; decide
  simp only [State.passPkt, hmsg, if_neg hop4, hrej, Option.isNone_some, Option.isSome_some, Bool.and_false, Bool.false_and, Bool.true_or,
    Bool.not_true, Bool.false_eq_true, if_false]
  exact ⟨_, rfl, rfl⟩

theorem State.noteReject_spec (region code : Nat) : (s.noteReject region code).link.pend = s.link.pend
    ∧ (s.noteReject region code).link.peers = s.link.peers ∧ (s.noteReject region code).cores = s.cores
    ∧ (s.noteReject region code).tierA = s.tierA ∧ (s.noteReject region code).tierB = s.tierB ∧ (s.noteReject region code).memq = s.memq
    ∧ (s.noteReject region code).link.regRej = Nat.min 0x7FFF (s.link.regRej + 1) := by
  rw [State.noteReject]
  dsimp only
  split <;> exact ⟨rfl, rfl, rfl, rfl, rfl, rfl, rfl⟩

/-- The block once the first packet of a message is known and its first contents are noted (R388, R391). -/
def State.begun (s : State) (p : Peer) (psn : Nat) (ce : Bool) (m : InPkt) : State :=
  let t := (s.gotPsn p psn ce).cacheReg m.region
  let e := regEnt (s.regWords m.region)
  ({ t with link := { t.link with
    reasm := t.link.reasm ++ [{ peer := p.idx, msgid := m.msgid, total := m.total, count := 0, part := e.part }] } } : State).noteFirsts p.idx m.msgid
      m.parts

/-- The first packet of a WRITE waits to become visible (R388). -/
theorem State.passPkt_fresh (hop : m.op = 0) (hrej : s.regReject p m = none) (hnew : s.reasmOf p.idx m.msgid = none)
    (hring : s.inRing p.idx m.msgid = false) (hroom : s.link.reasm.length < 4096) (hext : (regEnt (s.regWords m.region)).ext = false) :
    ∃ r : RxPkt, (r.void = false ∧ r.count = true ∧ r.psn = psn ∧ r.off = m.base ∧ r.grans = m.parts)
      ∧ s.passPkt p psn ce m = (s.begun p psn ce m).passing r := by
  have hmsg : (m.op != 3 && m.op != 4) = true := by rw [hop]; rfl
  have hop4 : ¬ m.op = 4 := by rw [hop]; decide
  have hop5 : (m.op == 5) = false := by rw [hop]; rfl
  have hop0 : (m.op != 0) = false := by rw [hop]; rfl
  have hopd : decide (m.op = 0) = true := decide_eq_true hop
  have hfull : decide (4096 ≤ s.link.reasm.length) = false := decide_eq_false (Nat.not_le.mpr hroom)
  simp only [State.passPkt, hmsg, if_neg hop4, hop5, hop0, hopd, hrej, hnew, hring, hfull, hext, Option.isNone_none, Option.isSome_none, Bool.and_false,
    Bool.false_and, Bool.or_false, Bool.not_false, Bool.and_true, Bool.false_eq_true, if_false, if_true]
  exact ⟨_, ⟨rfl, rfl, rfl, rfl, rfl⟩, rfl⟩

theorem State.cacheReg_spec (r : Nat) : ∃ l, s.cacheReg r = { s with link := { s.link with rcache := l } } := by
  rw [State.cacheReg]
  split
  · exact ⟨_, rfl⟩
  · exact ⟨_, rfl⟩

include hp in
theorem State.begun_spec : (s.begun p psn ce m).link.pend = s.link.pend ∧ (s.begun p psn ce m).cores = s.cores
    ∧ (s.begun p psn ce m).link.reasm = s.link.reasm
      ++ [{ peer := p.idx, msgid := m.msgid, total := m.total, count := 0, part := (regEnt (s.regWords m.region)).part }]
    ∧ (s.begun p psn ce m).Marked p psn := by
  obtain ⟨l, hl⟩ := (s.gotPsn p psn ce).cacheReg_spec m.region
  simp only [State.begun, hl]
  exact ⟨rfl, rfl, rfl, s.gotPsn_marked psn ce hp⟩

end

/-! ### Acknowledgements received -/

/-- What an ACK makes of a peer's transport state (R366). -/
def State.AckedBy (s : State) (p q : Peer) (psn : Nat) : Prop :=
  q.idx = p.idx ∧ (∀ y ∈ Peer.tx q, psnBelow y.psn psn = true → y.acked = true) ∧ q.txPsn = p.txPsn ∧ q.rxExp = p.rxExp
    ∧ (q.txBase = p.txBase → q.retries = p.retries ∧ q.rto = p.rto) ∧ (q.txBase ≠ p.txBase → q.retries = 0 ∧ q.rto = s.rtoInit)

/-- Only the congestion window and its mark tell two peers apart. -/
def Peer.Windowed (p q : Peer) : Prop := ∃ m e c, q = { p with mark := m, eceSeen := e, cwnd := c }

theorem Peer.Windowed.refl (p : Peer) : p.Windowed p := ⟨p.mark, p.eceSeen, p.cwnd, rfl⟩

theorem Peer.windowed_ite {p q : Peer} (c : Prop) [Decidable c] (m : Nat) (e : Bool) (w : Nat) (h : p.Windowed q) :
    p.Windowed (if c then { q with mark := m, eceSeen := e, cwnd := w } else q) := by
  obtain ⟨m', e', c', rfl⟩ := h
  split
  · exact ⟨_, _, _, rfl⟩
  · exact ⟨_, _, _, rfl⟩

theorem Peer.Windowed.acked {s : State} {p r q : Peer} {psn : Nat} (h : r.Windowed q) (hr : s.AckedBy p r psn) : s.AckedBy p q psn := by
  obtain ⟨m, e, c, rfl⟩ := h
  exact hr

theorem markAcked_psn (a m : Nat) (x : TxPkt) : (markAcked a m x).psn = x.psn := by
  rw [markAcked]
  split <;> rfl

theorem markAcked_below (a m : Nat) (x : TxPkt) (h : psnBelow x.psn a = true) : (markAcked a m x).acked = true := by
  rw [markAcked]
  rw [h, Bool.true_or, if_pos rfl]

theorem fastResend_keeps (l : List TxPkt) (x : TxPkt) : (fastResend l x).psn = x.psn ∧ (fastResend l x).acked = x.acked := by
  rw [fastResend]
  split <;> exact ⟨rfl, rfl⟩

theorem acked_of_kept (l m : List TxPkt) (a n : Nat) (f : TxPkt → Bool) (news : Bool) (y : TxPkt)
    (hy : y ∈ ((l.map (markAcked a n)).filter f).map (fun x => if news then fastResend m x else x)) (hb : psnBelow y.psn a = true) :
    y.acked = true := by
  obtain ⟨x, hx, rfl⟩ := List.mem_map.mp hy
  obtain ⟨z, -, rfl⟩ := List.mem_map.mp (List.mem_filter.mp hx).1
  obtain ⟨hpsn, hack⟩ := fastResend_keeps m (markAcked a n z)
  have hz : psnBelow z.psn a = true → (markAcked a n z).acked = true := markAcked_below a n z
  cases news
  · rw [if_neg Bool.false_ne_true] at hb ⊢
    rw [markAcked_psn] at hb
    exact hz hb
  · rw [if_pos rfl] at hb ⊢
    rw [hpsn, markAcked_psn] at hb
    rw [hack]
    exact hz hb

theorem State.ackPeer_acked (s : State) (p : Peer) (b : List Byte) : s.AckedBy p (s.ackPeer p b).1 (hvPsn b) := by
  unfold State.ackPeer
  dsimp only
  refine (Peer.windowed_ite _ _ _ _ (Peer.windowed_ite _ _ _ _ (Peer.Windowed.refl _))).acked ?_
  generalize leadAcked (p.tx.map (markAcked (hvPsn b) (hvMap b))) p.txBase = base
  by_cases h : base = p.txBase
  · have hadv : (base != p.txBase) = false := by simp [h]
    simp only [hadv, Bool.false_eq_true, if_false]
    exact ⟨rfl, acked_of_kept _ _ _ _ _ _, rfl, rfl, fun _ => ⟨rfl, rfl⟩, fun hne => absurd h hne⟩
  · have hadv : (base != p.txBase) = true := by simp [h]
    simp only [hadv, if_true]
    exact ⟨rfl, acked_of_kept _ _ _ _ _ _, rfl, rfl, fun he => absurd he h, fun _ => ⟨rfl, rfl⟩⟩

/-- The block with other messages to send. -/
def State.withSends (s : State) (l : List Send) : State := { s with link := { s.link with sends := l } }

section
variable {γ : Type} (p : State → γ) (hset : ∀ (t : State) c k, p (t.setCore c k) = p t) (hsubs : ∀ (t : State) l, p { t with subs := l } = p t)
  (hoffer : ∀ (t : State) f, p (t.offer f) = p t) (hlog : ∀ (t : State) l, p { t with dlog := l } = p t)
include hset hsubs hoffer hlog

theorem State.stopXfer_leaves (s : State) (c : Nat) (e : Bool) (q code : Nat) : p (s.stopXfer c e q code) = p s := by
  rw [State.stopXfer]
  refine (State.haltCore_leaves p hset hsubs hoffer _ _ _).trans ?_
  split
  · exact (hlog _ _).trans (hset _ _ _)
  · exact hset _ _ _

/-- What a transfer has found at its position changes its core, the fault records and the release log. -/
theorem State.stopNow_leaves (s : State) (c : Nat) (e : Bool) (q : Nat) : p (s.stopNow c e q) = p s := by
  rw [State.stopNow]
  split
  · rfl
  · split
    · rfl
    · split
      · rfl
      · split
        · rw [State.pageFault]
          exact (hoffer _ _).trans ((hset _ _ _).trans ((hset _ _ _).trans (hset _ _ _)))
        · exact State.stopXfer_leaves p hset hsubs hoffer hlog _ _ _ _ _

/-- A message that is complete changes its transfer and the hub's list of messages besides. -/
theorem State.completeSend_leaves (hsends : ∀ (t : State) l, p (t.withSends l) = p t) (s : State) (q : Peer) (x : Send) :
    p (s.completeSend q x) = p s := by
  have hfin : p (s.finishSend x) = p s := by
    unfold State.finishSend
    dsimp only
    split
    · split
      · exact hsends _ _
      · refine (hset _ _ _).trans ?_
        exact hsends s _
    · exact (hlog (s.withSends (s.link.sends.filter (fun y => y.id ≠ x.id))) _).trans (hsends s _)
    · exact hsends s _
    · exact hsends s _
  have hstop : p (match x.src with | .core c e q => (s.finishSend x).stopNow c e q | _ => s.finishSend x) = p s := by
    split
    · exact (State.stopNow_leaves p hset hsubs hoffer hlog _ _ _ _).trans hfin
    · exact hfin
  unfold State.completeSend
  dsimp only
  split
  · exact (hsends _ _).trans hstop
  · exact hstop

end

/-- An ACK of a peer that matches changes its transport state (R366). -/
theorem State.exec_ackReceive (s : State) (k : Nat) {x : Pkt} {u : State} {p : Peer} {pay : List Byte} (htake : s.takeRx k true = some (x, u))
    (hopen : u.openPkt x = .ok (p, pay)) (hp : u.peer p.idx = some p) : ∃ t q, exec (.ackReceive k) s = .next t ∧ t.link.rx = u.link.rx
      ∧ t.peer p.idx = some q ∧ u.AckedBy p q (hvPsn x.bytes) := by
  have hq := u.ackPeer_acked p x.bytes
  have hexec : exec (.ackReceive k) s = execAckReceive k s := rfl
  simp only [execAckReceive, htake, hopen] at hexec
  generalize (u.ackPeer p x.bytes).1 = q at *
  have hleave : ∀ {γ : Type} (f : State → γ), (∀ (t : State) c k, f (t.setCore c k) = f t) → (∀ (t : State) l, f { t with subs := l } = f t) →
      (∀ (t : State) r, f (t.offer r) = f t) → (∀ (t : State) l, f { t with dlog := l } = f t) →
      (∀ (t : State) l, f (t.withSends l) = f t) → ∀ l : List Send,
      f (l.foldl (fun (v : State) y => v.completeSend q y) (u.setPeer q)) = f (u.setPeer q) :=
    fun f h1 h2 h3 h4 h5 l => foldl_leaves f (fun t y => State.completeSend_leaves f h1 h2 h3 h4 h5 t q y) l _
  refine ⟨_, q, hexec, ?_, ?_, hq⟩
  · exact hleave (fun t => t.link.rx) (fun _ _ _ => rfl) (fun _ _ => rfl) (fun _ _ => rfl) (fun _ _ => rfl) (fun _ _ => rfl) _
  · refine (hleave (fun t => t.peer p.idx) (fun _ _ _ => rfl) (fun _ _ => rfl) (fun _ _ => rfl) (fun _ _ => rfl) (fun _ _ => rfl) _).trans ?_
    exact u.peer_setPeer hq.1 hp

/-! ### Packets that become visible -/

/-- Core `d` keeps its local store with no effect waiting, and the packets passed to their targets stay. -/
def State.Stores (s t : State) (d : Nat) : Prop :=
  t.link.pend = s.link.pend ∧ (t.core d).st.ls = (s.core d).st.ls ∧ (t.core d).run.late = []

theorem State.Stores.trans {s t u : State} {d : Nat} (h : s.Stores t d) (g : t.Stores u d) : s.Stores u d :=
  ⟨g.1.trans h.1, g.2.1.trans h.2.1, g.2.2⟩

theorem State.Stores.of_same {s t : State} {d : Nat} (hlate : (s.core d).run.late = []) (hp : t.link.pend = s.link.pend) (hc : t.cores = s.cores) :
    s.Stores t d := by
  have hcore : t.core d = s.core d := congrArg (fun l => Sp.get ({} : Core) l d) hc
  exact ⟨hp, by rw [hcore], by rw [hcore]; exact hlate⟩

theorem State.reportImage_leaves {γ : Type} (p : State → γ) (hupd : ∀ (t : State) u, p { t with upd := u } = p t) (s : State) (a b c : Nat) :
    p (s.reportImage a b c) = p s := by
  unfold State.reportImage
  dsimp only
  split
  · rfl
  · split
    · rfl
    · split
      · rfl
      · exact hupd _ _

section
variable {s : State} {d : Nat} (hlate : (s.core d).run.late = [])
include hlate

theorem State.arrive_stores (ctr n : Nat) : s.Stores (s.arrive d ctr n) d := by
  obtain ⟨a, w, hwake, -⟩ := wakeWait_eq (((CRes.of (s.core d) s.fc).cur (fun a =>
    { a with arr := Sp.set 0#32 a.arr ctr (Sp.get 0#32 a.arr ctr + BitVec.ofNat 32 n) })).st
      (fun st => { st with arrSince := Sp.set 0 st.arrSince ctr (Sp.get 0 st.arrSince ctr + n) }))
  obtain ⟨k, hk, hls, hl⟩ : ∃ k : Core, s.arrive d ctr n = s.setCore d k ∧ k.st.ls = (s.core d).st.ls ∧ k.run.late = [] :=
    ⟨_, State.runCore_quiet s d _ _ _ hwake rfl hlate, rfl, hlate⟩
  rw [hk]
  refine ⟨rfl, ?_, ?_⟩
  · rw [State.core_setCore_same, hls]
  · rw [State.core_setCore_same, hl]

theorem State.arriveEach_stores (ctr n : Nat) : s.Stores (s.arriveEach d ctr n) d :=
  List.foldlRecOn (motive := fun t : State => s.Stores t d) _ _ (State.Stores.of_same hlate rfl rfl)
    fun _ ht _ _ => ht.trans (State.arrive_stores ht.2.2 _ _)

/-- A packet's count leaves the local store of the core it goes to. -/
theorem State.countPkt_stores (x : RxPkt) (e : RegEnt) (n : Nat) (hext : e.ext = false) (hd : s.coreAt e.part e.core = some d) :
    s.Stores (s.countPkt x e n) d := by
  have harr : ∀ (ctr m : Nat) (b : Bool), s.Stores (if b then s.arriveEach d ctr m else s) d := by
    intro ctr m b
    cases b
    · exact State.Stores.of_same hlate rfl rfl
    · exact State.arriveEach_stores hlate ctr m
  unfold State.countPkt
  split
  · exact State.Stores.of_same hlate rfl rfl
  · next r hr =>
    simp only [hext, Bool.false_eq_true, if_false, hd]
    generalize hu : (if e.arren = true then s.arriveEach d e.arr _ else s) = u
    have hs : s.Stores u d := hu ▸ harr _ _ _
    split
    · split
      · refine hs.trans (State.Stores.of_same hs.2.2 ?_ ?_)
        · exact State.reportImage_leaves (fun t => t.link.pend) (fun _ _ => rfl) _ _ _ _
        · exact State.reportImage_leaves State.cores (fun _ _ => rfl) _ _ _ _
      · exact hs.trans (State.Stores.of_same hs.2.2 rfl rfl)
    · exact hs.trans (State.Stores.of_same hs.2.2 rfl rfl)

end

/-- A packet that becomes visible changes its peer and the frames out (R366). -/
theorem State.showPsn_leaves {γ : Type} (p : State → γ) (hreg : ∀ (t : State) o v, p (t.setReg o v) = p t)
    (hlink : ∀ (t : State) rx tx txw keys, p { t with link := { t.link with rx := rx, tx := tx, txWait := txw, keys := keys } } = p t)
    (hpeers : ∀ (t : State) l, p { t with link := { t.link with peers := l } } = p t) (s : State) (x : RxPkt) : p (s.showPsn x) = p s := by
  unfold State.showPsn
  split
  · rfl
  · dsimp only
    split
    · exact (State.sendAck_leaves p hreg hlink hpeers _ _).trans (hpeers _ _)
    · exact hpeers _ _

/-- A granule of a WRITE to a local store is there once its packet is visible (R380, R388). -/
theorem State.packetVisible_writes (s : State) (k : Nat) (hrun : s.running = true) {x : RxPkt} (hx : s.link.pend[k]? = some x)
    (hshow : s.canShow x = true) (hop : x.op = 0) (hvoid : x.void = false) (hext : (regEnt x.ent).ext = false) {d j : Nat} {v : Granule}
    (hd : s.coreAt (regEnt x.ent).part (regEnt x.ent).core = some d) (hgrans : x.grans = [(j, v)])
    (hkept : inKept (s.core d).cur.kept ((regEnt x.ent).first + x.off + j) = false) (hlate : (s.core d).run.late = []) :
    ∃ t, exec (.packetVisible k) s = .next t ∧ t.link.pend = s.link.pend.eraseIdx k
      ∧ (t.core d).st.ls = Memory.setGranule (s.core d).st.ls (32 * ((regEnt x.ent).first + x.off + j)) v := by
  let g := (regEnt x.ent).first + x.off + j
  let u : State := { s with link := { s.link with pend := s.link.pend.eraseIdx k } }
  let w := u.written d g v true
  have hlw : (w.core d).run.late = [] := by
    rw [State.written_run]
    exact hlate
  obtain ⟨n, hn⟩ : ∃ n, u.applyPkt x = (if x.count then w.countPkt x (regEnt x.ent) 1 else w, n) := by
    have hlocal : u.localGrans d (regEnt x.ent) x.off (x.op != 0) x.grans = (w, 1) := by
      rw [hgrans, hop]
      simp only [State.localGrans, List.foldl_cons, List.foldl_nil]
      rw [if_neg (by decide), State.inbound_free u d _ v true hkept]
      rfl
    have hop4 : ¬ x.op = 4 := by rw [hop]; decide
    have hop3 : ¬ x.op = 3 := by rw [hop]; decide
    simp only [State.applyPkt, hvoid, if_neg hop4, if_neg hop3, hext, Bool.false_eq_true, if_false, show u.coreAt _ _ = some d from hd, hlocal]
    split
    · exact ⟨1, rfl⟩
    · exact ⟨0, rfl⟩
  have hexec : exec (.packetVisible k) s = .next ((if x.count then w.countPkt x (regEnt x.ent) 1 else w).showPsn x) := by
    have hseal : ∀ t : State, t.sealRound x n = t := fun t => if_neg (by rw [hop]; simp)
    show execPacketVisible k s = _
    simp only [execPacketVisible, hx]
    rw [if_neg (by rw [hrun, hshow]; decide)]
    exact (congrArg (fun a : State × Nat => Host.Outcome.next ((a.1.sealRound x a.2).showPsn x)) hn).trans (by rw [hseal])
  have hcount : w.Stores (if x.count then w.countPkt x (regEnt x.ent) 1 else w) d := by
    split
    · exact State.countPkt_stores hlw x (regEnt x.ent) 1 hext hd
    · exact State.Stores.of_same hlw rfl rfl
  obtain ⟨hpend, hls, -⟩ := hcount
  refine ⟨_, hexec, ?_, ?_⟩
  · exact (State.showPsn_leaves (fun t => t.link.pend) (fun _ _ _ => rfl) (fun _ _ _ _ _ => rfl) (fun _ _ => rfl) _ _).trans hpend
  · have hc := State.showPsn_leaves State.cores (fun _ _ _ => rfl) (fun _ _ _ _ _ => rfl) (fun _ _ => rfl)
      (if x.count then w.countPkt x (regEnt x.ent) 1 else w) x
    rw [show State.core _ d = _ from congrArg (fun l => Sp.get ({} : Core) l d) hc]
    exact hls.trans (State.written_ls _ _ _ _ _)

end Sys2Proof.Machine
end

section
open Sys2Proof Sys2Proof.Machine

/-- Settles O55: frames in, packets parked, dropped and passed on, acknowledgements, timers and late reads of the links. -/
theorem linkTraffic : Obligations.LinkTraffic := by
  intro s k hrun
  refine ⟨fun l bytes bad up => ⟨s.linkUp_spec l up, s.frameReceive_stranded l bytes bad, s.frameReceive_ignored l bytes bad, fun hlost hen => ?_⟩,
    fun x hx hw => ⟨s.exec_dataPacket_none k (s.takeRx_waits k hx false hw), s.exec_ack_none k (s.takeRx_waits k hx true hw)⟩,
    fun x hx hf => ?_, fun x hx hshow hop hvoid hext d j v hd hgrans => ?_, fun i p hp => ?_, fun r d hr hd => ⟨fun hdue => ?_, fun hdue hh => ?_⟩⟩
  · have hexec := s.frameReceive_taken l bytes hrun hlost hen
    refine ⟨fun hbody => ?_, fun b ce hbody => ⟨_, hexec, s.receive_passes bytes l.val hbody⟩⟩
    rw [hexec, State.receive, hbody]
  · intro b u
    have htake := fun (ack : Bool) (h : hvAck b = ack) => s.takeRx_first k hrun hx hf h
    refine ⟨fun h => s.exec_dataPacket_none k (s.takeRx_other k hx (by rw [h]; decide)), fun h => s.exec_ack_none k (s.takeRx_other k hx (by rw [h]; decide)),
      fun h hnone hroom => ?_, fun p hp => ?_⟩
    · obtain ⟨t, hopen, ht⟩ := State.openPkt_parks u x hnone hroom
      exact ⟨t, s.exec_dataPacket_error k (htake false h) hopen, ht⟩
    · have hidx : p.idx = hvDpeer b := s.peer_idx hp
      have hpu : u.peer p.idx = some p := by rw [hidx]; exact hp
      intro plain
      have hopen : plain → u.openPkt x = .ok (p, b.drop 64) :=
        fun ⟨hdead, hnode, hsess, henc, hpe⟩ => u.openPkt_clear x hp hdead hnode hsess henc hpe
      refine ⟨fun h hack => s.exec_dataPacket_error k (htake false hack) (u.openPkt_mismatch x hp h),
        fun hack hplain n hl hw => s.exec_dataPacket_guard k (htake false hack) (hopen hplain) hl hw,
        fun gs hack hplain hw hop => ?_, fun hack hplain => ?_⟩
      · intro psn d m marked hbelow hwin hnew
        have hexec : exec (.dataPacketReceive k) s = .next (if u.passUp p.idx m then u.passPkt p psn x.ce m else s) :=
          s.exec_dataPacket_write k (htake false hack) (hopen hplain) hw hop hbelow hwin hnew
        refine ⟨fun hup => ?_, fun code hup hrej => ?_, fun hup hrej hre hring hroom hext => ?_⟩
        · exact hexec.trans (congrArg Host.Outcome.next (if_neg (by rw [show u.passUp p.idx m = false from hup]; decide)))
        · obtain ⟨r, hvoid, hpass⟩ := u.passPkt_rejected (p := p) psn x.ce m rfl (code := code) hrej
          obtain ⟨hpend, hpeers, hcores, ha, hb, hq, hrr⟩ := (u.gotPsn p psn x.ce).noteReject_spec m.region code
          rw [if_pos (show u.passUp p.idx m = true from hup), hpass] at hexec
          refine ⟨_, r, hexec, congrArg (· ++ [r]) hpend, hvoid, hcores, ha, hb, hq, ?_, hrr⟩
          obtain ⟨q, hget, hrest⟩ := u.gotPsn_marked psn x.ce hpu
          exact ⟨q, (congrArg (fun l : List Peer => l.find? (fun y : Peer => y.idx = p.idx)) hpeers).trans hget, hrest⟩
        · obtain ⟨r, ⟨hvoid, hcount, hpsn, hoff, hgr⟩, hpass⟩ := u.passPkt_fresh (p := p) psn x.ce m rfl hrej hre hring hroom hext
          obtain ⟨hpend, hcores, hreasm, hmark⟩ := u.begun_spec psn x.ce m hpu
          rw [if_pos (show u.passUp p.idx m = true from hup), hpass] at hexec
          exact ⟨_, r, hexec, congrArg (· ++ [r]) hpend, hvoid, hcount, hpsn, hoff, hgr, hreasm, hcores, hmark⟩
      · obtain ⟨t, q, hexec, hrx, hq, -, hacked, htx, hexp, hsame, hadv⟩ := s.exec_ackReceive k (htake true hack) (hopen hplain) hpu
        exact ⟨t, q, hexec, hrx, hq, hacked, htx, hexp, hsame, hadv⟩
  · intro g hkept hlate
    obtain ⟨t, hexec, hpend, hls⟩ := s.packetVisible_writes k hrun hx hshow hop hvoid hext hd hgrans hkept hlate
    refine ⟨t, hexec, ?_, fun a ha => ?_, hpend⟩
    · rw [hls, Memory.granule_setGranule]
    · rw [hls, Memory.byte_setGranule_ne _ _ _ _ ha]
  · have hidx : p.idx = i.toNat := s.peer_idx hp
    refine ⟨fun t0 n hsince henc hroute hloop hlost => ?_, s.transmit_dead hp, fun hack hn => ?_, fun l key hd hack hroute hkey => ?_,
      fun y x hd hn => ?_, fun d ht => ?_⟩
    · have hexec := s.exec_ackDelayExpiry hrun hp hsince
      refine ⟨fun hdue => hexec.trans (if_neg (by rw [hdue]; decide)), fun hdue => ?_⟩
      obtain ⟨hpeer, htx⟩ := s.sendAck_clear hp henc hroute hloop hlost
      exact ⟨_, hexec.trans (if_pos hdue), hpeer, htx⟩
    · cases hd : p.dead with
      | true => exact s.transmit_dead hp hd
      | false => exact s.transmit_idle hrun hp hd hack hn
    · have hexec := s.transmit_ack hrun hp hd hack hroute hkey
      refine ⟨fun hserve => hexec.trans (if_neg (by rw [hserve]; decide)), fun hserve => ?_⟩
      obtain ⟨hpeer, hsends, hcores⟩ := s.sendAck_acks hp hroute hkey
      exact ⟨_, _, hexec.trans (if_pos hserve), hpeer, rfl, rfl, rfl, hsends, hcores⟩
    · refine ⟨fun hl hown => ?_, fun n _ hown hroute henc hack hserve hup => ?_⟩
      · obtain ⟨l, hlink, hfin⟩ := s.failSends_link p.idx 0x66
        refine ⟨_, s.transmit_unlinked hrun hp hd hn hl hown, fun z hz => hfin z ?_⟩
        rw [hlink] at hz
        exact hz
      · obtain ⟨q, hq⟩ := s.peer_sentNext hp y x n
        exact ⟨_, q, s.transmit_next hrun hp hd hn hown hroute henc hack hserve hup, hq⟩
    · have hexec := s.exec_retransmitExpiry hrun hp ht
      refine ⟨fun hdue => hexec.trans (if_neg (by rw [hdue]; decide)), fun hdue hmore => ?_, fun hdue hlast => ?_⟩
      · rw [if_pos hdue, if_neg (Nat.not_le.mpr hmore)] at hexec
        obtain ⟨q, hpeer, hret, hrto, hcw, hres, hmap⟩ := s.backedOff_spec hp
        exact ⟨_, q, hexec, hpeer, hret, hrto, hcw, hres, hmap, rfl⟩
      · rw [if_pos hdue, if_pos hlast] at hexec
        obtain ⟨q, f, rest, hspec⟩ := s.peerDies_spec hp
        exact ⟨_, q, f, rest, hexec, hspec⟩
  · exact s.remoteRead_waits hr hd hdue
  · exact s.remoteRead_late hrun hr hd hdue hh

end

section
/-! What the operations of the block leave of the map: all but those of a map change keep the parity of GEN and the substitution in progress
(R30). -/

namespace Sys2Proof.Machine

/-! ### What is looked at, and how it is read off a state -/

/-- What the map's soundness speaks of: the parity of GEN and the substitution in progress (R30). -/
def State.mapView (s : State) : Nat × Option SubstOp := (s.mapgen % 2, s.subst)

/-- A state written out field by field. -/
theorem State.mapView_mk
    (pending fc v64 cores tierA tierB hostOut regs fq roles lmap mapgen cast str rings subs nextSub mesh posts items credits tlb memq memSerial
    lost strand trspWait dlog hostReqs subst substResult ptinv irqs mgmtIrqs treqs tap trsp recovCnt substCnt halves fabric aon pwr ages temper
    otp mgmt boot link upd) :
    (State.mk pending fc v64 cores tierA tierB hostOut regs fq roles lmap mapgen cast str rings subs nextSub mesh posts items credits tlb memq
      memSerial lost strand trspWait dlog hostReqs subst substResult ptinv irqs mgmtIrqs treqs tap trsp recovCnt substCnt halves fabric aon pwr ages temper
      otp mgmt boot link upd).mapView = (mapgen % 2, subst) := (rfl)

theorem State.mapView_eta (s : State) : (s.mapgen % 2, s.subst) = s.mapView := (rfl)

theorem State.mapView_ite (c : Prop) [Decidable c] (a b : State) : (if c then a else b).mapView = if c then a.mapView else b.mapView :=
  apply_ite _ _ _ _

theorem State.mapView_foldl {α : Type} (f : State → α → State) (l : List α) (s : State) (h : ∀ t a, (f t a).mapView = t.mapView) :
    (l.foldl f s).mapView = s.mapView := foldl_leaves (f := f) State.mapView h l s

/-! ### The operations, in the order of the model -/

theorem State.mapView_setReg (s : State) (o : Nat) (v : W32) : (s.setReg o v).mapView = s.mapView := (rfl)

theorem State.mapView_setRegN (s : State) (o v : Nat) : (s.setRegN o v).mapView = s.mapView := (rfl)

theorem State.mapView_count (s : State) (o : Nat) : (s.count o).mapView = s.mapView := (rfl)

theorem State.mapView_free (s : State) (w : Nat) : (s.free w).2.mapView = s.mapView := (rfl)

theorem State.mapView_setRole (s : State) (slab : Nat) (r : Role) : (s.setRole slab r).mapView = s.mapView := (rfl)

theorem State.mapView_setCore (s : State) (c : Nat) (k : Core) : (s.setCore c k).mapView = s.mapView := (rfl)

theorem State.mapView_updCore (s : State) (c : Nat) (f : Core → Core) : (s.updCore c f).mapView = s.mapView := (rfl)

theorem State.mapView_updRun (s : State) (c : Nat) (f : CoreRun → CoreRun) : (s.updRun c f).mapView = s.mapView := (rfl)

theorem State.mapView_updSt (s : State) (c : Nat) (f : CoreStore → CoreStore) : (s.updSt c f).mapView = s.mapView := (rfl)

theorem State.mapView_irq (s : State) (v : Nat) : (s.irq v).mapView = s.mapView := by
  simp only [State.irq, State.mapView_mk, State.mapView_eta, State.mapView_ite, ite_self]

theorem State.mapView_offer (s : State) (f : FRec) : (s.offer f).mapView = s.mapView := (rfl)

theorem State.mapView_noteHalt (s : State) (c : Nat) : (s.noteHalt c).mapView = s.mapView := by
  unfold State.noteHalt
  dsimp only
  repeat' split
  all_goals simp only [State.mapView_mk, State.mapView_eta]

theorem State.mapView_noteReplay (s : State) (c : Nat) : (s.noteReplay c).mapView = s.mapView := by
  unfold State.noteReplay
  split
  all_goals simp only [State.mapView_mk, State.mapView_eta]

theorem State.mapView_offerCore (s : State) (c : Nat) (f : CFault) : (s.offerCore c f).mapView = s.mapView := (rfl)

theorem State.mapView_haltCore (s : State) (c : Nat) (f : CFault) : (s.haltCore c f).mapView = s.mapView := by
  simp only [State.haltCore, State.mapView_updRun, State.mapView_noteHalt, State.mapView_offerCore, State.mapView_ite, ite_self]

theorem State.mapView_stopPart (s : State) (p : Nat) : (s.stopPart p).mapView = s.mapView := by
  simp only [State.stopPart, State.mapView_updRun, State.mapView_mk, State.mapView_eta, State.mapView_foldl, implies_true]

theorem State.mapView_credit (s : State) (m : CreditMsg) : (s.credit m).mapView = s.mapView := by
  unfold State.credit
  split
  all_goals simp only [State.mapView_updSt]

theorem State.mapView_sendCredit (s : State) (m : CreditMsg) : (s.sendCredit m).mapView = s.mapView := by
  simp only [State.sendCredit, State.mapView_credit, State.mapView_mk, State.mapView_eta, State.mapView_ite, ite_self]

theorem State.mapView_pumpCredits (s : State) : (s.pumpCredits).mapView = s.mapView := by
  simp only [State.pumpCredits, State.mapView_credit, State.mapView_mk, State.mapView_eta, State.mapView_foldl, implies_true]

theorem State.mapView_out (s : State) (c : Nat) (o : Out) : (s.out c o).mapView = s.mapView := by
  unfold State.out
  dsimp only
  repeat' split
  all_goals simp only [State.mapView_offerCore, State.mapView_sendCredit, State.mapView_mk, State.mapView_eta]

theorem State.mapView_runCore (s : State) (c : Nat) (f : CEnv → CRes → CRes) : (s.runCore c f).mapView = s.mapView := by
  simp only [State.runCore, State.mapView_setCore, State.mapView_noteHalt, State.mapView_out, State.mapView_mk, State.mapView_eta,
      State.mapView_ite, ite_self, State.mapView_foldl, implies_true]

theorem State.mapView_logPut (s : State) (ws : List Nat) : (s.logPut ws).mapView = s.mapView := by
  simp only [State.logPut, State.mapView_irq, State.mapView_mk, State.mapView_eta, State.mapView_ite, ite_self]

theorem State.mapView_log (s : State) (type : Nat) (esc : Bool) (payload : List Nat) : (s.log type esc payload).mapView = s.mapView := by
  simp only [State.log, State.mapView_logPut, State.mapView_mk, State.mapView_eta, State.mapView_ite, ite_self]

theorem State.mapView_logFlush (s : State) (n : Nat) : (s.logFlush n).mapView = s.mapView := by
  induction n generalizing s with
  | zero => rfl
  | succ n ih =>
    unfold State.logFlush
    split
    · rfl
    · split
      · rfl
      · rw [ih, State.mapView_logPut]
        rfl

theorem State.mapView_persist (s : State) : (s.persist).mapView = s.mapView := by
  simp only [State.persist, State.mapView_free, State.mapView_log, State.mapView_mk, State.mapView_eta]

theorem State.mapView_persistNow (s : State) : (s.persistNow).mapView = s.mapView := by
  simp only [State.persistNow, State.mapView_persist, State.mapView_ite, ite_self]

theorem State.mapView_loadOtp (s : State) : (s.loadOtp).mapView = s.mapView := by
  simp only [State.loadOtp, State.mapView_offer, State.mapView_mk, State.mapView_eta, State.mapView_foldl, implies_true]

theorem State.mapView_otpAbort (s : State) : (s.otpAbort).mapView = s.mapView := by
  unfold State.otpAbort
  split
  all_goals simp only [State.mapView_free, State.mapView_mk, State.mapView_eta]

theorem State.mapView_setAge (s : State) (u : Nat) (a : UnitAge) : (s.setAge u a).mapView = s.mapView := (rfl)

theorem State.mapView_settle (s : State) : (s.settle).mapView = s.mapView := (rfl)

theorem State.mapView_forward (s : State) : (s.forward).mapView = s.mapView := by
  simp only [State.forward, State.mapView_settle, State.mapView_mk, State.mapView_eta, State.mapView_ite, ite_self]

theorem State.mapView_clamped (s : State) : (s.clamped).mapView = s.mapView := (rfl)

theorem State.mapView_writeAge (s : State) (u off fl : Nat) : (s.writeAge u off fl).mapView = s.mapView := by
  simp only [State.writeAge, State.mapView_setAge, State.mapView_forward]

theorem State.mapView_armSc (s : State) : s.armSc.mapView = s.mapView := by
  refine foldl_leaves State.mapView (fun t k => ?_) _ s
  dsimp only
  split
  · split <;> rfl
  · rfl

theorem State.mapView_endTemper (s : State) : (s.endTemper).mapView = s.mapView := by
  simp only [State.endTemper, State.mapView_setRole, State.mapView_mk, State.mapView_eta, State.mapView_ite, ite_self]

theorem State.mapView_quenchNow (s : State) (inval : Bool) : (s.quenchNow inval).mapView = s.mapView := by
  simp only [State.quenchNow, State.mapView_offer, State.mapView_forward, State.mapView_endTemper, State.mapView_mk, State.mapView_eta]

theorem State.mapView_driftOf (s : State) (u : Nat) (rcount : Nat) (temp : Int) : (s.driftOf u rcount temp).2.mapView = s.mapView := by
  unfold State.driftOf
  dsimp only
  repeat' split
  all_goals simp only [State.mapView_free]

theorem State.mapView_offerUnit (s : State) (u code : Nat) (esc : Bool) : (s.offerUnit u code esc).mapView = s.mapView := by
  simp only [State.offerUnit, State.mapView_offer, State.mapView_ite, ite_self]

theorem State.mapView_canary (s : State) (u : Nat) : (s.canary u).mapView = s.mapView := by
  simp only [State.canary, State.mapView_setAge, State.mapView_offerUnit, State.mapView_ite, ite_self]

theorem State.mapView_searchFail (s : State) (result : Nat) : (s.searchFail result).mapView = s.mapView := by
  simp only [State.searchFail, State.mapView_setRole, State.mapView_forward, State.mapView_offerUnit, State.mapView_mk, State.mapView_eta,
      State.mapView_ite, ite_self]

theorem State.mapView_wakeSource (s : State) (f : Aon → Aon) : (s.wakeSource f).mapView = s.mapView := by
  simp only [State.wakeSource, State.mapView_mk, State.mapView_eta, State.mapView_ite, ite_self]

theorem State.mapView_cmpIrq (s : State) (n owner vec : Nat) : (s.cmpIrq n owner vec).mapView = s.mapView := by
  simp only [State.cmpIrq, State.mapView_irq, State.mapView_mk, State.mapView_eta, State.mapView_ite, ite_self]

theorem State.mapView_setDl (s : State) (k : Nat) (d : Dl) : (s.setDl k d).mapView = s.mapView := (rfl)

theorem State.mapView_setSc (s : State) (k : Nat) (d : Sc) : (s.setSc k d).mapView = s.mapView := (rfl)

theorem State.mapView_writeSc (s : State) (req : Requester) (k w : Nat) (v : W32) : (s.writeSc req k w v).mapView = s.mapView := by
  simp only [State.writeSc, State.mapView_armSc, State.mapView_setSc, State.mapView_ite, ite_self]

theorem State.mapView_captureTb (s : State) (req : Requester) : (s.captureTb req).mapView = s.mapView := by
  unfold State.captureTb
  split
  all_goals simp only [State.mapView_mk, State.mapView_eta]

theorem State.mapView_fwStart (s : State) (img : List Byte) (handoff : Bool) : (s.fwStart img handoff).mapView = s.mapView := (rfl)

theorem State.mapView_ackCarried (s : State) : (s.ackCarried).mapView = s.mapView := (rfl)

theorem State.mapView_command (s : State) (req : Requester) (op : Nat) (arg : W32) (f : State → State × Nat)
    (h : ∀ t, (f t).1.mapView = t.mapView) : (s.command req op arg f).mapView = s.mapView := by
  unfold State.command
  simp only [State.mapView_ite, State.mapView_mk, State.mapView_eta, h, ite_self]

theorem State.mapView_abortSelfTest (s : State) : (s.abortSelfTest).mapView = s.mapView := by
  simp only [State.abortSelfTest, State.mapView_mk, State.mapView_eta, State.mapView_ite, ite_self]

theorem State.mapView_mgmtRestart (s : State) (code cause : Nat) (bad : Bool) : (s.mgmtRestart code cause bad).mapView = s.mapView := by
  simp only [State.mgmtRestart, State.mapView_offer, State.mapView_log, State.mapView_abortSelfTest, State.mapView_mk, State.mapView_eta,
      State.mapView_ite, ite_self]

theorem State.mapView_mapSlabs (s : State) : s.mapSlabs.mapView = s.mapView :=
  State.mapSlabs_leaves State.mapView (fun _ _ _ => rfl) (fun _ _ => rfl) (fun _ _ => rfl) s

theorem State.mapView_loadTaps (s : State) : (s.loadTaps).mapView = s.mapView := by
  simp only [State.loadTaps, State.mapView_setAge, State.mapView_mk, State.mapView_eta, State.mapView_foldl, implies_true]

theorem State.mapView_loadBypass (s : State) : (s.loadBypass).mapView = s.mapView := by
  simp only [State.loadBypass, State.mapView_updSt, State.mapView_foldl, implies_true]

theorem State.mapView_startInit (s : State) : (s.startInit).mapView = s.mapView := by
  simp only [State.startInit, State.mapView_mapSlabs, State.mapView_loadTaps, State.mapView_loadBypass, State.mapView_mk, State.mapView_eta]

theorem State.mapView_vcoreOn (s : State) : (s.vcoreOn).mapView = s.mapView := (rfl)

theorem State.mapView_psRequest (s : State) (req : Requester) (deep : Bool) (f : State → State) (h : ∀ t, (f t).mapView = t.mapView) :
    (s.psRequest req deep f).mapView = s.mapView := by
  unfold State.psRequest
  simp only [State.mapView_ite, State.mapView_mk, State.mapView_eta, h, ite_self]

theorem State.mapView_afterRetention (s : State) : (s.afterRetention).mapView = s.mapView := (rfl)

/-- A whole map change leaves the parity of GEN (R30). -/
theorem State.mapView_mapChange (s : State) (f : State → State) (h : ∀ t, (f t).mapView = t.mapView) :
    (s.mapChange f).mapView = s.mapView := by
  obtain ⟨hgen, hsub⟩ := Prod.ext_iff.mp (h { s with mapgen := (s.mapgen + 1) % 2 ^ 32 })
  refine Prod.ext ?_ hsub
  simp only [State.mapView] at hgen ⊢
  simp only [State.mapChange]
  omega

theorem State.mapView_retire (s : State) (p : Nat) : (s.retire p).mapView = s.mapView := (rfl)

theorem State.mapView_remap (s : State) (l : Nat) : (s.remap l).mapView = s.mapView := by
  unfold State.remap
  split
  all_goals simp only [State.mapView_setRole, State.mapView_mk, State.mapView_eta]

theorem State.mapView_setTier (s : State) (b : Bool) (m : Memory) : (s.setTier b m).mapView = s.mapView := by
  simp only [State.setTier, State.mapView_mk, State.mapView_eta, State.mapView_ite, ite_self]

theorem State.mapView_putGran (s : State) (b : Bool) (a : Nat) (g : Granule) : (s.putGran b a g).mapView = s.mapView := by
  simp only [State.putGran, State.mapView_setTier]

theorem State.mapView_acceptReq (s : State) (r : MemReq) (i : Nat) : (s.acceptReq r i).mapView = s.mapView := by
  unfold State.acceptReq
  dsimp only
  repeat' split
  all_goals simp only [State.mapView_putGran, State.mapView_mk, State.mapView_eta]

theorem State.mapView_pumpMem (s : State) : s.pumpMem.mapView = s.mapView := by
  refine foldl_leaves State.mapView (fun t r => ?_) _ s
  split
  · rfl
  · split
    · exact State.mapView_acceptReq _ _ _
    · rfl

theorem State.mapView_askMem (s : State) (r : MemReq) : (s.askMem r).mapView = s.mapView := by
  simp only [State.askMem, State.mapView_pumpMem, State.mapView_mk, State.mapView_eta]

theorem State.mapView_countMpErr (s : State) (b : Bool) (port : Nat) (expiry : Bool) : (s.countMpErr b port expiry).mapView = s.mapView := by
  simp only [State.countMpErr, State.mapView_setRegN, State.mapView_ite, ite_self]

theorem State.mapView_undefGran (s : State) (r : MemReq) : (s.undefGran r).mapView = s.mapView := by
  simp only [State.undefGran, State.mapView_free, State.mapView_putGran, State.mapView_ite, ite_self]

theorem State.mapView_undefRange (s : State) (b : Bool) (a : Nat) (n : Nat) : (s.undefRange b a n).mapView = s.mapView :=
  State.undefRange_leaves State.mapView (fun _ _ _ _ => rfl) b n a s

theorem State.mapView_answer (s : State) (tag : BitVec 8) (err : Bool) (data : Nat) : (s.answer tag err data).mapView = s.mapView := by
  simp only [State.answer, State.mapView_setRegN, State.mapView_mk, State.mapView_eta, State.mapView_ite, ite_self]

theorem State.mapView_apDone (s : State) (f : Taper → Taper) : (s.apDone f).mapView = s.mapView := by
  unfold State.apDone
  split
  all_goals simp only [State.mapView_answer, State.mapView_mk, State.mapView_eta, State.mapView_ite, ite_self]

theorem State.mapView_apOk (s : State) (q : MemReq) (k : Nat) : (s.apOk q k).mapView = s.mapView := by
  unfold State.apOk
  split
  all_goals simp only [State.mapView_askMem, State.mapView_apDone, State.mapView_ite, ite_self]

theorem State.mapView_ledgerAdd (s : State) (addr : Nat) : (s.ledgerAdd addr).mapView = s.mapView := by
  simp only [State.ledgerAdd, State.mapView_mk, State.mapView_eta, State.mapView_ite, ite_self]

theorem State.mapView_reportImage (s : State) (region off total : Nat) : (s.reportImage region off total).mapView = s.mapView := by
  unfold State.reportImage
  dsimp only
  repeat' split
  all_goals simp only [State.mapView_mk, State.mapView_eta]

theorem State.mapView_dropLog (s : State) (c : Nat) : (s.dropLog c).mapView = s.mapView := (rfl)

theorem State.mapView_dropUnsent (s : State) (c : Nat) : (s.dropUnsent c).mapView = s.mapView := (rfl)

theorem State.mapView_beginRecovery (s : State) (c : Nat) : (s.beginRecovery c).mapView = s.mapView := (rfl)

theorem State.mapView_guardCore (s : State) (c : Nat) (f : CFault) : (s.guardCore c f).mapView = s.mapView := by
  simp only [State.guardCore, State.mapView_offerCore, State.mapView_haltCore, State.mapView_beginRecovery, State.mapView_ite, ite_self]

theorem State.mapView_refillGran (s : State) (c g : Nat) : (s.refillGran c g).mapView = s.mapView := by
  unfold State.refillGran
  split
  all_goals simp only [State.mapView_updSt]

theorem State.mapView_refill (s : State) (c : Nat) : (s.refill c).mapView = s.mapView := by
  simp only [State.refill, State.mapView_refillGran, State.mapView_foldl, implies_true]

theorem State.mapView_zeroFailed (s : State) (c : Nat) : (s.zeroFailed c).mapView = s.mapView := by
  simp only [State.zeroFailed, State.mapView_updSt, State.mapView_ite, ite_self, State.mapView_foldl, implies_true]

theorem State.mapView_restoreCore (s : State) (c : Nat) : (s.restoreCore c).mapView = s.mapView := by
  simp only [State.restoreCore, State.mapView_updCore, State.mapView_refill, State.mapView_zeroFailed]

theorem State.mapView_endRecovery (s : State) (c : Nat) : (s.endRecovery c).mapView = s.mapView := (rfl)

theorem State.mapView_replayCore (s : State) (c : Nat) : (s.replayCore c).mapView = s.mapView := by
  unfold State.replayCore
  dsimp only
  repeat' split
  all_goals simp only [State.mapView_updCore, State.mapView_updRun, State.mapView_haltCore, State.mapView_refill, State.mapView_restoreCore,
      State.mapView_endRecovery]

theorem State.mapView_lostEntry (s : State) (p : Nat) (f : FRec) : (s.lostEntry p f).mapView = s.mapView := by
  simp only [State.lostEntry, State.mapView_offer, State.mapView_stopPart]

theorem State.mapView_memFail (s : State) (r : MemReq) (code : Nat) : (s.memFail r code).mapView = s.mapView := by
  unfold State.memFail
  dsimp only
  repeat' split
  all_goals simp only [State.mapView_undefGran, State.mapView_apDone, State.mapView_guardCore, State.mapView_lostEntry, State.mapView_mk,
      State.mapView_eta]

theorem State.mapView_reqMem (s : State) (r : MemReq) : (s.reqMem r).mapView = s.mapView := by
  simp only [State.reqMem, State.mapView_askMem, State.mapView_memFail, State.mapView_ite, ite_self]

theorem State.mapView_setRound (s : State) (k : Nat) (r : Round) : (s.setRound k r).mapView = s.mapView := (rfl)

theorem State.mapView_setPeer (s : State) (p : Peer) : (s.setPeer p).mapView = s.mapView := (rfl)

theorem State.mapView_stopXfer (s : State) (c : Nat) (exec : Bool) (seq code : Nat) : (s.stopXfer c exec seq code).mapView = s.mapView := by
  simp only [State.stopXfer, State.mapView_updRun, State.mapView_haltCore, State.mapView_dropLog, State.mapView_ite, ite_self]

theorem State.mapView_failSend (s : State) (x : Send) (code : Nat) : (s.failSend x code).mapView = s.mapView := by
  unfold State.failSend
  split
  all_goals simp only [State.mapView_haltCore, State.mapView_dropLog, State.mapView_stopXfer, State.mapView_mk, State.mapView_eta,
      State.mapView_ite, ite_self]

theorem State.mapView_wantPeer (s : State) (i : Nat) : (s.wantPeer i).mapView = s.mapView := by
  simp only [State.wantPeer, State.mapView_mk, State.mapView_eta, State.mapView_ite, ite_self]

theorem State.mapView_addSend (s : State) (x : Send) : (s.addSend x).mapView = s.mapView := by
  unfold State.addSend
  dsimp only
  repeat' split
  all_goals simp only [State.mapView_failSend, State.mapView_wantPeer, State.mapView_mk, State.mapView_eta]

theorem State.mapView_finishSend (s : State) (x : Send) : (s.finishSend x).mapView = s.mapView := by
  unfold State.finishSend
  split
  all_goals simp only [State.mapView_updRun, State.mapView_mk, State.mapView_eta, State.mapView_ite, ite_self]

theorem State.mapView_releaseEnt (s : State) (i : Nat) (d : LogEnt) : (s.releaseEnt i d).mapView = s.mapView := by
  unfold State.releaseEnt
  split
  all_goals simp only [State.mapView_reqMem, State.mapView_addSend, State.mapView_mk, State.mapView_eta, State.mapView_ite, ite_self]

theorem State.mapView_releaseChecked (s : State) (i : Nat) (d : LogEnt) : (s.releaseChecked i d).mapView = s.mapView := by
  simp only [State.releaseChecked, State.mapView_offerCore, State.mapView_lostEntry, State.mapView_releaseEnt, State.mapView_mk, State.mapView_eta,
      State.mapView_ite, ite_self, State.mapView_foldl, implies_true]

theorem State.mapView_releaseLog (s : State) (c : Nat) (n : Nat) : (s.releaseLog c n).mapView = s.mapView := by
  induction n generalizing s with
  | zero => rfl
  | succ n ih =>
    unfold State.releaseLog
    dsimp only
    split
    · split
      · rw [ih, State.mapView_releaseChecked]
      · rfl
    · rfl

theorem State.mapView_fetchNext (s : State) (c : Nat) : (s.fetchNext c).mapView = s.mapView := by
  obtain ⟨-, -, -, ht⟩ := State.fetchNext_fetchedFor s c
  rw [ht]
  rfl

theorem State.mapView_deliver (s : State) (q : HostReq) (g : Granule) : (s.deliver q g).mapView = s.mapView := by
  simp only [State.deliver, State.mapView_updRun, State.mapView_fetchNext, State.mapView_mk, State.mapView_eta, State.mapView_ite, ite_self,
      State.mapView_foldl, implies_true]

theorem State.mapView_readError (s : State) (q : HostReq) : (s.readError q).mapView = s.mapView := by
  simp only [State.readError, State.mapView_updRun, State.mapView_haltCore, State.mapView_foldl, implies_true]

theorem State.mapView_noteBranch (s : State) (c : Nat) : (s.noteBranch c).mapView = s.mapView := by
  simp only [State.noteBranch, State.mapView_updRun, State.mapView_ite, ite_self]

theorem State.mapView_setEnt (s : State) (i : Nat) (e : StrEnt) : (s.setEnt i e).mapView = s.mapView := (rfl)

theorem State.mapView_bumpGen (s : State) (p : Nat) (ids : List Nat) : (s.bumpGen p ids).mapView = s.mapView := by
  refine foldl_leaves State.mapView (fun t id => ?_) _ s
  dsimp only
  split
  · rfl
  · split <;> rfl

theorem State.mapView_miss (s : State) (id : Nat) : (s.miss id).mapView = s.mapView := (rfl)

theorem State.mapView_grantInc (s : State) (ds : List Nat) (n : Nat) : (s.grantInc ds n).mapView = s.mapView := by
  simp only [State.grantInc, State.mapView_updRun, State.mapView_fetchNext, State.mapView_foldl, implies_true]

theorem State.mapView_strResult (s : State) (r id : Nat) : (s.strResult r id).mapView = s.mapView := (rfl)

theorem State.mapView_decideOut (s : State) (i : Nat) : (s.decideOut i).mapView = s.mapView := by
  simp only [State.decideOut, State.mapView_setEnt, State.mapView_strResult, State.mapView_mk, State.mapView_eta, State.mapView_ite, ite_self]

theorem State.mapView_strWait (s : State) (w : StrWait) : (s.strWait w).mapView = s.mapView := (rfl)

theorem State.mapView_startSwapIn (s : State) (i : Nat) (g : Geo) : (s.startSwapIn i g).mapView = s.mapView := (rfl)

theorem State.mapView_decideIn (s : State) (n : Nat) : (s.decideIn n).mapView = s.mapView := by
  unfold State.decideIn
  dsimp only
  repeat' split
  all_goals simp only [State.mapView_setEnt, State.mapView_miss, State.mapView_strResult, State.mapView_startSwapIn, State.mapView_mk,
      State.mapView_eta]

theorem State.mapView_strWake (s : State) (n : Nat) : (s.strWake n).mapView = s.mapView := by
  induction n generalizing s with
  | zero => rfl
  | succ n ih =>
    unfold State.strWake
    split
    · rfl
    · dsimp only
      rw [ih]
      simp only [State.mapView_ite, State.mapView_decideIn, State.mapView_decideOut, State.mapView_mk, State.mapView_eta, ite_self]

theorem State.mapView_cmdEnds (s : State) (inn : Bool) (id : Nat) (res : Option Nat) : (s.cmdEnds inn id res).mapView = s.mapView := by
  simp only [State.cmdEnds, State.mapView_mk, State.mapView_eta, State.mapView_ite, ite_self]

theorem State.mapView_swapPhase (s : State) (i ph : Nat) : (s.swapPhase i ph).mapView = s.mapView := (rfl)

theorem State.mapView_dropSwap (s : State) (i : Nat) : (s.dropSwap i).mapView = s.mapView := (rfl)

theorem State.mapView_ackScore (s : State) (i : Nat) : (s.ackScore i).mapView = s.mapView := (rfl)

theorem State.mapView_writeImage (s : State) (e : StrEnt) (g : Geo) : (s.writeImage e g).mapView = s.mapView := (rfl)

theorem State.mapView_forget (s : State) (p id : Nat) : (s.forget p id).mapView = s.mapView := by
  simp only [State.forget, State.mapView_updCore, State.mapView_foldl, implies_true]

theorem State.mapView_endSwapOut (s : State) (i : Nat) (g : Geo) (err : Bool) : (s.endSwapOut i g err).mapView = s.mapView := by
  simp only [State.endSwapOut, State.mapView_offer, State.mapView_undefRange, State.mapView_setEnt, State.mapView_cmdEnds, State.mapView_swapPhase,
      State.mapView_writeImage, State.mapView_forget, State.mapView_ite, ite_self]

theorem State.mapView_failSwapIn (s : State) (i code : Nat) : (s.failSwapIn i code).mapView = s.mapView := by
  simp only [State.failSwapIn, State.mapView_offer, State.mapView_setEnt, State.mapView_cmdEnds, State.mapView_swapPhase, State.mapView_mk,
      State.mapView_eta]

theorem State.mapView_endSwapIn (s : State) (i : Nat) (g : Geo) : (s.endSwapIn i g).mapView = s.mapView := by
  simp only [State.endSwapIn, State.mapView_updCore, State.mapView_setEnt, State.mapView_cmdEnds, State.mapView_swapPhase,
      State.mapView_failSwapIn, State.mapView_mk, State.mapView_eta, State.mapView_ite, ite_self, State.mapView_foldl, implies_true]

theorem State.mapView_setRing (s : State) (p : Nat) (r : Ring) : (s.setRing p r).mapView = s.mapView := (rfl)

theorem State.mapView_putCompletion (s : State) (p : Nat) (x : List Nat × Option Nat) : (s.putCompletion p x).mapView = s.mapView := by
  unfold State.putCompletion
  split
  all_goals simp only [State.mapView_irq, State.mapView_setRing, State.mapView_mk, State.mapView_eta]

theorem State.mapView_complete (s : State) (p : Nat) (x : List Nat × Option Nat) : (s.complete p x).mapView = s.mapView := by
  simp only [State.complete, State.mapView_setRing, State.mapView_putCompletion, State.mapView_ite, ite_self]

theorem State.mapView_bind (s : State) (p : Nat) (e : SubEntry) : (s.bind p e).mapView = s.mapView := by
  refine foldl_leaves State.mapView (fun t i => ?_) _ _
  split <;> rfl

theorem State.mapView_setXfers (s : State) (c : Nat) (exec : Bool) (l : List Xfer) : (s.setXfers c exec l).mapView = s.mapView := (rfl)

theorem State.mapView_updXfer (s : State) (c : Nat) (exec : Bool) (q : Nat) (f : Xfer → Xfer) : (s.updXfer c exec q f).mapView = s.mapView := (rfl)

theorem State.mapView_setQHalt (s : State) (c : Nat) (exec b : Bool) : (s.setQHalt c exec b).mapView = s.mapView := (rfl)

theorem State.mapView_addTlb (s : State) (t : Tlb) : (s.addTlb t).mapView = s.mapView := (rfl)

theorem State.mapView_pageFault (s : State) (c : Nat) (exec : Bool) (x : Xfer) : (s.pageFault c exec x).mapView = s.mapView := (rfl)

theorem State.mapView_stopNow (s : State) (c : Nat) (exec : Bool) (q : Nat) : (s.stopNow c exec q).mapView = s.mapView := by
  unfold State.stopNow
  repeat' split
  all_goals simp only [State.mapView_stopXfer, State.mapView_pageFault]

theorem State.mapView_stopAt (s : State) (c : Nat) (exec : Bool) (q code : Nat) : (s.stopAt c exec q code).mapView = s.mapView := by
  simp only [State.stopAt, State.mapView_updXfer, State.mapView_stopNow]

theorem State.mapView_answered (s : State) (c : Nat) (exec : Bool) (q n : Nat) : (s.answered c exec q n).mapView = s.mapView := by
  simp only [State.answered, State.mapView_updXfer, State.mapView_stopNow]

theorem State.mapView_memGranule (s : State) (c : Nat) (exec : Bool) (x : Xfer) (pa lg : Nat) :
    (s.memGranule c exec x pa lg).1.mapView = s.mapView := by
  unfold State.memGranule
  dsimp only
  repeat' split
  all_goals simp only [State.mapView_reqMem, State.mapView_updXfer, State.mapView_stopAt, State.mapView_mk, State.mapView_eta]

theorem State.mapView_coreGranule (s : State) (c : Nat) (exec : Bool) (x : Xfer) (t tg lg : Nat) (ctr : Option Nat) :
    (s.coreGranule c exec x t tg lg ctr).1.mapView = s.mapView := by
  unfold State.coreGranule
  split
  all_goals simp only [State.mapView_updXfer, State.mapView_stopAt, State.mapView_mk, State.mapView_eta]

theorem State.mapView_blkStep (s : State) (c : Nat) (exec : Bool) (x : Xfer) : (s.blkStep c exec x).1.mapView = s.mapView := by
  unfold State.blkStep
  dsimp only
  repeat' split
  all_goals simp only [State.mapView_updXfer, State.mapView_stopAt, State.mapView_memGranule, State.mapView_coreGranule]

theorem State.mapView_gathStep (s : State) (c : Nat) (exec : Bool) (x : Xfer) : (s.gathStep c exec x).1.mapView = s.mapView := by
  unfold State.gathStep
  dsimp only
  repeat' split
  all_goals simp only [State.mapView_updXfer, State.mapView_stopAt, State.mapView_memGranule, State.mapView_coreGranule]

theorem State.mapView_runXfer (s : State) (c : Nat) (exec : Bool) (q : Nat) (n : Nat) : (s.runXfer c exec q n).mapView = s.mapView := by
  induction n generalizing s with
  | zero => rfl
  | succ n ih =>
    unfold State.runXfer
    split
    · rfl
    · next x hx =>
      have hstep : (if x.gath then s.gathStep c exec x else s.blkStep c exec x).1.mapView = s.mapView := by
        split
        · exact State.mapView_gathStep _ _ _ _
        · exact State.mapView_blkStep _ _ _ _
      dsimp only
      generalize (if x.gath then s.gathStep c exec x else s.blkStep c exec x) = r at hstep ⊢
      split
      · rfl
      · split
        · rw [ih, hstep]
        · exact hstep

theorem State.mapView_startRemote (s : State) (c : Nat) (exec : Bool) (x : Xfer) : (s.startRemote c exec x).mapView = s.mapView := by
  unfold State.startRemote
  dsimp only
  repeat' split
  all_goals simp only [State.mapView_stopXfer, State.mapView_addSend, State.mapView_updXfer, State.mapView_stopNow, State.mapView_mk,
      State.mapView_eta]

theorem State.mapView_startPush (s : State) (c : Nat) (x : Xfer) (w : QWire) : (s.startPush c x w).mapView = s.mapView := by
  simp only [State.startPush, State.mapView_updCore, State.mapView_stopXfer, State.mapView_updXfer, State.mapView_mk, State.mapView_eta,
      State.mapView_ite, ite_self]

theorem State.mapView_takePord (s : State) (c : Nat) (exec : Bool) (x : Xfer) {t : State} (h : s.takePord c exec x = .ok t) :
    t.mapView = s.mapView := by
  unfold State.takePord at h
  dsimp only at h
  split at h
  · exact (Except.ok.inj h) ▸ rfl
  · split at h
    · exact nomatch h
    · exact (Except.ok.inj h) ▸ rfl

theorem State.mapView_startXfer (s : State) (c : Nat) (exec : Bool) (x : Xfer) : (s.startXfer c exec x).mapView = s.mapView := by
  unfold State.startXfer
  dsimp only
  have hupd : ∀ f, (s.updXfer c exec x.seq f).mapView = s.mapView := fun f => State.mapView_updXfer s c exec x.seq f
  split
  · simp only [State.mapView_ite, State.mapView_stopXfer, State.mapView_runXfer, hupd, ite_self]
  · split
    · rw [State.mapView_stopXfer, hupd]
    · split
      · rw [State.mapView_stopXfer, hupd]
      · next t ht =>
        have hpord := (State.mapView_takePord _ c exec _ ht).trans (hupd _)
        split
        · split
          · exact hpord
          · split
            · rw [State.mapView_startPush, hpord]
            · exact hupd _
        · split
          · rw [State.mapView_startRemote, hpord]
          · rw [State.mapView_runXfer, hpord]

theorem State.mapView_resumeQueue (s : State) (c : Nat) (exec : Bool) : (s.resumeQueue c exec).mapView = s.mapView := by
  simp only [State.resumeQueue, State.mapView_setXfers, State.mapView_setQHalt, State.mapView_ite, ite_self]

theorem State.mapView_postOnDone (s : State) (c : Nat) (x : Xfer) : (s.postOnDone c x).mapView = s.mapView := by
  simp only [State.postOnDone, State.mapView_runCore, State.mapView_mk, State.mapView_eta, State.mapView_ite, ite_self]

theorem State.mapView_ackXfer (s : State) (l q : Nat) : (s.ackXfer l q).mapView = s.mapView := by
  unfold State.ackXfer
  split
  all_goals simp only [State.mapView_answered]

theorem State.mapView_slotHit (s : State) (d g : Nat) : (s.slotHit d g).mapView = s.mapView := (rfl)

theorem State.mapView_inbound (s : State) (d g : Nat) (data : Granule) (far : Bool) : (s.inbound d g data far).1.mapView = s.mapView := by
  unfold State.inbound
  split
  all_goals simp only [State.mapView_updSt, State.mapView_haltCore, State.mapView_slotHit]

theorem State.mapView_arrive (s : State) (d ctr n : Nat) : (s.arrive d ctr n).mapView = s.mapView := by
  simp only [State.arrive, State.mapView_runCore]

theorem State.mapView_dropReq (s : State) (r : MemReq) : (s.dropReq r).mapView = s.mapView := (rfl)

theorem State.mapView_memOk (s0 : State) (r : MemReq) : (s0.memOk r).mapView = s0.mapView := by
  unfold State.memOk
  dsimp only
  repeat' split
  all_goals simp only [State.mapView_updSt, State.mapView_apOk, State.mapView_ledgerAdd, State.mapView_answered, State.mapView_mk, State.mapView_eta]

theorem State.mapView_memAnswer (s : State) (tierB : Bool) (port : BitVec 4) (id : BitVec 8) (err : Bool) :
    (s.memAnswer tierB port id err).mapView = s.mapView := by
  unfold State.memAnswer
  split
  all_goals simp only [State.mapView_pumpMem, State.mapView_countMpErr, State.mapView_memFail, State.mapView_dropReq, State.mapView_memOk,
      State.mapView_mk, State.mapView_eta, State.mapView_ite, ite_self]

theorem State.mapView_pumpAnswers (s : State) : s.pumpAnswers.mapView = s.mapView := by
  refine foldl_leaves State.mapView (fun t b => ?_) _ _
  split
  · exact State.mapView_memAnswer _ _ _ _ _
  · rfl

theorem State.mapView_hostAnswer (s : State) (tag : BitVec 8) (err : Bool) (data : BitVec 512) : (s.hostAnswer tag err data).mapView = s.mapView := by
  unfold State.hostAnswer
  split
  all_goals simp only [State.mapView_deliver, State.mapView_readError, State.mapView_mk, State.mapView_eta, State.mapView_ite, ite_self]

theorem State.mapView_reown (s : State) : (s.reown).mapView = s.mapView := by
  simp only [State.reown, State.mapView_setDl, State.mapView_setSc, State.mapView_ite, ite_self, State.mapView_foldl, implies_true]

theorem State.mapView_newLimits (s : State) : (s.newLimits).mapView = s.mapView := by
  simp only [State.newLimits, State.mapView_forward, State.mapView_mk, State.mapView_eta]

theorem State.mapView_flushStreams (s : State) : s.flushStreams.mapView = s.mapView :=
  State.flushStreams_leaves State.mapView (fun _ _ => rfl) s

theorem State.mapView_clearCasting (s : State) (i : Image) (loaded : Bool) : (s.clearCasting i loaded).mapView = s.mapView := by
  simp only [State.clearCasting, State.mapView_flushStreams, State.mapView_mk, State.mapView_eta]

theorem State.mapView_unloadCasting (s : State) : (s.unloadCasting).mapView = s.mapView := by
  simp only [State.unloadCasting, State.mapView_reown, State.mapView_newLimits, State.mapView_clearCasting]

theorem State.mapView_installCasting (s : State) (i : Image) : (s.installCasting i).mapView = s.mapView := by
  simp only [State.installCasting, State.mapView_updCore, State.mapView_reown, State.mapView_newLimits, State.mapView_clearCasting,
      State.mapView_foldl, implies_true]

theorem State.mapView_castEnd (s : State) (result sect : Nat) : (s.castEnd result sect).mapView = s.mapView := (rfl)

theorem State.mapView_castRefuse (s : State) (code : Nat) : (s.castRefuse code).mapView = s.mapView := (rfl)

theorem State.mapView_stageBytes (s : State) (off : Nat) (l : List Byte) : (s.stageBytes off l).mapView = s.mapView := (rfl)

theorem State.mapView_startSwitch (s : State) (slot : Option Nat) (scope : Nat) : (s.startSwitch slot scope).mapView = s.mapView := by
  simp only [State.startSwitch, State.mapView_runCore, State.mapView_mk, State.mapView_eta, State.mapView_ite, ite_self, State.mapView_foldl,
      implies_true]

theorem State.mapView_swRefuse (s : State) (code : Nat) : (s.swRefuse code).mapView = s.mapView := (rfl)

theorem State.mapView_setO2 (s : State) (p : Nat) : (s.setO2 p).mapView = s.mapView := by
  simp only [State.setO2, State.mapView_updSt, State.mapView_foldl, implies_true]

theorem State.mapView_hubStop (s : State) (h : Nat) (info : Nat) (ps : List Nat) : (s.hubStop h info ps).mapView = s.mapView := by
  simp only [State.hubStop, State.mapView_offer, State.mapView_stopPart, State.mapView_foldl, implies_true]

theorem State.mapView_logFail (s : State) (slab k : Nat) (both : Bool) : (s.logFail slab k both).mapView = s.mapView := by
  unfold State.logFail
  split
  all_goals simp only [State.mapView_mk, State.mapView_eta]

theorem State.mapView_refetch (s : State) (o : HubObj) : (s.refetch o).mapView = s.mapView := by
  unfold State.refetch
  split
  all_goals simp only [State.mapView_offer, State.mapView_mk, State.mapView_eta]

theorem State.mapView_setGerr (s : State) (c g port : Nat) : (s.setGerr c g port).mapView = s.mapView := (rfl)

theorem State.mapView_dropFlight (s : State) (w : InFlight) : (s.dropFlight w).mapView = s.mapView := by
  unfold State.dropFlight
  repeat' split
  all_goals simp only [State.mapView_pumpMem, State.mapView_dropReq, State.mapView_mk, State.mapView_eta]

theorem State.mapView_noteFabric (s : State) (slab : Nat) : (s.noteFabric slab).mapView = s.mapView := (rfl)

theorem State.mapView_recWords (s : State) (f : FRec) (seq : Nat) : (s.recWords f seq).2.mapView = s.mapView := by
  unfold State.recWords
  dsimp only
  repeat' split
  all_goals simp only [State.mapView_free]

theorem State.mapView_consume (s : State) : (s.consume).mapView = s.mapView := by
  simp only [State.consume, State.mapView_log, State.mapView_mk, State.mapView_eta]

theorem State.mapView_consumeN (s : State) (n : Nat) : (s.consumeN n).mapView = s.mapView := by
  induction n generalizing s with
  | zero => rfl
  | succ n ih =>
    unfold State.consumeN
    split
    · rfl
    · rw [ih, State.mapView_consume]

theorem State.mapView_endStream (s : State) (c : Nat) : (s.endStream c).mapView = s.mapView := by
  unfold State.endStream
  dsimp only
  repeat' split
  all_goals simp only [State.mapView_updCore, State.mapView_updRun, State.mapView_dropLog, State.mapView_restoreCore, State.mapView_endRecovery,
      State.mapView_mk, State.mapView_eta]

theorem State.mapView_moveCore (s : State) (a b : Nat) : (s.moveCore a b).mapView = s.mapView := (rfl)

theorem State.mapView_replayHalted (s : State) (c : Nat) : (s.replayHalted c).mapView = s.mapView := by
  unfold State.replayHalted
  dsimp only
  repeat' split
  all_goals simp only [State.mapView_updRun, State.mapView_noteReplay, State.mapView_beginRecovery]

theorem State.mapView_setKey (s : State) (k : Nat) (v : KeySlot) : (s.setKey k v).mapView = s.mapView := (rfl)

theorem State.mapView_receive (s : State) (n : Nat) (bytes : List Byte) : (s.receive n bytes).mapView = s.mapView := by
  unfold State.receive
  split
  all_goals simp only [State.mapView_count, State.mapView_mk, State.mapView_eta, State.mapView_ite, ite_self]

theorem State.mapView_frameIn (s : State) (n : Nat) (bytes : List Byte) (bad : Bool) : (s.frameIn n bytes bad).mapView = s.mapView := by
  simp only [State.frameIn, State.mapView_receive, State.mapView_ite, ite_self]

theorem State.mapView_present (s : State) (n : Nat) (f : List Byte) : (s.present n f).mapView = s.mapView := (rfl)

theorem State.mapView_framesOut (s : State) (n : Nat) : (s.framesOut n).mapView = s.mapView := by
  simp only [State.framesOut, State.mapView_present, State.mapView_mk, State.mapView_eta, State.mapView_foldl, implies_true]

theorem State.mapView_emit (s : State) (p : Peer) (link : Option Nat) (psn : Nat) (pkt : List Byte) :
    (s.emit p link psn pkt).mapView = s.mapView := by
  unfold State.emit
  split
  all_goals simp only [State.mapView_count, State.mapView_receive, State.mapView_present, State.mapView_mk, State.mapView_eta, State.mapView_ite,
      ite_self]

theorem State.mapView_transmit (s : State) (p : Peer) (link : Option Nat) (key : Option KeySlot) (h : HvHead) (payload : List Byte) :
    (s.transmit p link key h payload).mapView = s.mapView := by
  unfold State.transmit
  split
  all_goals simp only [State.mapView_setPeer, State.mapView_setKey, State.mapView_emit]

theorem State.mapView_sendAck (s : State) (i : Nat) : (s.sendAck i).mapView = s.mapView := by
  unfold State.sendAck
  dsimp only
  repeat' split
  all_goals simp only [State.mapView_setPeer, State.mapView_transmit]

theorem State.mapView_authFail (s : State) (p : Peer) : (s.authFail p).mapView = s.mapView := by
  simp only [State.authFail, State.mapView_count, State.mapView_offer, State.mapView_setPeer, State.mapView_ite, ite_self]

theorem State.mapView_park (s : State) (k : Pkt) : (s.park k).mapView = s.mapView := by
  simp only [State.park, State.mapView_count, State.mapView_wantPeer, State.mapView_mk, State.mapView_eta, State.mapView_ite, ite_self]

theorem State.mapView_completeSend (s : State) (p : Peer) (x : Send) : (s.completeSend p x).mapView = s.mapView := by
  unfold State.completeSend
  split
  all_goals simp only [State.mapView_finishSend, State.mapView_stopNow, State.mapView_mk, State.mapView_eta, State.mapView_ite, ite_self]

theorem State.mapView_sendData (s : State) (p : Peer) (x : Send) (k : TxPkt) (retx : Bool) (link : Option Nat) (key : Option KeySlot) :
    (s.sendData p x k retx link key).mapView = s.mapView := by
  simp only [State.sendData, State.mapView_transmit, State.mapView_mk, State.mapView_eta, State.mapView_ite, ite_self]

theorem State.mapView_failSends (s : State) (i code : Nat) : (s.failSends i code).mapView = s.mapView := by
  simp only [State.failSends, State.mapView_failSend, State.mapView_foldl, implies_true]

theorem State.mapView_turnPast (s : State) (l : Option Nat) (i : Nat) : (s.turnPast l i).mapView = s.mapView := (rfl)

theorem State.mapView_unpark (s : State) (i : Nat) : (s.unpark i).mapView = s.mapView := (rfl)

theorem State.mapView_peerEnd (s : State) (r : Nat) : (s.peerEnd r).mapView = s.mapView := (rfl)

theorem State.mapView_peerAccept (s : State) (i : Nat) (done : Bool) : (s.peerAccept i done).mapView = s.mapView := (rfl)

theorem State.mapView_evictOut (s : State) : (s.evictOut).mapView = s.mapView := by
  simp only [State.evictOut, State.mapView_mk, State.mapView_eta, State.mapView_foldl, implies_true]

theorem State.mapView_takeData (s : State) (o : Nat → Nat) : (s.takeData o).2.mapView = s.mapView := by
  simp only [State.takeData, State.mapView_setRegN, State.mapView_foldl, implies_true]

theorem State.mapView_cacheReg (s : State) (r : Nat) : (s.cacheReg r).mapView = s.mapView := by
  simp only [State.cacheReg, State.mapView_mk, State.mapView_eta, State.mapView_ite, ite_self]

theorem State.mapView_noteReject (s : State) (region code : Nat) : (s.noteReject region code).mapView = s.mapView := by
  simp only [State.noteReject, State.mapView_offer, State.mapView_mk, State.mapView_eta, State.mapView_ite, ite_self]

theorem State.mapView_toRing (s : State) (peer msgid : Nat) : (s.toRing peer msgid).mapView = s.mapView := (rfl)

theorem State.mapView_noteFirsts (s : State) (peer msgid : Nat) (l : List (Nat × Granule)) : (s.noteFirsts peer msgid l).mapView = s.mapView := (rfl)

theorem State.mapView_gotPsn (s : State) (p : Peer) (psn : Nat) (ce : Bool) : (s.gotPsn p psn ce).mapView = s.mapView := (rfl)

theorem State.mapView_extWrites (s : State) (e : RegEnt) (peer psn base : Nat) (add : Bool) (l : List (Nat × Granule)) :
    (s.extWrites e peer psn base add l).mapView = s.mapView := by
  simp only [State.extWrites, State.mapView_reqMem, State.mapView_foldl, implies_true]

theorem State.mapView_passPkt (s : State) (p : Peer) (psn : Nat) (ce : Bool) (k : InPkt) : (s.passPkt p psn ce k).mapView = s.mapView := by
  unfold State.passPkt
  dsimp only
  repeat' split
  all_goals simp only [State.mapView_cacheReg, State.mapView_noteReject, State.mapView_noteFirsts, State.mapView_gotPsn, State.mapView_extWrites,
      State.mapView_mk, State.mapView_eta]

theorem State.mapView_localGrans (s : State) (d : Nat) (e : RegEnt) (base : Nat) (add : Bool) (l : List (Nat × Granule)) :
    (s.localGrans d e base add l).1.mapView = s.mapView :=
  foldl_leaves (fun x : State × Nat => x.1.mapView) (fun x _ => State.mapView_inbound x.1 d _ _ true) l (s, 0)

theorem State.mapView_arriveEach (s : State) (d ctr n : Nat) : (s.arriveEach d ctr n).mapView = s.mapView := by
  simp only [State.arriveEach, State.mapView_arrive, State.mapView_foldl, implies_true]

theorem State.mapView_endRound (s : State) (k : Nat) (r : Round) (done : Bool) : (s.endRound k r done).mapView = s.mapView := by
  simp only [State.endRound, State.mapView_irq, State.mapView_offer, State.mapView_setRound, State.mapView_ite, ite_self]

theorem State.mapView_countRound (s : State) (round n : Nat) : (s.countRound round n).mapView = s.mapView := by
  unfold State.countRound
  split
  all_goals simp only [State.mapView_setRound, State.mapView_endRound, State.mapView_ite, ite_self]

theorem State.mapView_countPkt (s : State) (x : RxPkt) (e : RegEnt) (n : Nat) : (s.countPkt x e n).mapView = s.mapView := by
  unfold State.countPkt
  dsimp only
  repeat' split
  all_goals simp only [State.mapView_reportImage, State.mapView_toRing, State.mapView_arriveEach, State.mapView_mk, State.mapView_eta]

theorem State.mapView_answerRead (s : State) (x : RxPkt) (e : RegEnt) : (s.answerRead x e).mapView = s.mapView := by
  simp only [State.answerRead, State.mapView_addSend, State.mapView_ite, ite_self]

theorem State.mapView_takeReply (s : State) (x : RxPkt) : (s.takeReply x).mapView = s.mapView := by
  unfold State.takeReply
  split
  all_goals simp only [State.mapView_updSt, State.mapView_stopXfer, State.mapView_answered, State.mapView_mk, State.mapView_eta, State.mapView_ite,
      ite_self, State.mapView_foldl, implies_true]

theorem State.mapView_applyPkt (s : State) (x : RxPkt) : (s.applyPkt x).1.mapView = s.mapView := by
  unfold State.applyPkt
  dsimp only
  repeat' split
  all_goals simp only [State.mapView_localGrans, State.mapView_countPkt, State.mapView_answerRead, State.mapView_takeReply]

theorem State.mapView_showPsn (s : State) (x : RxPkt) : (s.showPsn x).mapView = s.mapView := by
  unfold State.showPsn
  split
  all_goals simp only [State.mapView_setPeer, State.mapView_sendAck, State.mapView_ite, ite_self]

theorem State.mapView_sealRound (s : State) (x : RxPkt) (n : Nat) : (s.sealRound x n).mapView = s.mapView := by
  simp only [State.sealRound, State.mapView_countRound, State.mapView_ite, ite_self]

theorem State.mapView_setSeed (s : State) (k : Nat) (v : Option Nat) : (s.setSeed k v).mapView = s.mapView := (rfl)

theorem State.mapView_sendImage (s : State) (l : Layer) (j : Nat) : (s.sendImage l j).mapView = s.mapView := by
  simp only [State.sendImage, State.mapView_addSend, State.mapView_mk, State.mapView_eta, State.mapView_foldl, implies_true]

theorem State.mapView_updEndWith (s : State) (code : Nat) (info : Option Nat) : (s.updEndWith code info).mapView = s.mapView := (rfl)

theorem State.mapView_drainSlot (s : State) (l : Layer) (p : Nat) : (s.drainSlot l p).mapView = s.mapView := by
  simp only [State.drainSlot, State.mapView_updEndWith, State.mapView_mk, State.mapView_eta, State.mapView_ite, ite_self]

theorem State.mapView_auditPage (s : State) (l : Layer) (j : Nat) : (s.auditPage l j).mapView = s.mapView := by
  simp only [State.auditPage, State.mapView_offer, State.mapView_mk, State.mapView_eta, State.mapView_ite, ite_self]

theorem State.mapView_updPage (s : State) (l : Layer) (j : Nat) : (s.updPage l j).mapView = s.mapView := by
  simp only [State.updPage, State.mapView_sendImage, State.mapView_drainSlot, State.mapView_auditPage, State.mapView_mk, State.mapView_eta,
      State.mapView_ite, ite_self]

theorem State.mapView_readStep (s : State) : (s.readStep).mapView = s.mapView := by
  simp only [State.readStep, State.mapView_updEndWith, State.mapView_mk, State.mapView_eta, State.mapView_ite, ite_self]

theorem State.mapView_readWhenUp (s : State) : (s.readWhenUp).mapView = s.mapView := by
  simp only [State.readWhenUp, State.mapView_readStep, State.mapView_ite, ite_self]

theorem State.mapView_skipLayer (s : State) (l : Layer) (i : Nat) : (s.skipLayer l i).mapView = s.mapView := by
  simp only [State.skipLayer, State.mapView_drainSlot, State.mapView_mk, State.mapView_eta, State.mapView_foldl, implies_true]

theorem State.mapView_postLayer (s : State) (l : Layer) : (s.postLayer l).mapView = s.mapView := (rfl)

theorem State.mapView_lossEnd (s : State) : (s.lossEnd).mapView = s.mapView := by
  simp only [State.lossEnd, State.mapView_setRegN, State.mapView_ite, ite_self]

theorem State.mapView_clearSkip (s : State) : (s.clearSkip).mapView = s.mapView := by
  simp only [State.clearSkip, State.mapView_mk, State.mapView_eta, State.mapView_foldl, implies_true]

theorem State.mapView_readLst (s : State) (c o w : Nat) : (s.readLst c o w).2.mapView = s.mapView := by
  unfold State.readLst
  dsimp only
  repeat' split
  all_goals simp only [State.mapView_free, State.mapView_updSt]

theorem State.mapView_readCore (s : State) (c o : Nat) : (s.readCore c o).2.mapView = s.mapView := by
  unfold State.readCore
  dsimp only
  repeat' split
  all_goals simp only [State.mapView_free, State.mapView_readLst]

theorem State.mapView_ctrlRead (s : State) (req : Requester) (o : Nat) : (s.ctrlRead req o).2.mapView = s.mapView := by
  unfold State.ctrlRead
  dsimp only
  repeat' split
  all_goals simp only [State.mapView_captureTb, State.mapView_readCore]

theorem State.mapView_tickTime (s : State) : (tickTime s).mapView = s.mapView := by
  simp only [tickTime, State.mapView_mk, State.mapView_eta, State.mapView_ite, ite_self]

theorem State.mapView_tickIrq (s : State) : (tickIrq s).mapView = s.mapView := by
  simp only [tickIrq, State.mapView_mk, State.mapView_eta, State.mapView_ite, ite_self]

theorem State.mapView_tickEntry (s : State) : (tickEntry s).mapView = s.mapView := by
  unfold tickEntry
  split
  all_goals simp only [State.mapView_mk, State.mapView_eta, State.mapView_ite, ite_self]

theorem State.mapView_tickHour (s : State) : (tickHour s).mapView = s.mapView := by
  simp only [tickHour, State.mapView_persist, State.mapView_ite, ite_self]

theorem State.mapView_idle (s : State) : (idle s).mapView = s.mapView := by
  simp only [idle, State.mapView_tickTime, State.mapView_tickIrq, State.mapView_tickEntry, State.mapView_tickHour]

theorem State.mapView_writePlain (s : State) (req : Requester) (o : Nat) (v : W32) : (s.writePlain req o v).mapView = s.mapView := (rfl)

theorem State.mapView_writeRing (s : State) (p w : Nat) (v : W32) : (s.writeRing p w v).mapView = s.mapView := by
  unfold State.writeRing
  split
  all_goals simp only [State.mapView_setRing, State.mapView_ite, ite_self]

theorem State.mapView_writeWake (s : State) (v : W32) : (s.writeWake v).mapView = s.mapView := (rfl)

theorem State.mapView_apStart (s : State) (r : TReq) (b : Bool) (a : Nat) : (s.apStart r b a).mapView = s.mapView := by
  simp only [State.apStart, State.mapView_askMem, State.mapView_answer, State.mapView_mk, State.mapView_eta, State.mapView_ite, ite_self,
      State.mapView_foldl, implies_true]

theorem State.mapView_portGo (s : State) (p : PortId) : (s.portGo p).mapView = s.mapView := by
  unfold State.portGo
  split
  · rw [State.mapView_readWhenUp, State.mapView_pumpMem]
  · exact State.mapView_pumpMem _
  · exact State.mapView_framesOut _ _
  · have htrsp : ∀ t : State, (t.trspWait.foldl (fun (t : State) b => { t with trsp := some b }) { t with trspWait := [] }).mapView = t.mapView :=
      fun t => by simp only [State.mapView_foldl, State.mapView_mk, State.mapView_eta, implies_true]
    dsimp only
    refine (foldl_leaves State.mapView (fun t c => State.mapView_fetchNext t _) _ _).trans ?_
    rw [State.mapView_ite, State.mapView_logFlush, ite_self, State.mapView_evictOut, htrsp]

theorem State.mapView_withFetchWord (s : State) (nbits w : Nat) : (s.withFetchWord nbits w).mapView = s.mapView := (rfl)

end Sys2Proof.Machine
end

section
/-! Commands that leave the map as it is (R30). -/

namespace Sys2Proof.Machine

/-- The outcome, where it is a next state, leaves the map as it was. -/
def State.Keeps (s : State) (o : Host.Outcome State Fault Refusal) : Prop := ∀ t, o = .next t → t.mapView = s.mapView

theorem State.keeps_next (s t : State) : s.Keeps (.next t) ↔ t.mapView = s.mapView :=
  ⟨fun h => h t rfl, fun h _ ht => (Host.Outcome.next.inj ht) ▸ h⟩

theorem State.keeps_refused (s : State) (r : Refusal) : s.Keeps (.refused r) := fun _ h => nomatch h

theorem State.keeps_fault (s : State) (r : Fault) : s.Keeps (.fault r) := fun _ h => nomatch h

theorem State.keeps_ite (s : State) (c : Prop) [Decidable c] (a b : Host.Outcome State Fault Refusal) :
    s.Keeps (if c then a else b) = if c then s.Keeps a else s.Keeps b := apply_ite _ _ _ _

theorem State.keeps_onCore (s : State) (c : Nat) (f : CEnv → CRes → CRes) : s.Keeps (s.onCore c f) := by
  simp only [State.onCore, State.keeps_ite, State.keeps_next, State.mapView_runCore, ite_self]

theorem State.keeps_onCoreFree (s : State) (c : Nat) (f : CEnv → CRes → CRes) : s.Keeps (s.onCoreFree c f) := by
  simp only [State.onCoreFree, State.keeps_ite, State.keeps_next, State.mapView_runCore, ite_self]

theorem State.keeps_execOtpPgmcmdGo (req : Requester) (field : BitVec 3) (s : State) : s.Keeps (execOtpPgmcmdGo req field s) := by
  unfold execOtpPgmcmdGo
  dsimp only
  repeat' split
  all_goals simp only [State.keeps_next, State.mapView_mk, State.mapView_eta]

theorem State.keeps_execOtpTestProgram (field : BitVec 3) (data : List Byte) (s : State) : s.Keeps (execOtpTestProgram field data s) := by
  unfold execOtpTestProgram
  dsimp only
  repeat' split
  all_goals simp only [State.keeps_next, State.mapView_mk, State.mapView_eta]

theorem State.keeps_execOtpProgramComplete (ok : Bool) (s : State) : s.Keeps (execOtpProgramComplete ok s) := by
  unfold execOtpProgramComplete
  split
  all_goals simp only [State.mapView_otpAbort, State.keeps_ite, State.keeps_next, State.mapView_mk, State.mapView_eta, ite_self]

theorem State.keeps_execVreqWrite (req : Requester) (v : W32) (s : State) : s.Keeps (execVreqWrite req v s) := by
  simp only [execVreqWrite, State.mapView_forward, State.mapView_clamped, State.keeps_ite, State.keeps_next, State.mapView_mk, State.mapView_eta,
      State.mapView_ite, ite_self]

theorem State.keeps_execCeilreqWrite (req : Requester) (v : W32) (s : State) : s.Keeps (execCeilreqWrite req v s) := by
  simp only [execCeilreqWrite, State.mapView_clamped, State.keeps_ite, State.keeps_next, State.mapView_mk, State.mapView_eta, State.mapView_ite,
      ite_self]

theorem State.keeps_execTemperWrite (req : Requester) (u : UnitNo) (v : W32) (s : State) : s.Keeps (execTemperWrite req u v s) := by
  simp only [execTemperWrite, State.mapView_setAge, State.mapView_clamped, State.mapView_writeAge, State.keeps_ite, State.keeps_next,
      State.mapView_ite, ite_self]

theorem State.keeps_execHeldShorteningApply (u : UnitNo) (s : State) : s.Keeps (execHeldShorteningApply u s) := by
  simp only [execHeldShorteningApply, State.mapView_setAge, State.mapView_forward, State.keeps_ite, State.keeps_next, ite_self]

theorem State.keeps_execPaceWindowEnd (beats want : List W32) (s : State) : s.Keeps (execPaceWindowEnd beats want s) := by
  simp only [execPaceWindowEnd, State.keeps_ite, State.keeps_next, State.mapView_mk, State.mapView_eta, ite_self]

theorem State.keeps_execPaceCheck (beats want : List W32) (s : State) : s.Keeps (execPaceCheck beats want s) := by
  unfold execPaceCheck
  dsimp only
  repeat' split
  all_goals simp only [State.keeps_next, State.mapView_mk, State.mapView_eta]

theorem State.keeps_execSensorReading (src : BitVec 4) (v : W16) (s : State) : s.Keeps (execSensorReading src v s) := by
  simp only [execSensorReading, State.mapView_settle, State.mapView_armSc, State.keeps_ite, State.keeps_next, State.keeps_refused,
      State.mapView_mk, State.mapView_eta, ite_self]

theorem State.keeps_execSensorStale (src : BitVec 4) (s : State) : s.Keeps (execSensorStale src s) := by
  simp only [execSensorStale, State.mapView_settle, State.keeps_ite, State.keeps_next, State.keeps_refused, State.mapView_mk, State.mapView_eta,
      ite_self]

theorem State.keeps_execThermalTrip (s : State) : s.Keeps (execThermalTrip s) := by
  simp only [execThermalTrip, State.mapView_quenchNow, State.keeps_ite, State.keeps_next, ite_self]

theorem State.keeps_execCoolCondition (s : State) : s.Keeps (execCoolCondition s) := by
  unfold execCoolCondition
  split
  all_goals simp only [State.keeps_ite, State.keeps_next, State.mapView_mk, State.mapView_eta, ite_self]

theorem State.keeps_execQcmdResume (req : Requester) (s : State) : s.Keeps (execQcmdResume req s) := by
  simp only [execQcmdResume, State.mapView_settle, State.mapView_forward, State.keeps_ite, State.keeps_next, State.mapView_mk, State.mapView_eta,
      ite_self]

theorem State.keeps_execPatinaMeasurement (u : UnitNo) (rcount temp : W16) (canary : Bool) (s : State) : s.Keeps
    (execPatinaMeasurement u rcount temp canary s) := by
  simp only [execPatinaMeasurement, State.mapView_setAge, State.mapView_driftOf, State.mapView_offerUnit, State.mapView_canary, State.keeps_ite,
      State.keeps_next, State.mapView_ite, ite_self]

theorem State.keeps_execTmpcmdMeasure (req : Requester) (u : BitVec 7) (s : State) : s.Keeps (execTmpcmdMeasure req u s) := by
  simp only [execTmpcmdMeasure, State.mapView_setRole, State.keeps_ite, State.keeps_next, State.mapView_mk, State.mapView_eta, State.mapView_ite,
      ite_self]

theorem State.keeps_execMarginSearchComplete (minoff : Option (BitVec 5)) (s : State) : s.Keeps (execMarginSearchComplete minoff s) := by
  unfold execMarginSearchComplete
  dsimp only
  repeat' split
  all_goals simp only [State.mapView_searchFail, State.keeps_next, State.mapView_mk, State.mapView_eta]

theorem State.keeps_execTmpcmdCommit (req : Requester) (u : BitVec 7) (s : State) : s.Keeps (execTmpcmdCommit req u s) := by
  simp only [execTmpcmdCommit, State.mapView_setRole, State.mapView_persistNow, State.mapView_setAge, State.mapView_forward,
      State.mapView_writeAge, State.keeps_ite, State.keeps_next, State.mapView_mk, State.mapView_eta, ite_self]

theorem State.keeps_execTmpcmdAbort (req : Requester) (u : BitVec 7) (s : State) : s.Keeps (execTmpcmdAbort req u s) := by
  simp only [execTmpcmdAbort, State.mapView_endTemper, State.keeps_ite, State.keeps_next, State.mapView_mk, State.mapView_eta, ite_self]

theorem State.keeps_execDeadlineWrite (req : Requester) (k : BitVec 4) (word : BitVec 2) (v : W32) (s : State) : s.Keeps
    (execDeadlineWrite req k word v s) := by
  unfold execDeadlineWrite
  split
  all_goals simp only [State.mapView_setDl, State.keeps_ite, State.keeps_next, ite_self]

theorem State.keeps_execDeadlineFire (k : BitVec 4) (s : State) : s.Keeps (execDeadlineFire k s) := by
  simp only [execDeadlineFire, State.mapView_wakeSource, State.mapView_cmpIrq, State.mapView_setDl, State.keeps_ite, State.keeps_next,
      State.mapView_ite, ite_self]

theorem State.keeps_execSensorComparatorFire (k : BitVec 2) (s : State) : s.Keeps (execSensorComparatorFire k s) := by
  unfold execSensorComparatorFire
  split
  all_goals simp only [State.mapView_wakeSource, State.mapView_cmpIrq, State.mapView_setSc, State.keeps_ite, State.keeps_next, State.mapView_ite,
      ite_self]

theorem State.keeps_execVcoreEnvelopeExcursion (s : State) : s.Keeps (execVcoreEnvelopeExcursion s) := by
  unfold execVcoreEnvelopeExcursion
  split
  all_goals simp only [State.mapView_offer, State.keeps_ite, State.keeps_next, State.mapView_mk, State.mapView_eta, ite_self]

theorem State.keeps_execReferenceLost (s : State) : s.Keeps (execReferenceLost s) := by
  simp only [execReferenceLost, State.mapView_offer, State.keeps_ite, State.keeps_next, State.mapView_mk, State.mapView_eta, ite_self]

theorem State.keeps_execReferenceResumed (s : State) : s.Keeps (execReferenceResumed s) := by
  simp only [execReferenceResumed, State.keeps_next, State.mapView_mk, State.mapView_eta]

theorem State.keeps_execTbloRead (req : Requester) (s : State) : s.Keeps (execTbloRead req s) := by
  simp only [execTbloRead, State.mapView_captureTb, State.keeps_ite, State.keeps_next, ite_self]

theorem State.keeps_execLdcmdColdLoad (req : Requester) (s : State) : s.Keeps (execLdcmdColdLoad req s) := by
  simp only [execLdcmdColdLoad, State.keeps_ite, State.keeps_next, State.mapView_mk, State.mapView_eta, ite_self]

theorem State.keeps_execLdcmdHandoffLoad (req : Requester) (s : State) : s.Keeps (execLdcmdHandoffLoad req s) := by
  simp only [execLdcmdHandoffLoad, State.keeps_ite, State.keeps_next, State.mapView_mk, State.mapView_eta, ite_self]

theorem State.keeps_execFirmwareLoadComplete (img : List Byte) (accepts : Bool) (s : State) : s.Keeps (execFirmwareLoadComplete img accepts s) := by
  unfold execFirmwareLoadComplete
  split
  all_goals simp only [State.mapView_offer, State.mapView_log, State.mapView_fwStart, State.mapView_ackCarried, State.keeps_ite, State.keeps_next,
      State.mapView_mk, State.mapView_eta, ite_self]

theorem State.keeps_execIfverWrite (req : Requester) (v : W32) (s : State) : s.Keeps (execIfverWrite req v s) := by
  simp only [execIfverWrite, State.keeps_ite, State.keeps_next, State.mapView_mk, State.mapView_eta, ite_self]

theorem State.keeps_execCmdAck (req : Requester) (v : W32) (s : State) : s.Keeps (execCmdAck req v s) := by
  unfold execCmdAck
  dsimp only
  split
  · exact (s.keeps_next _).mpr rfl
  · exact (s.keeps_next _).mpr (s.mapView_command _ _ _ _ (fun t => by split <;> rfl))

theorem State.keeps_execCmdUpdate (req : Requester) (v : W32) (s : State) : s.Keeps (execCmdUpdate req v s) := by
  unfold execCmdUpdate
  split
  all_goals simp only [State.mapView_command, State.keeps_next, State.mapView_mk, State.mapView_eta, implies_true]

theorem State.keeps_execCmdPolicy (req : Requester) (v : W32) (s : State) : s.Keeps (execCmdPolicy req v s) := by
  unfold execCmdPolicy
  split
  all_goals simp only [State.mapView_command, State.keeps_next, State.mapView_mk, State.mapView_eta, implies_true]

theorem State.keeps_execCmdSave (req : Requester) (v : W32) (s : State) : s.Keeps (execCmdSave req v s) := by
  unfold execCmdSave
  split
  all_goals simp only [State.mapView_persist, State.mapView_command, State.keeps_next, implies_true]

theorem State.keeps_execWdkick (req : Requester) (s : State) : s.Keeps (execWdkick req s) := by
  simp only [execWdkick, State.keeps_ite, State.keeps_next, State.mapView_mk, State.mapView_eta, ite_self]

theorem State.keeps_execWatchdogExpiry (imageBad : Bool) (s : State) : s.Keeps (execWatchdogExpiry imageBad s) := by
  simp only [execWatchdogExpiry, State.mapView_mgmtRestart, State.keeps_ite, State.keeps_next, ite_self]

theorem State.keeps_execColdResetRelease (tierA tierB : Bool) (s : State) : s.Keeps (execColdResetRelease tierA tierB s) := by
  simp only [execColdResetRelease, State.mapView_loadOtp, State.mapView_loadTaps, State.mapView_vcoreOn, State.keeps_ite, State.keeps_next,
      State.mapView_mk, State.mapView_eta, ite_self]

theorem State.keeps_execBlockResetRelease (s : State) : s.Keeps (execBlockResetRelease s) := by
  simp only [execBlockResetRelease, State.mapView_startInit, State.keeps_ite, State.keeps_next, State.mapView_mk, State.mapView_eta,
      State.mapView_ite, ite_self]

theorem State.keeps_execInitComplete (s : State) : s.Keeps (execInitComplete s) := by
  simp only [execInitComplete, State.mapView_irq, State.mapView_forward, State.keeps_ite, State.keeps_next, State.mapView_mk, State.mapView_eta,
      State.mapView_ite, ite_self]

theorem State.keeps_execPscmdActive (req : Requester) (s : State) : s.Keeps (execPscmdActive req s) := by
  simp only [execPscmdActive, State.mapView_forward, State.mapView_psRequest, State.keeps_next, State.mapView_mk, State.mapView_eta, implies_true]

theorem State.keeps_execPscmdIdle (req : Requester) (s : State) : s.Keeps (execPscmdIdle req s) := by
  simp only [execPscmdIdle, State.mapView_forward, State.mapView_psRequest, State.keeps_next, State.mapView_mk, State.mapView_eta, implies_true]

theorem State.keeps_execPscmdRetention (req : Requester) (s : State) : s.Keeps (execPscmdRetention req s) := by
  simp only [execPscmdRetention, State.mapView_psRequest, State.keeps_next, State.mapView_mk, State.mapView_eta, implies_true]

theorem State.keeps_execPscmdDeepSleep (req : Requester) (s : State) : s.Keeps (execPscmdDeepSleep req s) := by
  simp only [execPscmdDeepSleep, State.mapView_psRequest, State.keeps_next, State.mapView_mk, State.mapView_eta, implies_true]

theorem State.keeps_execHostWake (s : State) : s.Keeps (execHostWake s) := by
  simp only [execHostWake, State.mapView_wakeSource, State.keeps_ite, State.keeps_next, ite_self]

theorem State.keeps_execLinkActivity (s : State) : s.Keeps (execLinkActivity s) := by
  simp only [execLinkActivity, State.mapView_wakeSource, State.keeps_ite, State.keeps_next, ite_self]

theorem State.keeps_execPowerGood (s : State) : s.Keeps (execPowerGood s) := by
  unfold execPowerGood
  split
  all_goals simp only [State.mapView_log, State.mapView_startInit, State.mapView_afterRetention, State.keeps_ite, State.keeps_next,
      State.mapView_mk, State.mapView_eta, State.mapView_ite, ite_self]

theorem State.keeps_execStcmdStart (req : Requester) (s : State) : s.Keeps (execStcmdStart req s) := by
  simp only [execStcmdStart, State.keeps_ite, State.keeps_next, State.mapView_mk, State.mapView_eta, ite_self]

theorem State.keeps_execStcmdAbort (req : Requester) (s : State) : s.Keeps (execStcmdAbort req s) := by
  simp only [execStcmdAbort, State.mapView_abortSelfTest, State.keeps_ite, State.keeps_next, ite_self]

theorem State.keeps_execSelfTestComplete (slabs : List SlabNo) (cross : List CoreNo) (hubs : List (BitVec 2)) (s : State) : s.Keeps
    (execSelfTestComplete slabs cross hubs s) := by
  simp only [execSelfTestComplete, State.mapView_offer, State.mapView_offerCore, State.mapView_forward, State.mapView_mapChange,
      State.mapView_retire, State.mapView_remap, State.keeps_ite, State.keeps_next, State.mapView_mk, State.mapView_eta, State.mapView_ite,
      State.mapView_foldl, ite_self, implies_true]

theorem State.keeps_onCarry (s : State) (c : Nat) (i : Instr) (run : ExecF) : s.Keeps (s.onCarry c i run) := by
  unfold State.onCarry
  repeat' split
  all_goals simp only [State.keeps_onCore, State.keeps_onCoreFree, State.keeps_next]

theorem State.keeps_execFillDeadlineExpiry (c : CoreNo) (arr : Bool) (s : State) : s.Keeps (execFillDeadlineExpiry c arr s) := by
  simp only [execFillDeadlineExpiry, State.keeps_onCore, State.keeps_ite, State.keeps_next, ite_self]

theorem State.keeps_execNantrapArm (req : Requester) (c : CoreNo) (s : State) : s.Keeps (execNantrapArm req c s) := by
  simp only [execNantrapArm, State.mapView_updSt, State.keeps_ite, State.keeps_next, ite_self]

theorem State.keeps_execNantrapClearFired (req : Requester) (c : CoreNo) (s : State) : s.Keeps (execNantrapClearFired req c s) := by
  simp only [execNantrapClearFired, State.mapView_updSt, State.keeps_ite, State.keeps_next, ite_self]

theorem State.keeps_execMatBypassWrite (req : Requester) (c : CoreNo) (arr : Bool) (unit : BitVec 3) (valid : Bool) (s : State) : s.Keeps
    (execMatBypassWrite req c arr unit valid s) := by
  simp only [execMatBypassWrite, State.mapView_updCore, State.mapView_updSt, State.mapView_persistNow, State.keeps_ite, State.keeps_next, ite_self]

theorem State.keeps_execBypassHeldApply (c : CoreNo) (arr : Bool) (s : State) : s.Keeps (execBypassHeldApply c arr s) := by
  unfold execBypassHeldApply
  split
  all_goals simp only [State.mapView_updCore, State.mapView_persistNow, State.keeps_ite, State.keeps_next, ite_self]

theorem State.keeps_execSemwaitTimeout (c : CoreNo) (s : State) : s.Keeps (execSemwaitTimeout c s) := by
  simp only [execSemwaitTimeout, State.keeps_onCoreFree, State.keeps_ite, State.keeps_next, ite_self]

theorem State.keeps_execStreamReadError (c : CoreNo) (s : State) : s.Keeps (execStreamReadError c s) := by
  unfold execStreamReadError
  split
  all_goals simp only [State.mapView_readError, State.keeps_next, State.mapView_mk, State.mapView_eta]

theorem State.keeps_execStreamStart (c : CoreNo) (s : State) : s.Keeps (execStreamStart c s) := by
  unfold execStreamStart
  dsimp only
  repeat' split
  all_goals simp only [State.mapView_updRun, State.mapView_fetchNext, State.keeps_next]

theorem State.keeps_execLongWordIssue (c : CoreNo) (s : State) : s.Keeps (execLongWordIssue c s) := by
  simp only [execLongWordIssue, State.mapView_runCore, State.mapView_fetchNext, State.mapView_noteBranch, State.keeps_ite, State.keeps_next, ite_self]

theorem State.keeps_execDeferredEntryAck (slab : SlabNo) (k : Nat) (s : State) : s.Keeps (execDeferredEntryAck slab k s) := by
  unfold execDeferredEntryAck
  split
  all_goals simp only [State.keeps_ite, State.keeps_next, State.mapView_mk, State.mapView_eta, ite_self]

theorem State.keeps_execQcountIncrement (c : CoreNo) (id : W16) (s : State) : s.Keeps (execQcountIncrement c id s) := by
  unfold execQcountIncrement
  dsimp only
  repeat' split
  all_goals simp only [State.mapView_setEnt, State.mapView_miss, State.mapView_grantInc, State.keeps_next]

theorem State.keeps_execQcountDecrement (c : CoreNo) (id : W16) (s : State) : s.Keeps (execQcountDecrement c id s) := by
  unfold execQcountDecrement
  dsimp only
  repeat' split
  all_goals simp only [State.mapView_updRun, State.mapView_setEnt, State.keeps_next]

theorem State.keeps_execStrcmdSwapOut (req : Requester) (ent : BitVec 12) (s : State) : s.Keeps (execStrcmdSwapOut req ent s) := by
  simp only [execStrcmdSwapOut, State.mapView_decideOut, State.mapView_strWait, State.keeps_ite, State.keeps_next, ite_self]

theorem State.keeps_execSwapInStart (s : State) : s.Keeps (execSwapInStart s) := by
  unfold execSwapInStart
  repeat' split
  all_goals simp only [State.mapView_startSwapIn, State.keeps_next]

theorem State.keeps_execStrcmdSwapIn (req : Requester) (id : W16) (s : State) : s.Keeps (execStrcmdSwapIn req id s) := by
  simp only [execStrcmdSwapIn, State.mapView_strWait, State.mapView_decideIn, State.keeps_ite, State.keeps_next, ite_self]

theorem State.keeps_execSwapStateAcknowledged (ent : BitVec 12) (s : State) : s.Keeps (execSwapStateAcknowledged ent s) := by
  unfold execSwapStateAcknowledged
  split
  all_goals simp only [State.mapView_strWake, State.mapView_swapPhase, State.mapView_dropSwap, State.mapView_ackScore, State.keeps_ite,
      State.keeps_next, State.mapView_ite, ite_self]

theorem State.keeps_execSwapMemoryDone (ent : BitVec 12) (err : Bool) (s : State) : s.Keeps (execSwapMemoryDone ent err s) := by
  unfold execSwapMemoryDone
  dsimp only
  repeat' split
  all_goals simp only [State.mapView_endSwapOut, State.mapView_failSwapIn, State.mapView_endSwapIn, State.keeps_next]

theorem State.keeps_execReswaitExpiry (c : CoreNo) (s : State) : s.Keeps (execReswaitExpiry c s) := by
  unfold execReswaitExpiry
  dsimp only
  repeat' split
  all_goals simp only [State.mapView_updRun, State.mapView_haltCore, State.keeps_next]

theorem State.keeps_execSqtailWrite (req : Requester) (p : BitVec 3) (v : W32) (s : State) : s.Keeps (execSqtailWrite req p v s) := by
  simp only [execSqtailWrite, State.mapView_forward, State.mapView_setRing, State.keeps_ite, State.keeps_next, State.mapView_mk, State.mapView_eta,
      State.mapView_ite, ite_self]

theorem State.keeps_execCqheadWrite (req : Requester) (p : BitVec 3) (v : W32) (s : State) : s.Keeps (execCqheadWrite req p v s) := by
  simp only [execCqheadWrite, State.mapView_setRing, State.keeps_ite, State.keeps_next, ite_self]

theorem State.keeps_execCompletionEntryWrite (p : BitVec 3) (s : State) : s.Keeps (execCompletionEntryWrite p s) := by
  unfold execCompletionEntryWrite
  dsimp only
  repeat' split
  all_goals simp only [State.mapView_setRing, State.mapView_putCompletion, State.keeps_next]

theorem State.keeps_execSubmissionEntryRead (p : BitVec 3) (words : List W32) (s : State) : s.Keeps (execSubmissionEntryRead p words s) := by
  simp only [execSubmissionEntryRead, State.mapView_setRing, State.mapView_complete, State.mapView_bind, State.keeps_ite, State.keeps_next, ite_self]

theorem State.keeps_execStreamComplete (k : Nat) (s : State) : s.Keeps (execStreamComplete k s) := by
  unfold execStreamComplete
  split
  all_goals simp only [State.mapView_complete, State.keeps_ite, State.keeps_next, State.mapView_mk, State.mapView_eta, ite_self]

theorem State.keeps_execTransferStart (c : CoreNo) (exec : Bool) (s : State) : s.Keeps (execTransferStart c exec s) := by
  unfold execTransferStart
  split
  all_goals simp only [State.mapView_runCore, State.mapView_startXfer, State.keeps_ite, State.keeps_next, ite_self]

theorem State.keeps_execPageWalkComplete (c : CoreNo) (exec : Bool) (k : Nat) (s : State) : s.Keeps (execPageWalkComplete c exec k s) := by
  unfold execPageWalkComplete
  dsimp only
  repeat' split
  all_goals simp only [State.mapView_updXfer, State.mapView_addTlb, State.mapView_stopAt, State.mapView_runXfer, State.keeps_next]

theorem State.keeps_execDmresumeFetch (_req : Requester) (c : CoreNo) (s : State) : s.Keeps (execDmresumeFetch _req c s) := by
  simp only [execDmresumeFetch, State.mapView_resumeQueue, State.keeps_ite, State.keeps_next, ite_self]

theorem State.keeps_execDmresumeExec (_req : Requester) (c : CoreNo) (s : State) : s.Keeps (execDmresumeExec _req c s) := by
  simp only [execDmresumeExec, State.mapView_resumeQueue, State.keeps_ite, State.keeps_next, ite_self]

theorem State.keeps_execPtinvWrite (_req : Requester) (v : W32) (s : State) : s.Keeps (execPtinvWrite _req v s) := by
  simp only [execPtinvWrite, State.keeps_ite, State.keeps_next, State.mapView_mk, State.mapView_eta, ite_self]

theorem State.keeps_execPtinvDone (s : State) : s.Keeps (execPtinvDone s) := by
  simp only [execPtinvDone, State.keeps_ite, State.keeps_next, State.mapView_mk, State.mapView_eta, ite_self]

theorem State.keeps_execTransferComplete (c : CoreNo) (exec : Bool) (k : Nat) (s : State) : s.Keeps (execTransferComplete c exec k s) := by
  unfold execTransferComplete
  split
  all_goals simp only [State.mapView_updCore, State.mapView_setXfers, State.mapView_postOnDone, State.keeps_ite, State.keeps_next, ite_self]

theorem State.keeps_execMeshGranuleArrival (k : Nat) (s : State) : s.Keeps (execMeshGranuleArrival k s) := by
  unfold execMeshGranuleArrival
  dsimp only
  repeat' split
  all_goals simp only [State.mapView_updSt, State.mapView_ackXfer, State.mapView_slotHit, State.mapView_inbound, State.mapView_arrive,
      State.keeps_next, State.mapView_mk, State.mapView_eta]

theorem State.keeps_execSemaphorePostArrival (k : Nat) (s : State) : s.Keeps (execSemaphorePostArrival k s) := by
  unfold execSemaphorePostArrival
  dsimp only
  repeat' split
  all_goals simp only [State.mapView_haltCore, State.mapView_runCore, State.mapView_ackXfer, State.keeps_next, State.mapView_mk, State.mapView_eta]

theorem State.keeps_execQueueItemArrive (k : Nat) (s : State) : s.Keeps (execQueueItemArrive k s) := by
  unfold execQueueItemArrive
  dsimp only
  repeat' split
  all_goals simp only [State.mapView_updSt, State.mapView_haltCore, State.mapView_ackXfer, State.keeps_next, State.mapView_mk, State.mapView_eta]

theorem State.keeps_execQueueWaitTimeout (c : CoreNo) (s : State) : s.Keeps (execQueueWaitTimeout c s) := by
  unfold execQueueWaitTimeout
  dsimp only
  repeat' split
  all_goals simp only [State.mapView_haltCore, State.keeps_next]

theorem State.keeps_execMemResponse (tierB : Bool) (port : BitVec 4) (id : BitVec 8) (err : Bool) (s : State) : s.Keeps
    (execMemResponse tierB port id err s) := by
  simp only [execMemResponse, State.mapView_memAnswer, State.keeps_ite, State.keeps_next, State.keeps_fault, State.mapView_mk, State.mapView_eta,
      ite_self]

theorem State.keeps_execMemRequestExpiry (tierB : Bool) (port : BitVec 4) (id : BitVec 8) (s : State) : s.Keeps
    (execMemRequestExpiry tierB port id s) := by
  unfold execMemRequestExpiry
  split
  all_goals simp only [State.mapView_countMpErr, State.mapView_memFail, State.keeps_ite, State.keeps_next, State.mapView_mk, State.mapView_eta,
      ite_self]

theorem State.keeps_execHostMasterResponse (tag : BitVec 8) (err : Bool) (data : BitVec 512) (s : State) : s.Keeps
    (execHostMasterResponse tag err data s) := by
  simp only [execHostMasterResponse, State.mapView_hostAnswer, State.keeps_ite, State.keeps_next, State.keeps_fault, State.mapView_mk,
      State.mapView_eta, ite_self]

theorem State.keeps_execCastcmdLoadCasting (req : Requester) (s : State) : s.Keeps (execCastcmdLoadCasting req s) := by
  simp only [execCastcmdLoadCasting, State.mapView_castRefuse, State.keeps_ite, State.keeps_next, State.mapView_mk, State.mapView_eta, ite_self]

theorem State.keeps_execCastingLoadComplete (img : List Byte) (s : State) : s.Keeps (execCastingLoadComplete img s) := by
  unfold execCastingLoadComplete
  dsimp only
  repeat' split
  all_goals simp only [State.mapView_installCasting, State.mapView_castEnd, State.mapView_stageBytes, State.keeps_next]

theorem State.keeps_execCastcmdLoadPlating (req : Requester) (slot : BitVec 3) (s : State) : s.Keeps (execCastcmdLoadPlating req slot s) := by
  simp only [execCastcmdLoadPlating, State.mapView_castRefuse, State.keeps_ite, State.keeps_next, State.mapView_mk, State.mapView_eta, ite_self]

theorem State.keeps_execPlatingLoadComplete (img : List Byte) (s : State) : s.Keeps (execPlatingLoadComplete img s) := by
  unfold execPlatingLoadComplete
  dsimp only
  repeat' split
  all_goals simp only [State.mapView_castEnd, State.mapView_stageBytes, State.keeps_next, State.mapView_mk, State.mapView_eta]

theorem State.keeps_execCastcmdEvict (req : Requester) (slot : BitVec 3) (s : State) : s.Keeps (execCastcmdEvict req slot s) := by
  simp only [execCastcmdEvict, State.mapView_castEnd, State.mapView_castRefuse, State.keeps_ite, State.keeps_next, State.mapView_mk,
      State.mapView_eta, ite_self]

theorem State.keeps_execPlswSwitch (req : Requester) (slot : BitVec 3) (s : State) : s.Keeps (execPlswSwitch req slot s) := by
  unfold execPlswSwitch
  repeat' split
  all_goals simp only [State.mapView_startSwitch, State.mapView_swRefuse, State.keeps_next]

theorem State.keeps_execPlswOff (req : Requester) (parts : BitVec 8) (s : State) : s.Keeps (execPlswOff req parts s) := by
  simp only [execPlswOff, State.mapView_startSwitch, State.mapView_swRefuse, State.keeps_ite, State.keeps_next, ite_self]

theorem State.keeps_execPlatingSwitchApply (s : State) : s.Keeps (execPlatingSwitchApply s) := by
  unfold execPlatingSwitchApply
  dsimp only
  repeat' split
  all_goals simp only [State.mapView_updCore, State.mapView_reown, State.mapView_newLimits, State.mapView_setO2, State.keeps_next,
      State.mapView_mk, State.mapView_eta, State.mapView_foldl, implies_true]

theorem State.keeps_execRecoveryDrainComplete (c : CoreNo) (s : State) : s.Keeps (execRecoveryDrainComplete c s) := by
  simp only [execRecoveryDrainComplete, State.mapView_replayCore, State.mapView_fetchNext, State.keeps_ite, State.keeps_next, ite_self]

theorem State.keeps_execFaultRecordPlace (k : Nat) (s : State) : s.Keeps (execFaultRecordPlace k s) := by
  unfold execFaultRecordPlace
  split
  all_goals simp only [State.mapView_recWords, State.keeps_ite, State.keeps_next, State.mapView_mk, State.mapView_eta, ite_self]

theorem State.keeps_execFqheadWrite (req : Requester) (v : W32) (s : State) : s.Keeps (execFqheadWrite req v s) := by
  simp only [execFqheadWrite, State.mapView_consumeN, State.keeps_ite, State.keeps_next, State.mapView_ite, ite_self]

theorem State.keeps_execEndcmd (req : Requester) (lslab : BitVec 6) (core : BitVec 5) (s : State) : s.Keeps (execEndcmd req lslab core s) := by
  unfold execEndcmd
  dsimp only
  repeat' split
  all_goals simp only [State.mapView_endStream, State.keeps_next, State.mapView_mk, State.mapView_eta]

theorem State.keeps_execCmdEnd (req : Requester) (v : W32) (s : State) : s.Keeps (execCmdEnd req v s) := by
  refine (s.keeps_next _).mpr (s.mapView_command _ _ _ _ (fun t => ?_))
  dsimp only
  split
  · rfl
  · split
    · rfl
    · split
      · rfl
      · exact t.mapView_endStream _

theorem State.keeps_execSubcmdReplay (req : Requester) (logical : BitVec 6) (s : State) : s.Keeps (execSubcmdReplay req logical s) := by
  unfold execSubcmdReplay
  repeat' split
  all_goals simp only [State.mapView_replayHalted, State.keeps_next, State.mapView_mk, State.mapView_eta, State.mapView_foldl, implies_true]

theorem State.keeps_execSpineFailure (s : State) : s.Keeps (execSpineFailure s) := by
  simp only [execSpineFailure, State.mapView_offer, State.mapView_stopPart, State.mapView_forward, State.keeps_ite, State.keeps_next,
      State.mapView_mk, State.mapView_eta, State.mapView_foldl, ite_self, implies_true]

theorem State.keeps_execFrameReceive (l : LinkNo) (bytes : List Byte) (bad : Bool) (s : State) : s.Keeps (execFrameReceive l bytes bad s) := by
  simp only [execFrameReceive, State.mapView_frameIn, State.keeps_ite, State.keeps_next, State.mapView_mk, State.mapView_eta, ite_self]

theorem State.keeps_execLinkUp (l : LinkNo) (up : Bool) (s : State) : s.Keeps (execLinkUp l up s) := by
  simp only [execLinkUp, State.keeps_next, State.mapView_mk, State.mapView_eta]

theorem State.keeps_execAckDelayExpiry (peer : BitVec 14) (s : State) : s.Keeps (execAckDelayExpiry peer s) := by
  unfold execAckDelayExpiry
  repeat' split
  all_goals simp only [State.mapView_sendAck, State.keeps_next]

/-- A packet that is not opened is parked, counted or dropped. -/
theorem State.mapView_openPkt_error (s : State) (k : Pkt) (u : State) (h : s.openPkt k = .error u) : u.mapView = s.mapView := by
  unfold State.openPkt at h
  dsimp only at h
  repeat' split at h
  all_goals cases h
  all_goals simp only [State.mapView_park, State.mapView_count, State.mapView_authFail]

theorem State.mapView_takeRx (s : State) (k : Nat) (ack : Bool) (x : Pkt) (u : State) (h : s.takeRx k ack = some (x, u)) :
    u.mapView = s.mapView := by
  unfold State.takeRx at h
  repeat' split at h
  all_goals cases h
  rfl

theorem State.keeps_execAckReceive (k : Nat) (s : State) : s.Keeps (execAckReceive k s) := by
  unfold execAckReceive
  split
  · exact (s.keeps_next _).mpr rfl
  · next x t htake =>
    have ht := s.mapView_takeRx _ _ _ _ htake
    split
    · next u hopen => exact (s.keeps_next _).mpr ((t.mapView_openPkt_error _ _ hopen).trans ht)
    · simp only [State.keeps_next, State.mapView_foldl, State.mapView_completeSend, implies_true, State.mapView_setPeer, ht]

theorem State.keeps_execPacketTransmit (peer : BitVec 14) (s : State) : s.Keeps (execPacketTransmit peer s) := by
  unfold execPacketTransmit
  dsimp only
  repeat' split
  all_goals simp only [State.mapView_sendAck, State.mapView_sendData, State.mapView_failSends, State.mapView_turnPast, State.keeps_next,
      State.mapView_mk, State.mapView_eta]

theorem State.keeps_execRetransmitExpiry (peer : BitVec 14) (s : State) : s.Keeps (execRetransmitExpiry peer s) := by
  unfold execRetransmitExpiry
  dsimp only
  repeat' split
  all_goals simp only [State.mapView_count, State.mapView_offer, State.mapView_setPeer, State.mapView_failSends, State.keeps_next]

theorem State.keeps_execPeerFetchComplete (peer : BitVec 14) (err : Bool) (data : List Byte) (s : State) : s.Keeps
    (execPeerFetchComplete peer err data s) := by
  unfold execPeerFetchComplete
  dsimp only
  repeat' split
  all_goals simp only [State.mapView_count, State.mapView_failSends, State.mapView_unpark, State.keeps_next, State.mapView_mk, State.mapView_eta,
      State.mapView_foldl, implies_true]

theorem State.keeps_execPeercmdEvict (_req : Requester) (peer : BitVec 14) (s : State) : s.Keeps (execPeercmdEvict _req peer s) := by
  unfold execPeercmdEvict
  dsimp only
  repeat' split
  all_goals simp only [State.mapView_peerEnd, State.mapView_peerAccept, State.mapView_evictOut, State.keeps_next, State.mapView_mk, State.mapView_eta]

theorem State.keeps_execPeercmdFetch (_req : Requester) (peer : BitVec 14) (s : State) : s.Keeps (execPeercmdFetch _req peer s) := by
  simp only [execPeercmdFetch, State.mapView_wantPeer, State.mapView_peerEnd, State.mapView_peerAccept, State.keeps_ite, State.keeps_next, ite_self]

theorem State.keeps_execPeercmdReset (_req : Requester) (peer : BitVec 14) (s : State) : s.Keeps (execPeercmdReset _req peer s) := by
  unfold execPeercmdReset
  dsimp only
  repeat' split
  all_goals simp only [State.mapView_setPeer, State.mapView_peerEnd, State.mapView_peerAccept, State.keeps_next, State.mapView_mk, State.mapView_eta]

theorem State.keeps_execKeycmdLoad (req : Requester) (slot : BitVec 8) (s : State) : s.Keeps (execKeycmdLoad req slot s) := by
  simp only [execKeycmdLoad, State.mapView_setKey, State.keeps_ite, State.keeps_next, State.mapView_mk, State.mapView_eta, ite_self]

theorem State.keeps_execKeycmdErase (req : Requester) (slot : BitVec 8) (s : State) : s.Keeps (execKeycmdErase req slot s) := by
  simp only [execKeycmdErase, State.mapView_setKey, State.keeps_ite, State.keeps_next, ite_self]

theorem State.keeps_execDataPacketReceive (k : Nat) (s : State) : s.Keeps (execDataPacketReceive k s) := by
  unfold execDataPacketReceive
  split
  · exact (s.keeps_next _).mpr rfl
  · next x t htake =>
    have ht := s.mapView_takeRx _ _ _ _ htake
    split
    · next u hopen => exact (s.keeps_next _).mpr ((t.mapView_openPkt_error _ _ hopen).trans ht)
    · split
      · split
        · exact (s.keeps_next _).mpr ht
        · exact (s.keeps_next _).mpr ht
      · simp only [State.keeps_ite, State.keeps_next, State.mapView_ite, State.mapView_sendAck, State.mapView_passPkt, State.mapView_mk,
          State.mapView_eta, ht, ite_self]

theorem State.keeps_execPacketVisible (k : Nat) (s : State) : s.Keeps (execPacketVisible k s) := by
  unfold execPacketVisible
  split
  all_goals simp only [State.mapView_applyPkt, State.mapView_showPsn, State.mapView_sealRound, State.keeps_ite, State.keeps_next, State.mapView_mk,
      State.mapView_eta, ite_self]

theorem State.keeps_execRemoteReadTimeout (k : Nat) (s : State) : s.Keeps (execRemoteReadTimeout k s) := by
  unfold execRemoteReadTimeout
  dsimp only
  repeat' split
  all_goals simp only [State.mapView_haltCore, State.mapView_dropLog, State.mapView_stopXfer, State.keeps_next, State.mapView_mk, State.mapView_eta]

theorem State.keeps_execAwaitTimeout (c : CoreNo) (s : State) : s.Keeps (execAwaitTimeout c s) := by
  have hfree := s.keeps_onCoreFree c.val awaitTimeout
  unfold execAwaitTimeout
  split
  · exact (s.keeps_next _).mpr rfl
  · split
    · next t hrun =>
      have ht := hfree t hrun
      split
      · simp only [State.keeps_next, State.mapView_ite, State.mapView_haltCore, ht, ite_self]
      · exact (s.keeps_next _).mpr ht
    · exact hfree

theorem State.keeps_execRegcmdInval (req : Requester) (region : W16) (all : Bool) (s : State) : s.Keeps (execRegcmdInval req region all s) := by
  simp only [execRegcmdInval, State.keeps_ite, State.keeps_next, State.mapView_mk, State.mapView_eta, ite_self]

theorem State.keeps_execRegcmdDone (s : State) : s.Keeps (execRegcmdDone s) := by
  simp only [execRegcmdDone, State.keeps_ite, State.keeps_next, State.mapView_mk, State.mapView_eta, ite_self]

theorem State.keeps_execSeedcmdLoad (req : Requester) (slot : BitVec 7) (s : State) : s.Keeps (execSeedcmdLoad req slot s) := by
  simp only [execSeedcmdLoad, State.mapView_takeData, State.mapView_setSeed, State.keeps_ite, State.keeps_next, ite_self]

theorem State.keeps_execSeedcmdErase (req : Requester) (slot : BitVec 7) (s : State) : s.Keeps (execSeedcmdErase req slot s) := by
  simp only [execSeedcmdErase, State.mapView_setSeed, State.keeps_ite, State.keeps_next, ite_self]

theorem State.keeps_execSealcmdLoad (req : Requester) (slot : BitVec 3) (data : List Byte) (s : State) : s.Keeps
    (execSealcmdLoad req slot data s) := by
  simp only [execSealcmdLoad, State.mapView_setRound, State.keeps_ite, State.keeps_next, State.mapView_mk, State.mapView_eta, ite_self]

theorem State.keeps_execSealcmdClear (req : Requester) (slot : BitVec 3) (s : State) : s.Keeps (execSealcmdClear req slot s) := by
  simp only [execSealcmdClear, State.mapView_setRound, State.keeps_ite, State.keeps_next, State.mapView_mk, State.mapView_eta, ite_self]

theorem State.keeps_execSealDeadline (slot : BitVec 3) (s : State) : s.Keeps (execSealDeadline slot s) := by
  unfold execSealDeadline
  dsimp only
  repeat' split
  all_goals simp only [State.mapView_endRound, State.keeps_next]

theorem State.keeps_execUpdcmdStart (req : Requester) (apply : Bool) (s : State) : s.Keeps (execUpdcmdStart req apply s) := by
  simp only [execUpdcmdStart, State.mapView_readWhenUp, State.keeps_ite, State.keeps_next, State.mapView_mk, State.mapView_eta, ite_self]

theorem State.keeps_execUpdateLayerStart (s : State) : s.Keeps (execUpdateLayerStart s) := by
  unfold execUpdateLayerStart
  dsimp only
  repeat' split
  all_goals simp only [State.mapView_updPage, State.mapView_skipLayer, State.keeps_next, State.mapView_mk, State.mapView_eta, State.mapView_foldl,
      implies_true]

theorem State.keeps_execLayerUpdateComplete (layer : W16) (s : State) : s.Keeps (execLayerUpdateComplete layer s) := by
  unfold execLayerUpdateComplete
  dsimp only
  repeat' split
  all_goals simp only [State.mapView_postLayer, State.keeps_next, State.mapView_mk, State.mapView_eta]

theorem State.keeps_execUpdateStepEnd (s : State) : s.Keeps (execUpdateStepEnd s) := by
  simp only [execUpdateStepEnd, State.mapView_lossEnd, State.mapView_clearSkip, State.keeps_ite, State.keeps_next, State.mapView_mk,
      State.mapView_eta, State.mapView_ite, ite_self]

theorem State.keeps_writeCastcmd (req : Requester) (v : W32) (s : State) : s.Keeps (writeCastcmd req v s) := by
  unfold writeCastcmd
  split
  all_goals simp only [State.keeps_execCastcmdLoadCasting, State.keeps_execCastcmdLoadPlating, State.keeps_execCastcmdEvict, State.keeps_next]

theorem State.keeps_writeAon (req : Requester) (o : Nat) (v : W32) (s : State) : s.Keeps (writeAon req o v s) := by
  unfold writeAon
  repeat' split
  all_goals simp only [State.keeps_execDeadlineWrite, State.mapView_writeSc, State.mapView_writePlain, State.mapView_writeWake, State.keeps_next]

theorem State.keeps_writeOtp (req : Requester) (o : Nat) (v : W32) (s : State) : s.Keeps (writeOtp req o v s) := by
  unfold writeOtp
  split
  all_goals simp only [State.keeps_execOtpPgmcmdGo, State.keeps_ite, State.keeps_next, State.mapView_mk, State.mapView_eta, State.mapView_ite,
      ite_self]

theorem State.keeps_writePwr (req : Requester) (o : Nat) (v : W32) (s : State) : s.Keeps (writePwr req o v s) := by
  unfold writePwr
  dsimp only
  repeat' split
  all_goals simp only [State.keeps_execVreqWrite, State.keeps_execCeilreqWrite, State.keeps_execQcmdResume, State.keeps_execTmpcmdMeasure,
      State.keeps_execTmpcmdCommit, State.keeps_execTmpcmdAbort, State.keeps_execPscmdActive, State.keeps_execPscmdIdle,
      State.keeps_execPscmdRetention, State.keeps_execPscmdDeepSleep, State.mapView_writePlain, State.keeps_next]

theorem State.keeps_writeCmd (req : Requester) (v : W32) (s : State) : s.Keeps (writeCmd req v s) := by
  unfold writeCmd
  split
  all_goals simp only [State.mapView_free, State.mapView_command, State.keeps_execCmdAck, State.keeps_execCmdUpdate, State.keeps_execCmdPolicy,
      State.keeps_execCmdSave, State.keeps_execCmdEnd, State.keeps_next, implies_true]

theorem State.keeps_writeMgt (req : Requester) (o : Nat) (v : W32) (s : State) : s.Keeps (writeMgt req o v s) := by
  unfold writeMgt
  dsimp only
  repeat' split
  all_goals simp only [State.mapView_logFlush, State.keeps_execLdcmdColdLoad, State.keeps_execLdcmdHandoffLoad, State.keeps_execIfverWrite,
      State.keeps_execWdkick, State.keeps_execFqheadWrite, State.keeps_execEndcmd, State.mapView_writePlain, State.keeps_writeCmd,
      State.keeps_next, State.mapView_mk, State.mapView_eta]

theorem State.keeps_writeLink (req : Requester) (n x : Nat) (v : W32) (s : State) : s.Keeps (writeLink req n x v s) := by
  unfold writeLink
  split
  all_goals simp only [State.mapView_writePlain, State.keeps_next, State.mapView_mk, State.mapView_eta]

theorem State.keeps_writeStrcmd (req : Requester) (v : W32) (s : State) : s.Keeps (writeStrcmd req v s) := by
  unfold writeStrcmd
  split
  all_goals simp only [State.keeps_execStrcmdSwapOut, State.keeps_execStrcmdSwapIn, State.keeps_next]

theorem State.keeps_writePeercmd (req : Requester) (v : W32) (s : State) : s.Keeps (writePeercmd req v s) := by
  unfold writePeercmd
  split
  all_goals simp only [State.keeps_execPeercmdEvict, State.keeps_execPeercmdFetch, State.keeps_execPeercmdReset, State.keeps_next]

theorem State.keeps_writeSealcmd (req : Requester) (v : W32) (s : State) : s.Keeps (writeSealcmd req v s) := by
  unfold writeSealcmd
  split
  · exact fun t ht => (State.keeps_execSealcmdLoad _ _ _ _ t ht).trans (s.mapView_free 1024)
  · exact s.keeps_execSealcmdClear _ _
  · exact (s.keeps_next _).mpr rfl

theorem State.keeps_writeHub1 (req : Requester) (x : Nat) (v : W32) (s : State) : s.Keeps (writeHub1 req x v s) := by
  unfold writeHub1
  dsimp only
  repeat' split
  all_goals simp only [State.keeps_execKeycmdLoad, State.keeps_execKeycmdErase, State.keeps_execRegcmdInval, State.keeps_execSeedcmdLoad,
      State.keeps_execSeedcmdErase, State.mapView_writePlain, State.keeps_writePeercmd, State.keeps_writeSealcmd, State.keeps_next,
      State.mapView_mk, State.mapView_eta]

theorem State.keeps_writeHub (req : Requester) (h x : Nat) (v : W32) (s : State) : s.Keeps (writeHub req h x v s) := by
  unfold writeHub
  repeat' split
  all_goals simp only [State.keeps_execTemperWrite, State.keeps_execUpdcmdStart, State.mapView_writePlain, State.keeps_writeStrcmd,
      State.keeps_writeHub1, State.keeps_next]

theorem State.keeps_execPortClockLost (p : PortId) (s : State) : s.Keeps (execPortClockLost p s) := by
  simp only [execPortClockLost, State.mapView_offer, State.keeps_ite, State.keeps_next, State.mapView_mk, State.mapView_eta, ite_self]

theorem State.keeps_andThen (s : State) (o : Host.Outcome State Fault Refusal) (f : State → Host.Outcome State Fault Refusal) (ho : s.Keeps o)
    (hf : ∀ t : State, t.Keeps (f t)) : s.Keeps (andThen o f) := by
  intro u hu
  unfold andThen at hu
  split at hu
  · next t => exact (hf t u hu).trans (ho t rfl)
  · cases hu
  · cases hu

theorem State.keeps_writeCore (req : Requester) (c : CoreNo) (x : Nat) (v : W32) (s : State) : s.Keeps (writeCore req c x v s) := by
  unfold writeCore
  split
  · exact (s.keeps_next _).mpr (s.mapView_updSt _ _)
  · exact (s.keeps_next _).mpr (s.mapView_updSt _ _)
  · exact State.keeps_execMatBypassWrite _ _ _ _ _ _
  · exact State.keeps_execMatBypassWrite _ _ _ _ _ _
  · refine s.keeps_andThen _ _ ?_ (fun t => ?_)
    · split
      · exact State.keeps_execDmresumeFetch _ _ _
      · exact (s.keeps_next _).mpr rfl
    · split
      · exact State.keeps_execDmresumeExec _ _ _
      · exact (t.keeps_next _).mpr rfl
  · exact (s.keeps_next _).mpr rfl

theorem State.keeps_writeSlab (req : Requester) (l x : Nat) (v : W32) (s : State) : s.Keeps (writeSlab req l x v s) := by
  unfold writeSlab
  repeat' split
  all_goals simp only [State.keeps_next, State.keeps_writeCore, State.keeps_execTemperWrite]

end Sys2Proof.Machine
end

section
/-! GEN of the map is odd exactly while a map change is in progress (R30): the operations of a map change, and the resets. -/

namespace Sys2Proof.Machine

/-! ### Soundness of the map through its view -/

/-- The view of a sound map. -/
def MapView.Sound (p : Nat × Option SubstOp) : Prop := p.1 = (match p.2 with | some o => if o.moved then 1 else 0 | none => 0)

theorem State.mapSound_iff (s : State) : s.mapSound ↔ MapView.Sound s.mapView := Iff.rfl

theorem MapView.sound_none (n : Nat) : MapView.Sound (n, none) ↔ n = 0 := Iff.rfl

theorem MapView.sound_moved (n : Nat) {o : SubstOp} (h : o.moved = true) : MapView.Sound (n, some o) ↔ n = 1 := by
  simp only [MapView.Sound, h, if_true]

theorem MapView.sound_notMoved (n : Nat) {o : SubstOp} (h : o.moved = false) : MapView.Sound (n, some o) ↔ n = 0 := by
  simp only [MapView.Sound, h, Bool.false_eq_true, if_false]

/-- Where the map of `s` is sound, so is that of `t`. -/
def State.SoundTo (s t : State) : Prop := s.mapSound → t.mapSound

theorem State.soundTo_of_mapView {s t : State} (h : t.mapView = s.mapView) : s.SoundTo t :=
  fun hs => (t.mapSound_iff).mpr (h ▸ hs)

theorem State.SoundTo.refl (s : State) : s.SoundTo s := id

/-- Going on with an operation that leaves the map as it is. -/
theorem State.SoundTo.keep {s t u : State} (h : s.SoundTo t) (hu : u.mapView = t.mapView) : s.SoundTo u :=
  fun hs => State.soundTo_of_mapView hu (h hs)

/-- Before an operation, one that leaves the map as it is. -/
theorem State.SoundTo.after {s t u : State} (h : t.SoundTo u) (ht : t.mapView = s.mapView) : s.SoundTo u :=
  fun hs => h (State.soundTo_of_mapView ht hs)

/-- A state with GEN even and no map change in progress. -/
theorem State.soundTo_reset {s t : State} (h : t.mapView = (0, none)) : s.SoundTo t :=
  fun _ => (t.mapSound_iff).mpr (h ▸ rfl)

/-- The outcome, where it is a next state, has a sound map if the state before had one. -/
def State.KeepsSound (s : State) (o : Host.Outcome State Fault Refusal) : Prop := ∀ t, o = .next t → s.SoundTo t

theorem State.Keeps.sound {s : State} {o : Host.Outcome State Fault Refusal} (h : s.Keeps o) : s.KeepsSound o :=
  fun t ht => State.soundTo_of_mapView (h t ht)

theorem State.keepsSound_next {s t : State} (h : s.SoundTo t) : s.KeepsSound (.next t) := fun _ hu => (Host.Outcome.next.inj hu) ▸ h

theorem State.keepsSound_same (s : State) : s.KeepsSound (.next s) := State.keepsSound_next (State.SoundTo.refl s)

theorem State.KeepsSound.after {s t : State} {o : Host.Outcome State Fault Refusal} (h : t.KeepsSound o) (ht : t.mapView = s.mapView) :
    s.KeepsSound o := fun u hu => (h u hu).after ht

theorem State.keepsSound_andThen {s : State} {o : Host.Outcome State Fault Refusal} {f : State → Host.Outcome State Fault Refusal}
    (ho : s.KeepsSound o) (hf : ∀ t : State, t.KeepsSound (f t)) : s.KeepsSound (andThen o f) := by
  intro u hu hs
  unfold andThen at hu
  split at hu
  · next t => exact hf t u hu (ho t rfl hs)
  · cases hu
  · cases hu

/-! ### Resets -/

theorem State.mapView_bare (s : State) : s.bare.mapView = (0, none) := (rfl)

theorem State.mapView_coldReset (s : State) (cause : Nat) (vaon testmode : Bool) : (s.coldReset cause vaon testmode).mapView = (0, none) := (rfl)

theorem State.mapView_blockReset (s : State) (cause : Nat) : (s.blockReset cause).mapView = (0, none) := (rfl)

/-- A wake from deep sleep acts as a block reset; another leaves the map (R453, R454). -/
theorem State.soundTo_wakeOn (s : State) : s.SoundTo s.wakeOn := by
  unfold State.wakeOn
  split
  · refine State.soundTo_reset ?_
    simp only [State.mapView_vcoreOn, State.mapView_mk, State.mapView_eta, State.mapView_loadTaps, State.mapView_blockReset]
  · exact State.soundTo_of_mapView (State.mapView_vcoreOn _)

theorem State.keepsSound_coldResetAssert (testmode : Bool) (s : State) : s.KeepsSound (execColdResetAssert testmode s) := by
  unfold execColdResetAssert
  split
  · exact State.keepsSound_next (State.soundTo_of_mapView rfl)
  · exact State.keepsSound_next (State.soundTo_reset (s.mapView_coldReset _ _ _))

theorem State.keepsSound_blockResetAssert (s : State) : s.KeepsSound (execBlockResetAssert s) := by
  unfold execBlockResetAssert
  split
  · exact State.keepsSound_next (State.soundTo_of_mapView rfl)
  · exact State.keepsSound_next (State.soundTo_reset (s.mapView_blockReset 2))

theorem State.keepsSound_vaonLoss (s : State) : s.KeepsSound (execVaonLoss s) :=
  State.keepsSound_next (State.soundTo_reset (s.mapView_coldReset _ _ _))

theorem State.keepsSound_wake (s : State) : s.KeepsSound (execWake s) := by
  unfold execWake
  split
  · exact s.keepsSound_same
  · split
    · exact State.keepsSound_next (State.soundTo_of_mapView (State.mapView_forward _))
    · exact State.keepsSound_next (State.soundTo_of_mapView rfl)
    · exact State.keepsSound_next ((State.soundTo_wakeOn _).after rfl)
    · exact State.keepsSound_next (State.soundTo_of_mapView rfl)
    · split
      · exact State.keepsSound_next (State.soundTo_of_mapView (State.mapView_forward _))
      · exact State.keepsSound_next (State.soundTo_of_mapView rfl)

theorem State.keepsSound_powerGoodDeassert (s : State) : s.KeepsSound (execPowerGoodDeassert s) := by
  unfold execPowerGoodDeassert
  split
  · exact State.keepsSound_next ((State.soundTo_wakeOn _).after rfl)
  · exact State.keepsSound_next (State.soundTo_of_mapView rfl)
  · exact State.keepsSound_next (State.soundTo_of_mapView rfl)

/-- A restart of the spine is a block reset of slabs and hubs (R414). -/
theorem State.keepsSound_spineRestart (req : Requester) (s : State) : s.KeepsSound (execSubcmdSpineRestart req s) := by
  unfold execSubcmdSpineRestart
  split
  · exact s.keepsSound_same
  · split
    · exact State.keepsSound_next (State.soundTo_of_mapView rfl)
    · refine State.keepsSound_next (State.soundTo_reset ?_)
      simp only [State.mapView_forward, State.mapView_loadBypass, State.mapView_loadTaps, State.mapView_mapSlabs, State.mapView_mk,
        State.mapView_eta, State.mapView_blockReset]

/-! ### The increments of GEN -/

/-- GEN wraps at 2^32 to an even number. -/
theorem succ_mod_parity (n : Nat) : (n + 1) % 2 ^ 32 % 2 = (n % 2 + 1) % 2 := by omega

/-- The map change begins: GEN has the other parity, and the substitution reads moved. -/
theorem State.mapView_moveMap (s : State) (o : SubstOp) : (s.moveMap o).mapView = ((s.mapgen % 2 + 1) % 2, some { o with moved := true }) := by
  have hheld : ∀ t : State, ((List.range 32).foldl (fun t i => t.updRun (32 * o.old + i) (fun r => { r with held := true })) t).mapView
      = t.mapView := fun t => t.mapView_foldl _ _ (fun u i => u.mapView_updRun _ _)
  have hgen := congrArg Prod.fst (hheld s)
  simp only [State.mapView] at hgen
  simp only [State.moveMap, State.mapBegin, State.mapView_mk, State.setRole, succ_mod_parity, hgen]

/-- A map change that begins while none is in progress. -/
theorem State.mapSound_moveMap (s : State) (o : SubstOp) (h : s.mapgen % 2 = 0) : (s.moveMap o).mapSound := by
  rw [State.mapSound_iff, s.mapView_moveMap, h]
  rfl

theorem State.soundTo_migrateReady (s : State) : s.SoundTo s.migrateReady := by
  unfold State.migrateReady
  split
  · next o ho =>
    split
    · next hready =>
      simp only [Bool.and_eq_true, Bool.not_eq_true'] at hready
      obtain ⟨⟨-, hmoved⟩, -⟩ := hready
      intro hs
      rw [State.mapSound_iff, State.mapView, ho, MapView.sound_notMoved _ hmoved] at hs
      exact s.mapSound_moveMap o hs
    · exact State.SoundTo.refl s
  · exact State.SoundTo.refl s

/-- Behind a commit point, a migration waiting for it may move the map (R416). -/
theorem State.soundTo_afterCommit (s : State) (c : Nat) (old : Core) (m : Mark) : s.SoundTo (s.afterCommit c old m) := by
  unfold State.afterCommit
  refine State.SoundTo.keep (State.SoundTo.after (State.soundTo_migrateReady _) ?_) (State.mapView_fetchNext _ _)
  dsimp only
  repeat' split
  all_goals simp only [State.mapView_updRun, State.mapView_mk, State.mapView_eta, State.mapView_foldl, State.mapView_updSt, State.mapView_bumpGen,
    State.mapView_releaseLog, implies_true]

theorem State.keepsSound_commitPoint (c : CoreNo) (s : State) : s.KeepsSound (execCommitPoint c s) := by
  unfold execCommitPoint
  split
  · exact s.keepsSound_same
  · dsimp only
    split
    · exact s.keepsSound_same
    · have hrun := s.mapView_runCore c.val (fun e r => (commitPoint e r).1)
      refine State.keepsSound_next ?_
      split
      · exact State.soundTo_of_mapView hrun
      · exact (State.soundTo_afterCommit _ _ _ _).after hrun

/-! ### Guard failures: a substitution whose spare faults stays moved -/

theorem State.soundTo_guardAt (s : State) (c : Nat) (f : CFault) : s.SoundTo (s.guardAt c f) := by
  unfold State.guardAt
  split
  · next o ho =>
    obtain ⟨p, hsub, hp⟩ := Option.bind_eq_some_iff.mp ho
    split at hp
    · next hspare =>
      cases hp
      refine State.SoundTo.keep (t := { s with subst := some { o with failed := true } }) (fun hs => ?_) (State.mapView_offerCore _ _ _)
      rw [State.mapSound_iff, State.mapView, hsub, MapView.sound_moved _ hspare.2] at hs
      exact (MapView.sound_moved (o := { o with failed := true }) _ hspare.2).mpr hs
    · cases hp
  · exact State.soundTo_of_mapView (s.mapView_guardCore _ _)

theorem State.soundTo_transitFail (s : State) (w : InFlight) (mesh : Bool) : s.SoundTo (s.transitFail w mesh) := by
  unfold State.transitFail
  split
  · exact State.SoundTo.refl s
  · refine (State.soundTo_guardAt _ _ _).after ?_
    rw [State.mapView_noteFabric, State.mapView_dropFlight]

theorem State.soundTo_otherFail (s : State) (k : Nat) : s.SoundTo (s.otherFail k) := by
  unfold State.otherFail
  split
  · split
    · dsimp only
      split
      · refine (State.soundTo_guardAt _ _ _).after ?_
        rw [State.mapView_refillGran, State.mapView_setGerr, State.mapView_dropFlight]
      · refine State.soundTo_of_mapView ?_
        rw [State.mapView_haltCore, State.mapView_dropLog, State.mapView_setGerr, State.mapView_dropFlight]
    · exact State.SoundTo.refl s
  · exact State.SoundTo.refl s

theorem State.soundTo_meshHalfFail (s : State) (w : InFlight) (a : Pos) (d : RPort) (half : Bool) : s.SoundTo (s.meshHalfFail w a d half) := by
  unfold State.meshHalfFail
  split
  · exact State.SoundTo.refl s
  · split
    · refine (State.soundTo_transitFail _ _ _).after ?_
      rw [State.mapView_offer]
      rfl
    · exact State.SoundTo.refl s

theorem State.keepsSound_guardFailure (g : GuardSite) (s : State) : s.KeepsSound (execGuardFailure g s) := by
  unfold execGuardFailure
  split
  · exact s.keepsSound_same
  · cases g
    case store c g port => exact State.keepsSound_next ((State.soundTo_guardAt _ _ _).after rfl)
    case engine c unit => exact State.keepsSound_next (s.soundTo_guardAt _ _)
    case transit w mesh => exact State.keepsSound_next (s.soundTo_transitFail _ _)
    case other k => exact State.keepsSound_next (s.soundTo_otherFail _)
    case meshHalf w col row d half => exact State.keepsSound_next (s.soundTo_meshHalfFail _ _ _ _)
    all_goals
      refine State.Keeps.sound ?_
      dsimp only
      repeat' split
      all_goals simp only [State.keeps_next, State.mapView_pumpMem, State.mapView_memFail, State.mapView_dropReq, State.mapView_failSwapIn,
        State.mapView_offer, State.mapView_refetch, State.mapView_hubStop, State.mapView_logFail, State.mapView_mgmtRestart,
        State.mapView_unloadCasting, State.mapView_searchFail, State.mapView_forward, State.mapView_foldl, State.mapView_ite, State.mapView_stopPart, ite_self,
        State.mapView_mk, State.mapView_eta, implies_true]

end Sys2Proof.Machine
end

section
/-! The substitution commands keep GEN odd exactly while a map change is in progress (R30, R416, R417). -/

namespace Sys2Proof.Machine

/-- A map change done at once, with no spare left (R32). -/
theorem State.mapView_noSpare (s : State) (l old : Nat) : (s.noSpare l old).mapView = s.mapView := by
  unfold State.noSpare
  dsimp only
  rw [State.mapView_offer]
  refine (State.mapView_mapChange _ _ (fun t => rfl)).trans ?_
  split
  · exact s.mapView_stopPart _
  · rfl

/-- What `retryOf` finds is the substitution in progress, which has failed after its map change began. -/
theorem State.retryOf_some {s : State} {l : Nat} {o : SubstOp} (h : s.retryOf l = some o) : s.subst = some o ∧ o.moved = true := by
  obtain ⟨p, hsub, hp⟩ := Option.bind_eq_some_iff.mp h
  split at hp
  · next hfail =>
    cases hp
    exact ⟨hsub, hfail.2.1⟩
  · cases hp

/-- GEN is odd while a substitution waits for another spare. -/
theorem State.mapgen_of_retryOf (s : State) (hs : s.mapSound) {l : Nat} {o : SubstOp} (h : s.retryOf l = some o) : s.mapgen % 2 = 1 := by
  obtain ⟨hsub, hmoved⟩ := State.retryOf_some h
  rwa [State.mapSound_iff, State.mapView, hsub, MapView.sound_moved _ hmoved] at hs

theorem State.mapgen_of_subst_none (s : State) (hs : s.mapSound) (h : s.subst = none) : s.mapgen % 2 = 0 := by
  rwa [State.mapSound_iff, State.mapView, h, MapView.sound_none] at hs

/-- The map change in progress ends: GEN has the other parity, and no substitution is in progress. -/
theorem State.mapView_noSpareEnd (s : State) (o : SubstOp) : (s.noSpareEnd o).mapView = ((s.mapgen % 2 + 1) % 2, none) := by
  have hstop : ∀ p, (s.stopPart p).mapgen % 2 = s.mapgen % 2 := fun p => congrArg Prod.fst (s.mapView_stopPart p)
  unfold State.noSpareEnd
  dsimp only
  rw [State.mapView_offer]
  split
  · simp only [State.mapEnd, State.mapView_mk, State.setRole, succ_mod_parity, hstop]
  · simp only [State.mapEnd, State.mapView_mk, State.setRole, succ_mod_parity]

theorem State.mapSound_noSpareEnd {s : State} (hs : s.mapSound) {l : Nat} {o : SubstOp} (h : s.retryOf l = some o) (t : State)
    (ht : t.mapView = s.mapView) : (t.noSpareEnd o).mapSound := by
  have hgen : t.mapgen % 2 = 1 := (congrArg Prod.fst ht).trans (s.mapgen_of_retryOf hs h)
  rw [State.mapSound_iff, State.mapView_noSpareEnd, hgen]
  rfl

/-- A command of GLB_SUBCMD keeps the map sound where the operation it begins does: one begins with no substitution in progress, or, of OP 1,
goes on with one that waits for another spare (R416, R417). -/
theorem State.soundTo_subcmd (s : State) (req : Requester) (path : Bool) (l spare : Nat) (migrate : Bool) (f : State → Nat → State)
    (hf : ∀ old, (s.subst = none ∨ (migrate = false ∧ (s.retryOf l).isSome)) → s.SoundTo (f { s with substResult := 0 } old)) :
    s.SoundTo (s.subcmd req path l spare migrate f) := by
  have hres : ∀ r, s.SoundTo { s with substResult := r } := fun r => State.soundTo_of_mapView rfl
  unfold State.subcmd
  split
  · exact State.SoundTo.refl s
  · split
    · exact hres 1
    · next hfree =>
      have hbegin : s.subst = none ∨ (migrate = false ∧ (s.retryOf l).isSome) := by
        by_cases hsub : s.subst = none
        · exact .inl hsub
        · refine .inr ?_
          have hno := fun h => hfree ⟨Option.isSome_iff_ne_none.mpr hsub, h⟩
          exact ⟨Bool.eq_false_iff.mpr fun h => hno (.inl h), Option.isSome_iff_ne_none.mpr fun h => hno (.inr (by rw [h]; rfl))⟩
      split
      · exact hres _
      · next p hp =>
        dsimp only
        split
        · split
          · exact hres 2
          · split
            · next o ho => exact fun hs => State.mapSound_noSpareEnd hs ho _ rfl
            · exact State.soundTo_of_mapView (State.mapView_noSpare _ _ _)
        · split
          all_goals
            split
            · exact hres 4
            · exact hf _ hbegin

theorem State.keepsSound_migrate (req : Requester) (path : Bool) (logical : BitVec 6) (spare : BitVec 7) (s : State) :
    s.KeepsSound (execSubcmdMigrate req path logical spare s) := by
  refine State.keepsSound_next (s.soundTo_subcmd _ _ _ _ _ _ (fun old hbegin hs => ?_))
  have hnone : s.subst = none := hbegin.resolve_right (fun h => nomatch h.1)
  exact State.soundTo_migrateReady _ ((MapView.sound_notMoved _ rfl).mpr (s.mapgen_of_subst_none hs hnone))

theorem State.keepsSound_substitute (req : Requester) (path : Bool) (logical : BitVec 6) (spare : BitVec 7) (s : State) :
    s.KeepsSound (execSubcmdSubstitute req path logical spare s) := by
  refine State.keepsSound_next (s.soundTo_subcmd _ _ _ _ _ _ (fun old hbegin hs => ?_))
  dsimp only
  split
  · next o ho => exact (MapView.sound_moved _ (State.retryOf_some ho).2).mpr (s.mapgen_of_retryOf hs ho)
  · next hno =>
    have hnone : s.subst = none := hbegin.resolve_right (fun h => by rw [hno] at h; exact nomatch h.2)
    exact State.mapSound_moveMap _ _ (s.mapgen_of_subst_none hs hnone)

theorem State.mapView_mapEnd (s : State) (f : State → State) (h : ∀ t, (f t).mapView = t.mapView) :
    (s.mapEnd f).mapView = ((s.mapgen % 2 + 1) % 2, s.subst) := by
  obtain ⟨hgen, hsub⟩ := Prod.ext_iff.mp (h s)
  change (f s).mapgen % 2 = s.mapgen % 2 at hgen
  change (f s).subst = s.subst at hsub
  simp only [State.mapEnd, State.mapView_mk, succ_mod_parity, hgen, hsub]

/-- The spare reads active, and the map change ends (R416 step 4). -/
theorem State.keepsSound_resume (s : State) : s.KeepsSound (execSubstitutionResume s) := by
  unfold execSubstitutionResume
  split
  · exact s.keepsSound_same
  · next o ho =>
    split
    · exact s.keepsSound_same
    · next hgo =>
      refine State.keepsSound_next (fun hs => ?_)
      simp only [Bool.or_eq_true, Bool.not_eq_true', not_or, Bool.not_eq_false] at hgo
      obtain ⟨⟨hmoved, -⟩, -⟩ := hgo
      have hodd : s.mapgen % 2 = 1 := by rwa [State.mapSound_iff, State.mapView, ho, MapView.sound_moved _ hmoved] at hs
      have hcores : ∀ l : List Nat, (l.foldl (fun t i => t.moveCore (32 * o.old + i) (32 * o.spare + i)) s).mapgen % 2 = s.mapgen % 2 := fun l =>
        congrArg Prod.fst (s.mapView_foldl _ l (fun t i => t.mapView_moveCore _ _))
      rw [State.mapSound_iff, State.mapView_foldl _ _ _ (fun t i => t.mapView_fetchNext _)]
      simp only [State.mapView_pumpAnswers, State.mapView_pumpCredits, State.mapView_persistNow, State.mapView_log, State.mapView_offer,
        State.mapView_forward]
      rw [State.mapView_mapEnd _ _ (fun t => t.mapView_setRole _ _)]
      simp only [hcores, hodd]
      rfl

end Sys2Proof.Machine
end

section
/-! Control space, target requests and the ports keep the map sound. -/

namespace Sys2Proof.Machine

/-! ### Register writes -/

theorem State.keepsSound_writeSubcmd (req : Requester) (v : W32) (s : State) : s.KeepsSound (writeSubcmd req v s) := by
  unfold writeSubcmd
  dsimp only
  split
  · exact State.keepsSound_substitute _ _ _ _ _
  · exact State.keepsSound_migrate _ _ _ _ _
  · exact State.keepsSound_spineRestart _ _
  · split
    · exact State.Keeps.sound (State.keeps_execSubcmdReplay _ _ _)
    · exact s.keepsSound_same

/-- Of the global region, GLB_SUBCMD alone begins or ends a map change. -/
theorem State.keepsSound_writeGlobal (req : Requester) (o : Nat) (v : W32) (s : State) : s.KeepsSound (writeGlobal req o v s) := by
  unfold writeGlobal
  split
  · refine State.Keeps.sound ?_
    simp only [State.keeps_ite, State.keeps_execSqtailWrite, State.keeps_execCqheadWrite, State.keeps_next, State.mapView_ite,
      State.mapView_writeRing, ite_self]
  · split
    · exact State.Keeps.sound (State.keeps_execPtinvWrite _ _ _)
    · exact State.Keeps.sound (State.keeps_writeCastcmd _ _ _)
    · refine State.Keeps.sound ?_
      simp only [State.keeps_ite, State.keeps_execPlswOff, State.keeps_execPlswSwitch, ite_self]
    · exact State.keepsSound_writeSubcmd _ _ _
    · refine State.Keeps.sound ?_
      split
      · exact State.keeps_execStcmdStart _ _
      · exact State.keeps_execStcmdAbort _ _
      · exact (s.keeps_next _).mpr rfl
    · exact State.keepsSound_next (State.soundTo_of_mapView (State.mapView_writePlain _ _ _ _))

theorem State.keepsSound_ctrlWrite (req : Requester) (o : Nat) (v : W32) (s : State) : s.KeepsSound (s.ctrlWrite req o v) := by
  unfold State.ctrlWrite
  split
  · exact s.keepsSound_same
  · split
    · exact State.keepsSound_writeGlobal _ _ _ _
    · refine State.Keeps.sound ?_
      repeat' split
      · exact State.keeps_writeAon _ _ _ _
      · exact State.keeps_writeOtp _ _ _ _
      · exact State.keeps_writePwr _ _ _ _
      · exact State.keeps_writeMgt _ _ _ _
      · exact State.keeps_writeLink _ _ _ _ _
      · exact State.keeps_writeHub _ _ _ _ _
      · exact State.keeps_writeSlab _ _ _ _ _
      · exact (s.keeps_next _).mpr rfl

theorem State.keepsSound_registerWrite (req : Requester) (off : BitVec 28) (v : W32) (s : State) :
    s.KeepsSound (execRegisterWrite req off v s) := by
  unfold execRegisterWrite
  split
  · exact s.keepsSound_ctrlWrite _ _ _
  · exact s.keepsSound_same

/-! ### Target requests -/

theorem State.keepsSound_control (s : State) (r : TReq) (o : Nat) : s.KeepsSound (s.control r o) := by
  have hanswer : ∀ (t : State) (tag : BitVec 8) (e : Bool) (d : Nat), t.SoundTo (t.answer tag e d) := fun t tag e d =>
    State.soundTo_of_mapView (t.mapView_answer tag e d)
  unfold State.control
  dsimp only
  split
  · exact State.keepsSound_next (hanswer _ _ _ _)
  · split
    · refine State.keepsSound_andThen (s.keepsSound_ctrlWrite _ _ _) (fun t => ?_)
      refine State.keepsSound_andThen ?_ (fun u => State.keepsSound_next (hanswer _ _ _ _))
      split
      · exact t.keepsSound_ctrlWrite _ _ _
      · exact t.keepsSound_same
    · split
      · exact State.keepsSound_next (State.soundTo_of_mapView ((State.mapView_answer _ _ _ _).trans (s.mapView_ctrlRead _ _)))
      · exact State.keepsSound_next (State.soundTo_of_mapView
          ((State.mapView_answer _ _ _ _).trans ((State.mapView_ctrlRead _ _ _).trans (s.mapView_ctrlRead _ _))))

/-- By induction on the requests that may still be performed. -/
theorem State.keepsSound_pumpTarget (n : Nat) (s : State) : s.KeepsSound (State.pumpTarget n s) := by
  induction n generalizing s with
  | zero => exact s.keepsSound_same
  | succ n ih =>
    unfold State.pumpTarget
    split
    · split
      · split
        · exact State.keepsSound_andThen ((State.keepsSound_control _ _ _).after rfl) ih
        · exact s.keepsSound_same
      · exact (ih _).after (State.mapView_answer _ _ _ _)
      · split
        · exact (ih _).after (State.mapView_answer _ _ _ _)
        · split
          · exact (ih _).after (s.mapView_apStart _ _ _)
          · exact s.keepsSound_same
    · exact s.keepsSound_same

theorem State.keepsSound_targetRequest (f : TReq) (s : State) : s.KeepsSound (execTargetRequest f s) := by
  unfold execTargetRequest
  split
  · exact s.keepsSound_same
  · split
    · exact State.keepsSound_next (State.soundTo_of_mapView rfl)
    · exact (State.keepsSound_pumpTarget _ _).after rfl

theorem State.keepsSound_idleStep (s : State) : s.KeepsSound (idleStep s) := (State.keepsSound_pumpTarget _ _).after s.mapView_idle

/-! ### Beats that a port's lost clock has stranded -/

theorem State.keepsSound_deliverBeat (s : State) (b : Beat) : s.KeepsSound (s.deliverBeat b) := by
  cases b with
  | mem tb p i e => exact State.keepsSound_next (State.soundTo_of_mapView (s.mapView_memAnswer _ _ _ _))
  | host t e d => exact State.keepsSound_next (State.soundTo_of_mapView (s.mapView_hostAnswer _ _ _))
  | frame l bs bad => exact State.keepsSound_next (State.soundTo_of_mapView (s.mapView_frameIn _ _ _))
  | target f => exact s.keepsSound_targetRequest f

theorem State.keepsSound_deliverBeats (l : List Beat) (s : State) : s.KeepsSound (deliverBeats l s) := by
  induction l generalizing s with
  | nil => exact s.keepsSound_same
  | cons b l ih => exact State.keepsSound_andThen (s.keepsSound_deliverBeat b) ih

theorem State.keepsSound_portClockResumed (p : PortId) (s : State) : s.KeepsSound (execPortClockResumed p s) := by
  unfold execPortClockResumed
  split
  · exact State.keepsSound_andThen ((State.keepsSound_deliverBeats _ _).after rfl)
      (fun t => State.keepsSound_next (State.soundTo_of_mapView (t.mapView_portGo p)))
  · exact s.keepsSound_same

end Sys2Proof.Machine
end

section
/-! Every command, and with it every step, keeps GEN odd exactly while a map change is in progress (R30). -/

namespace Sys2Proof.Machine

/-- A map change begins and ends in the commands named first alone; every other leaves the map as it is. -/
theorem State.keepsSound_exec (i : Instr) (s : State) : s.KeepsSound (exec i s) := by
  cases i
  case commitPoint => exact State.keepsSound_commitPoint _ _
  case guardFailure => exact State.keepsSound_guardFailure _ _
  case portClockResumed => exact State.keepsSound_portClockResumed _ _
  case targetRequest => exact State.keepsSound_targetRequest _ _
  case registerWrite => exact State.keepsSound_registerWrite _ _ _ _
  case subcmdSubstitute => exact State.keepsSound_substitute _ _ _ _ _
  case subcmdMigrate => exact State.keepsSound_migrate _ _ _ _ _
  case subcmdSpineRestart => exact State.keepsSound_spineRestart _ _
  case substitutionResume => exact State.keepsSound_resume _
  case wake => exact State.keepsSound_wake _
  case coldResetAssert => exact State.keepsSound_coldResetAssert _ _
  case blockResetAssert => exact State.keepsSound_blockResetAssert _
  case powerGoodDeassert => exact State.keepsSound_powerGoodDeassert _
  case vaonLoss => exact State.keepsSound_vaonLoss _
  all_goals refine State.Keeps.sound ?_
  case add | sub | and | or | xor | shl | shr | sar | mul | slt | sltu | seq | addi | subi | andi | ori | xori | shli | shri | sari | muli | slti |
    sltui | seqi | movsm | tbr | dbase | dset | li | lih | br | fadd | fsub | fmul | ffma | fabs | fneg | fmin | fmax | fsel | fceq | fclt | fcle |
    fcne | iadd | isub | imul | imin | imax | iand | ior | ixor | ishl | ishr | isar | cvtfi | cvtif | bcsm | bcsr | lsh | lgath | vext | msum | wset
    | wstep | tpop | vld | vst | rinit | rfeed | rfeedm | rread | mac | sqd | abd | minp | maxp | wout | woutg | matrixExecute | tileEnqueue | sfev |
    gact | smaxi | smaxt | smaxr | rmsf | tload | tloadComplete | tswitch | cwait | xfer | gath | fence | await | arrset | arrsetSubtract | semwait |
    sempost | semset | semrd | keep | keepClear => exact State.keeps_onCore _ _ _
  case cstep | cadj | ckgen | cset | cget | ccmp | creset => exact State.keeps_onCarry _ _ _ _
  all_goals simp only [exec, State.keeps_execLongWordIssue, State.keeps_execDeferredEntryAck, State.keeps_execStreamStart,
    State.keeps_execStreamReadError, State.keeps_execFillDeadlineExpiry, State.keeps_execNantrapArm, State.keeps_execNantrapClearFired,
    State.keeps_execMatBypassWrite, State.keeps_execBypassHeldApply, State.keeps_execTransferStart, State.keeps_execTransferComplete,
    State.keeps_execPageWalkComplete, State.keeps_execAwaitTimeout, State.keeps_execSemwaitTimeout, State.keeps_execMeshGranuleArrival,
    State.keeps_execSemaphorePostArrival, State.keeps_execQueueItemArrive, State.keeps_execQueueWaitTimeout, State.keeps_execRecoveryDrainComplete,
    State.keeps_execFaultRecordPlace, State.keeps_execFqheadWrite, State.keeps_execQcountIncrement, State.keeps_execQcountDecrement,
    State.keeps_execStrcmdSwapOut, State.keeps_execStrcmdSwapIn, State.keeps_execSwapInStart, State.keeps_execSwapStateAcknowledged,
    State.keeps_execSwapMemoryDone, State.keeps_execReswaitExpiry, State.keeps_execSqtailWrite, State.keeps_execSubmissionEntryRead,
    State.keeps_execCqheadWrite, State.keeps_execStreamComplete, State.keeps_execCompletionEntryWrite, State.keeps_execPtinvWrite,
    State.keeps_execPtinvDone, State.keeps_execDmresumeFetch, State.keeps_execDmresumeExec, State.keeps_execMemResponse,
    State.keeps_execMemRequestExpiry, State.keeps_execPortClockLost, State.keeps_execHostMasterResponse, State.keeps_execCastcmdLoadCasting,
    State.keeps_execCastingLoadComplete, State.keeps_execCastcmdLoadPlating, State.keeps_execPlatingLoadComplete, State.keeps_execCastcmdEvict,
    State.keeps_execPlswSwitch, State.keeps_execPlswOff, State.keeps_execPlatingSwitchApply, State.keeps_execSubcmdReplay,
    State.keeps_execSpineFailure, State.keeps_execPaceWindowEnd, State.keeps_execPaceCheck, State.keeps_execVreqWrite, State.keeps_execCeilreqWrite,
    State.keeps_execTemperWrite, State.keeps_execHeldShorteningApply, State.keeps_execThermalTrip, State.keeps_execSensorReading,
    State.keeps_execSensorStale, State.keeps_execCoolCondition, State.keeps_execQcmdResume, State.keeps_execPatinaMeasurement,
    State.keeps_execTmpcmdMeasure, State.keeps_execMarginSearchComplete, State.keeps_execTmpcmdCommit, State.keeps_execTmpcmdAbort,
    State.keeps_execDeadlineWrite, State.keeps_execDeadlineFire, State.keeps_execSensorComparatorFire, State.keeps_execVcoreEnvelopeExcursion,
    State.keeps_execReferenceLost, State.keeps_execReferenceResumed, State.keeps_execTbloRead, State.keeps_execPscmdActive, State.keeps_execPscmdIdle,
    State.keeps_execPscmdRetention, State.keeps_execPscmdDeepSleep, State.keeps_execHostWake, State.keeps_execLinkActivity, State.keeps_execPowerGood,
    State.keeps_execColdResetRelease, State.keeps_execBlockResetRelease, State.keeps_execInitComplete, State.keeps_execOtpPgmcmdGo,
    State.keeps_execOtpTestProgram, State.keeps_execOtpProgramComplete, State.keeps_execLdcmdColdLoad, State.keeps_execLdcmdHandoffLoad,
    State.keeps_execFirmwareLoadComplete, State.keeps_execIfverWrite, State.keeps_execCmdAck, State.keeps_execCmdEnd, State.keeps_execCmdUpdate,
    State.keeps_execCmdPolicy, State.keeps_execCmdSave, State.keeps_execEndcmd, State.keeps_execWdkick, State.keeps_execWatchdogExpiry,
    State.keeps_execStcmdStart, State.keeps_execStcmdAbort, State.keeps_execSelfTestComplete, State.keeps_execUpdcmdStart,
    State.keeps_execUpdateLayerStart, State.keeps_execLayerUpdateComplete, State.keeps_execUpdateStepEnd, State.keeps_execFrameReceive,
    State.keeps_execDataPacketReceive, State.keeps_execAckReceive, State.keeps_execAckDelayExpiry, State.keeps_execPacketVisible,
    State.keeps_execPacketTransmit, State.keeps_execRetransmitExpiry, State.keeps_execRemoteReadTimeout, State.keeps_execLinkUp,
    State.keeps_execPeercmdEvict, State.keeps_execPeercmdFetch, State.keeps_execPeercmdReset, State.keeps_execPeerFetchComplete,
    State.keeps_execKeycmdLoad, State.keeps_execKeycmdErase, State.keeps_execSeedcmdLoad, State.keeps_execSeedcmdErase, State.keeps_execSealcmdLoad,
    State.keeps_execSealcmdClear, State.keeps_execSealDeadline, State.keeps_execRegcmdInval, State.keeps_execRegcmdDone]

theorem State.keepsSound_step (s : State) : s.KeepsSound (step s) := by
  unfold step
  split
  · exact s.keepsSound_idleStep
  · exact (State.keepsSound_exec _ _).after rfl

end Sys2Proof.Machine
end

section
open Sys2Proof Sys2Proof.Machine

/-- Settles O59: no step parts the parity of GEN from the map change in progress. -/
theorem mapGenerationStaysSound : Obligations.MapGenerationStaysSound := by
  unfold Obligations.MapGenerationStaysSound
  exact fun s t hs hstep => s.keepsSound_step t hstep hs

end
